-- ==== Sys2Proof/Word.lean ====
section
/-! DEFINITION. The words of the LYM-1680 model (00_scope R8: little-endian, bit 0 least significant). -/
namespace Sys2Proof

/-- One byte. -/
abbrev Byte := BitVec 8

/-- The 64-byte command descriptor, the 512-bit COMMAND register of a TRS page (03 Table 23); byte `i` is bits
`[8i+7:8i]` (00 R8). -/
abbrev Desc := BitVec 512

/-- A flash address (11 Table 92). -/
abbrev FlashAddr := BitVec 37

/-- The pattern slots of the NOR (14 R407). -/
inductive Slot where
  | cope
  | drag
  deriving DecidableEq, Repr

end Sys2Proof
end

