-- ==== Sys2Proof/Syntax.lean ====
section
/-! DEFINITION. The commands of the block: one constructor for each row of spec/opcode_table.json, in the table's order.
The rows give no operands; each constructor carries what the rule behind the row says arrives from outside the device or
from the unit of the device that the row names (log 6, log 12). -/
namespace Sys2Proof

/-- The link events of 02 R37. -/
inductive LinkEvent where
  | hotReset
  | linkDown
  | linkDisable
  deriving DecidableEq, Repr

/-- Link rates (02 Table 13). -/
inductive Rate where
  | gt2_5
  | gt5
  | gt8
  | gt16
  | gt32
  | gt64
  | er
  deriving DecidableEq, Repr

/-- What a training of the link reaches: its rate and its lanes (02 Table 13). The partner and the channel decide. -/
structure Training where
  rate : Rate
  lanes : Nat
  deriving DecidableEq, Repr

/-- The clock islands of 15 Table 138. -/
inductive Island where
  | alwaysOn
  | hub
  | link
  | flash (n : Nat)
  | core (n : Nat)
  | engine (c e : Nat)
  deriving DecidableEq, Repr

/-- What ends a DMA read of the device (02 R52). -/
inductive DmaOutcome where
  | data (bytes : List Byte)
  | poisoned
  | unsupported
  | aborted
  deriving DecidableEq, Repr

/-- The self-tests of an engine at start (07 R239, 13 R389). -/
inductive EngTest where
  | array
  | vector
  | scratchpad
  | clock
  deriving DecidableEq, Repr

/-- A unit that fails the memory fill (12 R367, 13 Table 160). -/
inductive FillFail where
  | core (n : Nat)
  | stack (n : Nat)
  deriving DecidableEq, Repr

/-- What the tests of stage S3 find: engines that fail a test (07 R239), memories that fail the fill (12 R367),
dies that fail their identity read (11 R355), failed data lanes as (link, direction, lane) (12 R371), hard DRAM lines
as (stack channel, row segment) and failing SRAM words as (CE region, block of cells, word) (12 Table 111). -/
structure S3Report where
  engines : List (Nat × Nat × EngTest)
  fill : List FillFail
  dies : List (Nat × Nat)
  lanes : List (Nat × Nat × Nat)
  dram : List (Nat × Nat)
  sram : List (Nat × Nat × Nat)
  deriving DecidableEq, Repr

/-! ### What a tile's instructions ask of its engine (07 R204 to R214, R224; log 10) -/

/-- The rounding-direction attributes of the vector units (08 R246). -/
inductive Rnd where
  | tiesToEven
  | towardPositive
  | towardNegative
  | towardZero
  deriving DecidableEq, Repr

/-- The floating operations of the vector units with two or three operands (08 R245). -/
inductive VecOp where
  | add
  | sub
  | mul
  | fma
  deriving DecidableEq, Repr

/-- The INT32 operations of the vector units (08 R261). -/
inductive IntOp where
  | add
  | sub
  | mul
  | shiftLeft
  | shiftRight
  | shiftRightSigned
  deriving DecidableEq, Repr

/-- The approximate functions of the vector units (07 R224). -/
inductive ApproxFn where
  | exp2
  | log2
  | recip
  | rsqrt
  deriving DecidableEq, Repr

/-- A place that an engine addresses (01 R19): its scratchpad, from the start of its tile's extent; its core's SRAM, from the start of its
job's; a function scratch page of its command in its own stack; and a tier page whose T1 home or frame lies in its own stack. -/
inductive Place where
  | scratchpad (a : Nat)
  | sram (a : Nat)
  | scratch (page off : Nat)
  | tier (slot off : Nat)
  deriving DecidableEq, Repr

/-- A watched output and whether it keeps a digest (16 R472). -/
structure WatchTag where
  output : Nat
  digest : Bool
  deriving DecidableEq, Repr

/-- One thing that a tile's instructions have its engine do. Vector registers have 128 lanes; a result of the array's row r stands in lane r. -/
inductive EngOp where
  /-- A transfer starts (07 R205). -/
  | move (src dst : Place) (n : Nat)
  /-- The tile waits for its transfers. -/
  | await
  /-- One more function scratch page for the command (01 R30). -/
  | claim
  /-- The reload port writes the next stationary set from packed elements in the scratchpad, with the MX scale codes of its rows (07 R210). -/
  | reload (a scales fmt : Nat)
  /-- One issue: an input vector with its scale codes into an accumulator entry of every row; `width` is the code width in B1 (07 R206, R217). -/
  | issue (a scales fmt entry width : Nat) (sat : Bool)
  /-- The pass has made its last issue (07 R211). -/
  | lastIssue
  /-- Accumulator entries take the preload terms of a weight's rows from `row` on for an activation, whole or of one group (09 R271, R275). -/
  | preload (entry weight act row : Nat) (group : Option Nat)
  /-- The vector unit reads, and writes, an accumulator entry of every row (07 R213). -/
  | readAcc (reg entry : Nat)
  | writeAcc (entry reg : Nat)
  /-- Late scaling of an entry, with the input sum in register `sum` (09 R272). -/
  | late (reg entry weight act row sum : Nat)
  /-- The scaling stage of the group path: an entry's partial sum into another entry (09 R275). -/
  | groupScale (acc entry weight act row sum : Nat)
  /-- The exact sum of an input vector (09 R271). -/
  | inputSum (reg a fmt n : Nat)
  | load (reg a bits n : Nat)
  | store (reg a bits n : Nat)
  | float (op : VecOp) (d : Rnd) (fmt dst a b c : Nat)
  /-- A quiet comparison of floating lanes, or one of INT32 lanes: 1 where the relation holds (none: unordered). -/
  | compare (fmt dst a b : Nat) (rel : Option Ordering)
  | int (op : IntOp) (sat : Bool) (dst a b : Nat)
  | approx (f : ApproxFn) (dst a : Nat)
  | convert (d : Rnd) (sat : Bool) (src dstFmt dst a : Nat)
  /-- Output of `n` lanes: as FP32, FP16 or BF16; as MX blocks and their scale codes; as a learned-scale integer tensor (08 R255, 09 R274). -/
  | outFloat (watch : Option WatchTag) (fmt reg n : Nat) (dst : Place)
  | outMx (watch : Option WatchTag) (fmt reg n : Nat) (dst scales : Place)
  | outInt (watch : Option WatchTag) (tensor reg n : Nat) (dst : Place)
  deriving DecidableEq, Repr

/-- A part of an engine's known-answer test: the array in a mode through the group-scaling path at a group size, or the vector unit (07 R222,
09 Table 82, 12 R361). -/
inductive CheckTest where
  | array (mode group : Nat)
  | vectorUnit
  deriving DecidableEq, Repr

/-- Where the array detects a fault (07 R220). -/
inductive FaultPlace where
  | partition
  | rowTop
  | outputPort
  deriving DecidableEq, Repr

/-- How a NAND read ends (11 R346): hard decode at a ladder step, soft decode, or failure. -/
inductive ReadOutcome where
  | hard (step : Nat)
  | soft (step : Nat)
  | failed
  deriving DecidableEq, Repr

/-- Where an uncorrectable error is found (12 Table 112). `consumed` names the command, by its TRS and number, whose tile has read the
line of a frame already. -/
inductive UePlace where
  | home (page line : Nat) (backingReadable : Bool)
  | frame (frame : Nat) (consumed : Option (Nat × Nat))
  | writeBuffer (unit : Nat)
  | journalStaging
  | mapShard (segment : Nat)
  | homeTable (pages : List Nat)
  | working (trs id : Nat) (block : Option Nat)
  | scratchpadLine (core eng line : Nat)
  | coreSramLine (core line : Nat)
  | scratchLine (core line : Nat)
  | tundish (line : Nat)
  | hubCache (unit4k : Nat)
  | processor (p : Nat) (dutyReadable : Bool)
  | flash (unit : Nat)
  deriving DecidableEq, Repr

/-- Where a correctable DRAM error lies in its stack (12 R369). -/
inductive DramPlace where
  | free
  | home (page : Nat)
  | frame (frame : Nat)
  | working (trs id : Nat)
  | reserved
  deriving DecidableEq, Repr

/-- One governor sample (15 R453): input voltage in mV, input current in mA, the power of the five subsystems of
Table 139 in mW, and the temperatures of sensors 9 to 50 of Table 151 in 0.1 °C. -/
structure GovSample where
  inputMv : Nat
  inputMa : Nat
  rails : List Nat
  temps : List Int
  deriving DecidableEq, Repr

/-- The commands. -/
inductive Instr where
  | porAssert
  | porRelease (addrSel : BitVec 2) (clkMode refclk : Bool)
  | perstAssert (lowNs : Nat)
  | perstRelease (addrSel : BitVec 2) (clkMode refclk : Bool)
  | inputLossDeclared (mv ns : Nat)
  | inputRestored (minMv maxMv ns : Nat) (addrSel : BitVec 2) (clkMode refclk : Bool)
  | flushComplete
  | linkReset (e : LinkEvent) (tr : Training)
  | islandRelease (i : Island) (cycles ns : Nat)
  | islandClockGoodTimeout (i : Island)
  | stageS0
  | stageS1 (procFail : List Nat) (puf : List (List Byte)) (tr : Training)
  | stageS2
  | stageS3 (r : S3Report)
  | stageS4 (readable : Bool)
  | holdupBankCharged (cells : List (Nat × Nat))
  | stageS5
  | stageTimeout (restarts : Bool)
  | watchdogExpiry (duty : Nat)
  | goSubmitNop (trs : Nat) (rid : BitVec 16) (desc : Desc)
  | read (trs : Nat) (rid : BitVec 16) (desc : Desc)
  | write (trs : Nat) (rid : BitVec 16) (desc : Desc)
  | flush (trs : Nat) (rid : BitVec 16) (desc : Desc)
  | release (trs : Nat) (rid : BitVec 16) (desc : Desc)
  | bind (trs : Nat) (rid : BitVec 16) (desc : Desc)
  | unbind (trs : Nat) (rid : BitVec 16) (desc : Desc)
  | park (trs : Nat) (rid : BitVec 16) (desc : Desc)
  | extend (trs : Nat) (rid : BitVec 16) (desc : Desc)
  | recallContext (trs : Nat) (rid : BitVec 16) (desc : Desc)
  | attend (trs : Nat) (rid : BitVec 16) (desc : Desc)
  | drop (trs : Nat) (rid : BitVec 16) (desc : Desc)
  | warmFrames (trs : Nat) (rid : BitVec 16) (desc : Desc)
  | warmPromote (trs : Nat) (rid : BitVec 16) (desc : Desc)
  | search (trs : Nat) (rid : BitVec 16) (desc : Desc)
  | insert (trs : Nat) (rid : BitVec 16) (desc : Desc)
  | delete (trs : Nat) (rid : BitVec 16) (desc : Desc)
  | merge (trs : Nat) (rid : BitVec 16) (desc : Desc)
  | collectionCreate (trs : Nat) (rid : BitVec 16) (desc : Desc)
  | collectionDestroy (trs : Nat) (rid : BitVec 16) (desc : Desc)
  | collectionDescribe (trs : Nat) (rid : BitVec 16) (desc : Desc)
  | filter (trs : Nat) (rid : BitVec 16) (desc : Desc)
  | embed (trs : Nat) (rid : BitVec 16) (desc : Desc)
  | chainFilterEmbedInsert (trs : Nat) (rid : BitVec 16) (desc : Desc)
  | chainEmbedSearch (trs : Nat) (rid : BitVec 16) (desc : Desc)
  | counters (trs : Nat) (rid : BitVec 16) (desc : Desc)
  | digestRead (trs : Nat) (rid : BitVec 16) (desc : Desc)
  | next (trs : Nat) (rid : BitVec 16) (value : BitVec 32)
  | qreset (trs : Nat) (rid : BitVec 16) (value : BitVec 32)
  | qresetComplete (trs : Nat)
  | lockEntryFreed
  | conflictCleared (trs id : Nat)
  | acceptanceWaitEnd
  | commandFinish (trs id : Nat)
  | dmaCompletionArrival (trs id addr : Nat) (outcome : DmaOutcome)
  | completionTimeout (trs id : Nat)
  | inactivityTimeout (trs id : Nat)
  | holdoffExpiry (vector : Nat)
  | msixUnmask (vector : Nat)
  | tbSetWrite (off width : Nat) (value : BitVec 64)
  | tbNowRead (bar off width : Nat)
  | registerWrite (bar off width : Nat) (value : BitVec 512) (rid : BitVec 16)
  | hdmDecoderCommit (dec base units ways skip : Nat) (biEnable : Bool)
  | cxlMemWrite (dpa : Nat) (bytes : List Byte) (poison : Bool)
  | cxlMemRead (dpa len : Nat)
  | bisnpResponse (base : Nat)
  | stepDoorbell (dpa : Nat) (value : BitVec 32)
  | stageDoorbell (dpa : Nat) (value : BitVec 32)
  | frameFillComplete (frame : Nat)
  | heatWindowClose
  | heatLayerComplete (trs id : Nat)
  | joinDeferralTimeout (trs id : Nat)
  | warmFrameExpiry (frame : Nat)
  | transientFramePlaced (frame : Nat)
  | flatScanEnd (cid : Nat)
  | annealRoundStart (cid : Nat)
  | annealRoundCommit (cid : Nat)
  | epochPagesFreed (cid epoch : Nat)
  | batchComplete (batch : Nat) (ok : Bool)
  | tileDispatch (core eng part : Nat) (lines : List (Nat × Nat)) (ops : List EngOp)
  | tileComplete (core eng part : Nat) (ops : List EngOp) (failed : List CheckTest)
  | stationarySwap (core eng part : Nat) (ops : List EngOp)
  | semaphoreAcquire (core eng part sem : Nat)
  | semaphoreRelease (core eng part sem : Nat)
  | semaphoreHoldTimeout (core eng part sem : Nat)
  | preemptionEscalation (core eng : Nat)
  | engineLevelSave (core eng : Nat)
  | engineIdleStop (core eng : Nat)
  | partitionFaultDetected (core eng part : Nat) (place : FaultPlace)
  | onlineCheckComplete (core eng : Nat) (failed : List CheckTest)
  | coreControlFault (core : Nat)
  | engineKatTimer
  | processorFault (p : Nat) (dutyReadable : Bool)
  | processorProgressTimeout (p : Nat) (dutyReadable : Bool)
  | promotionCommit (page : Nat) (verified : Bool)
  | lowWaterEviction (stack : Nat)
  | idleDemotion (page : Nat)
  | t2Fold
  | collectionReload
  | demotedDramFreed (page : Nat)
  | journalFlushTimer
  | nandProgramComplete (units : List (Nat × FlashAddr))
  | nandProgramFail (addr : FlashAddr) (lost : List Nat)
  | nandReadComplete (unit : Nat) (addr : FlashAddr) (outcome : ReadOutcome) (checkOk : Bool)
  | nandEraseComplete (island pos block : Nat) (failed : List (Nat × Nat))
  | nandOperationTimeout (chan pos : Nat)
  | suspendMinRunReached (chan pos : Nat)
  | readServiceExpiry (chan pos : Nat)
  | flushReserveRestored
  | gcStart (island : Nat)
  | slcFold
  | checkpointCycle
  | wearLevelCheck
  | flashScanRead (addr : FlashAddr) (outcome : ReadOutcome) (bits : Nat) (checkOk : Bool)
  | writeOriginWindowExpiry (trs seq : Nat)
  | dramCorrectableError (chan segment : Nat) (hard : Bool) (place : DramPlace)
  | sramCorrectableError (region ram word : Nat) (hard : Bool)
  | bucketLeak
  | uncorrectableError (region : Nat) (place : UePlace)
  | dramPatrolRead (chan segment : Nat) (error hard : Bool) (place : DramPlace)
  | sramPatrol (found : List (Nat × Nat × Nat × Bool))
  | laneRetrain (link : Nat) (outFailed inFailed : List Nat)
  | governorSample (g : GovSample)
  | governorDecision
  | quenchOvercurrent (ma : Nat)
  | quenchExcursion
  | timebaseFullValue
  | holdupCellMeasurement (cap res : Nat)
  | erCtlWrite (value : BitVec 32)
  | erOffer (version : BitVec 8) (precode : Bool)
  | erAccept (version : BitVec 8) (precode : Bool)
  | erOfferTimeout
  | erRecoverySpeed
  | erLockAchieved (markers : List Nat)
  | erEqTimeout (lockFailed : Bool)
  | erErrorRateFallback (lane count : Nat)
  | erMarkerLossFallback (lane misses : Nat)
  | doeDiscovery (index : Nat)
  | cdatTableAccess (entry : Nat)
  | doeAttestation (payload : List Byte)
  | getEventRecords (log : Nat)
  | clearEventRecords (log : Nat) (all : Bool) (handles : List (BitVec 16))
  | getEventInterruptPolicy
  | setEventInterruptPolicy (settings : List Byte)
  | getTimestamp
  | setTimestamp (value : BitVec 64)
  | getSupportedLogs
  | getLog (uuid : List Byte) (offset len : Nat)
  | identifyMemoryDevice
  | sanitize
  | sanitizeDrained
  | claimOwner (payload : List Byte)
  | releaseOwner (payload : List Byte)
  | patternStageBegin (payload : List Byte)
  | patternStageData (payload : List Byte) (dma : DmaOutcome)
  | patternStageCommit (payload : List Byte)
  | attest (payload : List Byte)
  | startLogRead (payload : List Byte)
  | countersGlobal (payload : List Byte)
  | patternWindow
  | pwKey (value : BitVec 32)
  | pwProgram
  | pwErase
  | norProgramComplete (ok : Bool)
  | norEraseComplete (ok : Bool)
  | norEraseSuspend (runNs : Nat)
  | norEraseResume (readPending : Bool) (suspendedNs : Nat)
  | setEndpointId (eid : Byte)
  | entdaa (addr : BitVec 7)
  | setdasa (staticAddr addr : BitVec 7)
  | getTid
  | getPldmVersion (type : Byte)
  | getPldmTypes
  | getPldmCommands (type : Byte)
  | getPdrRepositoryInfo
  | getPdr (handle : Nat)
  | getSensorReading (id : Nat)
  | getStateSensorReadings (id : Nat)
  | setEventReceiver (eid : Byte)
  | invalidOpcode (trs : Nat) (rid : BitVec 16) (desc : Desc)
  | unsupportedMailboxOpcode (opcode : BitVec 16) (payload : List Byte)
  | refusedBar2Access (trs off width : Nat) (rid : BitVec 16)
  | partnerErFallback
  deriving DecidableEq, Repr

end Sys2Proof
end

