-- ==== Sys2Proof/Config.lean ====
section
/-! DEFINITION. What the spec leaves to the implementation or leaves open: identifiers it prints no value for, the primitives
of named external standards, and the free values. Every constant is opaque: no proof can see a value of it (log 7, log 8). -/
namespace Sys2Proof.Config

/-- Free natural numbers, one for each draw (log 7). -/
opaque freeNat : Nat → Nat

/-- Free bytes: byte `i` of draw `n` (log 7). -/
opaque freeByte : Nat → Nat → Byte

/-- IMIARAN_VID (00 R3 prints no value). -/
opaque imiaranVid : BitVec 16

/-- LYM_DID (00 R3 prints no value). -/
opaque lymDid : BitVec 16

/-- Whether the module is marked LYM-1680-L (00 R4; fixed when it is built). -/
opaque markedL : Bool

/-- The serial number the device reports (14, printed nowhere). -/
opaque serial : List Byte

/-- Whether an XMSS signature verifies: public key, message, signature (14 R413; log 8). -/
opaque xmssVerify : List Byte → List Byte → List Byte → Bool

/-- The XMSS signature of a message with a one-time leaf under a root (14 R441; log 8). -/
opaque xmssSign : List Byte → Nat → List Byte → List Byte

/-- The vendor root public-key hash in the boot ROM (14 R416, printed nowhere). -/
opaque vendorRoot : List Byte

/-- The boot ROM version (14 Table 137, printed nowhere). -/
opaque romVersion : BitVec 32

/-- The products that a compiled configuration declares, as pairs of the scale records of its weight and its activation (09 R267): its
encoding is not published (14 R419; log 10). -/
opaque products : List Byte → List (Nat × Nat)

/-- The element code in row `i` and column `j` of a slot's weight tensor, which the slot's objects hold in a layout that is not published:
the objects' digests, the tensor's scale record, i, j (09 R266; log 10). -/
opaque weightCode : List (List Byte) → Nat → Nat → Nat → Nat

/-- Whether a slot was compiled with the group-path option (09 Table 82), which its configuration tells (log 10). -/
opaque groupSlot : List Byte → Bool

/-- The result of an INT32 shift by 32 or more, which 08 R261 does not state: kind of shift, value, count (log 98). -/
opaque shiftBeyond : Nat → BitVec 32 → BitVec 32 → BitVec 32

/-- Where the spec leaves the order of additions open (08 R262), the choice at a place of draw `n` (log 9). -/
opaque order : Nat → Nat → Nat

/-- How far an approximate function of the vector unit lies from the exact result at an operand, as a choice of word (07 R224; log 9). -/
opaque ulpOffset : Nat → BitVec 32 → Nat

/-- The value of element `e` of record `r` that a slot's compiled configuration computes (log 10). -/
opaque slotOutput : Nat → Nat → Nat → Nat

/-- The tokens that a slot's tokeniser makes of a text (log 10). -/
opaque tokenise : Nat → List Byte → List Nat

/-- Whether a compiled predicate or compare output holds (log 10). -/
opaque slotBit : Nat → Nat → Nat → Bool

/-- The effect word of a mailbox opcode in the Command Effects Log (02 R55 gives none). -/
opaque commandEffect : Nat → BitVec 16

/-- The firmware revision that Identify Memory Device reports (02 R55 gives none). -/
opaque fwRevision : List Byte

/-- The PLDM terminus ID and versions (16 R482 gives none). -/
opaque pldmTid : Byte
opaque pldmVersion : Nat → BitVec 32

/-- Bytes of sensor PDRs and readings that 16 R483 does not give. -/
opaque pdrByte : Nat → Nat → Byte

end Sys2Proof.Config
end

