-- ==== Sys2Proof/Machine/Bits.lean ====
section
/-! DEFINITION. Little-endian fields (00 R8): between numbers, byte lists and the 64-byte descriptor. -/
namespace Sys2Proof.Machine

/-- The `n` low bytes of a number, least significant first (00 R8). -/
def bytesOf : Nat → Nat → List Byte
  | 0, _ => []
  | n + 1, v => BitVec.ofNat 8 v :: bytesOf n (v / 256)

/-- The number that little-endian bytes spell (00 R8). -/
def natOf : List Byte → Nat
  | [] => 0
  | b :: bs => b.toNat + 256 * natOf bs

/-- Bits `[lo + w − 1 : lo]` of a number. -/
def bitsOf (v lo w : Nat) : Nat := v / 2 ^ lo % 2 ^ w

/-- Bit `i` of a number. -/
def bitOf (v i : Nat) : Bool := v.testBit i

/-- `n` bytes of a descriptor from byte `b` on, as a number. -/
def fld (d : Desc) (b n : Nat) : Nat := d.toNat / 2 ^ (8 * b) % 2 ^ (8 * n)

/-- Byte `b` of a descriptor. -/
def descByte (d : Desc) (b : Nat) : Byte := BitVec.ofNat 8 (fld d b 1)

/-- The descriptor with byte `b` replaced. -/
def setDescByte (d : Desc) (b : Nat) (v : Byte) : Desc :=
  BitVec.ofNat 512 (d.toNat - fld d b 1 * 2 ^ (8 * b) + v.toNat * 2 ^ (8 * b))

/-- `n` bits at offset `lo` of a 512-bit page register replaced by `v`. -/
def setDescBits (d : Desc) (lo n v : Nat) : Desc :=
  BitVec.ofNat 512 (d.toNat - bitsOf d.toNat lo n * 2 ^ lo + v % 2 ^ n * 2 ^ lo)

/-- The first byte from `b` on, below `b + n`, that is not zero. -/
def firstNonZero (d : Desc) : Nat → Nat → Option Nat
  | _, 0 => none
  | b, n + 1 => if fld d b 1 = 0 then firstNonZero d (b + 1) n else some b

/-- `⌈a / b⌉`. -/
def ceilDiv (a b : Nat) : Nat := (a + b - 1) / b

/-- `n` bytes of a list from `off` on; past its end it reads zero. -/
def sliceBytes (l : List Byte) (off n : Nat) : List Byte :=
  let t := (l.drop off).take n
  t ++ List.replicate (n - t.length) 0

/-- The number that `n` bytes of a list from `off` on spell. -/
def numAt (l : List Byte) (off n : Nat) : Nat := natOf ((l.drop off).take n)

/-- A list with the element at `i` replaced. -/
def setAt {α : Type} (l : List α) (i : Nat) (v : α) : List α := l.set i v

/-- The bits of a number, bit `i` at position `i`, `n` of them. -/
def toBits : Nat → Nat → List Bool
  | 0, _ => []
  | n + 1, v => (v % 2 == 1) :: toBits n (v / 2)

/-- The number of ones among the low `n` bits. -/
def popCount : Nat → Nat → Nat
  | 0, _ => 0
  | n + 1, v => v % 2 + popCount n (v / 2)

/-- Two's complement value of the low `w` bits. -/
def signedOf (w v : Nat) : Int :=
  let u := v % 2 ^ w
  if u < 2 ^ (w - 1) then (u : Int) else (u : Int) - (2 ^ w : Nat)

/-- Sum of a list of numbers. -/
def sumOf : List Nat → Nat
  | [] => 0
  | a :: as => a + sumOf as

/-- Places `a` before the first element that `lt` puts after it. -/
def insertBy {α : Type} (lt : α → α → Bool) (a : α) : List α → List α
  | [] => [a]
  | b :: bs => if lt a b then a :: b :: bs else b :: insertBy lt a bs

/-- A list in ascending order by `lt`, equal elements in their order. -/
def sortBy {α : Type} (lt : α → α → Bool) (l : List α) : List α := l.foldl (fun acc a => insertBy lt a acc) []

/-- Keeps the first occurrence of each element. -/
def dedup {α : Type} [DecidableEq α] : List α → List α
  | [] => []
  | a :: as => a :: (dedup as).filter (fun b => decide (b ≠ a))

end Sys2Proof.Machine
end

