-- ==== Sys2Proof/Machine/Digest.lean ====
section
/-! DEFINITION. Check values and digests: CRC-64 (12 R362), CRC-32 (14), CRC-16 (02 R64) and SHAKE256 (the hash unit, 01 R15,
16 R473; the permutation is the one of FIPS 202, log 16). -/
namespace Sys2Proof.Machine

/-! ### CRCs -/

/-- One bit of a reflected CRC. -/
def crcRefBit (poly c : Nat) : Nat := if c % 2 = 1 then c / 2 ^^^ poly else c / 2

/-- `n` bits of a reflected CRC. -/
def crcRefBits (poly : Nat) : Nat → Nat → Nat
  | 0, c => c
  | n + 1, c => crcRefBits poly n (crcRefBit poly c)

/-- A reflected CRC over bytes. -/
def crcRef (poly : Nat) : List Byte → Nat → Nat
  | [], c => c
  | b :: bs, c => crcRef poly bs (crcRefBits poly 8 (c ^^^ b.toNat))

/-- CRC-64 of the page check (12 Table 108): polynomial 0x42F0_E1EB_A9EA_3693 reflected, all ones in and out. -/
def crc64 (l : List Byte) : BitVec 64 := BitVec.ofNat 64 (crcRef 0xC96C5795D7870F42 l (2 ^ 64 - 1) ^^^ (2 ^ 64 - 1))

/-- CRC-32 of 14 (IEEE 802.3 parameters). -/
def crc32 (l : List Byte) : BitVec 32 := BitVec.ofNat 32 (crcRef 0xEDB88320 l (2 ^ 32 - 1) ^^^ (2 ^ 32 - 1))

/-- One bit of a CRC-16 with polynomial 0x1021. -/
def crc16Bits : Nat → Nat → Nat
  | 0, c => c
  | n + 1, c => crc16Bits n (if 0x8000 ≤ c then (c * 2 % 65536) ^^^ 0x1021 else c * 2)

/-- CRC-16 of an alignment marker: polynomial 0x1021, initial value 0xFFFF (02 Table 22). -/
def crc16 : List Byte → Nat → Nat
  | [], c => c
  | b :: bs, c => crc16 bs (crc16Bits 8 (c ^^^ (b.toNat * 256)))

/-! ### SHAKE256

The 1,600-bit state is 25 words of 64 bits, word x + 5y for sheet x and plane y. The rotation amounts and the round words are computed
from the walk and the shift register that define them, not listed (log 16). -/

/-- A 64-bit word turned left by `k` places. -/
def turn (w k : Nat) : Nat := (w * 2 ^ k % 2 ^ 64) ||| (w / 2 ^ (64 - k))

/-- Word `i` of a state. -/
def wordAt (a : List Nat) (i : Nat) : Nat := a.getD i 0

/-- The turn of word (x, y), met after `k` steps of the walk (x, y) → (y, 2x + 3y) from (1, 0): a triangular number. -/
def turnWalk : Nat → Nat → Nat → Nat → Nat → Nat → Nat
  | 0, _, _, _, _, _ => 0
  | n + 1, k, u, v, x, y => if u = x ∧ v = y then (k + 1) * (k + 2) / 2 % 64 else turnWalk n (k + 1) v ((2 * u + 3 * v) % 5) x y

/-- The turn of word `i`; word 0 is not turned. -/
def turnOf (i : Nat) : Nat := turnWalk 24 0 1 0 (i % 5) (i / 5)

/-- One step of the eight-bit shift register with taps x^8 + x^6 + x^5 + x^4 + 1. -/
def tapStep (r : Nat) : Nat := if r < 128 then 2 * r else (2 * r) ^^^ 0x171

/-- A round word from the register, `n` places still to fill: its output goes to place 2^j − 1 for j = 0 to 6. -/
def roundWordFrom : Nat → Nat → Nat → Nat × Nat
  | 0, _, r => (0, r)
  | n + 1, j, r =>
    let w := roundWordFrom n (j + 1) (tapStep r)
    (r % 2 * 2 ^ (2 ^ j - 1) + w.1, w.2)

/-- The mixing of columns: each word takes the parity of the column before it and, turned by one, of the column after it. -/
def mixColumns (a : List Nat) : List Nat :=
  let parity (x : Nat) : Nat := (List.range 5).foldl (fun (acc y : Nat) => acc ^^^ wordAt a (x % 5 + 5 * y)) 0
  let ps := (List.range 5).map parity
  (List.range 25).map (fun i => wordAt a i ^^^ (wordAt ps ((i + 4) % 5) ^^^ turn (wordAt ps ((i + 1) % 5)) 1))

/-- The words turned and moved: place (x, y) takes word (x + 3y, x). -/
def moveWords (ts a : List Nat) : List Nat :=
  (List.range 25).map (fun i =>
    let from' := (i + 3 * (i / 5)) % 5 + 5 * (i % 5)
    turn (wordAt a from') (wordAt ts from'))

/-- The nonlinear step along each plane. -/
def bendPlanes (a : List Nat) : List Nat :=
  (List.range 25).map (fun i =>
    let p (k : Nat) : Nat := wordAt a (i / 5 * 5 + (i + k) % 5)
    p 0 ^^^ ((2 ^ 64 - 1 - p 1) &&& p 2))

/-- `n` rounds from the shift register's value `r`. -/
def rounds (ts : List Nat) : Nat → Nat → List Nat → List Nat
  | 0, _, a => a
  | n + 1, r, a =>
    let w := roundWordFrom 7 0 r
    let b := bendPlanes (moveWords ts (mixColumns a))
    rounds ts n w.2 ((wordAt b 0 ^^^ w.1) :: b.tail)

/-- The permutation: 24 rounds. -/
def permuteState (a : List Nat) : List Nat := rounds ((List.range 25).map turnOf) 24 1 a

/-- A block of 136 bytes enters the first 17 words. -/
def enterBlock (a : List Nat) (blk : List Byte) : List Nat :=
  permuteState ((List.range 25).map (fun i => if i < 17 then wordAt a i ^^^ natOf (sliceBytes blk (8 * i) 8) else wordAt a i))

/-- The last block: the suffix 1111 of the extendable output, the padding's first bit and, in the last byte, its final bit. -/
def lastBlock (l : List Byte) : List Byte :=
  if l.length = 135 then l ++ [0x9F] else l ++ [0x1F] ++ List.replicate (134 - l.length) 0 ++ [0x80]

/-- A message enters the state, block by block. -/
def enterAll : Nat → List Nat → List Byte → List Nat
  | 0, a, _ => a
  | n + 1, a, l => if l.length < 136 then enterBlock a (lastBlock l) else enterAll n (enterBlock a (l.take 136)) (l.drop 136)

/-- Blocks of 136 bytes leave the state. -/
def leaveAllBlocks : Nat → List Nat → List Byte
  | 0, _ => []
  | n + 1, a => (a.take 17).flatMap (fun w => bytesOf 8 w) ++ leaveAllBlocks n (permuteState a)

/-- The first `n` bytes of SHAKE256 over a message. -/
def shake256 (n : Nat) (msg : List Byte) : List Byte :=
  (leaveAllBlocks ((n + 135) / 136) (enterAll (msg.length / 136 + 1) (List.replicate 25 0) msg)).take n

/-- A digest of the pattern chapter: the first 32 bytes of SHAKE256 (14). -/
def digest32 (msg : List Byte) : List Byte := shake256 32 msg

end Sys2Proof.Machine
end

