-- ==== Sys2Proof/Machine/Formats.lean ====
section
/-! DEFINITION. Number formats and arithmetic (08 R242 to R261) over exact values: a value is decoded, computed with exactly,
and rounded once where the rule says so. -/
namespace Sys2Proof.Machine

/-- An exact value: NaN, an infinity, or (−1)^neg × m × 2^e. -/
inductive Val where
  | nan
  | inf (neg : Bool)
  | num (neg : Bool) (m : Nat) (e : Int)
  deriving DecidableEq, Repr

/-- A floating layout: exponent bits, fraction bits, bias (08 Tables 75, 76). -/
structure FloatFmt where
  eb : Nat
  fb : Nat
  bias : Nat
  deriving DecidableEq, Repr

def fmtFp32 : FloatFmt := ⟨8, 23, 127⟩
def fmtFp16 : FloatFmt := ⟨5, 10, 15⟩
def fmtBf16 : FloatFmt := ⟨8, 7, 127⟩
def fmtE4M3 : FloatFmt := ⟨4, 3, 7⟩
def fmtE5M2 : FloatFmt := ⟨5, 2, 15⟩
def fmtE3M2 : FloatFmt := ⟨3, 2, 3⟩
def fmtE2M3 : FloatFmt := ⟨2, 3, 1⟩
def fmtE2M1 : FloatFmt := ⟨2, 1, 1⟩

/-- The number of bits of a layout. -/
def FloatFmt.bits (f : FloatFmt) : Nat := 1 + f.eb + f.fb

/-- Elements' bits by format code (08 Table 74). -/
def fmtBits : Nat → Nat
  | 0x0 => 32 | 0x1 => 16 | 0x2 => 16 | 0x3 => 8 | 0x4 => 8 | 0x5 => 6 | 0x6 => 6 | 0x7 => 4 | 0x8 => 8 | 0x9 => 8
  | 0xA => 8 | 0xB => 4 | 0xC => 32 | 0xD => 1 | _ => 0

/-- MX format codes (08 Table 74). -/
def isMx (c : Nat) : Bool := decide (3 ≤ c ∧ c ≤ 8)

/-! ### Packing (08 R243) -/

/-- The number whose bit stream holds `b`-bit elements in order. -/
def packNat (b : Nat) : List Nat → Nat
  | [] => 0
  | v :: vs => v % 2 ^ b + 2 ^ b * packNat b vs

/-- A run of `b`-bit elements as bytes, zero-padded to a whole byte. -/
def packElems (b : Nat) (vs : List Nat) : List Byte := bytesOf (ceilDiv (b * vs.length) 8) (packNat b vs)

/-- `n` elements of `b` bits from a bit stream. -/
def unpackNat (b : Nat) : Nat → Nat → List Nat
  | 0, _ => []
  | n + 1, v => v % 2 ^ b :: unpackNat b n (v / 2 ^ b)

/-- `n` elements of `b` bits from bytes. -/
def unpackElems (b n : Nat) (l : List Byte) : List Nat := unpackNat b n (natOf l)

/-! ### Decoding (08 R244, R248, R249, R251) -/

/-- The value of a layout without infinities or NaN. -/
def decodeFinite (f : FloatFmt) (v : Nat) : Val :=
  let s := bitOf v (f.eb + f.fb)
  let e := bitsOf v f.fb f.eb
  let m := bitsOf v 0 f.fb
  if e = 0 then .num s m (1 - (f.bias : Int) - f.fb) else .num s (2 ^ f.fb + m) ((e : Int) - f.bias - f.fb)

/-- The value of an IEEE layout: exponent all ones is an infinity or NaN (08 R244). -/
def decodeIeee (f : FloatFmt) (v : Nat) : Val :=
  if bitsOf v f.fb f.eb = 2 ^ f.eb - 1 then
    if bitsOf v 0 f.fb = 0 then .inf (bitOf v (f.eb + f.fb)) else .nan
  else decodeFinite f v

/-- The value of an MX element before its block scale (08 R249, Table 77). -/
def decodeMxElem (c v : Nat) : Val :=
  match c with
  | 0x3 => if bitsOf v 0 7 = 0x7F then .nan else decodeFinite fmtE4M3 v
  | 0x4 => decodeIeee fmtE5M2 v
  | 0x5 => decodeFinite fmtE3M2 v
  | 0x6 => decodeFinite fmtE2M3 v
  | 0x7 => decodeFinite fmtE2M1 v
  | _ => let i := signedOf 8 v
         .num (decide (i < 0)) i.natAbs (-6)

/-- Scales a value by 2^k. -/
def scaleVal (k : Int) : Val → Val
  | .num s m e => .num s m (e + k)
  | x => x

/-- An element with its block's E8M0 scale code (08 R250, R251). -/
def decodeMx (c scale v : Nat) : Val := if scale = 0xFF then .nan else scaleVal ((scale : Int) - 127) (decodeMxElem c v)

/-- The value of a word in a format without block scales. -/
def decodeWord (c v : Nat) : Val :=
  match c with
  | 0x0 => decodeIeee fmtFp32 v
  | 0x1 => decodeIeee fmtFp16 v
  | 0x2 => decodeIeee fmtBf16 v
  | 0xA => .num false (v % 256) 0
  | 0x9 => let i := signedOf 8 v
           .num (decide (i < 0)) i.natAbs 0
  | 0xB => let i := signedOf 4 v
           .num (decide (i < 0)) i.natAbs 0
  | 0xC => let i := signedOf 32 v
           .num (decide (i < 0)) i.natAbs 0
  | _ => .num false (v % 2) 0

/-! ### Rounding (08 R246, R248, R252) -/

/-- Whether a magnitude with quotient `q`, remainder `r` of `2^k` rounds up. -/
def roundUp (d : Rnd) (neg : Bool) (q r k : Nat) : Bool :=
  match d with
  | .tiesToEven => decide (2 ^ k < 2 * r) || (decide (2 * r = 2 ^ k) && decide (q % 2 = 1))
  | .towardPositive => decide (r ≠ 0) && !neg
  | .towardNegative => decide (r ≠ 0) && neg
  | .towardZero => false

/-- The magnitude m × 2^e rounded to a multiple of 2^u: the multiple. -/
def roundAt (d : Rnd) (neg : Bool) (m : Nat) (e u : Int) : Nat :=
  if u ≤ e then m * 2 ^ (e - u).toNat
  else
    let k := (u - e).toNat
    let q := m / 2 ^ k
    if roundUp d neg q (m % 2 ^ k) k then q + 1 else q

/-- The exponent of a nonzero magnitude's leading bit. -/
def topExp (m : Nat) (e : Int) : Int := (Nat.log2 m : Int) + e

/-- The unit in the last place of a layout at a magnitude, its subnormal range included. -/
def ulpExp (f : FloatFmt) (m : Nat) (e : Int) : Int := max (topExp m e) (1 - (f.bias : Int)) - f.fb

/-- The bits of k × 2^u (u from `ulpExp`, k at most 2^(fb+1)) with an unbounded exponent field: exponent field and fraction. -/
def packMag (f : FloatFmt) (k : Nat) (u : Int) : Nat :=
  if k < 2 ^ f.fb then k
  else if k = 2 ^ (f.fb + 1) then ((u + 1 + f.fb + f.bias).toNat) * 2 ^ f.fb
  else ((u + f.fb + f.bias).toNat) * 2 ^ f.fb + (k - 2 ^ f.fb)

/-- A value rounded into an IEEE layout under a direction, overflow and NaN as IEEE 754 and R247 say. -/
def encodeIeee (f : FloatFmt) (d : Rnd) (v : Val) : Nat :=
  let expMax := (2 ^ f.eb - 1) * 2 ^ f.fb
  let sign (b : Bool) := b.toNat * 2 ^ (f.eb + f.fb)
  match v with
  | .nan => expMax + 2 ^ (f.fb - 1)
  | .inf s => sign s + expMax
  | .num s m e =>
    if m = 0 then sign s
    else
      let u := ulpExp f m e
      let b := packMag f (roundAt d s m e u) u
      if b < expMax then sign s + b
      else
        let toInf : Bool := match d with
          | .tiesToEven => true
          | .towardPositive => !s
          | .towardNegative => s
          | .towardZero => false
        sign s + (if toInf then expMax else expMax - 1)

/-- Rounds to an FP32 word with ties to even. -/
def toFp32 (v : Val) : BitVec 32 := BitVec.ofNat 32 (encodeIeee fmtFp32 .tiesToEven v)

/-- The value of an FP32 word. -/
def ofFp32 (w : BitVec 32) : Val := decodeIeee fmtFp32 w.toNat

/-- The value of an integer. -/
def ofInt (i : Int) : Val := .num (decide (i < 0)) i.natAbs 0

/-! ### Exact arithmetic (08 R245, R256, R257) -/

/-- Negation. -/
def negVal : Val → Val
  | .nan => .nan
  | .inf s => .inf (!s)
  | .num s m e => .num (!s) m e

/-- The exact product; infinity times zero is NaN. -/
def mulVal : Val → Val → Val
  | .nan, _ => .nan
  | _, .nan => .nan
  | .inf s, .inf t => .inf (s != t)
  | .inf s, .num t m _ => if m = 0 then .nan else .inf (s != t)
  | .num s m _, .inf t => if m = 0 then .nan else .inf (s != t)
  | .num s m e, .num t n k => .num (s != t) (m * n) (e + k)

/-- The signed mantissa of a number at exponent `u` not above its own. -/
def alignTo (s : Bool) (m : Nat) (e u : Int) : Int :=
  let a : Int := (m * 2 ^ (e - u).toNat : Nat)
  if s then -a else a

/-- The exact sum; an exact zero sum takes the sign IEEE 754 gives under the direction (08 R256). -/
def addVal (d : Rnd) : Val → Val → Val
  | .nan, _ => .nan
  | _, .nan => .nan
  | .inf s, .inf t => if s = t then .inf s else .nan
  | .inf s, .num _ _ _ => .inf s
  | .num _ _ _, .inf t => .inf t
  | .num s m e, .num t n k =>
    let u := min e k
    let x := alignTo s m e u + alignTo t n k u
    if x = 0 then
      if m = 0 ∧ n = 0 ∧ s = t then .num s 0 u else .num (decide (d = .towardNegative)) 0 u
    else .num (decide (x < 0)) x.natAbs u

/-- Whether the first value is less than the second; false where either is NaN. -/
def ltVal : Val → Val → Bool
  | .nan, _ => false
  | _, .nan => false
  | .inf s, .inf t => s && !t
  | .inf s, .num _ _ _ => s
  | .num _ _ _, .inf t => !t
  | .num s m e, .num t n k =>
    let u := min e k
    decide (alignTo s m e u < alignTo t n k u)

/-- FP32 operations with one rounding. -/
def fp32Add (a b : BitVec 32) : BitVec 32 := toFp32 (addVal .tiesToEven (ofFp32 a) (ofFp32 b))
def fp32Mul (a b : BitVec 32) : BitVec 32 := toFp32 (mulVal (ofFp32 a) (ofFp32 b))
def fp32Fma (a b c : BitVec 32) : BitVec 32 := toFp32 (addVal .tiesToEven (mulVal (ofFp32 a) (ofFp32 b)) (ofFp32 c))
def fp32Lt (a b : BitVec 32) : Bool := ltVal (ofFp32 a) (ofFp32 b)

/-- 1 / x correctly rounded to FP32 (09 R274, computed in software): the quotient with a sticky bit, rounded once. -/
def fp32Recip (x : BitVec 32) : BitVec 32 :=
  match ofFp32 x with
  | .nan => toFp32 .nan
  | .inf s => toFp32 (.num s 0 0)
  | .num s m e =>
    if m = 0 then toFp32 (.inf s)
    else
      let q := 2 ^ 64 / m
      toFp32 (.num s (2 * q + (if q * m = 2 ^ 64 then 0 else 1)) (-65 - e))

/-- A finite value rounded to an integer with ties to even. -/
def roundInt : Val → Int
  | .num s m e => let k : Int := (roundAt .tiesToEven s m e 0 : Nat)
                  if s then -k else k
  | _ => 0

/-- Largest finite magnitude, as multiple and exponent, of an MX element (08 Table 76). -/
def mxMax (c : Nat) : Nat × Int :=
  match c with
  | 0x3 => (14, 5) | 0x4 => (7, 13) | 0x5 => (7, 2) | 0x6 => (15, -1) | 0x7 => (3, 1) | _ => (127, -6)

/-- emax of Table 76. -/
def mxEmax (c : Nat) : Int :=
  match c with
  | 0x3 => 8 | 0x4 => 15 | 0x5 => 4 | 0x6 => 2 | 0x7 => 2 | _ => 0

/-- The floating layout of an MX element. -/
def mxFloat (c : Nat) : FloatFmt :=
  match c with
  | 0x3 => fmtE4M3 | 0x4 => fmtE5M2 | 0x5 => fmtE3M2 | 0x6 => fmtE2M3 | _ => fmtE2M1

/-- One element of the block conversion (08 R252): rounded ties to even, saturated; the flag says it was clipped. -/
def mxElem (c : Nat) (y : Val) : Nat × Bool :=
  match y with
  | .num s m e =>
    if c = 0x8 then
      let k := roundAt .tiesToEven s m e (-6)
      let n := min k 127
      (if s then (256 - n) % 256 else n, decide (127 < k))
    else
      let f := mxFloat c
      let sb := s.toNat * 2 ^ (f.eb + f.fb)
      if m = 0 then (sb, false)
      else
        let u := ulpExp f m e
        let k := roundAt .tiesToEven s m e u
        let mx := mxMax c
        if decide (alignTo false mx.1 mx.2 (min mx.2 u) < alignTo false k u (min mx.2 u)) then
          (sb + packMag f (roundAt .tiesToEven false mx.1 mx.2 (ulpExp f mx.1 mx.2)) (ulpExp f mx.1 mx.2), true)
        else (sb + packMag f k u, false)
  | _ => (0, false)

/-- Whether a value is NaN or infinite. -/
def isSpecial : Val → Bool
  | .num _ _ _ => false
  | _ => true

/-- The larger of two magnitudes. -/
def maxMag (a b : Nat × Int) : Nat × Int :=
  let u := min a.2 b.2
  if alignTo false a.1 a.2 u < alignTo false b.1 b.2 u then b else a

/-- amax of a block of finite values. -/
def amaxOf : List Val → Nat × Int
  | [] => (0, 0)
  | .num _ m e :: vs => maxMag (m, e) (amaxOf vs)
  | _ :: vs => amaxOf vs

/-- The zero element with its input's sign (08 R252). -/
def mxZero (c : Nat) (v : Val) : Nat :=
  match v with
  | .num s _ _ => if c = 0x8 then 0 else s.toNat * 2 ^ ((mxFloat c).eb + (mxFloat c).fb)
  | _ => 0

/-- A block of at most 32 values converted to an MX format: its scale code, its elements, and how many were clipped (08 R252). -/
def mxBlock (c : Nat) (vs : List Val) : Nat × List Nat × Nat :=
  if vs.any isSpecial then (0xFF, vs.map (fun _ => 0), 0)
  else
    let am := amaxOf vs
    if am.1 = 0 then (0x00, vs.map (mxZero c), 0)
    else
      let x := min (max (topExp am.1 am.2 - mxEmax c) (-127)) 127
      let es := vs.map (fun v => mxElem c (scaleVal (-x) v))
      ((x + 127).toNat, es.map (·.1), (es.filter (·.2)).length)

/-- A list cut into runs of `k`. -/
def chunksOf {α : Type} (k : Nat) : Nat → List α → List (List α)
  | 0, _ => []
  | n + 1, l => if l.isEmpty then [] else l.take k :: chunksOf k n (l.drop k)

/-- A vector of one head converted block by block along the head dimension (08 R253): scales, elements, clipped count. -/
def mxVector (c : Nat) (vs : List Val) : List Nat × List Nat × Nat :=
  let bs := (chunksOf 32 vs.length vs).map (mxBlock c)
  (bs.map (·.1), (bs.map (·.2.1)).flatten, sumOf (bs.map (·.2.2)))

/-- A value converted to FP32, FP16 or BF16 with ties to even (08 R246, R248, R255). -/
def encodeWord (c : Nat) (v : Val) : Nat :=
  match c with
  | 0x0 => encodeIeee fmtFp32 .tiesToEven v
  | 0x1 => encodeIeee fmtFp16 .tiesToEven v
  | _ => encodeIeee fmtBf16 .tiesToEven v

/-- The limits of an integer format (08 Table 78). -/
def intRange (c : Nat) : Int × Int :=
  match c with
  | 0x9 => (-128, 127) | 0xA => (0, 255) | 0xB => (-8, 7) | _ => (-2147483648, 2147483647)

/-- Saturation to a range; the flag says it clipped. -/
def clampInt (lo hi x : Int) : Int × Bool := if x < lo then (lo, true) else if hi < x then (hi, true) else (x, false)

/-- A floating value to an integer format: ties to even, saturating and counted; NaN gives 0 (08 R255). -/
def toIntFmt (c : Nat) (v : Val) : Int × Bool :=
  let r := intRange c
  match v with
  | .nan => (0, false)
  | .inf s => (if s then r.1 else r.2, true)
  | x => clampInt r.1 r.2 (roundInt x)

/-- INT32 to a narrower integer under SAT (08 R260). -/
def narrowInt (sat : Bool) (c : Nat) (x : Int) : Int × Bool :=
  let r := intRange c
  if sat then clampInt r.1 r.2 x
  else
    let b := fmtBits c
    let u := (x % (2 ^ b : Nat)).toNat
    (if c = 0xA then (u : Int) else signedOf b u, false)

/-- One addition to an INT32 entry under SAT; the flag says it was clamped (08 R260). -/
def accAdd (sat : Bool) (a p : Int) : Int × Bool :=
  if sat then clampInt (-2147483648) 2147483647 (a + p)
  else (signedOf 32 ((a + p) % (2 ^ 32 : Nat)).toNat, false)

/-- The sign rule: 1 exactly when the value is greater than zero (08 R255, 06 R195). -/
def signBit (v : Val) : Bool := ltVal (.num false 0 0) v

/-! ### Vector units (08 R245 to R248, R255, R261) -/

/-- The exact result of an operation; an exact zero sum takes its sign from the direction. -/
def vecExact (op : VecOp) (d : Rnd) (a b c : Val) : Val :=
  match op with
  | .add => addVal d a b
  | .sub => addVal d a (negVal b)
  | .mul => mulVal a b
  | .fma => addVal d (mulVal a b) c

/-- An operation on words of one floating format: FP32 and FP16 round once under the direction; BF16 operands run in FP32 under the
direction and the result is rounded to BF16 with ties to even (08 R245 to R248). -/
def vecFloat (op : VecOp) (d : Rnd) (f a b c : Nat) : Nat :=
  let x := vecExact op d (decodeWord f a) (decodeWord f b) (decodeWord f c)
  match f with
  | 0x0 => encodeIeee fmtFp32 d x
  | 0x1 => encodeIeee fmtFp16 d x
  | _ => encodeIeee fmtBf16 .tiesToEven (decodeIeee fmtFp32 (encodeIeee fmtFp32 d x))

/-- A quiet comparison: less, equal, greater, or none of them where a NaN is compared (08 R245). -/
def vecCompare (f a b : Nat) : Option Ordering :=
  let x := decodeWord f a
  let y := decodeWord f b
  if x = .nan ∨ y = .nan then none
  else some (if ltVal x y then .lt else if ltVal y x then .gt else .eq)

/-- A conversion between FP32, FP16 and BF16 words, or of an INT32 word to one of them: BF16 always rounds ties to even, and an
INT32 reaches FP16 and BF16 through FP32 (08 R248, R255). -/
def vecConvert (d : Rnd) (src dst v : Nat) : Nat :=
  let x := decodeWord src v
  let y := if src = 0xC ∧ dst ≠ 0x0 then decodeIeee fmtFp32 (encodeIeee fmtFp32 d x) else x
  match dst with
  | 0x0 => encodeIeee fmtFp32 d y
  | 0x1 => encodeIeee fmtFp16 d y
  | _ => encodeIeee fmtBf16 .tiesToEven y

/-- INT32 operations of the vector units on words: addition and subtraction under SAT, multiplication's low 32 bits, and shifts. A shift by
32 or more has no stated result: a free value (08 R261; log 98). -/
def vecInt (op : IntOp) (sat : Bool) (a b : BitVec 32) : BitVec 32 :=
  let k := b.toNat
  match op with
  | .add => BitVec.ofInt 32 (accAdd sat a.toInt b.toInt).1
  | .sub => BitVec.ofInt 32 (accAdd sat a.toInt (-b.toInt)).1
  | .mul => a * b
  | .shiftLeft => if k < 32 then a <<< k else Config.shiftBeyond 0 a b
  | .shiftRight => if k < 32 then a >>> k else Config.shiftBeyond 1 a b
  | .shiftRightSigned => if k < 32 then a.sshiftRight k else Config.shiftBeyond 2 a b

/-! ### Array rows (08 R256 to R259) -/

/-- The exact dot product of two runs of values. -/
def dotVal : List Val → List Val → Val
  | a :: as, b :: bs => addVal .tiesToEven (mulVal a b) (dotVal as bs)
  | _, _ => .num true 0 0

/-- What one issue of a floating row adds: the exact sum of its scaled portions (08 R256, R257). Each portion is weights, inputs and their
block scale codes (127 for none). -/
def issueSum (portions : List (List Val × List Val × Nat × Nat)) : Val :=
  let sc (c : Nat) : Val := if c = 0xFF then .nan else .num false 1 ((c : Int) - 127)
  let term (p : List Val × List Val × Nat × Nat) : Val :=
    if p.1.isEmpty then .num true 0 0
    else mulVal (dotVal p.1 p.2.1) (mulVal (sc p.2.2.1) (sc p.2.2.2))
  (portions.map term).foldl (addVal .tiesToEven) (.num true 0 0)

/-- A sum enters an FP32 accumulator entry with one rounding; a NaN entry stays NaN (08 R256, R257). -/
def accFloat (acc : BitVec 32) (v : Val) : BitVec 32 := toFp32 (addVal .tiesToEven (ofFp32 acc) v)

/-- One issue of a floating row into an accumulator entry (08 R256). -/
def issueRow (portions : List (List Val × List Val × Nat × Nat)) (acc : BitVec 32) : BitVec 32 := accFloat acc (issueSum portions)

/-- The Hamming distance of two `w`-bit codes (05 R142, 08 R259). -/
def hamming (w a b : Nat) : Nat := popCount w (a ^^^ b)

end Sys2Proof.Machine
end

