-- ==== Sys2Proof/Machine/SMap.lean ====
section
/-! DEFINITION. Sorted finite maps: the ONE canonical form in which every memory, table and register file of the model is
held. Keys rise strictly and no entry equals the map's unlisted value `d`, so equal maps are equal lists. With `d` a byte this
is a memory of `Host.Cell` pairs. -/
namespace Sys2Proof.Machine

/-- A finite map as a list of key and value pairs. The unlisted value is an argument of each operation. -/
abbrev SMap (α : Type) := List (Nat × α)

/-- A byte memory. -/
abbrev Mem := SMap Byte

/-- The value at `k`; an unlisted key holds `d`. -/
def SMap.find {α : Type} (d : α) : SMap α → Nat → α
  | [], _ => d
  | (a, v) :: rest, k => if a = k then v else SMap.find d rest k

/-- Removes every entry of key `k`. -/
def SMap.erase {α : Type} : SMap α → Nat → SMap α
  | [], _ => []
  | (a, v) :: rest, k => if a = k then SMap.erase rest k else (a, v) :: SMap.erase rest k

/-- Places an entry before the first larger key. -/
def SMap.place {α : Type} : SMap α → Nat → α → SMap α
  | [], k, v => [(k, v)]
  | (a, w) :: rest, k, v => if k < a then (k, v) :: (a, w) :: rest else (a, w) :: SMap.place rest k v

/-- Writes `v` at `k`; writing the unlisted value removes the entry. -/
def SMap.put {α : Type} [DecidableEq α] (d : α) (m : SMap α) (k : Nat) (v : α) : SMap α :=
  if v = d then SMap.erase m k else SMap.place (SMap.erase m k) k v

/-- Changes the value at `k` by `f`. -/
def SMap.modify {α : Type} [DecidableEq α] (d : α) (m : SMap α) (k : Nat) (f : α → α) : SMap α :=
  SMap.put d m k (f (SMap.find d m k))

/-- Changes every listed value by `f`; entries that become the unlisted value go. -/
def SMap.mapVals {α : Type} [DecidableEq α] (d : α) (f : Nat → α → α) (m : SMap α) : SMap α :=
  (m.map (fun e => (e.1, f e.1 e.2))).filter (fun e => decide (e.2 ≠ d))

/-- The canonical form, as a check: keys rise strictly, no entry holds the unlisted value. -/
def SMap.wf {α : Type} [DecidableEq α] (d : α) : SMap α → Bool
  | [] => true
  | [(_, v)] => decide (v ≠ d)
  | (a, v) :: (b, w) :: rest => decide (v ≠ d) && decide (a < b) && SMap.wf d ((b, w) :: rest)

/-- Writes consecutive values from `k` on. -/
def SMap.putList {α : Type} [DecidableEq α] (d : α) : SMap α → Nat → List α → SMap α
  | m, _, [] => m
  | m, k, v :: vs => SMap.putList d (SMap.put d m k v) (k + 1) vs

/-- The `n` consecutive values from `k` on. -/
def SMap.getList {α : Type} (d : α) (m : SMap α) : Nat → Nat → List α
  | _, 0 => []
  | k, n + 1 => SMap.find d m k :: SMap.getList d m (k + 1) n

/-- Drops every entry whose key lies in `[base, base + len)`. -/
def SMap.clearRange {α : Type} (m : SMap α) (base len : Nat) : SMap α :=
  m.filter (fun e => decide (e.1 < base ∨ base + len ≤ e.1))

/-- A memory in canonical form (its unlisted byte is `d`). -/
def Mem.wf (d : Byte) (m : Mem) : Bool := SMap.wf d m

end Sys2Proof.Machine
end

