-- ==== Sys2Proof/Machine/State.lean ====
section
/-! DEFINITION. The state of the block as plain data: every register, buffer, table, mode and pin that spec/ gives the
LYM-1680, grouped by chapter, with the queue of waiting commands. The value after each `:=` is the reset value; where the
spec states none the log entry is named (INVENTORY.md, State). -/
namespace Sys2Proof.Machine

/-! ### Always-on island (13 Table 113): reset by POR only -/

/-- Always-on island (15 R448, 13 R385, R388, R396, R405, 17 R485, R491). -/
structure Aon where
  timebase : BitVec 64 := 0
  tbCapture : BitVec 64 := 0
  tbHeldLow : Option (BitVec 32) := none
  rstLastCause : BitVec 32 := 1
  porSeen : Bool := true
  porAsserted : Bool := false
  pinAsserted : Bool := false
  s1Fail : Bool := false
  wdLatch : Bool := false
  pinAbort : Option (Nat × Option Slot) := none
  stageStart : BitVec 64 := 0
  addrSel : BitVec 2 := 3
  clkMode : Bool := true
  refclkUsed : Bool := false
  crystalGood : Bool := false
  tbFromHost : Bool := false
  deriving DecidableEq, Repr

/-! ### Start, Fettle mode, watchdog (13) -/

/-- What the device is doing as a whole (13 R384, R387, R388, R400, R405). -/
inductive Mode where
  | inReset
  | starting
  | service
  | fettle
  | halted
  | expired
  deriving DecidableEq, Repr

/-- Start stage, readiness bits, start-log position and FAULT# (13, 02 R39, R49). `details` holds the detail entries written before
the start's outcome (R393), `mediaRef` the timebase that the checkpoints hold (11 R347). -/
structure Boot where
  mode : Mode := .starting
  stage : Nat := 0
  fettleReason : BitVec 8 := 0
  patternGen : BitVec 32 := 0
  grade : BitVec 32 := 0
  slot : Option Slot := none
  preferred : Option Slot := none
  fallback : Bool := false
  slotCheckCope : Byte := 6
  slotCheckDrag : Byte := 6
  rejectGen : BitVec 32 := 0
  failDetail : BitVec 32 := 0
  logBlock : Option Nat := none
  logNext : Nat := 64
  startSeq : BitVec 32 := 0
  tbS1 : BitVec 64 := 0
  tbS2 : BitVec 64 := 0
  tbS3 : BitVec 64 := 0
  tbS4 : BitVec 64 := 0
  tbS5 : BitVec 64 := 0
  memInfoValid : Bool := false
  memActive : Bool := false
  mediaReady : Bool := false
  mailboxReady : Bool := false
  mapRebuilt : Bool := false
  bankReported : Bool := false
  flushing : Bool := false
  pinPending : Bool := false
  faultPin : Bool := false
  wdRunning : Bool := false
  prevWatchdog : Bool := false
  pufOk : Bool := false
  pufRoot : List Byte := []
  earlyEvents : List (BitVec 64 × List Byte) := []
  engineMap : List Byte := []
  mediaRef : Option (BitVec 64) := none
  details : List Byte := []
  deriving DecidableEq, Repr

/-- Clock islands (13 R389, 15 R450). -/
structure Islands where
  released : List Island := []
  failed : List Island := []
  approx : List Island := []
  lastFull : BitVec 64 := 0
  deriving DecidableEq, Repr

/-! ### Link, configuration space and windows (02) -/

/-- One MSI-X table entry (02 R39, log 13). -/
structure MsixEntry where
  addr : BitVec 64 := 0
  data : BitVec 32 := 0
  mask : Bool := true
  deriving DecidableEq, Repr

/-- The coalescing state of one vector (02 R53, R54). `timer` holds the running hold-off in µs. -/
structure Vec where
  coal : BitVec 32 := 0
  pend : Nat := 0
  timer : Option Nat := none
  pba : Bool := false
  deriving DecidableEq, Repr

/-- Configuration space beside the BARs (02 R36, R37, R50, R52; layout PRESUMED, log 13): the Command register's Memory Space and Bus
Master enables, power state D3hot, MSI-X enable and function mask, Device Control 2, the device's own requester ID as configuration
writes bring it, and the AER status registers. -/
structure Cfg where
  memEnable : Bool := false
  busMaster : Bool := false
  d3hot : Bool := false
  msixEnable : Bool := false
  msixFnMask : Bool := false
  devCtl2 : BitVec 16 := 0
  devId : BitVec 16 := 0
  aerUncorr : BitVec 32 := 0
  aerCorr : BitVec 32 := 0
  deriving DecidableEq, Repr

/-- The CXL port. `commitErr0` and `commitErr1` are Error Not Committed of the two decoders. -/
structure Link where
  up : Bool := false
  rate : Rate := .gt2_5
  width : Nat := 8
  recovery : Bool := false
  bar0 : Option (BitVec 64) := none
  bar2 : Option (BitVec 64) := none
  bar4 : Option (BitVec 64) := none
  dec0 : Option Nat := none
  dec1 : Option Nat := none
  biEnable : Bool := false
  biUsed : Bool := false
  commitErr0 : Bool := false
  commitErr1 : Bool := false
  cfg : Cfg := {}
  msix : SMap MsixEntry := []
  vec : SMap Vec := []
  erCtl : BitVec 32 := 4
  erStatus : BitVec 32 := 0
  erFecCorr : BitVec 32 := 0
  erFecUncorr : BitVec 32 := 0
  erCounts : BitVec 32 := 0
  erOfferSent : Bool := false
  erAcceptSent : Bool := false
  erAcceptRecv : Bool := false
  erDead : Bool := false
  erTxPrecode : Bool := false
  deriving DecidableEq, Repr

/-! ### Tundish (02 R43 to R47, 04) -/

/-- What a placed region of the tundish is for. -/
inductive RegionKind where
  | slot
  | stage
  | recalled
  deriving DecidableEq, Repr

/-- A placed region: slots and staging regions are host-written lines, recall pages device-written (02 R45). -/
structure Region where
  base : Nat
  len : Nat
  kind : RegionKind
  trs : Nat
  id : Nat
  deriving DecidableEq, Repr

/-- The tundish: bytes, poisoned lines, placed regions, device-written ranges under BISnpInv, and the host-written ranges of commands
that ended with INPUT_STALLED, whose late input is dropped (03 R91). -/
structure Tundish where
  mem : Mem := []
  poison : SMap Bool := []
  regions : List Region := []
  snoops : List (Nat × Nat) := []
  dead : List (Nat × Nat) := []
  deriving DecidableEq, Repr

/-! ### Task register sets (03) -/

/-- Life of a held command (03 R76). -/
inductive Phase where
  | pending
  | accepted
  | running
  | done
  | error
  deriving DecidableEq, Repr

/-- An ending that is decided and not yet reported. -/
structure Ending where
  status : Byte
  result : BitVec 64
  deriving DecidableEq, Repr

/-- Resources reserved from acceptance to the ending (01 R31): pages of a tenant, a context index, side-list codes and
tombstones of a collection; `kept` says the pages are ones that 05 R147 keeps T1-homed. -/
structure Resv where
  tenant : Nat := 0
  pages : Nat := 0
  index : Bool := false
  coll : Nat := 0
  codes : Nat := 0
  tombs : Nat := 0
  kept : Bool := false
  deriving DecidableEq, Repr

/-- The running record of an ATTEND step (04 R123 to R139). `requested` holds the layers asked for and not yet in a heat,
`placed` those in a heat with the drop the device read, `work` the stack, channel and pool pages of its working memory. -/
structure Step where
  layer0 : Nat
  nlayer : Nat
  tok0 : Nat
  tok1 : Nat
  scale : BitVec 32
  qfmt : Nat
  resAddr : Nat
  group : Nat
  hkv : Nat
  dim : Nat
  fmt : Nat
  tenant : Nat
  seq : BitVec 32
  slot : Option Nat := none
  nextLayer : Nat
  doneLayers : Nat := 0
  requested : List Nat := []
  placed : List (Nat × List Byte) := []
  closing : Bool := false
  badBell : Bool := false
  member : Bool := false
  deferred : Bool := false
  work : List (Nat × Nat × Nat) := []
  lastBell : Option (BitVec 64) := none
  delta : Option Nat := none
  deriving DecidableEq, Repr

/-- A staged source (04 R116). -/
structure StageRec where
  base : Nat
  len : Nat
  seq : BitVec 32
  rung : Bool := false
  deriving DecidableEq, Repr

/-- One hit of a query (05 R165). -/
structure Hit where
  cid : Nat
  attr : Nat
  ord : Nat
  dist : Nat
  deriving DecidableEq, Repr

/-- One query of a SEARCH (05 R163): candidate size, doublings used, the ordinals that a GRAPH traversal has compared and expanded, and
hits when it has ended. -/
structure Query where
  code : Nat
  cand : Nat
  widened : Nat := 0
  onBoard : Bool := false
  seen : List Nat := []
  spent : List Nat := []
  hits : Option (List Hit) := none
  deriving DecidableEq, Repr

/-- The running record of a SEARCH (05 R151, R160 to R166). `lost` is the worst status met (05 R171), 0 for none. -/
structure SearchRec where
  coll : Nat
  epoch : Nat
  commitSeq : Nat
  queries : List Query := []
  loaded : Bool := false
  lost : Byte := 0
  deriving DecidableEq, Repr

/-- A held command (03 R74 to R83). `id` is its device-wide GO-arrival number. `rx` is the host data its DMA reads have
brought, by bus address; `reads` the DMA reads outstanding; `parts` the pages of a PARK or EXTEND that have entered the write buffer before
its commit, `group` the sequence number of the entry that will commit them (11 R329), `badBlocks` the blocks of its record region met
poisoned (06 R190). -/
structure Held where
  id : Nat
  desc : Desc
  phase : Phase := .pending
  waitRes : Bool := false
  waitLock : Bool := false
  acceptNo : Nat := 0
  status : Byte := 0
  byte : Nat := 0
  byteValid : Bool := false
  result : BitVec 64 := 0
  deferred : Option (BitVec 64) := none
  ending : Option Ending := none
  resv : Option Resv := none
  rx : Mem := []
  rxAt : List (Nat × Nat) := []
  reads : List (Nat × Nat) := []
  step : Option Step := none
  stage : Option StageRec := none
  search : Option SearchRec := none
  exposed : Option (Nat × Nat) := none
  applied : Bool := false
  mergeSeq : Nat := 0
  parts : Nat := 0
  group : Nat := 0
  badBlocks : List Nat := []
  deriving DecidableEq, Repr

/-- BIND_CTL, BIND_TENANT, BIND_VECTOR, BIND_RID (03 Table 26). -/
structure Binding where
  valid : Bool := false
  priv : Bool := false
  tenant : Nat := 0
  vector : Nat := 0
  rids : List (BitVec 16) := []
  deriving DecidableEq, Repr

/-- A counter set of a TRS (16 Table 145, without SAMPLE_SEQ). -/
structure CtrSet where
  hostRd : BitVec 64 := 0
  hostWr : BitVec 64 := 0
  flashRd : BitVec 64 := 0
  buffer : BitVec 64 := 0
  dram : BitVec 64 := 0
  engCycles : BitVec 64 := 0
  elapsed : BitVec 64 := 0
  deriving DecidableEq, Repr

/-- One deferred error (03 R88): its device-wide order of finding, code, volume, first block. -/
structure DefErr where
  no : Nat
  code : Byte
  volume : Nat
  lba : Nat
  deriving DecidableEq, Repr

/-- One TRS page (03 Table 23). -/
structure Trs where
  command : Desc := 0
  busy : Bool := false
  resetting : Bool := false
  held : List Held := []
  bind : Binding := {}
  defer : List DefErr := []
  deferOver : List DefErr := []
  lastSet : CtrSet := {}
  current : CtrSet := {}
  sampleSeq : BitVec 64 := 0
  runSince : Option (BitVec 64) := none
  deriving DecidableEq, Repr

/-- A range-lock entry (03 R85, R86). A tier range covers token pages `lo ≤ p < hi` of its object. -/
inductive LockRange where
  | volume (v lo hi : Nat)
  | context (handle lo hi : Nat)
  | coll (c : Nat)
  deriving DecidableEq, Repr

/-- One entry of the range-lock table. -/
structure Lock where
  trs : Nat
  id : Nat
  acceptNo : Nat
  excl : Bool
  ranges : List LockRange
  deriving DecidableEq, Repr

/-- Command intake, device-wide (03 R85, R86, 04 R116); `stalled` holds the commands that ended with INPUT_STALLED (R91). -/
structure Intake where
  goCount : Nat := 0
  acceptCount : Nat := 0
  locks : List Lock := []
  seq : BitVec 32 := 0
  defCount : Nat := 0
  stalled : List Nat := []
  deriving DecidableEq, Repr

/-! ### Owner policy in force (14 R417, 10 Table 87) -/

/-- A TENANT entry (14 Table 130 with 10 Table 87). -/
structure TenantPol where
  weight : Nat := 1
  t1q : Nat := 0
  t1max : Nat := 0
  frameq : Nat := 0
  framemax : Nat := 0
  t2q : Nat := 0
  chanMask : BitVec 32 := 0
  wayMask : BitVec 24 := 0
  cap : Nat := 0
  deriving DecidableEq, Repr

/-- A VOLUME entry (14 Table 130). -/
structure VolPol where
  vol : Nat
  tenant : Nat
  blocks : Nat
  deriving DecidableEq, Repr

/-- A TRS_BIND entry (14 Table 130). -/
structure TrsBind where
  trs : Nat
  tenant : Nat
  vector : Nat
  rids : List (BitVec 16)
  deriving DecidableEq, Repr

/-- A tile declaration (14 R419, 07 Table 73). -/
structure TileDecl where
  shape : Nat
  sems : Nat
  cycles : Nat
  live : Nat
  sram : Nat
  deriving DecidableEq, Repr

/-- A scale record (09 Table 81). -/
structure ScaleRec where
  fmt : Nat
  zp : Bool
  role : Nat
  adapt : Bool
  gsize : Nat
  nch : Nat
  s2 : BitVec 32
  klen : Nat
  codes : List Byte
  zpts : List Byte
  deriving DecidableEq, Repr

/-- What stage S3 computes for a weight tensor of a slot (09 R271, R275): the row sums Rw, those of each group, and the preload terms b of its
rows for each activation that a declared product pairs it with. -/
structure WeightSums where
  tensor : Nat
  rows : List Int
  groups : List (List Int)
  terms : List (Nat × List Int)
  deriving DecidableEq, Repr

/-- A function slot (14 Table 132). `kind` 1 EMBED, 2 ATTENTION, 3 COMPARE, 4 PREDICATE. -/
structure FnSlot where
  slot : Nat
  kind : Nat
  cls : Nat
  maxTokens : Nat
  dOut : Nat
  nproj : Nat
  projW : List Nat
  tiles : List TileDecl
  scales : List ScaleRec
  objects : List Nat
  config : List Byte
  withdrawn : Bool := false
  sums : List WeightSums := []
  deriving DecidableEq, Repr

/-- The owner policy tables in force and the slots of the running pattern. `values` holds the VALUES table by VALUE_ID
(14 Table 131, 15 Table 142); an absent value takes its default. -/
structure Policy where
  tenants : List (Nat × TenantPol) := []
  volumes : List VolPol := []
  trsBind : List TrsBind := []
  values : List (Nat × Nat) := []
  clipHi : List (Nat × Nat) := []
  slots : List FnSlot := []
  objects : List (List Byte × Nat × List (List Byte)) := []
  deriving DecidableEq, Repr

/-! ### Contexts (04) -/

/-- One context index (04 R100, Table 35). -/
structure Ctx where
  live : Bool := false
  gen : BitVec 12 := 0
  layers : Nat := 0
  hkv : Nat := 0
  group : Nat := 0
  dim : Nat := 0
  fmt : Nat := 0
  tenant : Nat := 0
  n : Nat := 0
  dropNo : Option Nat := none
  deriving DecidableEq, Repr

/-- All contexts; `nextNew` is the lowest never-used index, `dropCount` orders drops, `accepts` the acceptance times of
steps by context index (10 R307). -/
structure Contexts where
  recs : SMap Ctx := []
  nextNew : Nat := 0
  dropCount : Nat := 0
  accepts : List (Nat × BitVec 64) := []
  deriving DecidableEq, Repr

/-! ### Tier pages (10) -/

/-- What a tier page belongs to (04 R105, R106, 05 Table 47). Collection kinds: 0 code, 1 tag, 2 node, 3 entry,
4 side list, 5 tombstone. -/
inductive Owner where
  | kv (idx layer head j : Nat)
  | scale (idx layer head k : Nat)
  | coll (cid kind num : Nat)
  deriving DecidableEq, Repr

/-- The home of a page (10 Table 83). -/
inductive Home where
  | t1 (stack chan : Nat)
  | t2
  | t3
  deriving DecidableEq, Repr

/-- The readable state of a page's data (11 Table 94, 12 Table 112). -/
inductive DataState where
  | good
  | lost
  | unreadable
  | poisoned
  deriving DecidableEq, Repr

/-- One tier page, keyed by its tier slot (11 R317). `backSlc` says whether its flash location lies in SLC-mode blocks;
`moving` is the place a promotion in progress has taken, `rider` the TRS and command of the member whose riser makes it; `pend` the command
that has not committed the page yet (11 R329); `born` is the first epoch
that holds a collection page and `dead` the epoch whose commit replaced it (05 R151). -/
structure Page where
  owner : Owner
  tenant : Nat
  home : Home
  backSlc : Bool := false
  lastUse : BitVec 64 := 0
  state : DataState := .good
  moving : Option (Nat × Nat) := none
  rider : Option (Nat × Nat) := none
  pend : Option Nat := none
  born : Nat := 0
  dead : Option Nat := none
  deriving DecidableEq, Repr

/-- The kinds of frame (10 Table 85). -/
inductive FrameKind where
  | riser (trs id layer : Nat)
  | warm
  | transient (trs id : Nat)
  | scratch (trs id : Nat)
  deriving DecidableEq, Repr

/-- One frame of a flash-homed page, or a function scratch page of a command, which is no tier slot's (10 R293). -/
structure Frame where
  fid : Nat
  page : Nat
  kind : FrameKind
  stack : Nat
  chan : Nat
  tenant : Nat
  placed : Bool := true
  filled : Bool := false
  deriving DecidableEq, Repr

/-- One hub cache line (10 R310), most recently used first in the list. -/
structure CacheLine where
  key : Nat
  set : Nat
  way : Nat
  deriving DecidableEq, Repr

/-- Homes, frames and the hub cache. -/
structure Tiers where
  pages : List (Nat × Page) := []
  frames : List Frame := []
  nextFrame : Nat := 0
  withdrawn : SMap Nat := []
  dramPending : List (Nat × Nat × Nat) := []
  cache : List CacheLine := []
  cacheOut : List Nat := []
  deriving DecidableEq, Repr

/-! ### Collections (05) -/

/-- One code of a collection: `insSeq` the commit sequence of its INSERT, `folded` the epoch number whose index first
holds it, `tombSeq` the commit sequence of its DELETE, `removed` the epoch that dropped it, `edges` a node's neighbours (ordinals) at each
level from 0, `past` the lists that earlier epochs read, with the last such epoch. -/
structure Code where
  ord : Nat
  cid : Nat
  attr : Nat
  bits : Nat
  insSeq : Nat
  folded : Option Nat := none
  tombSeq : Option Nat := none
  removed : Option Nat := none
  level : Nat := 0
  edges : List (List Nat) := []
  past : List (Nat × List (List Nat)) := []
  deriving DecidableEq, Repr

/-- An anneal round (05 R155): what stood at its start, the number of its draw, and the entry that will commit the pages it has put into
the write buffer before its commit (11 R329). -/
structure Round where
  insSeq : Nat
  count : Nat
  charged : Nat
  foreground : Bool
  free : Nat := 0
  group : Nat := 0
  deriving DecidableEq, Repr

/-- One collection (05 Table 46, Table 49). `epochNo` counts epochs without wrapping; EPOCH is it modulo 2^32. `lost` holds
the ordinals counted in LOST, `again` says that a reset ended a round, which starts again (05 R155), `scanEpoch` the epoch of the running FLAT scan. -/
structure Coll where
  live : Bool := false
  width : Nat := 0
  kind : Nat := 0
  residency : Nat := 0
  degree : Nat := 0
  buildCand : Nat := 0
  tenant : Nat := 0
  epochNo : Nat := 0
  commitSeq : Nat := 0
  nextOrd : Nat := 0
  codes : List Code := []
  held : Bool := false
  round : Option Round := none
  again : Bool := false
  scanEpoch : Option Nat := none
  lost : List Nat := []
  deriving DecidableEq, Repr

/-! ### Heats (04 R134) -/

/-- The forming heat's window, the layers of running heats (TRS, command, layer), and members that have ended and leave at
the next boundary (context index, TRS, command). -/
structure Heats where
  windowOpen : Bool := false
  leaving : List (Nat × Nat × Nat × Step) := []
  running : List (Nat × Nat × Nat) := []
  deriving DecidableEq, Repr

/-! ### Flash (11) -/

/-- A map entry (11 Table 94). -/
structure MapEntry where
  addr : FlashAddr := 0
  st : BitVec 3 := 0
  slc : Bool := false
  deriving DecidableEq, Repr

/-- What a unit is programmed for (11 Table 97, Table 144 FLASH_BYTES). -/
inductive Purpose where
  | volume
  | tier
  | store
  | gc
  | fold
  | wear
  | refresh
  deriving DecidableEq, Repr

/-- A unit in the write buffer (11 R320, R329): `accs` holds the acceptance numbers of the commands whose writes the image carries and
that no programmed image carries yet, `group` the GROUP of Table 96. `progAt` and `mapSeq` say its program has passed and which entry
maps it; `cmd` is the command that has not committed the unit yet: once programmed, such a unit takes no room in the buffer. -/
structure BufUnit where
  unit : Nat
  accs : List Nat := []
  group : Nat := 0
  progAt : Option FlashAddr := none
  mapSeq : Option Nat := none
  cmd : Option Nat := none
  deriving DecidableEq, Repr

/-- The tag in a page's spare area (11 R326, Table 96); a page that holds no unit has all ones. `kind` 0 data, 1 journal,
2 checkpoint, 3 root. -/
structure Tag where
  unit : Nat
  seq : Nat
  group : Nat
  copy : Bool
  kind : Nat
  check : BitVec 32
  deriving DecidableEq, Repr

/-- Journal records (11 Table 95). -/
inductive Rec where
  | map (unit : Nat) (addr : FlashAddr)
  | relocate (unit : Nat) (src dst : FlashAddr)
  | unmap (first count : Nat)
  | object (kind id : Nat)
  | state (first count : Nat) (st : BitVec 3)
  | retire (block reason : Nat)
  | checkpoint (seg covered : Nat)
  deriving DecidableEq, Repr

/-- A journal entry (11 R322). -/
structure JEntry where
  seq : Nat
  recs : List Rec
  durable : Bool := false
  deriving DecidableEq, Repr

/-- One unit under relocation (11 Table 99): `stage` 0 reading, 1 programmed, 2 verified, 3 RELOCATE committed, 4 durable. -/
structure RelocUnit where
  unit : Nat
  src : FlashAddr
  copy : FlashAddr := 0
  stage : Nat := 0
  seq : Nat := 0
  deriving DecidableEq, Repr

/-- A relocation out of a superblock (11 R334); `page` names the tier slot whose fold it is (10 R308). -/
structure Reloc where
  sb : Nat
  purpose : Purpose
  page : Option Nat := none
  units : List RelocUnit
  deriving DecidableEq, Repr

/-- A write-origin window (11 R357): the WRITE's TRS, acceptance number and range. -/
structure Origin where
  trs : Nat
  acc : Nat
  vol : Nat
  lba : Nat
  n : Nat
  deriving DecidableEq, Repr

/-- States of a superblock (11 R315, R333). -/
inductive SbState where
  | free
  | openSlc
  | openQlc
  | openCopy
  | openJournal
  | closed
  deriving DecidableEq, Repr

/-- A superblock, keyed `(island * 17 + pos) * 2520 + block`. -/
structure Superblock where
  slc : Bool := false
  st : SbState := .free
  closedAt : BitVec 64 := 0
  reserve : Bool := false
  deriving DecidableEq, Repr

/-- A block (11 R327, R342 to R345, R353): wear in twentieths of an equivalent cycle; `doomed` is the reason for which it retires
once no map entry names it. -/
structure Block where
  wear20 : Nat := 0
  reads : Nat := 0
  progAt : Nat := 0
  progTemp : Int := 0
  retired : Option Nat := none
  doomed : Option Nat := none
  lastStep : Nat := 0
  deriving DecidableEq, Repr

/-- A die, keyed `chan * 17 + pos` (11 R348, R355). `serves` is the position whose place a spare die takes; `fails` counts
operations in a row not completed within 100 ms. -/
structure Die where
  suspended : Bool := false
  fails : Nat := 0
  lost : Bool := false
  serves : Option Nat := none
  deriving DecidableEq, Repr

/-- A pattern store object (14 R421, R422): its digest, length, first unit from the pattern store's base, and the byte ranges
that it holds. -/
structure StoreObj where
  digest : List Byte
  len : Nat
  base : Nat
  got : List (Nat × Nat) := []
  deriving DecidableEq, Repr

/-- Flash translation state. `data` holds the content of every unit by byte, whatever holds it; `map` is the map in force,
`base` the image of it that the checkpoints cover (11 R327), from which S4 replays the journal (11 R340). `tags` holds the tag of every
programmed data page by its flash address, `journalTag` and `ckptTag` that of the newest journal and checkpoint page, `rewrites` the units
of T1 homes whose lost backing location waits to be written again (11 R356), `mismatch` the units whose stored bytes fail their page check on flash (12 R364). -/
structure Flash where
  data : Mem := []
  check : SMap (Option (BitVec 64)) := []
  map : SMap MapEntry := []
  base : SMap MapEntry := []
  mapRebuilds : Nat := 0
  wbuf : List BufUnit := []
  journal : List JEntry := []
  tags : SMap (Option Tag) := []
  journalTag : Option Tag := none
  ckptTag : Option Tag := none
  rewrites : List Nat := []
  mismatch : List Nat := []
  seq : Nat := 0
  pendBytes : Nat := 0
  relocs : List Reloc := []
  sbs : SMap Superblock := []
  blocks : SMap Block := []
  dies : SMap Die := []
  reserveReady : Bool := true
  ckpt : SMap (List Nat) := []
  mediaMinutes : Nat := 0
  hostTb : Option (BitVec 64) := none
  origins : List Origin := []
  calib : SMap Int := []
  stage : Nat := 0
  wearNotice : Nat := 0
  spareBytes : Nat := 61440000000000
  keyGen : Nat := 0
  objects : List StoreObj := []
  deriving DecidableEq, Repr

/-! ### Cores and engines (07, 08, 09) -/

/-- A tile (07 R225). `lines` are the output lines it declares to write, as (memory, line): 0 its scratchpad extent, 1 its job's core SRAM,
2 the command's function scratch; `groupPath` says it runs on the group path (09 R277), `kat` names the engine whose known-answer test it is
(12 R361). -/
structure Tile where
  job : Nat
  index : Nat
  cls : Nat
  shape : Nat
  live : Nat
  cycles : Nat
  lines : List (Nat × Nat) := []
  groupPath : Bool := false
  kat : Option Nat := none
  deriving DecidableEq, Repr

/-- A job on one core (07 R225, R227): its command, the semaphores and core SRAM it needs, whether it has been placed, its assigned blocks
of semaphores and SRAM, and its batch. -/
structure Job where
  jid : Nat
  trs : Nat
  id : Nat
  slot : Nat
  tenant : Nat
  sems : Nat
  sram : Nat
  placed : Bool := false
  block : Option Nat := none
  base : Nat := 0
  batch : Nat := 0
  deriving DecidableEq, Repr

/-- A stationary set (07 R206, Table 67): the format, the 32-bit registers of the partition's cells by `row * 32 + column`, and the MX scale
codes of its rows. -/
structure CellSet where
  fmt : Nat := 0
  cells : SMap (BitVec 32) := []
  scales : List Nat := []
  deriving DecidableEq, Repr

/-- What an accumulator write adds to its entry (08 R256, R260). -/
inductive AccTerm where
  | int (x : Int) (sat : Bool)
  | float (v : Val)
  deriving DecidableEq, Repr

/-- An issued accumulator write that has not completed (07 R209, R213). -/
structure AccWrite where
  row : Nat
  entry : Nat
  term : AccTerm
  deriving DecidableEq, Repr

/-- A transfer in flight (07 R205). -/
structure Transfer where
  src : Place
  dst : Place
  n : Nat
  deriving DecidableEq, Repr

/-- What a tile has made of one output until its boundary releases it: the values and bytes of a watched output, and the counts of its
conversions for the tensor they produce (09 R278, 16 R472). -/
structure OutRun where
  watch : Option WatchTag
  tensor : Option Nat
  reals : List (BitVec 32) := []
  bytes : List Byte := []
  n : Nat := 0
  clipped : Nat := 0
  use : BitVec 32 := 0
  deriving DecidableEq, Repr

/-- A partition of an array with what its tile holds of the engine (07 R204, R210 to R214, R218): the working and shadow registers of its
cells, its accumulator entries by `row * 32 + entry` with the writes still under way, its vector registers by `register * 128 + lane`, the
start of its tile's scratchpad extent, its transfers in flight. `token` says the retirement token of the pass has arrived, `queued` holds
reloads that wait for the swap, `flagged` that an addition was clamped (09 R277), `poisoned` that the tile has read poison, `wrote` the
lines it has written. -/
structure Part where
  tile : Option Tile := none
  passRunning : Bool := false
  token : Bool := false
  shadowReady : Bool := false
  queued : List (Nat × Nat × Nat) := []
  working : CellSet := {}
  shadow : CellSet := {}
  accum : SMap (BitVec 32) := []
  writes : List AccWrite := []
  flagged : Bool := false
  vregs : SMap (BitVec 32) := []
  base : Nat := 0
  flight : List Transfer := []
  poisoned : Bool := false
  wrote : List (Nat × Nat) := []
  outs : List OutRun := []
  deriving DecidableEq, Repr

/-- An engine (07 R204, R222, R231, R447), keyed by its physical number within its core; `logical` is its number in service, `bad` the
poisoned 64-byte lines of its scratchpad. The cycle and time counters are those of 16 Table 144; `phase` is the part of an engine cycle that
the last crystal cycle left over, in units in which an engine cycle at stretch s has 64 + s (15 R446, R451). -/
structure Engine where
  pass : Bool := false
  logical : Option Nat := none
  disabled : Bool := false
  stopped : Bool := true
  govStopped : Bool := false
  checking : Bool := false
  faultAt : Option (BitVec 64) := none
  parts : List Part := [{}, {}, {}, {}]
  scratchpad : Mem := []
  bad : SMap Bool := []
  preempt : Bool := false
  faultParts : Nat := 0
  cycles : BitVec 64 := 0
  busyCycles : BitVec 64 := 0
  stretchedNs : BitVec 64 := 0
  stoppedNs : BitVec 64 := 0
  phase : Nat := 0
  deriving DecidableEq, Repr

/-- The state that an engine-level save has put into the engine save area (07 R231): the partitions with their registers, and the live
scratchpad bytes. -/
structure Saved where
  eng : Nat
  parts : List Part
  scratchpad : Mem
  bad : SMap Bool
  deriving DecidableEq, Repr

/-- A semaphore (07 R227): the tile (job, index) that holds it, for its engine partition, and the queue of requests in arrival order. -/
structure Sem where
  holder : Option (Nat × Nat) := none
  queue : List (Nat × Nat) := []
  deriving DecidableEq, Repr

/-- A core (07 R204, R226, R227): engines, ready tiles, jobs, semaphores, SRAM with its poisoned lines, the function scratch pages in its
stack by `frame * 65536 + offset` with theirs, and the engine save area. `served` counts the tiles dispatched per class and tenant for the
weighted round robin. -/
structure Core where
  engines : SMap Engine := []
  ready : List Tile := []
  jobs : List Job := []
  sems : SMap Sem := []
  sram : Mem := []
  badSram : SMap Bool := []
  scratch : Mem := []
  badScratch : SMap Bool := []
  saves : List Saved := []
  served : List (Nat × Nat × Nat) := []
  deriving DecidableEq, Repr

/-- The counts of a batch at one tensor's output conversion (09 R278). -/
structure BatchCount where
  tensor : Nat
  n : Nat := 0
  clipped : Nat := 0
  use : BitVec 32 := 0
  outputs : List Nat := []
  deriving DecidableEq, Repr

/-- A batch (09 R280): one dispatch of a slot's work for one command, with the multipliers in force at its dispatch by tensor, what its
conversions have counted, the items of the command that later batches take, and where they run. -/
structure Batch where
  no : Nat
  slot : Nat
  trs : Nat
  id : Nat
  tenant : Nat
  cls : Nat
  cores : List Nat
  left : Nat
  mults : List (Nat × BitVec 32)
  counts : List BatchCount := []
  rerun : Bool := false
  deriving DecidableEq, Repr

/-- Adaptation state (09 R280). -/
structure Adapt where
  mult : BitVec 32 := 0x3F800000
  quiet : Nat := 0
  pinned : Bool := false
  deriving DecidableEq, Repr

/-- All cores and the adaptation states keyed `(slot * 65536 + tensor) * 256 + tenant`. -/
structure Cores where
  cores : SMap Core := []
  adapt : SMap Adapt := []
  nextJob : Nat := 0
  batches : List Batch := []
  nextBatch : Nat := 0
  deriving DecidableEq, Repr

/-! ### Integrity (12) -/

/-- States of a hub control processor (12 R378 to R381). -/
inductive ProcSt where
  | unassigned
  | failed
  | active
  | spare
  | faulted
  deriving DecidableEq, Repr

/-- A processor with the mask of duty kinds it holds (13 Table 119 PROC_MAP, bit k − 1 for duty code k). -/
structure Proc where
  st : ProcSt := .unassigned
  duties : Byte := 0
  deriving DecidableEq, Repr

/-- Repair resources and leaky buckets. -/
structure Integ where
  remap : SMap Nat := []
  sram : SMap Nat := []
  lanes : SMap Nat := []
  buckets : SMap Nat := []
  procs : SMap Proc := []
  deriving DecidableEq, Repr

/-! ### Pattern memory (14) -/

/-- A NOR operation in progress or waiting, in arrival order (14 R409, R410, R431). -/
inductive NorOp where
  | program (addr : Nat) (bytes : List Byte) (window : Bool)
  | erasing (sector : Nat) (window : Bool)
  deriving DecidableEq, Repr

/-- A staging session (14 R423 to R427) with the image ranges written. -/
structure Session where
  gen : BitVec 32
  len : Nat
  target : Slot
  written : List (Nat × Nat) := []
  deriving DecidableEq, Repr

/-- The NOR (an unlisted byte is erased), its withdrawn logged sectors, the pattern window, staging, attestation state and the mailbox's background command. -/
structure Nor where
  mem : Mem := []
  ops : List NorOp := []
  suspended : Bool := false
  session : Option Session := none
  enabled : Bool := false
  keyHalf : Bool := false
  armed : Bool := false
  lastResult : Nat := 0
  pwAddr : BitVec 32 := 0
  pwLen : BitVec 32 := 0
  pwBuf : BitVec 2048 := BitVec.allOnes 2048
  gone : List Nat := []
  xmssBlock : Option Nat := none
  xmssLeaf : Nat := 0
  bg : Option (BitVec 16 × Nat) := none
  sanitize : Nat := 0
  wipeEpoch : Bool := false
  deriving DecidableEq, Repr

/-! ### Governor, power and hold-up (15, 17) -/

/-- A hold-up cell (17 R489): capacitance in µF, series resistance in mΩ. -/
structure Cell where
  cap : Nat := 1000
  res : Nat := 10
  isolated : Bool := false
  deriving DecidableEq, Repr

/-- Governor and power input. Powers in mW, temperatures in 0.1 °C. `sums` and `means` hold input power and the five subsystems
over a window; `thermal` keys by sensor the responses in force (bit 0 refresh, 1 throttle, 2 critical); `cause` is the quench's. -/
structure Gov where
  stretch : Nat := 0
  quench : Bool := false
  cause : Nat := 0
  tripped : Bool := false
  overSamples : Nat := 0
  count : Nat := 0
  sums : List Nat := [0, 0, 0, 0, 0, 0]
  means : List Nat := [0, 0, 0, 0, 0, 0]
  alloc : List Nat := [0, 0, 0]
  throttled : List Bool := [false, false, false]
  bgTiles : Bool := false
  bgDram : Bool := false
  bgFlash : Bool := false
  dramGaps : Nat := 0
  dieLimit : Nat := 512
  progLimit : Nat := 256
  islandProg : List Nat := [32, 32, 32, 32, 32, 32, 32, 32]
  stoppedPerCore : Nat := 0
  thermal : SMap Nat := []
  temps : List Int := List.replicate 42 250
  inputMv : Nat := 48000
  inputMa : Nat := 0
  progStopped : Bool := false
  powerLost : Bool := false
  cells : List Cell := List.replicate 9 {}
  nextCell : Nat := 0
  charged : Bool := false
  bankTested : Bool := false
  measuring : Bool := false
  deriving DecidableEq, Repr

/-! ### Counters, events, sideband (16, 17) -/

/-- A CXL event log record: handle, timestamp and the 80 bytes of Table 149, or of a General Media Event Record (12 R377). -/
structure EvRec where
  handle : BitVec 16
  time : BitVec 64
  data : List Byte
  media : Bool := false
  deriving DecidableEq, Repr

/-- A watch record (16 Table 148). -/
structure Watch where
  slot : Nat
  output : Nat
  tenant : Nat
  count : BitVec 64 := 0
  nonfinite : BitVec 64 := 0
  clipped : BitVec 64 := 0
  minV : BitVec 32 := 0
  maxV : BitVec 32 := 0
  meanV : BitVec 32 := 0
  useMax : BitVec 32 := 0
  mult : BitVec 32 := 0x3F800000
  quiet : Nat := 0
  pinned : Bool := false
  adapted : Bool := false
  recoveries : BitVec 64 := 0
  digest : Option (BitVec 64) := none
  placement : BitVec 64 := 0
  deriving DecidableEq, Repr

/-- The watch record that a running command builds, with the tiles it has run: index, core, engine, partition (16 R474, R475). -/
structure WatchRun where
  trs : Nat
  id : Nat
  watch : Watch
  tiles : List (Nat × Nat × Nat × Nat) := []
  deriving DecidableEq, Repr

/-- Counters (keyed `kind * 65536 + instance`), event queues of the four CXL logs, NOR event queue and sideband. -/
structure Tele where
  counters : SMap (BitVec 64) := []
  logs : List (List EvRec) := [[], [], [], []]
  overflow : List Nat := [0, 0, 0, 0]
  overTimes : List (BitVec 64 × BitVec 64) := List.replicate 4 (0, 0)
  nextHandle : BitVec 16 := 1
  eventSeq : BitVec 32 := 0
  norQueue : List (List Byte) := []
  lostBefore : Bool := false
  ringPos : Nat := 0
  healthPos : Nat := 0
  intPolicy : List Byte := [0, 0, 0, 0]
  watchLast : List (Nat × Watch) := []
  watchRun : List WatchRun := []
  watchCum : List Watch := []
  dynAddr : Option (BitVec 7) := none
  eid : Option Byte := none
  receiver : Option Byte := none
  deriving DecidableEq, Repr

/-! ### What leaves the device -/

/-- Mailbox return codes (14 R428, 02 R55). -/
inductive Rc where
  | success
  | backgroundStarted
  | invalidInput
  | unsupported
  | internalError
  | busy
  | mediaDisabled
  | invalidPayloadLength
  | invalidSecurityState
  | invalidHandle
  deriving DecidableEq, Repr

/-- One transaction or answer that the device sends. A DMA request carries the device's requester ID and no PASID (02 R50); `relaxed`
is the Relaxed Ordering attribute (02 R51, 03 R84), `ep` the EP bit (02 Table 13), which no rule has the device set. A completion
answers a CXL.io read, `readData` a CXL.mem read. -/
inductive Out where
  | dmaRead (rid : BitVec 16) (addr len : Nat)
  | dmaWrite (rid : BitVec 16) (addr : Nat) (bytes : List Byte) (relaxed ep : Bool)
  | completion (bytes : List Byte) (relaxed ep : Bool)
  | msix (vector : Nat)
  | biSnp (base len : Nat)
  | readData (bytes : List Byte) (poison : Bool)
  | ur
  | aerFatalInternal
  | vendorMessage (route : BitVec 3) (code : Byte) (vendor : BitVec 16) (word : BitVec 32)
  | recoverySpeed (er : Bool)
  | mailbox (rc : Rc) (payload : List Byte)
  | doe (payload : List Byte)
  | pldm (payload : List Byte)
  | platformEvent (sensor : Nat) (value : Int)
  | i3cAck (ok : Bool)
  deriving DecidableEq, Repr

/-! ### The whole state -/

/-- The state of the block. -/
structure State where
  pending : List Instr := []
  outbox : List Out := []
  freeCount : Nat := 0
  aon : Aon := {}
  boot : Boot := {}
  isl : Islands := {}
  link : Link := {}
  tun : Tundish := {}
  trs : SMap Trs := []
  cmd : Intake := {}
  pol : Policy := {}
  ctx : Contexts := {}
  tier : Tiers := {}
  coll : SMap Coll := []
  heat : Heats := {}
  fl : Flash := {}
  core : Cores := {}
  integ : Integ := {}
  nor : Nor := {}
  gov : Gov := {}
  tele : Tele := {}
  deriving DecidableEq, Repr

/-- The reasons a step stops the block. -/
inductive Fault where
  /-- Raised by a row that names a TRS, an offset or an address outside every window the spec gives the device (02 R38,
  R43): no such address exists. Safe: the model stops where no transaction can reach the device. -/
  | noSuchAddress
  deriving DecidableEq, Repr

/-- The reasons a command has no meaning. -/
inductive Refusal where
  /-- Raised by a Dispatch arm whose command has no meaning yet. Safe. -/
  | notModelled (mnemonic : String)
  deriving DecidableEq, Repr

/-- What one command answers. -/
abbrev Result := Host.Outcome State Fault Refusal

/-- The block right after power-on reset, both reset sources released and stage S0 running (13 R384; log 5): every field
at the reset value above. -/
def State.reset : State := {}

end Sys2Proof.Machine
end

