-- ==== Sys2Proof/Machine/Ops.lean ====
section
/-! DEFINITION. The named operations that every chapter's meanings share: time, what leaves the device, free values,
counters, events, task register pages, completions and vectors, and the tundish. -/
namespace Sys2Proof.Machine

/-! ### Time, output, free values -/

/-- The device timebase in nanoseconds (15 R448). -/
def now (s : State) : BitVec 64 := s.aon.timebase

/-- Nanoseconds of one crystal cycle (15 R448). -/
def crystalNs : BitVec 64 := 40

/-- The device sends `o` (log 3). -/
def emit (o : Out) (s : State) : State := { s with outbox := s.outbox ++ [o] }

/-- The device sends each of `os`, in order. -/
def emitAll (os : List Out) (s : State) : State := { s with outbox := s.outbox ++ os }

/-- The number of the next free value (log 7). -/
def draw (s : State) : Nat := s.freeCount

/-- The state after `n` free values have been drawn. -/
def drawn (n : Nat) (s : State) : State := { s with freeCount := s.freeCount + n }

/-! ### Counters (16 R463, R464) -/

/-- Adds `n` to an instance of a counter kind; counters wrap modulo 2^64 (16 R463). -/
def bump (kind inst n : Nat) (s : State) : State :=
  { s with tele := { s.tele with
      counters := SMap.modify 0 s.tele.counters (kind * 65536 + inst) (· + BitVec.ofNat 64 n) } }

/-- The count of an instance of a counter kind. -/
def counted (kind inst : Nat) (s : State) : BitVec 64 := SMap.find 0 s.tele.counters (kind * 65536 + inst)

/-! ### Events (16 R477 to R480) -/

/-- Whether the hub island's time is approximate (15 R450). -/
def tsApprox (s : State) : Bool := decide (Island.hub ∈ s.isl.approx)

/-- The 80 bytes of Table 149. -/
def eventData (ev log : Nat) (approx lost : Bool) (seq whr d0 d1 : Nat) : List Byte :=
  bytesOf 2 ev ++ bytesOf 1 log ++ bytesOf 1 (approx.toNat + 2 * lost.toNat) ++ bytesOf 4 seq ++ bytesOf 8 whr
    ++ bytesOf 8 d0 ++ bytesOf 8 d1 ++ List.replicate 48 0

/-- The Imiaran event record identifier (16 R477), in the byte order that CXL 3.1 gives UUIDs (log 13). -/
def imiaranUuid : List Byte :=
  [0x6C, 0x59, 0x4D, 0x31, 0x8E, 0x2A, 0x4B, 0x07, 0xA3, 0xD5, 0x90, 0xF1, 0xC4, 0xE7, 0xB2, 0x6A]

/-- The General Media Event Record identifier of CXL 3.1 (12 R377; PRESUMED, log 13). -/
def mediaUuid : List Byte :=
  [0xFB, 0xCD, 0x0A, 0x77, 0xC2, 0x60, 0x41, 0x7F, 0x85, 0xA9, 0x08, 0x8B, 0x16, 0x21, 0xEB, 0xA6]

/-- A 128-byte CXL event record: identifier, length, flags, handle, timestamp, then the data (16 R477; header layout
PRESUMED from CXL 3.1, log 13). The flags hold the log number. -/
def recordBytes (r : EvRec) : List Byte :=
  (if r.media then mediaUuid else imiaranUuid) ++ bytesOf 1 128 ++ (if r.media then [2] else (r.data.drop 2).take 1) ++ bytesOf 2 0 ++ bytesOf 2 r.handle.toNat ++ bytesOf 2 0
    ++ bytesOf 8 r.time.toNat ++ bytesOf 16 0 ++ r.data

/-- The entry of MSI-X vector `v`. -/
def msixEntry (s : State) (v : Nat) : MsixEntry := SMap.find {} s.link.msix v

/-- The coalescing state of vector `v`. -/
def vecOf (s : State) (v : Nat) : Vec := SMap.find {} s.link.vec v

/-- Replaces the coalescing state of vector `v`. -/
def setVec (v : Nat) (x : Vec) (s : State) : State :=
  { s with link := { s.link with vec := SMap.put {} s.link.vec v x } }

/-- The function sends MSI-X messages: enabled, not masked as a function, a bus master in D0 (PCIe; log 13). -/
def msixOn (s : State) : Bool :=
  s.link.cfg.msixEnable && !s.link.cfg.msixFnMask && s.link.cfg.busMaster && !s.link.cfg.d3hot

/-- The device signals vector `v`: its message, or its PBA bit while the vector is masked (02 R54) or the function sends none. -/
def signal (v : Nat) (s : State) : State :=
  if (msixEntry s v).mask || !msixOn s then setVec v { vecOf s v with pba := true } s else emit (.msix v) s

/-- Queues a record to its CXL log; a full queue of 1,024 drops it and counts the overflow (16 R479). The first record of
an empty log interrupts where the policy says so (CXL 3.1, log 13). -/
def logRecord (log : Nat) (media : Bool) (data : List Byte) (s : State) : State :=
  let q := s.tele.logs.getD log []
  if q.length < 1024 then
    let r : EvRec := { handle := s.tele.nextHandle, time := now s, data := data, media := media }
    let h := s.tele.nextHandle + 1
    let s1 := { s with tele := { s.tele with logs := s.tele.logs.set log (q ++ [r]),
                                             nextHandle := if h = 0 then 1 else h } }
    if q.isEmpty ∧ s.tele.intPolicy.getD log 0 &&& 3 = 1 then signal 0 s1 else s1
  else
    let n := s.tele.overflow.getD log 0
    let first := if n = 0 then now s else (s.tele.overTimes.getD log (0, 0)).1
    { s with tele := { s.tele with overflow := s.tele.overflow.set log (n + 1),
                                   overTimes := s.tele.overTimes.set log (first, now s) } }

/-- The number of the stage whose end opens the CXL logs and the NOR ring (16 R480). -/
def eventsOpen (s : State) : Bool := decide (3 ≤ s.boot.stage) || s.boot.mailboxReady

/-- Raises an event (16 R477 to R480): before the end of S2 it goes only to the start log; afterwards to its CXL log and to
the queue of the NOR ring, or is counted as lost. -/
def raise (ev log whr d0 d1 : Nat) (s : State) : State :=
  let seq := s.tele.eventSeq
  let s0 := { s with tele := { s.tele with eventSeq := seq + 1 } }
  if eventsOpen s then
    if s.tele.norQueue.length < 4096 then
      let data := eventData ev log (tsApprox s) s.tele.lostBefore seq.toNat whr d0 d1
      let s1 := logRecord log false data s0
      { s1 with tele := { s1.tele with
          norQueue := s1.tele.norQueue ++ [recordBytes { handle := s.tele.nextHandle, time := now s, data := data }],
          lostBefore := false } }
    else
      let s1 := logRecord log false (eventData ev log (tsApprox s) false seq.toNat whr d0 d1) s0
      bump 0x60 5 1 { s1 with tele := { s1.tele with lostBefore := true } }
  else
    { s0 with boot := { s0.boot with
        earlyEvents := s0.boot.earlyEvents ++ [(now s, eventData ev log (tsApprox s) false seq.toNat whr d0 d1)] } }

/-! ### Sideband notices (16 R482) -/

/-- A PlatformEventMessage for a state sensor's change or a threshold crossing, to the receiver that SetEventReceiver set. -/
def platform (sensor : Nat) (value : Int) (s : State) : State :=
  if s.tele.receiver.isSome then emit (.platformEvent sensor value) s else s

/-! ### Training (02 Table 13) -/

/-- The lanes of a width that Table 13 lists: x8 or a degraded x4, x2, x1. -/
def trainedWidth (lanes : Nat) : Nat := if 8 ≤ lanes then 8 else if 4 ≤ lanes then 4 else if 2 ≤ lanes then 2 else 1

/-- The link trains: at 64 GT/s or below (02 R62), on eight lanes or fewer. -/
def trained (tr : Training) (l : Link) : Link :=
  { l with rate := if tr.rate = .er then .gt64 else tr.rate, width := trainedWidth tr.lanes, recovery := false }

/-! ### Task register pages (03 R66 to R76) -/

/-- A window decodes: its BAR is programmed, Memory Space Enable is 1 and the function is in D0 (PCIe; log 13). -/
def decodes (s : State) (bar : Option (BitVec 64)) : Bool := bar.isSome && s.link.cfg.memEnable && !s.link.cfg.d3hot

/-- TRS page `t`. -/
def getTrs (s : State) (t : Nat) : Trs := SMap.find {} s.trs t

/-- Replaces TRS page `t`. -/
def setTrs (t : Nat) (p : Trs) (s : State) : State := { s with trs := SMap.put {} s.trs t p }

/-- Changes TRS page `t`. -/
def modTrs (t : Nat) (f : Trs → Trs) (s : State) : State := setTrs t (f (getTrs s t)) s

/-- The held command `id` of TRS `t`. -/
def heldOf (s : State) (t id : Nat) : Option Held := (getTrs s t).held.find? (fun h => h.id == id)

/-- Changes the held command `id` of TRS `t`. -/
def modHeld (t id : Nat) (f : Held → Held) (s : State) : State :=
  modTrs t (fun p => { p with held := p.held.map (fun h => if h.id = id then f h else h) }) s

/-- A TRS admits a requester whose ID its binding lists (02 R42, 03 R69). -/
def admits (s : State) (t : Nat) (rid : BitVec 16) : Bool :=
  (getTrs s t).bind.valid && decide (rid ∈ (getTrs s t).bind.rids)

/-- AER status bits set: Uncorrectable and Correctable Error Status (PCIe; log 13). -/
def aerLog (uncorr corr : BitVec 32) (l : Link) : Link :=
  { l with cfg := { l.cfg with aerUncorr := l.cfg.aerUncorr ||| uncorr, aerCorr := l.cfg.aerCorr ||| corr } }

/-- A refused BAR2 write: discarded, logged as an advisory non-fatal Unsupported Request error, counted (02 R42, 16 Table 144). -/
def refuseWrite (s : State) : State := bump 0x60 2 1 { s with link := aerLog 0x100000 0x2000 s.link }

/-- A refused BAR2 read: completed with Unsupported Request, counted (02 R42). -/
def refuseRead (s : State) : State := bump 0x60 2 1 (emit .ur s)

/-- Every held command of the device with its TRS. -/
def allHeld (s : State) : List (Nat × Held) :=
  s.trs.flatMap (fun e => e.2.held.map (fun h => (e.1, h)))

/-- Whether a command has reached DONE or ERROR. -/
def Held.ended (h : Held) : Bool := decide (h.phase = .done ∨ h.phase = .error)

/-- A held command whose ending is not decided yet (03 R93). -/
def Held.undecided (h : Held) : Bool := !h.ended && h.ending.isNone

/-- The opcode of a held command. -/
def Held.op (h : Held) : Nat := fld h.desc 0 1

/-- Whether a command set IRQ (03 R79). -/
def Held.irq (h : Held) : Bool := bitOf (fld h.desc 1 1) 0

/-! ### Volatile memory of the tundish (02 R43 to R47) -/

/-- The size of the tundish in bytes (02 R43). -/
def tundishSize : Nat := 954 * 2 ^ 28

/-- `n` bytes of the tundish. -/
def tunRead (s : State) (a n : Nat) : List Byte := SMap.getList 0 s.tun.mem a n

/-- Writes bytes to the tundish; a line written whole holds no poison any more (02 R47; log 32). -/
def tunWrite (a : Nat) (bytes : List Byte) (s : State) : State :=
  { s with tun := { s.tun with
      mem := SMap.putList 0 s.tun.mem a bytes,
      poison := s.tun.poison.filter (fun (e : Nat × Bool) => !decide (a ≤ 64 * e.1 ∧ 64 * e.1 + 64 ≤ a + bytes.length)) } }

/-- The 64-byte lines that `[a, a + n)` touches. -/
def linesOf (a n : Nat) : List Nat := if n = 0 then [] else List.range' (a / 64) ((a + n - 1) / 64 - a / 64 + 1)

/-- Marks or clears poison on a line (02 R47). -/
def setPoison (line : Nat) (p : Bool) (s : State) : State :=
  { s with tun := { s.tun with poison := SMap.put false s.tun.poison line p } }

/-- Whether any line of `[a, a + n)` is poisoned (02 R47). -/
def poisonedAt (s : State) (a n : Nat) : Bool :=
  s.tun.poison.any (fun e => e.2 && decide (a / 64 ≤ e.1) && decide (e.1 * 64 < a + n))

/-- The committed decoders cover the whole tundish (02 R44). -/
def tundishCommitted (s : State) : Bool := decide (s.link.dec0.getD 0 + s.link.dec1.getD 0 = 954)

/-! ### Counter sets of a TRS (16 R465, R466) -/

/-- Adds to CURRENT of TRS `t`. -/
def addCurrent (t : Nat) (f : CtrSet → CtrSet) (s : State) : State := modTrs t (fun p => { p with current := f p.current }) s

/-- The command's tenant is the binding's (03 R71). -/
def tenantOf (s : State) (t : Nat) : Nat := (getTrs s t).bind.tenant

/-- Accounts `n` bytes read from host or peer memory for TRS `t` (16 Tables 144, 145). -/
def countHostRead (t n : Nat) (s : State) : State :=
  addCurrent t (fun c => { c with hostRd := c.hostRd + BitVec.ofNat 64 n })
    (bump 0x56 (tenantOf s t) n (bump 0x40 0 n s))

/-- The device can send requests of its own: the link is up, Bus Master Enable is 1 and the function is in D0 (PCIe; log 13). -/
def masters (s : State) : Bool := s.link.up && s.link.cfg.busMaster && !s.link.cfg.d3hot

/-- `n` bytes at `addr` cut at the multiples of `most`, as (address, length). -/
def pieces (most : Nat) : Nat → Nat → Nat → List (Nat × Nat)
  | 0, _, _ => []
  | fuel + 1, addr, n => if n = 0 then [] else
      let k := min n (most - addr % most)
      (addr, k) :: pieces most fuel (addr + k) (n - k)

/-- DMA writes of bytes for a requester ID, at most the maximum payload of 512 bytes each (02 Table 13). -/
def writeTlps (rid : BitVec 16) (relaxed : Bool) (addr : Nat) (bytes : List Byte) : List Out :=
  (pieces 512 (bytes.length / 512 + 2) addr bytes.length).map
    (fun r => .dmaWrite rid r.1 ((bytes.drop (r.1 - addr)).take r.2) relaxed false)

/-- What the device sends for a write of bytes to host memory. -/
def hostWrites (s : State) (addr : Nat) (bytes : List Byte) (relaxed : Bool) : List Out :=
  if masters s then writeTlps s.link.cfg.devId relaxed addr bytes else []

/-- The device writes bytes to host memory for TRS `t`: bulk data carries Relaxed Ordering, completion words do not (02 R51). A
device that cannot send requests writes nothing. -/
def dmaWrite (t addr : Nat) (bytes : List Byte) (relaxed : Bool) (s : State) : State :=
  if masters s then
    addCurrent t (fun c => { c with hostWr := c.hostWr + BitVec.ofNat 64 bytes.length })
      (bump 0x57 (tenantOf s t) bytes.length (bump 0x40 1 bytes.length (emitAll (hostWrites s addr bytes relaxed) s)))
  else s

/-- A DMA read of `n` bytes, split at the maximum read request of 4,096 bytes (02 Table 13). -/
def dmaReads (addr n : Nat) : List (Nat × Nat) := pieces 4096 (n / 4096 + 2) addr n

/-- What the device sends for DMA reads; a device that cannot send requests sends none. -/
def hostReads (s : State) (rs : List (Nat × Nat)) : List Out :=
  if masters s then rs.map (fun r => .dmaRead s.link.cfg.devId r.1 r.2) else []

/-- Issues the DMA reads of `n` bytes at `addr` for command `id` of TRS `t`. -/
def issueRead (t id addr n : Nat) (s : State) : State :=
  let rs := dmaReads addr n
  emitAll (hostReads s rs) (modHeld t id (fun h => { h with reads := h.reads ++ rs }) s)

/-! ### Completions (02 R53, R54, 03 R83) -/

/-- One pending completion on vector `v`: the message goes at the first of the COUNT_M1, HOLDOFF and ERR_BYPASS conditions,
tested with the VEC_COAL values as the completion arrives, and clears the count (02 R54). -/
def addCompletion (v : Nat) (isError : Bool) (s : State) : State :=
  let x := vecOf s v
  let pend := x.pend + 1
  let c := x.coal.toNat
  let holdoff := bitsOf c 8 16
  if bitsOf c 0 8 + 1 ≤ pend ∨ holdoff = 0 ∨ (isError ∧ bitOf c 24) then
    signal v (setVec v { x with pend := 0, timer := none } s)
  else setVec v { x with pend := pend, timer := some (x.timer.getD holdoff) } s

/-! ### Endings (03 R74, R76, R78, R81, R83, R85, R88) -/

/-- Status codes of Table 29. -/
def stOk : Byte := 0x00
def stShort : Byte := 0x01
def stInvalidOpcode : Byte := 0x02
def stInvalidField : Byte := 0x03
def stLength : Byte := 0x04
def stNotPermitted : Byte := 0x05
def stInputStalled : Byte := 0x06
def stCapacity : Byte := 0x07
def stMediaError : Byte := 0x08
def stMediaWorn : Byte := 0x09
def stDieLost : Byte := 0x0A
def stPoisoned : Byte := 0x0B
def stPartitionFault : Byte := 0x0C
def stQueueReset : Byte := 0x0D
def stFettle : Byte := 0x0E
def stHostAccess : Byte := 0x0F
def stStale : Byte := 0x10
def stCheckMismatch : Byte := 0x11
def stSemTimeout : Byte := 0x12

/-- OK and SHORT complete the command (DONE); every other code ends it in ERROR (03 R76, Table 29, log 15). -/
def endPhase (st : Byte) : Phase := if st = stOk ∨ st = stShort then .done else .error

/-- The DEFERRED word of an error, with MORE and LOST (03 Table 31). -/
def deferredWord (e : DefErr) (more lost : Bool) : BitVec 64 :=
  BitVec.ofNat 64 (e.code.toNat + e.volume % 64 * 2 ^ 8 + more.toNat * 2 ^ 14 + lost.toNat * 2 ^ 15 + e.lba % 2 ^ 48 * 2 ^ 16)

/-- Takes from a page the deferred error that its next report carries: the one numbered `pick` where given (03 R90), else
the first pending (03 R88, R89). -/
def takeDeferred (pick : Option Nat) (p : Trs) : Option (BitVec 64) × Trs :=
  let chosen : Option DefErr := match pick with
    | some n => (p.defer.find? (fun e => e.no == n)).or p.defer.head?
    | none => p.defer.head?
  match chosen with
  | none => (none, p)
  | some e =>
    let rest := p.defer.filter (fun x => x.no != e.no)
    (some (deferredWord e (!rest.isEmpty) (!p.deferOver.isEmpty)), { p with defer := rest, deferOver := [] })

/-- COUNTERS and DIGEST_READ: their own work counts toward no set (16 R466). -/
def quietOp (op : Nat) : Bool := decide (op = 0x40 ∨ op = 0x41)

/-- Whether any command of a page is RUNNING whose time ELAPSED_NS counts (16 R466, Table 145). -/
def anyRunning (p : Trs) : Bool := p.held.any (fun h => decide (h.phase = .running) && !quietOp h.op)

/-- Brings ELAPSED_NS of CURRENT up to the instant `t`. -/
def settleElapsed (t : BitVec 64) (p : Trs) : Trs :=
  match p.runSince with
  | none => p
  | some t0 => { p with current := { p.current with elapsed := p.current.elapsed + (t - t0) }, runSince := some t }

/-- Semaphores of a released block are free: no holder, no queue (07 R227, R228). -/
def freeBlock (base n : Nat) (c : Core) : Core := { c with sems := SMap.clearRange c.sems base n }

/-- A partition without its tile: its registers stay, and what the tile had under way is gone, its credits returned (07 R232, R238). -/
def clearPart (p : Part) : Part :=
  { p with tile := none, passRunning := false, token := true, shadowReady := false, queued := [], writes := [], flagged := false,
           flight := [], poisoned := false, wrote := [], outs := [] }

/-- The partitions without the tiles that satisfy a test. -/
def clearTiles (own : Tile → Bool) (ps : List Part) : List Part :=
  ps.map (fun (p : Part) => if (p.tile.map own).getD false then clearPart p else p)

/-- The jobs of a command on a core end: their tiles leave the queues, the partitions and the save areas, their semaphore
blocks are freed (07 R225, R227). -/
def endCoreJobs (t id : Nat) (c : Core) : Core :=
  let mine := c.jobs.filter (fun (j : Job) => j.trs == t && j.id == id)
  let own (x : Tile) : Bool := mine.any (fun (j : Job) => j.jid == x.job)
  let c1 := mine.foldl (fun c' (j : Job) => match j.block with
    | some b => freeBlock b j.sems c'
    | none => c') c
  { c1 with jobs := c1.jobs.filter (fun (j : Job) => !(j.trs == t && j.id == id)),
            ready := c1.ready.filter (fun x => !own x),
            engines := SMap.mapVals {} (fun _ (e : Engine) => { e with parts := clearTiles own e.parts }) c1.engines,
            saves := (c1.saves.map (fun (v : Saved) => { v with parts := clearTiles own v.parts })).filter
              (fun v => v.parts.any (fun p => p.tile.isSome)) }

/-- The jobs of a command end on every core. -/
def endJobs (t id : Nat) (s : State) : State :=
  { s with core := { s.core with cores := SMap.mapVals {} (fun _ => endCoreJobs t id) s.core.cores } }

/-- The batches of a command that fails complete no more (09 R283). -/
def dropBatches (t id : Nat) (st : Byte) (s : State) : State :=
  if endPhase st = .done then s
  else { s with core := { s.core with batches := s.core.batches.filter (fun b => !(b.trs == t && b.id == id)) } }

/-- The watch records of a command: on OK they become the LAST records of its TRS (16 R475). -/
def settleWatch (t id : Nat) (ok : Bool) (s : State) : State :=
  let mine := s.tele.watchRun.filter (fun r => r.trs == t && r.id == id)
  let rest := s.tele.watchRun.filter (fun r => !(r.trs == t && r.id == id))
  if ok && !mine.isEmpty then
    { s with tele := { s.tele with
        watchRun := rest,
        watchLast := s.tele.watchLast.filter (fun e => e.1 != t) ++ mine.map (fun r => (t, r.watch)) } }
  else { s with tele := { s.tele with watchRun := rest } }

/-- A held command reaches DONE or ERROR (03 R76, R83, R85, R88): its report is formed, it carries a pending deferred error,
releases its range lock, reservation and transient frames, abandons pages it has not committed (11 R329), and adds a pending completion unless the ending is `quiet` (03 R83). -/
def finishWith (pick : Option Nat) (quiet : Bool) (t id : Nat) (st : Byte) (res : BitVec 64) (s : State) : State :=
  match heldOf s t id with
  | none => s
  | some h =>
    let p0 := settleElapsed (now s) (getTrs s t)
    let td := takeDeferred pick p0
    let p1 := td.2
    let h' : Held := { h with phase := endPhase st, status := st, result := res, deferred := td.1, ending := none,
                              resv := none, reads := [], rx := [], rxAt := [], waitRes := false, waitLock := false,
                              step := none, stage := none, search := none }
    let p2 : Trs := { p1 with held := p1.held.map (fun (x : Held) => if x.id = id then h' else x) }
    let p3 : Trs := { p2 with runSince := if anyRunning p2 then p2.runSince else none }
    let frames := s.tier.frames.filter (fun (f : Frame) => f.kind != .scratch t id && (h.op == 0x13 || f.kind != .transient t id))
    let s0 := settleWatch t id (decide (st = stOk)) (dropBatches t id st (endJobs t id s))
    let s1 := setTrs t p3 { s0 with
      cmd := { s0.cmd with locks := s0.cmd.locks.filter (fun l => l.id != id),
                           stalled := if st = stInputStalled then s0.cmd.stalled ++ [id] else s0.cmd.stalled },
      tier := { s0.tier with frames := frames, pages := s0.tier.pages.filter (fun e => e.2.pend != some id) },
      fl := { s0.fl with wbuf := s0.fl.wbuf.filter (fun b => b.cmd != some id) } }
    if h.irq && !quiet then addCompletion p3.bind.vector (decide (endPhase st = .error)) s1 else s1

/-- The ordinary ending of a held command. -/
def finish (t id : Nat) (st : Byte) (res : BitVec 64) (s : State) : State := finishWith none false t id st res s

/-- A command's ending is decided; COMMAND_FINISH reports it (03 R93). -/
def decideEnd (t id : Nat) (st : Byte) (res : Nat) (s : State) : State :=
  modHeld t id (fun h => if h.undecided then { h with ending := some ⟨st, BitVec.ofNat 64 res⟩ } else h) s

/-- A start event (16 R466): CURRENT is copied to LAST and cleared, SAMPLE_SEQ advances. COUNTERS and DIGEST_READ make none. -/
def startEvent (t id : Nat) (s : State) : State :=
  modTrs t (fun (p0 : Trs) =>
    let p := settleElapsed (now s) p0
    let p1 : Trs := { p with held := p.held.map (fun (h : Held) => if h.id = id then { h with phase := .running } else h) }
    match p.held.find? (fun h => h.id == id) with
    | some h => if quietOp h.op then p1
                else { p1 with runSince := some (now s), lastSet := p1.current, current := {}, sampleSeq := p1.sampleSeq + 1 }
    | none => p0) s

/-! ### Owner policy (14 R417) -/

/-- The policy of a declared tenant. -/
def tenantPol (s : State) (t : Nat) : Option TenantPol := (s.pol.tenants.find? (fun e => e.1 == t)).map (·.2)

/-- A value of the VALUES table, or its default (14 Table 131, 15 Table 142). -/
def polValue (s : State) (id dflt : Nat) : Nat := ((s.pol.values.find? (fun e => e.1 == id)).map (·.2)).getD dflt

/-- A declared volume. -/
def volPol (s : State) (v : Nat) : Option VolPol := s.pol.volumes.find? (fun e => e.vol == v)

/-- A function slot in service. -/
def slotOf (s : State) (n : Nat) : Option FnSlot := s.pol.slots.find? (fun e => e.slot == n)

/-! ### What work inside the device leaves alone -/

/-- Runs `f` behind a fence: the queue, the always-on island and the clock islands stay as they were, of the start everything but the
entries of its log, and of the port everything but the vectors and the error status. The spec lets only reset, start, Fettle mode, expiry, time sets, retraining and configuration
writes change them (13 Table 113, R387, R400, R405, 02 R37, R43, R59, 15 R448, R450). -/
def fenced (f : State → State) (s : State) : State :=
  let t := f s
  { t with
    pending := s.pending
    aon := s.aon
    isl := s.isl
    boot := { s.boot with earlyEvents := t.boot.earlyEvents, details := t.boot.details, logNext := t.boot.logNext }
    link := { s.link with msix := t.link.msix, vec := t.link.vec, cfg := { s.link.cfg with aerUncorr := t.link.cfg.aerUncorr, aerCorr := t.link.cfg.aerCorr } } }

/-- The device starts, serves or is in Fettle mode: not in reset, halted or after watchdog expiry (13 R405). -/
def alive (s : State) : Bool := decide (s.boot.mode = .service ∨ s.boot.mode = .fettle ∨ s.boot.mode = .starting)

/-- A row of the device's own units while it is alive. -/
def whenAlive (f : State → State) (s : State) : Result := .next (if alive s then fenced f s else s)

/-- A row that names TRS `t`: pages 0 to 4,095 exist (03 R66). -/
def onTrs (t : Nat) (f : State → State) (s : State) : Result :=
  if t < 4096 then .next (fenced f s) else .fault .noSuchAddress

/-- What the device's own units do while it serves commands: in stage S5 and not in Fettle mode or after watchdog expiry, where
engines, stacks and flash are idle and commands make no progress (13 R401, R405). -/
def whenServing (f : State → State) (s : State) : Result := .next (if s.boot.mode = .service then fenced f s else s)

/-- A serving device's row that names TRS `t`. -/
def onTrsServing (t : Nat) (f : State → State) (s : State) : Result :=
  if t < 4096 then whenServing f s else .fault .noSuchAddress

end Sys2Proof.Machine
end

