-- ==== Sys2Proof/Machine/Flash.lean ====
section
/-! DEFINITION. Units, the map, the journal, the write buffer and the hub cache (11 R312 to R332, 10 R310, R311): the shared
operations of every command that reads or writes stored data. -/
namespace Sys2Proof.Machine

/-! ### Addresses (11 Tables 92, 93) -/

/-- Fields of a flash address. -/
def faPage (a : FlashAddr) : Nat := bitsOf a.toNat 0 11
def faPlane (a : FlashAddr) : Nat := bitsOf a.toNat 11 2
def faBlock (a : FlashAddr) : Nat := bitsOf a.toNat 13 12
def faPos (a : FlashAddr) : Nat := bitsOf a.toNat 25 5
def faChan (a : FlashAddr) : Nat := bitsOf a.toNat 30 7

/-- The key of the block that an address lies in. -/
def blockKey (a : FlashAddr) : Nat := ((faChan a * 17 + faPos a) * 4 + faPlane a) * 2520 + faBlock a

/-- The key of the die that an address lies in. -/
def dieKey (a : FlashAddr) : Nat := faChan a * 17 + faPos a

/-- The address of a block by its key, at page 0. -/
def blockAddr (k : Nat) : FlashAddr :=
  BitVec.ofNat 37 (k % 2520 * 2 ^ 13 + k / 2520 % 4 * 2 ^ 11 + k / 10080 % 17 * 2 ^ 25 + k / 171360 * 2 ^ 30)

/-- The superblock that an address lies in: a spare die takes the place of the die it serves for (11 R315, R355). -/
def sbKey (s : State) (a : FlashAddr) : Nat :=
  let pos := if faPos a = 16 then ((SMap.find {} s.fl.dies (dieKey a)).serves).getD 16 else faPos a
  (faChan a / 16 * 17 + pos) * 2520 + faBlock a

/-- An address lies in the geometry of Table 9 and Table 90 for a mode. -/
def addrOk (slc : Bool) (a : FlashAddr) : Bool :=
  decide (faPage a < (if slc then 384 else 1536) ∧ faBlock a < 2520 ∧ faPos a ≤ 16)

/-- Units of a volume (11 Table 93). -/
def volUnits (v : VolPol) : Nat := ceilDiv v.blocks 4

/-- The first unit of a volume: volumes lie in ascending number (11 Table 93). -/
def volBase (s : State) (v : Nat) : Nat := sumOf ((s.pol.volumes.filter (fun x => x.vol < v)).map volUnits)

/-- The first unit of the tier slots. -/
def tierBase (s : State) : Nat := sumOf (s.pol.volumes.map volUnits)

/-- The first unit of the pattern store (11 Table 93, R317). -/
def storeBase : Nat := 27343750000

/-- The first unit of a tier slot. -/
def slotUnit (s : State) (k : Nat) : Nat := tierBase s + 4 * k

/-- The unit that holds block `k` of a volume. -/
def blockUnit (s : State) (v k : Nat) : Nat := volBase s v + k / 4

/-- The volume and unit index within it that a volume unit belongs to. -/
def volumeOfUnit (s : State) (u : Nat) : Option (Nat × Nat) :=
  (s.pol.volumes.find? (fun v => decide (volBase s v.vol ≤ u ∧ u < volBase s v.vol + volUnits v))).map
    (fun v => (v.vol, u - volBase s v.vol))

/-- The tier slot that a unit belongs to. -/
def slotOfUnit (s : State) (u : Nat) : Option Nat :=
  if tierBase s ≤ u ∧ u < storeBase then some ((u - tierBase s) / 4) else none

/-! ### The map (11 R318) -/

/-- The map entry of a unit. -/
def mapOf (s : State) (u : Nat) : MapEntry := SMap.find {} s.fl.map u

/-- Whether the write buffer holds a unit (11 R320). -/
def inBuffer (s : State) (u : Nat) : Bool := s.fl.wbuf.any (fun b => b.unit == u)

/-- What a read of a unit meets (11 Table 94, R320): OK, DIE_LOST or MEDIA_ERROR. -/
def unitStatus (s : State) (u : Nat) : Byte :=
  if inBuffer s u then stOk
  else if (mapOf s u).st = 2 then stDieLost
  else if (mapOf s u).st = 3 then stMediaError
  else stOk

/-- Bytes of a unit. -/
def unitBytes (s : State) (u off n : Nat) : List Byte := SMap.getList 0 s.fl.data (u * 16384 + off) n

/-- Whether any byte position of `[a, a + n)` is listed. -/
def hasBytes (m : Mem) (a n : Nat) : Bool := m.any (fun e => decide (a ≤ e.1 ∧ e.1 < a + n))

/-- Units whose bytes on flash fail their page check (12 R364). -/
def noteMismatch (us : List Nat) (s : State) : State :=
  { s with fl := { s.fl with mismatch := dedup (s.fl.mismatch ++ us) } }

/-- The stored check value of a codeword of a unit: tier pages hold the CRC-64 of their bytes, volume blocks what WRITE
stored (12 R363). -/
def checkOf (s : State) (u cw : Nat) : Option (BitVec 64) :=
  if (volumeOfUnit s u).isSome then SMap.find none s.fl.check (u * 4 + cw)
  else some (crc64 (unitBytes s u (cw * 4096) 4096))

/-- Writes content of a unit; checks of the written codewords are set. -/
def putUnitBytes (u off : Nat) (bytes : List Byte) (s : State) : State :=
  { s with fl := { s.fl with data := SMap.putList 0 (s.fl.data) (u * 16384 + off) bytes } }

/-- Clears the content of units `[u, u + n)`: they read as zeros (11 Table 94). -/
def clearUnits (u n : Nat) (s : State) : State :=
  { s with fl := { s.fl with data := SMap.clearRange s.fl.data (u * 16384) (n * 16384),
                             check := SMap.clearRange s.fl.check (u * 4) (n * 4),
                             mismatch := s.fl.mismatch.filter (fun v => decide (v < u ∨ u + n ≤ v)) } }

/-! ### The journal (11 R322 to R325) -/

/-- Bytes of a record in journal staging (11 Table 95). -/
def recSize : Rec → Nat
  | .map _ _ => 16
  | .relocate _ _ _ => 24
  | .unmap _ _ => 16
  | .object _ _ => 64
  | .state _ _ _ => 16
  | .retire _ _ => 16
  | .checkpoint _ _ => 24

/-- Bytes of an entry: its records and a 16-byte header (11 R324). -/
def entrySize (rs : List Rec) : Nat := 16 + sumOf (rs.map recSize)

/-- The effect of a record on a map image (11 R318, R322). SLC says which addresses lie in SLC-mode blocks. -/
def applyRec (slc : FlashAddr → Bool) (m : SMap MapEntry) : Rec → SMap MapEntry
  | .map u a => SMap.put {} m u { addr := a, st := 1, slc := slc a }
  | .relocate u _ a => SMap.put {} m u { addr := a, st := 1, slc := slc a }
  | .unmap f n => SMap.clearRange m f n
  | .state f n st => (List.range n).foldl (fun m' i => SMap.modify {} m' (f + i) (fun e => { e with st := st })) m
  | _ => m

/-- Whether an address lies in an SLC-mode superblock. -/
def slcAddr (s : State) (a : FlashAddr) : Bool := (SMap.find {} s.fl.sbs (sbKey s a)).slc

/-- Entries that are not yet durable. -/
def pendingEntries (s : State) : List JEntry := s.fl.journal.filter (fun e => !e.durable)

/-! ### Page tags (11 R326) -/

/-- The tag of a page: CHECK is the CRC-32 of the other fields packed in the order of Table 96 (R324 leaves the layout open; log 90). -/
def tagOf (unit seq group : Nat) (copy : Bool) (kind : Nat) : Tag :=
  { unit := unit, seq := seq, group := group, copy := copy, kind := kind,
    check := crc32 (bytesOf 5 unit ++ bytesOf 8 seq ++ bytesOf 8 group ++ bytesOf 1 (copy.toNat + kind * 2)) }

/-- UNIT of a journal, checkpoint or root page: all ones. -/
def noUnit : Nat := 2 ^ 40 - 1

/-- The tag of a programmed data page. -/
def tagAt (s : State) (a : FlashAddr) : Option Tag := SMap.find none s.fl.tags a.toNat

/-- Journal staging is flushed: every committed entry becomes durable, mapped units leave the buffer (11 R323, R329), and
relocations whose records are durable may erase their source (11 Table 99). The pages are programmed on two dies (11 R322). -/
def journalFlush (s : State) : State :=
  if s.fl.pendBytes = 0 then s
  else
    bump 0x34 6 (2 * s.fl.pendBytes) { s with fl := { s.fl with
      journal := s.fl.journal.map (fun e => { e with durable := true }),
      pendBytes := 0,
      journalTag := some (tagOf noUnit s.fl.seq 0 false 1),
      wbuf := s.fl.wbuf.filter (fun b => b.mapSeq.isNone),
      relocs := (s.fl.relocs.map (fun (r : Reloc) => { r with units := r.units.map (fun (u : RelocUnit) =>
        if u.stage = 3 then { u with stage := 4 } else u) })).filter (fun r => r.units.any (fun u => u.stage != 4)) } }

/-- The effect of a committed entry on a state's block table. -/
def applyRetire (m : SMap Block) : Rec → SMap Block
  | .retire k r => SMap.modify {} m k (fun b => { b with retired := some r, doomed := none })
  | _ => m

/-- One entry is committed under a sequence number and applied at once; at 1 MiB staging is flushed (11 R322, R323). -/
def commitAs (seq : Nat) (rs : List Rec) (s : State) : State :=
  let s1 := { s with fl := { s.fl with
    seq := max s.fl.seq seq,
    journal := s.fl.journal ++ [{ seq := seq, recs := rs }],
    pendBytes := s.fl.pendBytes + entrySize rs,
    map := rs.foldl (applyRec (slcAddr s)) s.fl.map,
    blocks := rs.foldl applyRetire s.fl.blocks } }
  if 1048576 ≤ s1.fl.pendBytes then journalFlush s1 else s1

/-- One entry is committed under the next sequence number. -/
def commitEntry (rs : List Rec) (s : State) : State := commitAs (s.fl.seq + 1) rs s

/-! ### The write buffer (11 R320, R321, R328, R329) -/

/-- Units the write buffer holds at most: 2 GiB (01 Table 8). -/
def bufferUnits : Nat := 131072

/-- Units that take room in the buffer: all but programmed ones of a command that has not committed (11 R329). -/
def bufferUsed (s : State) : Nat := (s.fl.wbuf.filter (fun b => b.cmd.isNone || b.progAt.isNone)).length

/-- Units the buffer still takes. -/
def bufferFree (s : State) : Nat := bufferUnits - bufferUsed s

/-- `n` more units fit in the buffer. -/
def bufferRoom (s : State) (n : Nat) : Bool := decide (bufferUsed s + n ≤ bufferUnits)

/-- The commands whose writes the image of a unit in the buffer carries and no programmed image does yet. -/
def pendingAccs (s : State) (u : Nat) : List Nat :=
  (s.fl.wbuf.filter (fun b => b.unit == u && b.progAt.isNone)).flatMap (·.accs)

/-- A unit enters the write buffer, replacing an older image of itself there (11 R320, R335). It carries what the older image carried, so
a FLUSH or a WRITE with FUA that waits for that waits for it. `acc` is 0 for the device's own writes. -/
def bufferUnit (u acc group : Nat) (s : State) : State :=
  let accs := pendingAccs s u ++ (if acc = 0 ∨ acc ∈ pendingAccs s u then [] else [acc])
  { s with fl := { s.fl with
      wbuf := s.fl.wbuf.filter (fun b => b.unit != u) ++ [{ unit := u, accs := accs, group := group }],
      mismatch := s.fl.mismatch.filter (· != u) } }

/-- Buffered units whose passed programs lie at lost places are programmed again (11 R329, R336). -/
def unprogram (gone : FlashAddr → Bool) (s : State) : State :=
  { s with fl := { s.fl with wbuf := s.fl.wbuf.map (fun (b : BufUnit) =>
      if (b.progAt.map gone).getD false then { b with progAt := none, mapSeq := none } else b) } }

/-- Units `[u, u + n)` enter the write buffer. -/
def bufferMany (u acc group : Nat) : Nat → State → State
  | 0, s => s
  | n + 1, s => bufferMany (u + 1) acc group n (bufferUnit u acc group s)

/-- Flash-resident valid data in bytes: mapped units (11 R330). -/
def mappedUnits (s : State) : Nat := (s.fl.map.filter (fun e => e.2.st = 1)).length

/-- The SLC buffer's size in bytes (11 R330). -/
def slcSize (s : State) : Nat :=
  min (polValue s 0x000E 4000 * 1000000000) (max 64000000000 ((448000000000000 - mappedUnits s * 16384) / 64))

/-- SLC use in bytes: mapped units in SLC-mode blocks. -/
def slcUse (s : State) : Nat := (s.fl.map.filter (fun e => e.2.st = 1 && e.2.slc)).length * 16384

/-- The T2 size in pages (10 R302). -/
def t2Pages (s : State) : Nat := slcSize s * polValue s 0x0007 50 / 100 / 65536

/-! ### Spare capacity (11 R350, R351) -/

/-- The spare share in units of 0.01% of 512 TB (11 R350). -/
def spareShare (s : State) : Nat := s.fl.spareBytes / 51200000000

/-- Spares are exhausted: the device is at stage Worn (11 Table 103). -/
def mediaWorn (s : State) : Bool := decide (s.fl.stage = 3)

/-- Mean wear over the blocks in equivalent cycles (11 R342, R351). -/
def meanWear (s : State) : Nat := sumOf (s.fl.blocks.map (fun e => e.2.wear20)) / (20 * 21934080)

/-- The device passes to an endurance stage; no stage reverses (11 R351). Sensor 62 reports it. -/
def toStage (n : Nat) (s : State) : State :=
  if s.fl.stage < n then platform 62 n { s with fl := { s.fl with stage := n } } else s

/-- The endurance stages and their events (11 Table 103): 0 Normal, 1 Notice, 2 Throttle, 3 Worn. -/
def endurance (s : State) : State :=
  let wear := meanWear s * 100 / 1500
  let notice := if 100 ≤ wear then 100 else if 90 ≤ wear then 90 else if 80 ≤ wear then 80 else 0
  let s1 := if s.fl.wearNotice < notice then
      raise 0x0001 1 notice (meanWear s) 0 (toStage 1 { s with fl := { s.fl with wearNotice := notice } })
    else s
  let s2 := if spareShare s1 < 200 ∧ s1.fl.stage < 2 then raise 0x0002 1 0 (spareShare s1) 0 (toStage 2 s1) else s1
  if s2.fl.spareBytes ≤ 2560000000000 ∧ s2.fl.stage < 3 then raise 0x0003 2 0 (spareShare s2) 0 (toStage 3 s2) else s2

/-! ### Deferred errors (03 R88, R89, 11 R354, R357) -/

/-- A deferred error on TRS `t`: pending where 16 are not yet pending, else recorded only in the event log with LOST; the
event log records it in either case (03 R88, R89). A TRS that is not bound receives none (11 R357). -/
def deferError (t : Nat) (code : Byte) (vol lba : Nat) (s : State) : State :=
  if (getTrs s t).bind.valid then
    let e : DefErr := { no := s.cmd.defCount, code := code, volume := vol, lba := lba }
    let s1 := modTrs t (fun p => if p.defer.length < 16 then { p with defer := p.defer ++ [e] }
                                 else { p with deferOver := p.deferOver ++ [e] })
      { s with cmd := { s.cmd with defCount := s.cmd.defCount + 1 } }
    let p := getTrs s1 t
    raise 0x0005 2 t (deferredWord e (1 < p.defer.length) (!p.deferOver.isEmpty)).toNat p.deferOver.length s1
  else s

/-- The first block of an origin's range that lies in one of the lost units. -/
def firstLost (s : State) (o : Origin) (lost : List Nat) : Option Nat :=
  (List.range o.n).find? (fun i => decide (blockUnit s o.vol (o.lba + i) ∈ lost)) |>.map (o.lba + ·)

/-- A block of a volume is on flash: its unit is mapped and no image of it waits for its program. -/
def blockOnFlash (s : State) (v k : Nat) : Bool :=
  let u := blockUnit s v k
  decide ((mapOf s u).st = 1) && s.fl.wbuf.all (fun b => b.unit != u || b.progAt.isSome)

/-- The leading blocks of an origin's range that are on flash. -/
def leadingOnFlash (s : State) (o : Origin) : Nat :=
  ((List.range o.n).takeWhile (fun i => blockOnFlash s o.vol (o.lba + i))).length

/-- What an origin keeps when blocks `[lba, lba + n)` of a volume are written or released anew. -/
def cutOrigin (v lba n : Nat) (o : Origin) : List Origin :=
  if o.vol ≠ v ∨ o.lba + o.n ≤ lba ∨ lba + n ≤ o.lba then [o]
  else [{ o with n := lba - o.lba }, { o with lba := lba + n, n := o.lba + o.n - (lba + n) }].filter (fun (x : Origin) => x.n != 0)

/-- Earlier WRITEs no longer stand for blocks that a command writes or releases. -/
def overwrite (v lba n : Nat) (s : State) : State :=
  { s with fl := { s.fl with origins := s.fl.origins.flatMap (cutOrigin v lba n) } }

/-- Volume data lost: each open write-origin window that covers a lost unit is reported to its TRS. The WRITE of a window that has
not finished ends with the code and the count of its leading blocks on flash instead (03 Table 33, 11 R354, R357). -/
def reportLost (code : Byte) (lost : List Nat) (s : State) : State :=
  s.fl.origins.foldl (fun s' o => match firstLost s o lost with
    | none => s'
    | some lba => match (getTrs s' o.trs).held.find? (fun h => decide (h.acceptNo = o.acc) && !h.ended) with
      | some h => decideEnd o.trs h.id code (leadingOnFlash s o) s'
      | none => deferError o.trs code o.vol lba s') s

/-! ### The hub cache (10 R310, R311) -/

/-- The set of a cached 4 KiB line; the spec gives 2,048 sets and no index rule (log 17). -/
def cacheSet (key : Nat) : Nat := key % 2048

/-- Whether the hub cache holds a line; a lookup searches every way. -/
def cacheHit (s : State) (key : Nat) : Bool := s.tier.cache.any (fun c => c.key == key)

/-- Ways a tenant may fill. -/
def waysOf (s : State) (tenant : Nat) : List Nat :=
  let m := ((tenantPol s tenant).map (·.wayMask.toNat)).getD 0
  (List.range 24).filter (fun w => bitOf m w)

/-- A line becomes the most recently used. -/
def cacheTouch (key : Nat) (s : State) : State :=
  { s with tier := { s.tier with
      cache := s.tier.cache.filter (fun c => c.key == key) ++ s.tier.cache.filter (fun c => c.key != key) } }

/-- A fill for a tenant: a free way of its mask, else the least recently used line among those ways of the set (10 R311); lines of a way whose
SRAM has been withdrawn take none (12 R370). -/
def cacheFill (tenant key : Nat) (s : State) : State :=
  if cacheHit s key then cacheTouch key s
  else
    let set := cacheSet key
    let ways := (waysOf s tenant).filter (fun w => decide (16 * w + set / 128 ∉ s.tier.cacheOut))
    let here := s.tier.cache.filter (fun c => c.set == set && decide (c.way ∈ ways))
    let free := ways.find? (fun w => here.all (fun c => c.way != w))
    match free with
    | some w => { s with tier := { s.tier with cache := { key := key, set := set, way := w } :: s.tier.cache } }
    | none =>
      match here.getLast? with
      | none => s
      | some old => { s with tier := { s.tier with
          cache := { key := key, set := set, way := old.way } :: s.tier.cache.filter (fun c => c.key != old.key) } }

/-- WRITE and RELEASE invalidate cached lines of their range (10 R310). Lines are 4 KiB: `u × 4 + k`. -/
def cacheDrop (key n : Nat) (s : State) : State :=
  { s with tier := { s.tier with cache := s.tier.cache.filter (fun c => decide (c.key < key ∨ key + n ≤ c.key)) } }

/-! ### Reading blocks of a volume -/

/-- Accounts the flash read of one unit for TRS `t`: pages read on its channel and FLASH_RD_BYTES (16 Tables 144, 145). -/
def countFlashRead (t u : Nat) (s : State) : State :=
  let ch := faChan (mapOf s u).addr
  addCurrent t (fun c => { c with flashRd := c.flashRd + 16384 }) (bump 0x30 ch 1 s)

/-- The tenant that owns the volume of a unit. -/
def unitTenant (s : State) (u : Nat) : Nat :=
  ((volumeOfUnit s u).bind (fun v => (s.pol.volumes.find? (fun x => x.vol == v.1)).map (·.tenant))).getD 0

/-- A read of codewords `cws` of a volume unit looks in the write buffer, then the hub cache, then flash once, and fills the
cache from flash (10 R310, 11 R320). -/
def touchUnit (t u : Nat) (cws : List Nat) (s : State) : State :=
  if inBuffer s u || (mapOf s u).st != 1 then s
  else
    let s1 := if cws.all (fun c => cacheHit s (u * 4 + c)) then s else countFlashRead t u s
    cws.foldl (fun s' c => cacheFill (unitTenant s u) (u * 4 + c) s') s1

/-- A read of blocks `[lba, lba + n)` of volume `v`, unit by unit. -/
def touchRange (t v lba n : Nat) (s : State) : State :=
  if n = 0 then s
  else (List.range' (lba / 4) ((lba + n - 1) / 4 + 1 - lba / 4)).foldl (fun s' q =>
    touchUnit t (volBase s v + q) ((List.range 4).filter (fun c => decide (lba ≤ 4 * q + c ∧ 4 * q + c < lba + n))) s') s

/-- The 4,096 bytes of block `k` of volume `v`. -/
def blockBytes (s : State) (v k : Nat) : List Byte := unitBytes s (blockUnit s v k) (k % 4 * 4096) 4096

/-! ### Pattern store objects as commands read them (14 R422) -/

/-- Chunk `j` of an object fails: a unit of it cannot be read, or its bytes do not have their digest. -/
def chunkFails (s : State) (o : StoreObj) (cs : List (List Byte)) (j : Nat) : Bool :=
  let len := min 1048576 (o.len - 1048576 * j)
  let u := storeBase + o.base + 64 * j
  (List.range (ceilDiv len 16384)).any (fun i => decide (unitStatus s (u + i) ≠ stOk))
  || decide (digest32 (SMap.getList 0 s.fl.data (u * 16384) len) ≠ cs.getD j [])

/-- A function slot references an object with a chunk that fails: the command that reads it ends with MEDIA_ERROR (14 R422). -/
def slotUnreadable (s : State) (x : FnSlot) : Bool :=
  x.objects.any (fun e => match s.pol.objects[e]? with
    | none => false
    | some g => ((s.fl.objects.find? (fun o => decide (o.digest = g.1))).map (fun (o : StoreObj) =>
        (List.range g.2.2.length).any (chunkFails s o g.2.2))).getD false)

end Sys2Proof.Machine
end

