-- ==== Sys2Proof/Machine/Tiers.lean ====
section
/-! DEFINITION. Tier pages, homes, frames, quotas and eviction (10): the shared operations of every command and background
event that touches tier pages. -/
namespace Sys2Proof.Machine

/-! ### Pages -/

/-- The page in tier slot `k`. -/
def pageAt (s : State) (k : Nat) : Option Page := (s.tier.pages.find? (fun e => e.1 == k)).map (·.2)

/-- Changes the page in slot `k`. -/
def modPage (k : Nat) (f : Page → Page) (s : State) : State :=
  { s with tier := { s.tier with pages := s.tier.pages.map (fun e => if e.1 = k then (e.1, f e.2) else e) } }

/-- The slot that holds a page of an object. -/
def slotOfOwner (s : State) (o : Owner) : Option Nat := (s.tier.pages.find? (fun e => e.2.owner == o && e.2.dead.isNone && e.2.pend.isNone)).map (·.1)

/-- The lowest free slot from `k` on. -/
def freeSlotFrom (ps : List (Nat × Page)) : Nat → Nat → Nat
  | 0, k => k
  | n + 1, k => if ps.any (fun e => e.1 == k) then freeSlotFrom ps n (k + 1) else k

/-- The slot a new page takes: the lowest free one (the spec lets the device take any free slot, 11 Table 93; log 12). -/
def freeSlot (s : State) : Nat := freeSlotFrom s.tier.pages s.tier.pages.length 0

/-- Whether a page is T1-homed. -/
def Page.inT1 (p : Page) : Bool :=
  match p.home with
  | .t1 _ _ => true
  | _ => false

/-- The stripe stack of a page (10 Table 86). -/
def stripeStack : Owner → Nat
  | .kv x l h j => (x + l + h + j) % 16
  | .scale x l h k => (x + l + h + k + 8) % 16
  | .coll c _ p => (c + p) % 16

/-- Collection pages that R147 keeps T1-homed: side-list, tombstone and entry pages, and FLAT code pages with RESIDENCY 0
(10 Table 88). -/
def keptT1 (s : State) : Owner → Bool
  | .coll c k _ =>
    let x := SMap.find {} s.coll c
    decide (k = 3 ∨ k = 4 ∨ k = 5) || (decide (k = 0) && decide (x.kind = 0 ∧ x.residency = 0))
  | _ => false

/-! ### Use and room (10 R285, R293, R296, R299) -/

/-- Pool pages of a stack channel (10 Table 83). -/
def chanPages : Nat := 32424

/-- The context index of a command's handle. -/
def handleIdx (h : Nat) : Nat := h % 2 ^ 20

/-- Steps that hold memory or pin pages, with their context index: those of held commands, and members that have ended and
leave at the next boundary (04 R135). -/
def allSteps (s : State) : List (Nat × Step) :=
  ((allHeld s).filterMap (fun e => e.2.step.map (fun p => (handleIdx (fld e.2.desc 4 4), p))))
    ++ s.heat.leaving.map (fun e => (e.1, e.2.2.2))

/-- Working memory of steps on a stack channel, in pool pages. -/
def workOn (s : State) (st ch : Nat) : Nat :=
  sumOf ((allSteps s).flatMap (fun e => e.2.work.map (fun w => if w.1 = st ∧ w.2.1 = ch then w.2.2 else 0)))

/-- Free pool pages of a stack channel: withdrawn pages, T1 homes, promotions in progress, DRAM locations still read, frames and working memory are
taken (10 R292, R293, 12 R369). -/
def chanFree (s : State) (st ch : Nat) : Nat :=
  chanPages - (SMap.find 0 s.tier.withdrawn (32 * st + ch)
    + (s.tier.pages.filter (fun e => e.2.home == .t1 st ch)).length
    + (s.tier.pages.filter (fun e => e.2.moving == some (st, ch))).length
    + (s.tier.dramPending.filter (fun e => e.2.1 == st && e.2.2 == ch)).length
    + (s.tier.frames.filter (fun f => f.placed && f.stack == st && f.chan == ch)).length
    + workOn s st ch)

/-- Channels of a tenant's CHAN_MASK. -/
def chansOf (s : State) (tenant : Nat) : List Nat :=
  let m := ((tenantPol s tenant).map (·.chanMask.toNat)).getD 0
  (List.range 32).filter (fun c => bitOf m c)

/-- The channel with the most free pool pages, the lowest-numbered on a tie (10 R296). -/
def bestChan (s : State) (st tenant : Nat) : Option Nat :=
  (chansOf s tenant).foldl (fun best c => match best with
    | none => if chanFree s st c = 0 then none else some c
    | some b => if chanFree s st b < chanFree s st c then some c else some b) none

/-- Free pool pages of a stack on a tenant's channels. -/
def stackFree (s : State) (st tenant : Nat) : Nat := sumOf ((chansOf s tenant).map (chanFree s st))

/-- A tenant's T1 use (10 R299). -/
def t1Use (s : State) (tenant : Nat) : Nat := (s.tier.pages.filter (fun e => e.2.tenant == tenant && e.2.inT1)).length

/-- A tenant's T2 use (10 R299). -/
def t2Use (s : State) (tenant : Nat) : Nat :=
  (s.tier.pages.filter (fun e => e.2.tenant == tenant && e.2.home == .t2)).length

/-- Working memory of a tenant's steps, in pool pages. -/
def workOf (s : State) (tenant : Nat) : Nat :=
  sumOf ((allSteps s).map (fun e => if e.2.tenant = tenant then sumOf (e.2.work.map (·.2.2)) else 0))

/-- A tenant's frame use in 64 KiB units: frames and working memory (10 R293). -/
def frameUse (s : State) (tenant : Nat) : Nat :=
  (s.tier.frames.filter (fun f => f.placed && f.tenant == tenant)).length + workOf s tenant

/-! ### Members (04 R135, R137) -/

/-- Token pages `[lo, hi)` that a step's range covers, for `p` tokens a page. -/
def stepPages (p tok0 tok1 : Nat) : Nat × Nat := (tok0 / p, ceilDiv tok1 p)

/-- Tokens of a key/value page (04 R104). -/
def tokensPerPage (d b : Nat) : Nat := 262144 / (d * b)

/-- E8M0 scales of a vector (04 R106). -/
def scalesPerVec (d : Nat) : Nat := ceilDiv d 32

/-- Key/value pages that a scale page serves (04 R106). -/
def kvPerScale (d b : Nat) : Nat := 65536 / (2 * tokensPerPage d b * scalesPerVec d)

/-- Whether a page lies in the range of a step: its context, layers and token pages (04 R137). -/
def inStepRange (st : Step) (idx : Nat) (o : Owner) : Bool :=
  let b := fmtBits st.fmt
  let r := stepPages (tokensPerPage st.dim b) st.tok0 st.tok1
  match o with
  | .kv x l _ j => decide (x = idx ∧ st.layer0 ≤ l ∧ l < st.layer0 + st.nlayer ∧ r.1 ≤ j ∧ j < r.2)
  | .scale x l _ k =>
    let g := kvPerScale st.dim b
    decide (x = idx ∧ st.layer0 ≤ l ∧ l < st.layer0 + st.nlayer ∧ r.1 / g ≤ k ∧ k < ceilDiv r.2 g)
  | .coll _ _ _ => false

/-- A page lies in the range of a step member (04 R137). -/
def inMemberRange (s : State) (o : Owner) : Bool :=
  (allSteps s).any (fun e => e.2.member && inStepRange e.2 e.1 o)

/-! ### Moves (10 R288, Table 84) -/

/-- A fold of the page is in progress (10 R291, R308). -/
def inFold (s : State) (k : Nat) : Bool := s.fl.relocs.any (fun (r : Reloc) => r.page == some k)

/-- The flash home of a page, by the blocks that hold its location (10 R287, Table 84). -/
def flashHome (p : Page) : Home := if p.backSlc then .t2 else .t3

/-- A RUNNING RECALL or WARM of context `x` has locked token pages that meet `[a, b)` (10 R291). -/
def rangeReader (s : State) (x a b : Nat) : Bool :=
  (allHeld s).any (fun e => decide (e.2.phase = .running) && decide (e.2.op = 0x12 ∨ e.2.op = 0x15)
    && decide (handleIdx (fld e.2.desc 4 4) = x) && s.cmd.locks.any (fun l => l.id == e.2.id && l.ranges.any (fun r =>
      match r with
      | .context _ lo hi => decide (max lo a < min hi b)
      | _ => false)))

/-- Whether a RUNNING command reads a page of a context: its token page, or one of those whose scales it holds (04 R106, 10 R291). -/
def hasReader (s : State) (o : Owner) : Bool :=
  match o with
  | .kv x _ _ j => rangeReader s x j (j + 1)
  | .scale x _ _ k =>
    let c := SMap.find {} s.ctx.recs x
    let g := kvPerScale c.dim (fmtBits c.fmt)
    rangeReader s x (g * k) (g * (k + 1))
  | _ => false

/-- Demotion: the home becomes the flash location, no flash is written; the DRAM location is freed when its last reader ends
(10 Table 84, R291). Evictions are counted for the tenant (16 Table 144). -/
def demotePage (k : Nat) (evict : Bool) (s : State) : State :=
  match pageAt s k with
  | none => s
  | some p => match p.home with
    | .t1 st ch =>
      let s1 := modPage k (fun q => { q with home := flashHome q, state := .good }) s
      let s2 := if hasReader s p.owner then
          { s1 with tier := { s1.tier with dramPending := s1.tier.dramPending ++ [(k, st, ch)] } } else s1
      if evict then bump 0x54 p.tenant 1 s2 else s2
    | _ => s

/-- Frames of a page are discarded (10 R291, R292, 01 R32). -/
def dropFrames (k : Nat) (s : State) : State :=
  { s with tier := { s.tier with frames := s.tier.frames.filter (fun f => f.page != k) } }

/-- Frames of a page of the WARM and transient kinds are discarded (10 R291). -/
def dropWarm (k : Nat) (s : State) : State :=
  { s with tier := { s.tier with frames := s.tier.frames.filter (fun f => f.page != k || (match f.kind with
    | .riser _ _ _ => true
    | _ => false)) } }

/-- A page is deleted: its slot, frames, cached units and DRAM location go (10 Table 84). Its units leave the buffer and their content is
cleared; the caller's entry carries the UNMAP record. -/
def deletePage (k : Nat) (s : State) : State :=
  let u := slotUnit s k
  let s1 := cacheDrop (u * 4) 16 (clearUnits u 4 (dropFrames k s))
  { s1 with tier := { s1.tier with pages := s1.tier.pages.filter (fun e => e.1 != k),
                                   dramPending := s1.tier.dramPending.filter (fun e => e.1 != k) },
            fl := { s1.fl with wbuf := s1.fl.wbuf.filter (fun b => decide (b.unit < u ∨ u + 4 ≤ b.unit)) } }

/-! ### Eviction (10 R303) -/

/-- A page may be evicted for room on a stack and the channels of a demand (10 R303). -/
def evictable (s : State) (st : Nat) (chs : List Nat) (p : Page) : Bool :=
  (match p.home with
   | .t1 a c => decide (a = st) && decide (c ∈ chs)
   | _ => false)
  && decide (((tenantPol s p.tenant).map (·.t1q)).getD 0 < t1Use s p.tenant)
  && !inMemberRange s p.owner && !keptT1 s p.owner && p.moving.isNone

/-- The order of objects among pages of one age: contexts by index, then collections (10 R303). -/
def ownerKey : Owner → List Nat
  | .kv x l h j => [0, x, l, h, 0, j]
  | .scale x l h k => [0, x, l, h, 1, k]
  | .coll c k p => [1, c, k, p, 0, 0]

/-- Lexicographic order. -/
def lexLt : List Nat → List Nat → Bool
  | a :: as, b :: bs => decide (a < b) || (decide (a = b) && lexLt as bs)
  | _, _ => false

/-- The key of 10 R303: last use, then tenant, object, page. -/
def evictKey (p : Page) : List Nat := p.lastUse.toNat :: p.tenant :: ownerKey p.owner

/-- The candidate with the oldest last use. -/
def oldest (cands : List (Nat × Page)) : Option (Nat × Page) :=
  cands.foldl (fun best e => match best with
    | none => some e
    | some b => if lexLt (evictKey e.2) (evictKey b.2) then some e else some b) none

/-- A page waits for a new backing location, and is not demoted before it has one (11 R356). -/
def unbacked (s : State) (k : Nat) : Bool := s.fl.rewrites.any (fun u => slotOfUnit s u == some k)

/-- Evicts on a stack until `enough` says the demand fits or no candidate remains (10 R303). -/
def evictUntil (enough : State → Bool) (st : Nat) (chs : List Nat) : Nat → State → State
  | 0, s => s
  | n + 1, s =>
    if enough s then s
    else match oldest (s.tier.pages.filter (fun e => evictable s st chs e.2 && !unbacked s e.1)) with
      | none => s
      | some e => evictUntil enough st chs n (demotePage e.1 true s)

/-- Room for `n` pool pages on one of a stack's channels of a tenant: free memory first, then eviction where the demand is
guaranteed (10 R300). -/
def makeRoom (guaranteed : Bool) (st tenant n : Nat) (s : State) : State :=
  if guaranteed then
    evictUntil (fun s' => ((bestChan s' st tenant).map (fun c => decide (n ≤ chanFree s' st c))).getD false)
      st (chansOf s tenant) s.tier.pages.length s
  else s

/-- A place for a T1 home of a tenant on a stack (10 R296, R300): the state after any eviction, and the channel. -/
def placeHome (st tenant : Nat) (s : State) : State × Option Nat :=
  match tenantPol s tenant with
  | none => (s, none)
  | some tp =>
    let use := t1Use s tenant + (s.tier.pages.filter (fun e => e.2.tenant == tenant && e.2.moving.isSome)).length
    if tp.t1max ≤ use then (s, none)
    else
      let s1 := makeRoom (decide (use < tp.t1q)) st tenant 1 s
      (s1, bestChan s1 st tenant)

/-- A place for a frame or a piece of working memory of `n` pool pages (10 R293, R296, R300). -/
def placeFrame (st tenant n : Nat) (s : State) : State × Option Nat :=
  match tenantPol s tenant with
  | none => (s, none)
  | some tp =>
    let use := frameUse s tenant
    if tp.framemax < use + n then (s, none)
    else
      let s1 := makeRoom (decide (use + n ≤ tp.frameq)) st tenant n s
      (s1, (bestChan s1 st tenant).filter (fun c => decide (n ≤ chanFree s1 st c)))

/-- Pages of a tenant that R147 keeps T1-homed, wherever they are now: they count toward T1_Q (10 R301; log 25). -/
def keptUse (s : State) (tenant : Nat) : Nat :=
  (s.tier.pages.filter (fun e => e.2.tenant == tenant && keptT1 s e.2.owner)).length

/-- A place for a page that R147 keeps T1-homed: its demand lies within T1_Q, so eviction makes room (10 R296, R301). -/
def placePinned (st tenant : Nat) (s : State) : State × Option Nat :=
  match tenantPol s tenant with
  | none => (s, none)
  | some tp =>
    let s1 := makeRoom true st tenant 1 s
    if t1Use s1 tenant + (s1.tier.pages.filter (fun e => e.2.tenant == tenant && e.2.moving.isSome)).length < tp.t1max then (s1, bestChan s1 st tenant) else (s, none)

/-- The first stack from the stripe stack on that accepts a collection page that R147 keeps T1-homed (10 R296). -/
def placeKept (st tenant : Nat) : Nat → State → State × Option (Nat × Nat)
  | 0, s => (s, none)
  | n + 1, s =>
    let r := placePinned st tenant s
    match r.2 with
    | some c => (r.1, some (st, c))
    | none => placeKept ((st + 1) % 16) tenant n r.1

/-! ### Creation (10 R306, Table 88) -/

/-- A tenant's effective T2 guarantee in pages (10 R302). -/
def t2Guarantee (s : State) (tp : TenantPol) : Nat :=
  let total := sumOf (s.pol.tenants.map (fun e => e.2.t2q))
  if total ≤ t2Pages s then tp.t2q else tp.t2q * t2Pages s / total

/-- Whether a new key/value or scale page goes to T2 (10 Table 88). -/
def wantsT2 (s : State) (tenant : Nat) : Bool :=
  match tenantPol s tenant with
  | none => false
  | some tp =>
    let used := (s.tier.pages.filter (fun e => e.2.home == .t2)).length
    let unused := sumOf (s.pol.tenants.map (fun e => t2Guarantee s e.2 - t2Use s e.1))
    decide (t2Use s tenant < t2Guarantee s tp) || decide (used + unused < t2Pages s)

/-- The time at the 1 ms resolution of last-use times (10 R304). -/
def nowMs (s : State) : BitVec 64 := now s - now s % 1000000

/-- A page is created in a home with its content, through the write buffer (10 Table 84, 11 R329). -/
def createAt (o : Owner) (tenant acc : Nat) (home : Home) (slc : Bool) (bytes : List Byte) (s : State) : State :=
  let k := freeSlot s
  let u := slotUnit s k
  let pg : Page := { owner := o, tenant := tenant, home := home, backSlc := slc, lastUse := nowMs s }
  bufferMany u acc (match home with
    | .t1 _ _ => 0
    | _ => s.fl.seq + 1) 4
    (putUnitBytes u 0 bytes { s with tier := { s.tier with pages := SMap.place s.tier.pages k pg } })

/-- A page is created where the tier policy says (10 R306, Table 88). Key/value and scale pages go to T2 or T3; collection
pages that R147 keeps T1-homed go to T1 where a stack has room; others go to T3. -/
def createPage (o : Owner) (tenant acc : Nat) (bytes : List Byte) (s : State) : State :=
  match o with
  | .coll _ _ _ =>
    if keptT1 s o then
      let r := placeKept (stripeStack o) tenant 16 s
      match r.2 with
      | some p => createAt o tenant acc (.t1 p.1 p.2) true bytes r.1
      | none => createAt o tenant acc .t3 false bytes r.1
    else createAt o tenant acc .t3 false bytes s
  | _ => if wantsT2 s tenant then createAt o tenant acc .t2 true bytes s else createAt o tenant acc .t3 false bytes s

/-! ### Reading pages -/

/-- The worst state of a page's four units. -/
def unitsStatus (s : State) (u : Nat) : Byte :=
  let sts := (List.range 4).map (fun i => unitStatus s (u + i))
  if sts.any (· == stDieLost) then stDieLost else if sts.any (· == stMediaError) then stMediaError else stOk

/-- What a read of a page meets: a T1 home reads its DRAM image, a flash home its units (10 R286, 11 R355, 12 Table 112). -/
def pageStatus (s : State) (k : Nat) : Byte :=
  match pageAt s k with
  | none => stOk
  | some p => if p.inT1 then (if p.state = .poisoned then stPoisoned else stOk) else unitsStatus s (slotUnit s k)

/-- A flash home has a unit whose bytes fail their page check (12 R364); an image in the buffer or in DRAM is not read from flash. -/
def pageMismatch (s : State) (k : Nat) : Bool :=
  ((pageAt s k).map (fun p => !p.inT1)).getD false
  && (List.range 4).any (fun i => decide (slotUnit s k + i ∈ s.fl.mismatch) && !inBuffer s (slotUnit s k + i))

/-- The 65,536 bytes of a page. -/
def pageBytes (s : State) (k : Nat) : List Byte := unitBytes s (slotUnit s k) 0 65536

/-- A read sets the page's last use, at 1 ms resolution (10 R304). -/
def touchPage (k : Nat) (s : State) : State :=
  modPage k (fun p => { p with lastUse := nowMs s }) s

/-- A filled frame of a page exists. -/
def hasFrame (s : State) (k : Nat) : Bool := s.tier.frames.any (fun f => f.page == k && f.filled)

/-- Any frame of a page exists, filled or being filled. -/
def framed (s : State) (k : Nat) : Bool := s.tier.frames.any (fun f => f.page == k)

/-- The device reads a page, for a TRS or as work that counts toward none (16 R465): last use, and the flash reads of a flash
home that no frame holds. -/
def readFor (t : Option Nat) (k : Nat) (s : State) : State :=
  let s1 := touchPage k s
  match pageAt s k with
  | none => s1
  | some p =>
    if p.inT1 || hasFrame s k then s1
    else (List.range 4).foldl (fun s' i =>
      let u := slotUnit s k + i
      if inBuffer s' u then s'
      else match t with
        | some t => countFlashRead t u s'
        | none => bump 0x30 (faChan (mapOf s' u).addr) 1 s') s1

/-- The device reads a page for TRS `t`. -/
def readPage (t k : Nat) (s : State) : State := readFor (some t) k s

/-- The device reads the 4 KiB unit `i` of a GRAPH node or tag page for TRS `t`: a T1 home from DRAM, a flash home from the write buffer, a
frame, the hub cache or flash, with a fill for the page's tenant (10 R310, R311). -/
def readPart (t k i : Nat) (s : State) : State :=
  let s1 := touchPage k s
  let u := slotUnit s k + i / 4
  match pageAt s k with
  | none => s1
  | some p =>
    if p.inT1 || hasFrame s k || inBuffer s u then s1
    else cacheFill p.tenant (slotUnit s k * 4 + i) (if cacheHit s (slotUnit s k * 4 + i) then s1 else countFlashRead t u s1)

/-- A page that a command reads through a transient frame finds no room for it (10 R293). -/
def noRoom (s : State) (k : Nat) : Bool :=
  match pageAt s k with
  | none => false
  | some p => !p.inT1 && !framed s k && (placeFrame (stripeStack p.owner) p.tenant 1 s).2.isNone

/-- A command has a transient frame, waiting or filled. -/
def hasTransient (s : State) (t id : Nat) (filled : Bool) : Bool :=
  s.tier.frames.any (fun f => f.kind == .transient t id && f.filled == filled)

/-- The reads of a command wait for a transient frame: the first page without room gets a waiting frame. None where they
proceed; a command that holds a filled transient frame reads its pages through it in turn (10 R293; log 26). -/
def frameWait (t id : Nat) (ks : List Nat) (s : State) : Option State :=
  if hasTransient s t id true then none
  else match ks.find? (noRoom s) with
    | none => none
    | some k => if hasTransient s t id false then some s
      else match pageAt s k with
        | none => none
        | some p => some { s with tier := { s.tier with
            frames := s.tier.frames ++ [{ fid := s.tier.nextFrame, page := k, kind := .transient t id, stack := stripeStack p.owner,
                                          chan := 0, tenant := p.tenant, placed := false }],
            nextFrame := s.tier.nextFrame + 1 } }

/-- The fixed precedence among statuses of unreadable pages (05 R171): DIE_LOST, then MEDIA_ERROR, then POISONED. -/
def worse (a b : Byte) : Byte :=
  let rank (x : Byte) : Nat := if x = stDieLost then 3 else if x = stMediaError then 2 else if x = stPoisoned then 1 else 0
  if rank a < rank b then b else a

/-! ### Capacity (01 R31) -/

/-- User capacity in bytes. -/
def userCapacity : Nat := 448000000000000

/-- Transient pages of the anneal rounds of a tenant's collections (05 R155). -/
def roundPages (s : State) (p : Coll → Bool) : Nat :=
  sumOf (s.coll.map (fun e => if p e.2 then (e.2.round.map (·.charged)).getD 0 else 0))

/-- Bytes a tenant is charged: its volumes and its tier pages (01 R31). -/
def chargedTo (s : State) (tenant : Nat) : Nat :=
  sumOf ((s.pol.volumes.filter (fun v => v.tenant == tenant)).map (fun v => v.blocks * 4096))
    + ((s.tier.pages.filter (fun e => e.2.tenant == tenant && e.2.pend.isNone)).length + roundPages s (fun x => x.tenant == tenant)) * 65536

/-- Bytes charged in all. -/
def chargedAll (s : State) : Nat :=
  sumOf (s.pol.volumes.map (fun v => v.blocks * 4096)) + ((s.tier.pages.filter (fun e => e.2.pend.isNone)).length + roundPages s (fun _ => true)) * 65536

/-- Reservations of commands accepted and not finished (01 R31). -/
def resvs (s : State) : List Resv := (allHeld s).filterMap (fun e => if e.2.ended then none else e.2.resv)

/-- Reserved pages of a tenant. -/
def resvPages (s : State) (tenant : Nat) : Nat :=
  sumOf ((resvs s).map (fun r => if r.tenant = tenant then r.pages else 0))

/-- Whether `n` more pages fit the user capacity and the tenant's quota, reservations counted (01 R31). -/
def pagesFit (s : State) (tenant n : Nat) : Bool :=
  decide (chargedAll s + (sumOf ((resvs s).map (·.pages)) + n) * 65536 ≤ userCapacity)
  && decide (chargedTo s tenant + (resvPages s tenant + n) * 65536 ≤ ((tenantPol s tenant).map (·.cap)).getD 0)

/-- Whether `n` more pages that R147 keeps T1-homed lie within the tenant's T1_Q, reservations counted (10 R301). -/
def keptFit (s : State) (tenant n : Nat) : Bool :=
  decide (keptUse s tenant + sumOf ((resvs s).map (fun r => if r.tenant = tenant ∧ r.kept then r.pages else 0)) + n
    ≤ ((tenantPol s tenant).map (·.t1q)).getD 0)

end Sys2Proof.Machine
end

