-- ==== Sys2Proof/Machine/Operands.lean ====
section
/-! DEFINITION. The operand form of every command descriptor: opcodes, reserved bits, the checks of each command's "Checked at
acceptance" table in the order of 03 R77, resources, and the range each command locks. -/
namespace Sys2Proof.Machine

/-! ### Opcodes (03 Table 28) -/

/-- The opcodes of Table 28. -/
def opcodes : List Nat :=
  [0x00, 0x01, 0x02, 0x03, 0x04, 0x10, 0x11, 0x12, 0x13, 0x14, 0x15, 0x20, 0x21, 0x22, 0x23, 0x24, 0x30, 0x31, 0x32,
   0x40, 0x41, 0x50]

/-- FLAGS bits that an opcode defines (03 R79 and the commands' tables). -/
def flagMask : Nat → Nat
  | 0x01 => 0x07 | 0x02 => 0x07 | 0x10 => 0x07 | 0x11 => 0x07 | 0x12 => 0x07 | 0x30 => 0x0F | 0x31 => 0x7F | _ => 0x01

/-- Runs of descriptor bytes that an opcode defines beyond bytes 0 to 7: first byte, count, mask of each byte. -/
def definedRuns : Nat → List (Nat × Nat × Nat)
  | 0x01 | 0x02 => [(8, 12, 0xFF), (24, 12, 0xFF), (40, 8, 0xFF)]
  | 0x03 => [(8, 1, 0xFF)]
  | 0x04 => [(8, 12, 0xFF)]
  | 0x10 => [(8, 12, 0xFF), (24, 32, 0xFF)]
  | 0x11 => [(14, 1, 0xF0), (16, 4, 0xFF), (24, 32, 0xFF)]
  | 0x12 => [(8, 4, 0xFF), (12, 1, 0x0F), (16, 48, 0xFF)]
  | 0x13 => [(8, 4, 0xFF), (12, 1, 0x0F), (16, 12, 0xFF), (32, 16, 0xFF)]
  | 0x15 => [(8, 5, 0xFF), (16, 8, 0xFF)]
  | 0x20 => [(8, 3, 0xFF), (11, 2, 0x07), (14, 6, 0xFF), (24, 40, 0xFF)]
  | 0x21 | 0x22 => [(8, 4, 0xFF), (24, 16, 0xFF)]
  | 0x24 => [(8, 1, 0xFF), (9, 2, 0x03), (11, 4, 0xFF), (16, 8, 0xFF)]
  | 0x30 => [(8, 18, 0xFF), (32, 32, 0xFF)]
  | 0x31 => [(8, 1, 0xFF), (9, 1, 0x0F), (10, 34, 0xFF), (48, 16, 0xFF)]
  | 0x32 => [(8, 1, 0xFF), (16, 8, 0xFF)]
  | 0x40 | 0x41 => [(8, 1, 0xFF), (10, 22, 0xFF)]
  | 0x50 => [(8, 5, 0xFF), (16, 32, 0xFF)]
  | _ => []

/-- The bits of descriptor byte `b` that an opcode defines. -/
def definedMask (op b : Nat) : Nat :=
  if b = 1 then flagMask op
  else if b < 8 then 0xFF
  else ((definedRuns op).find? (fun r => decide (r.1 ≤ b ∧ b < r.1 + r.2.1))).elim 0 (fun r => r.2.2)

/-- The first byte of a descriptor that holds a reserved bit that is not zero (03 R78, Table 27 step 4). -/
def reservedByte (d : Desc) : Option Nat :=
  (List.range 64).find? (fun b => (fld d b 1 &&& (0xFF - definedMask (fld d 0 1) b)) != 0)

/-! ### Rows of checks -/

/-- A row of a check table: whether it is violated, its status, and the descriptor byte at which its field starts. -/
structure Row where
  bad : Bool
  code : Byte
  byte : Nat
  deriving DecidableEq, Repr

/-- The first violated row. -/
def firstBad : List Row → Option Row
  | [] => none
  | r :: rs => if r.bad then some r else firstBad rs

/-- An INVALID_FIELD row. -/
def invalid (bad : Bool) (byte : Nat) : Row := ⟨bad, stInvalidField, byte⟩

/-- A LENGTH_BEYOND_BUFFER row. -/
def tooLong (bad : Bool) (byte : Nat) : Row := ⟨bad, stLength, byte⟩

/-! ### Objects (03 Table 27 step 5) -/

/-- TRS 0 to 15 are privileged (03 R71). -/
def privileged (t : Nat) : Bool := decide (t < 16)

/-- A handle's context, where the handle is current (04 R101). -/
def ctxOf (s : State) (handle : Nat) : Option Ctx :=
  let c := SMap.find {} s.ctx.recs (handleIdx handle)
  if c.live ∧ c.gen.toNat = handle / 2 ^ 20 ∧ handle < 2 ^ 32 then some c else none

/-- A collection that exists. -/
def collOf (s : State) (c : Nat) : Option Coll :=
  let x := SMap.find {} s.coll c
  if x.live ∧ c < 256 then some x else none

/-- A declared tenant. -/
def declared (s : State) (t : Nat) : Bool := (tenantPol s t).isSome

/-- The tenant whose objects a TRS may name (03 R71). -/
def mayName (s : State) (t tenant : Nat) : Bool := privileged t || decide (tenant = tenantOf s t)

/-- A violated check of step 5: status, and BYTE where it is meaningful (03 R78). -/
abbrev ObjFail := Byte × Option Nat

/-- The volume check. -/
def volCheck (s : State) (t v byte : Nat) : Option ObjFail :=
  match volPol s v with
  | none => some (stInvalidField, some byte)
  | some p => if mayName s t p.tenant then none else some (stNotPermitted, none)

/-- The context handle check. -/
def ctxCheck (s : State) (t h : Nat) : Option ObjFail :=
  match ctxOf s h with
  | none => some (stStale, none)
  | some c => if mayName s t c.tenant then none else some (stNotPermitted, none)

/-- The collection check. -/
def collCheck (s : State) (t c byte : Nat) : Option ObjFail :=
  match collOf s c with
  | none => some (stInvalidField, some byte)
  | some x => if mayName s t x.tenant then none else some (stNotPermitted, none)

/-- An OBJECT that must be zero. -/
def zeroCheck (d : Desc) : Option ObjFail := if fld d 4 4 = 0 then none else some (stInvalidField, some 4)

/-- The OBJECT of a descriptor. -/
def objOf (d : Desc) : Nat := fld d 4 4

/-- Step 5 of Table 27, with the SCOPE of FLUSH and the FORM of CHAIN. -/
def objectCheck (s : State) (t : Nat) (d : Desc) : Option ObjFail :=
  let o := objOf d
  let b8 := fld d 8 1
  match fld d 0 1 with
  | 0x00 => zeroCheck d
  | 0x01 | 0x02 | 0x04 | 0x30 => volCheck s t o 4
  | 0x03 => if 2 < b8 then some (stInvalidField, some 8)
            else if b8 = 0 then volCheck s t o 4 else if b8 = 1 then ctxCheck s t o else collCheck s t o 4
  | 0x10 => zeroCheck d
  | 0x11 | 0x12 | 0x13 | 0x14 | 0x15 => ctxCheck s t o
  | 0x20 | 0x21 | 0x22 | 0x23 => collCheck s t o 4
  | 0x24 => if b8 = 0 then (if 255 < o ∨ (collOf s o).isSome then some (stInvalidField, some 4) else none)
            else collCheck s t o 4
  | 0x31 => if bitOf (fld d 1 1) 2 then zeroCheck d else volCheck s t o 4
  | 0x32 => if 1 < b8 then some (stInvalidField, some 8) else if b8 = 0 then volCheck s t o 4 else collCheck s t o 4
  | 0x40 => if b8 = 2 then (if declared s o then none else some (stInvalidField, some 4)) else zeroCheck d
  | 0x41 => if b8 = 1 then
              (if ¬ declared s o then some (stInvalidField, some 4)
               else if mayName s t o then none else some (stNotPermitted, none))
            else zeroCheck d
  | 0x50 => if o < 16 ∨ 4095 < o then some (stInvalidField, some 4) else none
  | _ => none

/-! ### Shapes of contexts (04 R104 to R110) -/

/-- The shape of a context: layers, key/value heads, head dimension, element format. -/
structure Shape where
  layers : Nat
  hkv : Nat
  dim : Nat
  fmt : Nat
  deriving DecidableEq, Repr

/-- The shape of a context. -/
def Ctx.shape (c : Ctx) : Shape := ⟨c.layers, c.hkv, c.dim, c.fmt⟩

/-- Tokens per page P of a shape (04 R104). -/
def Shape.p (x : Shape) : Nat := tokensPerPage x.dim (fmtBits x.fmt)

/-- Key/value pages a scale page serves, G (04 R106). -/
def Shape.g (x : Shape) : Nat := kvPerScale x.dim (fmtBits x.fmt)

/-- Key/value pages NP of `n` tokens (04 R105). -/
def Shape.np (x : Shape) (n : Nat) : Nat := ceilDiv n x.p

/-- Scale pages NS for `n` tokens (04 R106): FP16 contexts have none. -/
def Shape.ns (x : Shape) (n : Nat) : Nat := if isMx x.fmt then ceilDiv (x.np n) x.g else 0

/-- Pages of a context of `n` tokens (04 R107). -/
def Shape.pages (x : Shape) (n : Nat) : Nat := x.layers * x.hkv * (x.np n + x.ns n)

/-- Pages an EXTEND from `n` by `k` tokens creates, replacements included (04 R108, 01 R31). -/
def Shape.newPages (x : Shape) (n k : Nat) : Nat :=
  let j0 := n / x.p
  x.layers * x.hkv * ((x.np (n + k) - j0) + (if isMx x.fmt then x.ns (n + k) - j0 / x.g else 0))

/-- Bytes of an element of a token-major format (04 R109). -/
def srcSize : Nat → Nat
  | 0x0 => 4 | 0x1 => 2 | _ => 2

/-- Bytes of one layer of the token-major layout (04 R109). -/
def layerBytes (x : Shape) (t fmt : Nat) : Nat := 2 * t * x.hkv * x.dim * srcSize fmt

/-- Length of the token-major layout (04 R109). -/
def tokenMajorLen (x : Shape) (layers t fmt stride : Nat) : Nat := (layers - 1) * stride + layerBytes x t fmt

/-- The LAYER_STRIDE row (04 Table 38, R109). -/
def strideBad (x : Shape) (t fmt stride : Nat) : Bool :=
  if fmt = 0xF then decide (stride ≠ 0) else decide (stride < layerBytes x t fmt ∨ stride % 64 ≠ 0)

/-- The shape a PARK descriptor gives. -/
def parkShape (d : Desc) : Shape := ⟨fld d 8 2, fld d 10 1, fld d 12 2, fld d 14 1 % 16⟩

/-- SRC_FMT of PARK and EXTEND. -/
def srcFmt (d : Desc) : Nat := fld d 14 1 / 16

/-- The source length of PARK and EXTEND (04 R109, R110). -/
def srcLen (x : Shape) (d : Desc) : Nat :=
  if srcFmt d = 0xF then x.pages (fld d 16 4) * 65536
  else tokenMajorLen x x.layers (fld d 16 4) (srcFmt d) (fld d 24 8)

/-- Key/value and scale pages of a token range, delivered whole (04 R117). -/
def rangePages (x : Shape) (tok0 ntok : Nat) : (Nat × Nat) × (Nat × Nat) :=
  let lo := tok0 / x.p
  let hi := ceilDiv (tok0 + ntok) x.p
  ((lo, hi), if isMx x.fmt then (lo / x.g, ceilDiv hi x.g) else (0, 0))

/-- The output length of RECALL (04 R117). -/
def recallLen (x : Shape) (d : Desc) : Nat :=
  let n := fld d 10 2
  if fld d 12 1 = 0xF then
    let r := rangePages x (fld d 16 4) (fld d 20 4)
    n * x.hkv * ((r.1.2 - r.1.1) + (r.2.2 - r.2.1)) * 65536
  else tokenMajorLen x n (fld d 20 4) (fld d 12 1) (fld d 24 8)

/-- Query heads H of a context (04 R124). -/
def Ctx.heads (c : Ctx) : Nat := c.group * c.hkv

/-- Head record size R (04 R124). -/
def headRec (dim : Nat) : Nat := 8 + 4 * dim

/-- Layer stride LS (04 R124). -/
def layerStride (h dim : Nat) : Nat := 64 * ceilDiv (h * headRec dim) 64 + 64

/-- Drop size DS (04 R124). -/
def dropSize (h dim qfmt : Nat) : Nat := 64 * ceilDiv (h * dim * srcSize qfmt) 64

/-- Finite and not zero (04 Table 42, SCALE). -/
def scaleOk (w : Nat) : Bool := decide (bitsOf w 23 8 ≠ 255 ∧ w % 2 ^ 31 ≠ 0)

/-! ### Rows of step 6 (03 R77, ascending bytes) -/

/-- The CHK_ADDR row of Table 32. -/
def chkRow (d : Desc) (byte : Nat) : Row :=
  let a := fld d byte 8
  invalid (if bitOf (fld d 1 1) 1 then decide (a % 8 ≠ 0) else decide (a ≠ 0)) byte

/-- Rows on a range of blocks: LBA, NBLK, LBA + NBLK (03 Table 32). -/
def blockRows (size lba nblk maxBlk : Nat) : List Row :=
  [tooLong (decide (size ≤ lba)) 8, invalid (decide (nblk = 0 ∨ maxBlk < nblk)) 16, tooLong (decide (size < lba + nblk)) 16]

/-- READ and WRITE (03 Table 32). -/
def rwRows (s : State) (d : Desc) : List Row :=
  let size := ((volPol s (objOf d)).map (·.blocks)).getD 0
  let n := fld d 16 4
  [invalid (decide (fld d 0 1 = 0x01) && bitOf (fld d 1 1) 2) 1]
  ++ blockRows size (fld d 8 8) n 262144
  ++ [invalid (decide (fld d 24 8 % 64 ≠ 0)) 24, tooLong (decide (fld d 32 4 < n * 4096)) 32, chkRow d 40]

/-- RELEASE (03 R98). -/
def releaseRows (s : State) (d : Desc) : List Row :=
  blockRows (((volPol s (objOf d)).map (·.blocks)).getD 0) (fld d 8 8) (fld d 16 4) 4294967295

/-- A TENANT field as in Table 38: zero on TRS 16 and above, declared on TRS 0 to 15. -/
def tenantRow (s : State) (t v byte : Nat) : Row :=
  invalid (if privileged t then !declared s v else decide (v ≠ 0)) byte

/-- Rows PARK and EXTEND share from SRC_ADDR on (04 Table 38). -/
def sourceRows (x : Shape) (d : Desc) : List Row :=
  let len := srcLen x d
  [invalid (strideBad x (fld d 16 4) (srcFmt d) (fld d 24 8)) 24,
   invalid (decide (fld d 32 8 % 64 ≠ 0)) 32,
   tooLong (decide (fld d 40 8 < len)) 40,
   invalid (bitOf (fld d 1 1) 2 && decide (fld d 40 8 ≠ len ∨ 17179869184 < fld d 40 8)) 40,
   chkRow d 48]

/-- PARK (04 Table 38). -/
def parkRows (s : State) (t : Nat) (d : Desc) : List Row :=
  let x := parkShape d
  [invalid (decide (x.layers = 0 ∨ 256 < x.layers)) 8,
   invalid (decide (x.hkv = 0 ∨ 64 < x.hkv)) 10,
   invalid (decide (fld d 11 1 = 0 ∨ 16 < fld d 11 1)) 11,
   invalid (decide (x.dim ∉ [64, 80, 96, 128, 192, 256])) 12,
   invalid (decide (x.fmt ∉ [0x1, 0x3, 0x6, 0x7])) 14,
   invalid (decide (srcFmt d ∉ [0x0, 0x1, 0x2, 0xF])) 14,
   tenantRow s t (fld d 15 1) 15,
   invalid (decide (fld d 16 4 = 0 ∨ 16777216 < fld d 16 4)) 16]
  ++ sourceRows x d

/-- EXTEND (04 R114). -/
def extendRows (c : Ctx) (d : Desc) : List Row :=
  [invalid (decide (srcFmt d ∉ [0x0, 0x1, 0x2])) 14,
   invalid (decide (fld d 16 4 = 0 ∨ 16777216 < c.n + fld d 16 4)) 16]
  ++ sourceRows c.shape d

/-- LAYER0 and NLAYER rows (04 Table 39). -/
def layerRows (c : Ctx) (d : Desc) : List Row :=
  [tooLong (decide (c.layers ≤ fld d 8 2)) 8, invalid (decide (fld d 10 2 = 0 ∨ 256 < fld d 10 2)) 10,
   tooLong (decide (c.layers < fld d 8 2 + fld d 10 2)) 10]

/-- TOK0 and NTOK rows (04 Table 39). -/
def tokenRows (c : Ctx) (d : Desc) (whole : Bool) : List Row :=
  [tooLong (decide (c.n ≤ fld d 16 4)) 16, invalid (whole && decide (fld d 16 4 % c.shape.p ≠ 0)) 16,
   invalid (decide (fld d 20 4 = 0)) 20, tooLong (decide (c.n < fld d 16 4 + fld d 20 4)) 20]

/-- RECALL (04 Table 39). -/
def recallRows (c : Ctx) (d : Desc) : List Row :=
  let tun := bitOf (fld d 1 1) 2
  let len := recallLen c.shape d
  layerRows c d
  ++ [invalid (decide (fld d 12 1 ∉ [0x0, 0x1, 0x2, 0xF])) 12]
  ++ tokenRows c d (decide (fld d 12 1 = 0xF))
  ++ [invalid (strideBad c.shape (fld d 20 4) (fld d 12 1) (fld d 24 8)) 24,
      invalid (if tun then decide (fld d 32 8 ≠ 0) else decide (fld d 32 8 % 64 ≠ 0)) 32,
      tooLong (decide (fld d 40 8 < len)) 40,
      invalid (tun && decide (fld d 40 8 ≠ len ∨ 34359738368 < fld d 40 8)) 40,
      chkRow d 48, invalid (decide (fld d 56 8 % 64 ≠ 0)) 56]

/-- ATTEND (04 Table 42). -/
def attendRows (c : Ctx) (d : Desc) : List Row :=
  layerRows c d
  ++ [invalid (decide (2 < fld d 12 1)) 12,
      tooLong (decide (c.n ≤ fld d 16 4)) 16,
      invalid (decide (fld d 20 4 ≤ fld d 16 4)) 20, tooLong (decide (c.n < fld d 20 4)) 20,
      invalid (!scaleOk (fld d 24 4)) 24,
      invalid (decide (fld d 32 8 % 64 ≠ 0)) 32,
      tooLong (decide (fld d 40 8 < 64 + fld d 10 2 * layerStride c.heads c.dim)) 40]

/-- WARM (04 R122). -/
def warmRows (c : Ctx) (d : Desc) : List Row :=
  layerRows c d ++ [invalid (decide (1 < fld d 12 1)) 12] ++ tokenRows c d false

/-- Bits of a code by WIDTH (05 Table 46). -/
def codeBits (w : Nat) : Nat := 256 * 2 ^ w

/-- The block of one query in the result buffer, QB (05 R165). -/
def queryBlock (k : Nat) : Nat := 64 * ceilDiv (8 + 24 * k) 64

/-- SEARCH (05 Table 51). -/
def searchRows (x : Coll) (d : Desc) : List Row :=
  let k := fld d 8 2
  let nq := fld d 10 1
  let fop := fld d 12 1
  [invalid (decide (k = 0 ∨ 4096 < k)) 8, invalid (decide (nq = 0 ∨ 32 < nq)) 10,
   invalid (decide (4 < fld d 11 1)) 11, invalid (decide (4 < fop)) 12,
   invalid (decide (codeBits x.width < fld d 14 2)) 14,
   invalid (decide (fld d 16 4 < k ∨ 65536 < fld d 16 4)) 16,
   invalid (decide (fld d 24 8 % 64 ≠ 0)) 24, invalid (decide (fld d 32 8 % 64 ≠ 0)) 32,
   tooLong (decide (fld d 40 8 < nq * queryBlock k)) 40,
   invalid (decide (fop = 0 ∧ fld d 48 8 ≠ 0)) 48, invalid (decide (fop = 0 ∧ fld d 56 8 ≠ 0)) 56]

/-- Bytes of an INSERT input record (05 R156). -/
def recordBytesOf (w : Nat) : Nat := codeBits w / 8 + 16

/-- INSERT and DELETE (05 Table 50, R158). -/
def insertRows (x : Coll) (d : Desc) : List Row :=
  let per := if fld d 0 1 = 0x21 then recordBytesOf x.width else 8
  [invalid (decide (fld d 8 4 = 0 ∨ 1048576 < fld d 8 4)) 8, invalid (decide (fld d 24 8 % 64 ≠ 0)) 24,
   tooLong (decide (fld d 32 8 < fld d 8 4 * per)) 32]

/-- COLLECTION (05 Table 53). -/
def collectionRows (s : State) (t : Nat) (d : Desc) : List Row :=
  let act := fld d 8 1
  let create := decide (act = 0)
  let graph := bitOf (fld d 10 1) 0
  let deg := fld d 11 1
  let bc := fld d 12 2
  [invalid (decide (2 < act)) 8,
   invalid (!create && decide (fld d 9 1 ≠ 0)) 9,
   invalid (!create && decide (fld d 10 1 ≠ 0)) 10,
   invalid (create && graph && !bitOf (fld d 10 1) 1) 10,
   invalid (if create && graph then decide (deg < 16 ∨ 64 < deg ∨ deg % 8 ≠ 0) else decide (deg ≠ 0)) 11,
   invalid (if create && graph then decide (bc < 64 ∨ 1024 < bc) else decide (bc ≠ 0)) 12,
   (if create then tenantRow s t (fld d 14 1) 14 else invalid (decide (fld d 14 1 ≠ 0)) 14),
   invalid (if act = 2 then decide (fld d 16 8 % 64 ≠ 0) else decide (fld d 16 8 ≠ 0)) 16]

/-- Rows on a record region: LBA, DATA_LEN, their sum, at the given bytes (06 Table 60). -/
def regionRows (size lba len lbaAt lenAt : Nat) : List Row :=
  [tooLong (decide (size ≤ lba)) lbaAt, invalid (decide (len = 0)) lenAt,
   tooLong (decide (size < lba + ceilDiv len 4096)) lenAt]

/-- FILTER (06 Table 60). -/
def filterRows (s : State) (d : Desc) : List Row :=
  let size := ((volPol s (objOf d)).map (·.blocks)).getD 0
  let len := fld d 16 8
  regionRows size (fld d 8 8) len 8 16
  ++ [invalid (decide (4096 ≤ fld d 24 2 ∨ len ≤ fld d 24 2)) 24,
      invalid (decide (fld d 32 8 % 64 ≠ 0)) 32, invalid (decide (fld d 40 8 % 64 ≠ 0)) 40,
      invalid (decide (fld d 48 8 % 64 ≠ 0)) 48, tooLong (decide (fld d 56 8 < 64)) 56]

/-- The embedding slot a descriptor names, where it is in service. -/
def embedSlot (s : State) (d : Desc) : Option FnSlot :=
  (slotOf s (fld d 8 1)).filter (fun x => decide (x.kind = 1 ∧ fld d 8 1 < 64) && !x.withdrawn)

/-- The width of the B1 codes an EMBED makes: D_OUT, or its projection's width (06 R192, R195). -/
def embedWidth (x : FnSlot) (d : Desc) : Nat := if fld d 10 1 = 0 then x.dOut else x.projW.getD (fld d 10 1 - 1) 0

/-- The entry size EB (06 R196). -/
def embedEntry (x : FnSlot) (d : Desc) : Nat :=
  if fld d 9 1 = 0xD then embedWidth x d / 8 + 16
  else 64 * ceilDiv (16 + x.dOut * srcSize (fld d 9 1)) 64

/-- The COLL row of EMBED with INSERT = 1. -/
def embedColl (s : State) (t : Nat) (x : FnSlot) (d : Desc) : List Row :=
  let c := fld d 13 1
  match collOf s c with
  | none => [invalid true 13]
  | some y => [⟨!mayName s t y.tenant, stNotPermitted, 13⟩, invalid (decide (codeBits y.width ≠ embedWidth x d)) 13]

/-- EMBED (06 Table 62). `inRegion` is false where a CHAIN takes the region from its stage A. -/
def embedRows (s : State) (t : Nat) (inRegion : Bool) (d : Desc) : List Row :=
  let f := fld d 1 1
  let text := bitOf f 2
  let ins := bitOf f 3
  let b1 := decide (fld d 9 1 = 0xD)
  let x : FnSlot := (embedSlot s d).getD ⟨0, 0, 0, 0, 0, 0, [], [], [], [], [], false, []⟩
  let n := fld d 40 4
  let len := fld d 24 8
  let skip := fld d 14 2
  [invalid ((text && (bitOf f 1 || bitOf f 4 || bitOf f 5)) || (ins && !b1)) 1,
   invalid (embedSlot s d).isNone 8,
   invalid (decide (fld d 9 1 ∉ [0x0, 0x1, 0xD])) 9,
   invalid (if b1 then decide (x.nproj < fld d 10 1 ∨ (fld d 10 1 = 0 ∧ x.dOut ∉ [256, 512, 1024, 2048]))
            else decide (fld d 10 1 ≠ 0)) 10,
   invalid ((text || bitOf f 4) && decide (fld d 11 1 ≠ 0)) 11,
   invalid (!bitOf f 5 && decide (fld d 12 1 ≠ 0)) 12]
  ++ (if ins then embedColl s t x d else [invalid (decide (fld d 13 1 ≠ 0)) 13])
  ++ (if text then
        [invalid (decide (skip ≠ 0)) 14, invalid (decide (fld d 16 8 ≠ 0)) 16,
         tooLong (decide (len < 24 * n)) 24, invalid (decide (4294967296 < len)) 24]
      else if inRegion then
        [invalid (decide (4096 ≤ skip ∨ len ≤ skip)) 14]
        ++ regionRows (((volPol s (objOf d)).map (·.blocks)).getD 0) (fld d 16 8) len 16 24
      else [invalid (decide (skip ≠ 0)) 14, invalid (decide (fld d 16 8 ≠ 0)) 16, invalid (decide (len ≠ 0)) 24])
  ++ [invalid (decide (fld d 32 8 % 64 ≠ 0)) 32, invalid (decide (n = 0 ∨ 1048576 < n)) 40,
      invalid (decide (fld d 48 8 % 64 ≠ 0)) 48,
      tooLong (decide (fld d 56 8 < 64 + (if bitOf f 6 then 0 else n * embedEntry x d))) 56]

/-- Instances of a counter kind (16 Table 144); none where no such kind exists. -/
def kindInstances : Nat → Option Nat
  | 0x0001 | 0x0002 | 0x0003 | 0x0004 => some 160
  | 0x0005 => some 16
  | 0x0010 | 0x0011 => some 741
  | 0x0012 => some 512
  | 0x0013 => some 24
  | 0x0020 => some 20
  | 0x0030 | 0x0031 | 0x0032 | 0x0033 => some 128
  | 0x0034 => some 7
  | 0x0040 => some 4
  | 0x0050 | 0x0051 | 0x0052 | 0x0053 | 0x0054 | 0x0055 | 0x0056 | 0x0057 => some 256
  | 0x0060 => some 6
  | 0x0070 => some 192
  | 0x0080 => some 4
  | _ => none

/-- COUNTERS (16 Table 146). -/
def counterRows (d : Desc) : List Row :=
  let sc := fld d 8 1
  let kind := fld d 10 2
  let first := fld d 12 4
  [invalid (decide (2 < sc)) 8,
   invalid (if sc = 1 then (kindInstances kind).isNone else decide (kind ≠ 0)) 10,
   invalid (if sc = 1 then decide ((kindInstances kind).getD 0 ≤ first) else decide (first ≠ 0)) 12,
   invalid (decide (fld d 16 8 % 64 ≠ 0)) 16,
   tooLong (decide (fld d 24 8 < (if sc = 0 then 192 else if sc = 1 then 72 else 128))) 24]

/-- DIGEST_READ (16 R476). -/
def digestRows (d : Desc) : List Row :=
  [invalid (decide (1 < fld d 8 1)) 8, invalid (decide (fld d 10 2 ≠ 0)) 10, invalid (decide (fld d 12 4 ≠ 0)) 12,
   invalid (decide (fld d 16 8 % 64 ≠ 0)) 16, tooLong (decide (fld d 24 8 < 64)) 24]

/-- The requester IDs of a BIND descriptor. -/
def bindRids (d : Desc) : List (BitVec 16) :=
  (List.range (fld d 12 1)).map (fun i => BitVec.ofNat 16 (fld d (16 + 2 * i) 2))

/-- BIND (03 Table 34). -/
def bindRows (s : State) (d : Desc) : List Row :=
  let act := fld d 8 1
  let v := (getTrs s (objOf d)).bind.valid
  let n := fld d 12 1
  [invalid (decide (1 < act)) 8, invalid (decide (act = 0) && v) 8, invalid (decide (act = 1) && !v) 8,
   invalid (if act = 0 then !declared s (fld d 9 1) else decide (fld d 9 1 ≠ 0)) 9,
   invalid (if act = 0 then decide (2047 < fld d 10 2) else decide (fld d 10 2 ≠ 0)) 10,
   invalid (if act = 0 then decide (n = 0 ∨ 16 < n) else decide (n ≠ 0)) 12]
  ++ (List.range 16).map (fun i => invalid (decide (n ≤ i ∧ fld d (16 + 2 * i) 2 ≠ 0)) (16 + 2 * i))

/-- Step 6 of Table 27 for every opcode. -/
def fieldRows (s : State) (t : Nat) (d : Desc) : List Row :=
  let c := (ctxOf s (objOf d)).getD {}
  let x := (collOf s (objOf d)).getD {}
  match fld d 0 1 with
  | 0x01 | 0x02 => rwRows s d
  | 0x04 => releaseRows s d
  | 0x10 => parkRows s t d
  | 0x11 => extendRows c d
  | 0x12 => recallRows c d
  | 0x13 => attendRows c d
  | 0x15 => warmRows c d
  | 0x20 => searchRows x d
  | 0x21 | 0x22 => insertRows x d
  | 0x24 => collectionRows s t d
  | 0x30 => filterRows s d
  | 0x31 => embedRows s t true d
  | 0x32 => [invalid (decide (fld d 16 8 % 64 ≠ 0)) 16]
  | 0x40 => counterRows d
  | 0x41 => digestRows d
  | 0x50 => bindRows s d
  | _ => []

/-! ### Resources (03 Table 27 step 7, 01 R31) -/

/-- A command that needs the tundish (02 R44). -/
def needsTundish (d : Desc) : Bool :=
  match fld d 0 1 with
  | 0x10 | 0x11 | 0x12 => bitOf (fld d 1 1) 2
  | 0x13 => true
  | _ => false

/-- Commands that write: they wait at step 7 while the flush reserve is restored (11 R339; log 18). -/
def writes (d : Desc) : Bool :=
  match fld d 0 1 with
  | 0x02 | 0x04 | 0x10 | 0x11 | 0x21 | 0x22 => true
  | 0x24 | 0x32 => decide (fld d 8 1 = 0)
  | 0x31 => bitOf (fld d 1 1) 3
  | _ => false

/-- Commands whose table holds the row on spares. -/
def needsSpares (d : Desc) : Bool :=
  match fld d 0 1 with
  | 0x02 | 0x10 | 0x11 | 0x21 | 0x22 => true
  | 0x31 => bitOf (fld d 1 1) 3
  | _ => false

/-- Side-list length of a collection: codes no epoch's index holds and no epoch has removed (05 R152). -/
def sideLen (x : Coll) : Nat := (x.codes.filter (fun c => c.folded.isNone && c.removed.isNone)).length

/-- A code's tombstone is pending: an anneal has not removed the code (05 R153). -/
def tombPending (c : Code) : Bool := c.tombSeq.isSome && c.removed.isNone

/-- Pending tombstones of a collection. -/
def tombLen (x : Coll) : Nat := (x.codes.filter tombPending).length

/-- Side-list codes per page (05 Table 47). -/
def sidePer (w : Nat) : Nat := 65536 / recordBytesOf w

/-- Codes reserved for a collection by commands accepted and not finished. -/
def resvCodes (s : State) (c : Nat) : Nat := sumOf ((resvs s).map (fun r => if r.coll = c then r.codes else 0))

/-- Tombstones reserved for a collection. -/
def resvTombs (s : State) (c : Nat) : Nat := sumOf ((resvs s).map (fun r => if r.coll = c then r.tombs else 0))

/-- Pages that `n` more entries of a list of `len` need, `per` to a page, at least one page always held (05 R147). -/
def listPages (len n per : Nat) : Nat := max 1 (ceilDiv (len + n) per) - max 1 (ceilDiv len per)

/-- Codes held device-wide (05 R145). -/
def deviceCodes (s : State) : Nat :=
  sumOf (s.coll.map (fun e => (e.2.codes.filter (fun c => c.removed.isNone)).length))

/-- The tenant a PARK or CREATE charges (04 Table 38). -/
def ownTenant (s : State) (t v : Nat) : Nat := if privileged t then v else tenantOf s t

/-- What an insertion of `n` codes into collection `c` reserves (01 R31, 05 Table 50). -/
def insertResv (s : State) (c n : Nat) : Resv :=
  let x := (collOf s c).getD {}
  { tenant := x.tenant, pages := listPages (sideLen x + resvCodes s c) n (sidePer x.width), coll := c, codes := n, kept := true }

/-- The side-list and device-code limits hold for `n` more codes (05 Table 50). -/
def codesFit (s : State) (c n : Nat) : Bool :=
  let x := (collOf s c).getD {}
  decide (sideLen x + resvCodes s c + n ≤ 67108864)
  && decide (deviceCodes s + sumOf ((resvs s).map (·.codes)) + n ≤ 68719476736)

/-- The reservation of a command, where it makes one (01 R31). -/
def resvOf (s : State) (t : Nat) (d : Desc) : Option Resv :=
  match fld d 0 1 with
  | 0x10 => some { tenant := ownTenant s t (fld d 15 1), pages := (parkShape d).pages (fld d 16 4), index := true }
  | 0x11 => (ctxOf s (objOf d)).map (fun c => { tenant := c.tenant, pages := c.shape.newPages c.n (fld d 16 4) })
  | 0x21 => some (insertResv s (objOf d) (fld d 8 4))
  | 0x22 =>
    let x := (collOf s (objOf d)).getD {}
    let n := fld d 8 4
    some { tenant := x.tenant, pages := listPages (tombLen x + resvTombs s (objOf d)) n 4096, coll := objOf d, tombs := n, kept := true }
  | 0x24 => if fld d 8 1 = 0 then some { tenant := ownTenant s t (fld d 14 1), pages := 2, coll := objOf d, kept := true } else none
  | 0x31 => if bitOf (fld d 1 1) 3 then some (insertResv s (fld d 13 1) (fld d 40 4)) else none
  | _ => none

/-- Live contexts. -/
def liveCtxs (s : State) : Nat := (s.ctx.recs.filter (fun e => e.2.live)).length

/-- Open steps: ATTENDs accepted and not finished (04 R123). -/
def openSteps (s : State) : Nat :=
  ((allHeld s).filter (fun e => decide (e.2.op = 0x13) && !e.2.ended && decide (e.2.phase ≠ .pending))).length

/-- The last group of step 7: user capacity, tenant quota, free context indices, side-list and device-code limits, open
steps. -/
def capacityOk (s : State) (t : Nat) (d : Desc) : Bool :=
  (match resvOf s t d with
   | none => true
   | some r =>
     pagesFit s r.tenant r.pages && (!r.kept || keptFit s r.tenant r.pages)
     && (!r.index || decide (liveCtxs s + ((resvs s).filter (·.index)).length < 1048576))
     && (decide (r.codes = 0) || codesFit s r.coll r.codes)
     && (decide (r.tombs = 0) || decide (tombLen ((collOf s r.coll).getD {}) + resvTombs s r.coll + r.tombs ≤ 67108864)))
  && (decide (fld d 0 1 ≠ 0x13) || decide (openSteps s < 16384))

/-! ### Range locks (03 R85, 04 Table 37, 05 R170, 06 R187, R193, R202) -/

/-- The blocks of a record region. -/
def regionLock (v lba len : Nat) : LockRange := .volume v lba (lba + ceilDiv len 4096)

/-- The entry a command takes: exclusive or not, and its ranges; none for commands that lock nothing. DROP takes every page that the context
can have, those of an EXTEND still to run among them (04 R113). -/
def lockOf (s : State) (d : Desc) : Option (Bool × List LockRange) :=
  let o := objOf d
  let c := (ctxOf s o).getD {}
  let p := c.shape.p
  match fld d 0 1 with
  | 0x01 => some (false, [.volume o (fld d 8 8) (fld d 8 8 + fld d 16 4)])
  | 0x02 | 0x04 => some (true, [.volume o (fld d 8 8) (fld d 8 8 + fld d 16 4)])
  | 0x11 => some (true, [.context o (c.n / p) (ceilDiv (c.n + fld d 16 4) p)])
  | 0x12 | 0x15 => some (false, [.context o (fld d 16 4 / p) (ceilDiv (fld d 16 4 + fld d 20 4) p)])
  | 0x13 => some (false, [.context o (fld d 16 4 / p) (ceilDiv (fld d 20 4) p)])
  | 0x14 => some (true, [.context o 0 16777216])
  | 0x20 | 0x21 | 0x22 | 0x23 => some (false, [.coll o])
  | 0x24 => if fld d 8 1 ≤ 1 then some (true, [.coll o]) else none
  | 0x30 => some (false, [regionLock o (fld d 8 8) (fld d 16 8)])
  | 0x31 =>
    let f := fld d 1 1
    some (false, (if bitOf f 2 then [] else [regionLock o (fld d 16 8) (fld d 24 8)])
                 ++ (if bitOf f 3 then [.coll (fld d 13 1)] else []))
  | 0x32 => some (false, if fld d 8 1 = 0 then [.volume o 0 (((volPol s o).map (·.blocks)).getD 0)] else [.coll o])
  | _ => none

/-- Two ranges overlap (03 R85). -/
def rangesMeet : LockRange → LockRange → Bool
  | .volume v a b, .volume w c d => decide (v = w ∧ a < d ∧ c < b)
  | .context h a b, .context k c d => decide (h = k ∧ a < d ∧ c < b)
  | .coll a, .coll b => decide (a = b)
  | _, _ => false

/-- Two entries conflict: their ranges overlap and at least one is exclusive (03 R85). -/
def locksConflict (a b : Lock) : Bool :=
  (a.excl || b.excl) && a.ranges.any (fun x => b.ranges.any (rangesMeet x))

end Sys2Proof.Machine
end

