-- ==== Sys2Proof/Machine/Storage.lean ====
section
/-! DEFINITION. The storage commands: what READ, WRITE, FLUSH and RELEASE do once they run (03 R87, R90, R92, R95 to R98,
11 R321, 12 R363, R364), and the host data a command's DMA reads bring. -/
namespace Sys2Proof.Machine

/-! ### Host data received by DMA -/

/-- Received ranges cover `[a, a + n)`; each round uses up one range. -/
def covered (rs : List (Nat × Nat)) : Nat → Nat → Nat → Bool
  | 0, _, n => decide (n = 0)
  | f + 1, a, n =>
    if n = 0 then true
    else match rs.find? (fun r => decide (r.1 ≤ a ∧ a < r.1 + r.2)) with
      | none => false
      | some r => if a + n ≤ r.1 + r.2 then true else covered rs f (r.1 + r.2) (a + n - (r.1 + r.2))

/-- A held command has received the `n` bytes at a bus address. -/
def received (h : Held) (a n : Nat) : Bool := covered h.rxAt h.rxAt.length a n

/-- The `n` bytes a held command received from a bus address. -/
def rxBytes (h : Held) (a n : Nat) : List Byte := SMap.getList 0 h.rx a n

/-- All DMA reads of a command have completed. -/
def inputsIn (h : Held) : Bool := h.reads.isEmpty

/-! ### READ (03 R95, R96, 12 R364) -/

/-- What the read of one block meets: the unit's state, then with PCHK its stored check value. -/
def blockStatus (s : State) (pchk : Bool) (v k : Nat) : Byte :=
  let u := blockUnit s v k
  let st := unitStatus s u
  if st ≠ stOk then st
  else if pchk then
    match SMap.find none s.fl.check (u * 4 + k % 4) with
    | some c => if c = crc64 (blockBytes s v k) then stOk else stCheckMismatch
    | none => stOk
  else stOk

/-- The check value a READ with PCHK = 1 delivers for a block: the stored one, else the one computed over its bytes. -/
def deliveredCheck (s : State) (v k : Nat) : BitVec 64 :=
  (SMap.find none s.fl.check (blockUnit s v k * 4 + k % 4)).getD (crc64 (blockBytes s v k))

/-- Leading blocks that read as OK, and the status of the first that does not. -/
def readPrefix (s : State) (pchk : Bool) (v lba : Nat) : Nat → Nat × Byte
  | 0 => (0, stOk)
  | n + 1 =>
    let st := blockStatus s pchk v lba
    if st = stOk then
      let r := readPrefix s pchk v (lba + 1) n
      (r.1 + 1, r.2)
    else (0, st)

/-- A page-check mismatch is written to the event log with its flash address (12 R364). -/
def pageCheckEvent (u cw : Nat) (s : State) : State := raise 0x0007 1 (mapOf s u).addr.toNat u cw s

/-- READ: the leading intact blocks go to the buffer, with PCHK their check values to CHK_ADDR (03 Table 33). -/
def readBody (t id : Nat) (d : Desc) (s : State) : State :=
  let v := objOf d
  let lba := fld d 8 8
  let n := fld d 16 4
  let pchk := bitOf (fld d 1 1) 1
  let r := readPrefix s pchk v lba n
  let bytes := (List.range' lba r.1).flatMap (blockBytes s v)
  let chk := (List.range' lba r.1).flatMap (fun k => bytesOf 8 (deliveredCheck s v k).toNat)
  let s1 := touchRange t v lba (min n (r.1 + 1)) s
  let s2 := if r.1 = 0 then s1 else dmaWrite t (fld d 24 8) bytes true s1
  let s3 := if pchk && decide (0 < r.1) then dmaWrite t (fld d 40 8) chk true s2 else s2
  let s4 := if r.2 = stCheckMismatch then pageCheckEvent (blockUnit s v (lba + r.1)) ((lba + r.1) % 4) s3 else s3
  decideEnd t id r.2 r.1 s4

/-! ### WRITE (03 R92, R95, 11 R321, 12 R363) -/

/-- The DMA reads a WRITE issues: its data, and with PCHK its check values. -/
def writeStart (t id : Nat) (d : Desc) (s : State) : State :=
  let n := fld d 16 4
  let s1 := issueRead t id (fld d 24 8) (n * 4096) s
  if bitOf (fld d 1 1) 1 then issueRead t id (fld d 40 8) (n * 8) s1 else s1

/-- Whether block `i` of a WRITE has been received whole. -/
def blockIn (h : Held) (i : Nat) : Bool :=
  received h (fld h.desc 24 8 + i * 4096) 4096
  && (!bitOf (fld h.desc 1 1) 1 || received h (fld h.desc 40 8 + i * 8) 8)

/-- The longest run of whole blocks received in order from the first (03 R92). -/
def writtenPrefix (h : Held) : Nat → Nat → Nat
  | _, 0 => 0
  | i, n + 1 => if blockIn h i then writtenPrefix h (i + 1) n + 1 else 0

/-- A unit is made ready for a merge of some of its blocks: a readable unit that is not in the buffer is read from flash; the
blocks of a LOST or UNREADABLE unit become zeros without check values (11 R321). -/
def mergeUnit (t u : Nat) (part : Bool) (s : State) : State :=
  if unitStatus s u ≠ stOk then clearUnits u 1 s
  else if part && !inBuffer s u && (mapOf s u).st == 1 then countFlashRead t u s
  else s

/-- One block enters the write buffer with its check value (11 R321, 12 R363). -/
def putBlock (v k : Nat) (bytes : List Byte) (chk : Option (BitVec 64)) (s : State) : State :=
  let u := blockUnit s v k
  let s1 := putUnitBytes u (k % 4 * 4096) bytes s
  { s1 with fl := { s1.fl with check := SMap.put none s1.fl.check (u * 4 + k % 4) chk } }

/-- Every unit of `[lba, lba + n)` is merged and enters the buffer for the command accepted as `acc` (11 R321, R329). -/
def bufferBlocks (t v lba n acc : Nat) (s : State) : State :=
  if n = 0 then s
  else (List.range' (lba / 4) ((lba + n - 1) / 4 + 1 - lba / 4)).foldl (fun s' q =>
    let u := volBase s v + q
    bufferUnit u acc 0 (mergeUnit t u (decide (4 * q < lba ∨ lba + n < 4 * q + 4)) s')) s

/-- The first `n` blocks of a WRITE are applied: each whole block enters the volume (03 R92, R95). -/
def applyWrite (t : Nat) (h : Held) (n : Nat) (s : State) : State :=
  let d := h.desc
  let v := objOf d
  let lba := fld d 8 8
  let pchk := bitOf (fld d 1 1) 1
  let s1 := bufferBlocks t v lba n h.acceptNo (overwrite v lba n s)
  let s2 := (List.range n).foldl (fun s' i =>
    putBlock v (lba + i) (rxBytes h (fld d 24 8 + i * 4096) 4096)
      (if pchk then some (BitVec.ofNat 64 (natOf (rxBytes h (fld d 40 8 + i * 8) 8))) else none) s') s1
  let s3 := cacheDrop (volBase s v * 4 + lba) n s2
  let s4 := addCurrent t (fun c => { c with buffer := c.buffer + BitVec.ofNat 64 (n * 4096) }) s3
  if n = 0 then s4
  else { s4 with fl := { s4.fl with origins := s4.fl.origins ++ [⟨t, h.acceptNo, v, lba, n⟩] } }

/-- Units that blocks `[lba, lba + n)` touch. -/
def unitsTouched (lba n : Nat) : Nat := if n = 0 then 0 else (lba + n - 1) / 4 + 1 - lba / 4

/-- Buffer units that carry writes of the command accepted as `acc`. -/
def bufferedBy (s : State) (acc : Nat) : List BufUnit := s.fl.wbuf.filter (fun b => decide (acc ∈ b.accs))

/-- FUA of WRITE. -/
def isFua (h : Held) : Bool := bitOf (fld h.desc 1 1) 2

/-- A WRITE finishes: it is acknowledged from the buffer once every block is in; with FUA = 1 once its units have passed
program and their entries are durable, which a flush of staging makes them (03 Table 33, 11 R323). -/
def writeFinish (t id : Nat) (h : Held) (s : State) : State :=
  let n := fld h.desc 16 4
  let s1 := if h.applied then s
    else if inputsIn h && bufferRoom s (unitsTouched (fld h.desc 8 8) n) then
      modHeld t id (fun x => { x with applied := true }) (applyWrite t h n s)
    else s
  match heldOf s1 t id with
  | none => s1
  | some h1 =>
    if ¬ h1.applied then s1
    else if isFua h1 then
      if (bufferedBy s1 h1.acceptNo).all (fun b => b.progAt.isSome) then
        finish t id stOk (BitVec.ofNat 64 n) (journalFlush s1)
      else s1
    else finish t id stOk (BitVec.ofNat 64 n) s1

/-! ### RELEASE (03 R98, 11 R321) -/

/-- Buffer room for the end units of a RELEASE. -/
def releaseRoom (s : State) (d : Desc) : Bool :=
  bufferRoom s ((if fld d 8 8 % 4 ≠ 0 then 1 else 0) + (if (fld d 8 8 + fld d 16 4) % 4 ≠ 0 then 1 else 0))

/-- RELEASE: units covered completely are unmapped, released blocks of the end units are written as zeros, in one journal
entry. -/
def releaseBody (t id : Nat) (d : Desc) (acc : Nat) (s : State) : State :=
  let v := objOf d
  let lba := fld d 8 8
  let n := fld d 16 4
  let base := volBase s v
  let lo := ceilDiv lba 4
  let hi := (lba + n) / 4
  let full := if lo < hi then hi - lo else 0
  let ends := dedup ((if lba % 4 ≠ 0 then [lba / 4] else []) ++ (if (lba + n) % 4 ≠ 0 then [(lba + n) / 4] else []))
  let s1 := ends.foldl (fun s' q => bufferUnit (base + q) acc 0 (mergeUnit t (base + q) true s')) (overwrite v lba n s)
  let s2 := (List.range 4).foldl (fun s' i => ends.foldl (fun s'' q =>
    let k := 4 * q + i
    if lba ≤ k ∧ k < lba + n then putBlock v k (List.replicate 4096 0) none s'' else s'') s') s1
  let s3 := clearUnits (base + lo) full s2
  let s4 := { s3 with fl := { s3.fl with wbuf := s3.fl.wbuf.filter (fun b => decide (b.unit < base + lo ∨ base + lo + full ≤ b.unit)) } }
  let s5 := commitEntry [.unmap (base + lo) full] (cacheDrop (base * 4 + lba) n s4)
  decideEnd t id stOk n s5

/-- RELEASE takes its effect once the buffer has room for its end units. -/
def releaseGo (t id : Nat) (d : Desc) (acc : Nat) (s : State) : State := if releaseRoom s d then releaseBody t id d acc s else s

/-! ### FLUSH (03 R87, R90, R97) -/

/-- Opcodes whose commands write to a scope of FLUSH (03 R87). -/
def flushOps (scope : Nat) : List Nat :=
  match scope with
  | 0 => [0x02, 0x04]
  | 1 => [0x11, 0x14]
  | _ => [0x21, 0x22, 0x23, 0x24, 0x31, 0x32]

/-- The object in a FLUSH scope that a command writes. A CHAIN of form 0 names its collection in its second stage; until that is read any
collection may be the one. -/
def writesObject (scope o : Nat) (h : Held) : Bool :=
  let d := h.desc
  decide (fld d 0 1 ∈ flushOps scope) &&
  (match fld d 0 1 with
   | 0x31 => bitOf (fld d 1 1) 3 && decide (fld d 13 1 = o)
   | 0x32 => decide (fld d 8 1 = 0)
       && (!received h (fld d 16 8) 128 || decide (natOf (rxBytes h (fld d 16 8 + 77) 1) = o))
   | _ => decide (objOf d = o))

/-- A unit lies in a FLUSH scope. -/
def unitInScope (s : State) (scope o u : Nat) : Bool :=
  match volumeOfUnit s u with
  | some p => decide (scope = 0 ∧ p.1 = o)
  | none => match (slotOfUnit s u).bind (pageAt s) with
    | none => false
    | some p => match p.owner with
      | .kv x _ _ _ => decide (scope = 1 ∧ x = handleIdx o)
      | .scale x _ _ _ => decide (scope = 1 ∧ x = handleIdx o)
      | .coll c _ _ => decide (scope = 2 ∧ c = o)

/-- Every write to the scope accepted before the FLUSH has finished and its units have passed program (03 R87). -/
def flushReady (s : State) (h : Held) : Bool :=
  let scope := fld h.desc 8 1
  let o := objOf h.desc
  (allHeld s).all (fun e => !(writesObject scope o e.2 && !e.2.ended && decide (e.2.phase ≠ .pending)
    && decide (e.2.acceptNo < h.acceptNo)))
  && s.fl.wbuf.all (fun b => !(unitInScope s scope o b.unit && b.accs.any (fun a => decide (a < h.acceptNo))) || b.progAt.isSome)

/-- Outstanding deferred errors of the device, with their TRS, in the order found (03 R90). -/
def outstanding (s : State) : List (Nat × DefErr) :=
  s.trs.flatMap (fun e => (e.2.defer ++ e.2.deferOver).map (fun x => (e.1, x)))

/-- The first outstanding error in a FLUSH's scope (03 R90). -/
def flushError (s : State) (h : Held) : Option (Nat × DefErr) :=
  ((outstanding s).filter (fun e => decide (fld h.desc 8 1 = 0 ∧ e.2.volume = objOf h.desc))).foldl
    (fun best e => match best with
      | none => some e
      | some b => if e.2.no < b.2.no then some e else some b) none

/-- A FLUSH finishes once its scope is complete: staging is flushed, and it ends with OK or with the first outstanding error
in its scope, which its own TRS's report carries (03 R90, R97, 11 R323). -/
def flushFinish (t id : Nat) (h : Held) (s : State) : State :=
  if flushReady s h then
    let s1 := journalFlush s
    match flushError s1 h with
    | none => finish t id stOk 0 s1
    | some e => finishWith (if e.1 = t then some e.2.no else none) false t id e.2.code 0 s1
  else s

end Sys2Proof.Machine
end

