-- ==== Sys2Proof/Machine/Contexts.lean ====
section
/-! DEFINITION. Parked contexts (04 R100 to R122): page images, PARK, EXTEND, RECALL, DROP and WARM. -/
namespace Sys2Proof.Machine

/-! ### Placement in the tundish (02 R44, 04 R116, R119, R125) -/

/-- A range is free of placed regions and inside the tundish. -/
def tunFree (s : State) (base len : Nat) : Bool :=
  decide (base + len ≤ tundishSize)
  && s.tun.regions.all (fun r => decide (base + len ≤ r.base ∨ r.base + r.len ≤ base))
  && s.tun.snoops.all (fun r => decide (base + len ≤ r.1 ∨ r.1 + r.2 ≤ base))

/-- The lowest place that fits: the start of the tundish or the end of a placed region. -/
def firstFit (s : State) (len : Nat) : Option Nat :=
  let ends := 0 :: (s.tun.regions.map (fun r => ceilDiv (r.base + r.len) 64 * 64)
                    ++ s.tun.snoops.map (fun r => ceilDiv (r.1 + r.2) 64 * 64))
  (ends.filter (fun b => tunFree s b len)).foldl (fun best b => match best with
    | none => some b
    | some a => some (min a b)) none

/-- Where the device places a region: anywhere in the aperture (02 R44); a free candidate, else the first fit (log 12). -/
def tunPlace (s : State) (len : Nat) : Option Nat :=
  let cand := Config.freeNat (draw s) % (tundishSize / 64) * 64
  if tunFree s cand len then some cand else firstFit s len

/-- Two ranges share a byte. -/
def overlap (a n b m : Nat) : Bool := decide (a < b + m ∧ b < a + n)

/-- Adds a placed region. -/
def addRegion (r : Region) (s : State) : State :=
  drawn 1 { s with tun := { s.tun with regions := s.tun.regions ++ [r],
                                       dead := s.tun.dead.filter (fun x => !overlap r.base r.len x.1 x.2) } }

/-- Regions of a kind of a command are freed (04 R116, R125). Host-written lines of a command that ended with INPUT_STALLED stay known,
so that late input is told apart (03 R91). -/
def freeRegions (t id : Nat) (k : RegionKind) (s : State) : State :=
  let mine (r : Region) : Bool := r.trs == t && r.id == id && r.kind == k
  { s with tun := { s.tun with
      regions := s.tun.regions.filter (fun r => !mine r),
      dead := if id ∈ s.cmd.stalled ∧ k ≠ .recalled then s.tun.dead ++ (s.tun.regions.filter mine).map (fun r => (r.base, r.len))
              else s.tun.dead } }

/-- A host write is late input of a command that ended with INPUT_STALLED: it meets the slot or the staging lines of one (03 R91). -/
def lateInput (s : State) (a n : Nat) : Bool :=
  s.tun.dead.any (fun x => overlap a n x.1 x.2)
  || s.tun.regions.any (fun r => decide (r.kind ≠ .recalled ∧ r.id ∈ s.cmd.stalled) && overlap a n r.base r.len)

/-- Late input is dropped and counted (03 R91, 16 Table 144). -/
def dropLate (s : State) : State := bump 0x60 0 1 s

/-- Device-written lines are unmapped: with back-invalidate in use the device sends BISnpInv and keeps the range until the
BIRsp (02 R45, R46). -/
def unmapRecall (t id : Nat) (s : State) : State :=
  let rs := s.tun.regions.filter (fun r => r.trs == t && r.id == id && r.kind == .recalled)
  let s1 := freeRegions t id .recalled s
  if s.link.biUsed then
    emitAll (rs.map (fun r => .biSnp r.base r.len))
      { s1 with tun := { s1.tun with snoops := s1.tun.snoops ++ rs.map (fun r => (r.base, r.len)) } }
  else s1

/-- Everything a report holds in the tundish is released when it is retired or discarded (04 R119, R125). -/
def releaseReport (t id : Nat) (s : State) : State := unmapRecall t id (freeRegions t id .slot s)

/-- The next STAGE_SEQ or STEP_SEQ: one device-wide count that never takes 0 (04 R116). -/
def nextSeq (x : BitVec 32) : BitVec 32 := if x = BitVec.allOnes 32 then 1 else x + 1

/-! ### Page images (04 R105, R106) -/

/-- Zero-padded to `n` bytes. -/
def padTo (n : Nat) (l : List Byte) : List Byte := l ++ List.replicate (n - l.length) 0

/-- Bytes of one vector in a key/value page. -/
def Shape.vecBytes (x : Shape) : Nat := x.dim * fmtBits x.fmt / 8

/-- Tokens of page `j` of a context of `n` tokens. -/
def Shape.pageTokens (x : Shape) (n j : Nat) : List Nat := List.range' (j * x.p) (min ((j + 1) * x.p) n - j * x.p)

/-- A key/value page from its tokens' vectors: keys from offset 0, values from 0x8000, zeros elsewhere (04 R105). -/
def kvImage (x : Shape) (n j : Nat) (vec : Nat → Bool → List Byte) : List Byte :=
  let toks := x.pageTokens n j
  padTo 32768 (toks.flatMap (fun t => vec t false)) ++ padTo 32768 (toks.flatMap (fun t => vec t true))

/-- The part of a scale page for key/value page `j`: key scales of its P tokens, then value scales (04 R106). -/
def scalePart (x : Shape) (n j : Nat) (sc : Nat → Bool → List Byte) : List Byte :=
  let half := x.p * scalesPerVec x.dim
  let toks := x.pageTokens n j
  padTo half (toks.flatMap (fun t => sc t false)) ++ padTo half (toks.flatMap (fun t => sc t true))

/-- A scale page: the parts of its G key/value pages (04 R106). -/
def scaleImage (x : Shape) (n k : Nat) (sc : Nat → Bool → List Byte) : List Byte :=
  padTo 65536 ((List.range x.g).flatMap (fun i => scalePart x n (k * x.g + i) sc))

/-- The bytes of token `t`'s key or value in its key/value page image. -/
def vecOfImage (x : Shape) (img : List Byte) (t : Nat) (val : Bool) : List Byte :=
  sliceBytes img ((if val then 32768 else 0) + t % x.p * x.vecBytes) x.vecBytes

/-- The scale bytes of token `t` in its scale page image. -/
def scaleOfImage (x : Shape) (img : List Byte) (t : Nat) (val : Bool) : List Byte :=
  let b := scalesPerVec x.dim
  let j := t / x.p
  sliceBytes img (j % x.g * (2 * x.p * b) + (if val then x.p * b else 0) + t % x.p * b) b

/-- A source vector converted to the stored format: element bytes and scale bytes (04 R111, 08 R252, R253). -/
def encVec (x : Shape) (vs : List Val) : List Byte × List Byte :=
  if isMx x.fmt then
    let r := mxVector x.fmt vs
    (packElems (fmtBits x.fmt) r.2.1, r.1.map (BitVec.ofNat 8))
  else (packElems 16 (vs.map (encodeWord 0x1)), [])

/-- The vector of head `h`, token `t` in a token-major source (04 R109): `src` reads bytes at an offset. -/
def srcVec (x : Shape) (src : Nat → Nat → List Byte) (sfmt stride ntok l h t : Nat) (val : Bool) : List Val :=
  let sz := srcSize sfmt
  let off := l * stride + (if val then ntok * x.hkv * x.dim * sz else 0) + (t * x.hkv + h) * x.dim * sz
  (unpackElems (8 * sz) x.dim (src off (x.dim * sz))).map (decodeWord sfmt)

/-- The number of a page in the page-image layout: layers, heads, key/value pages, scale pages (04 R110). -/
def imageIndex (np ns hkv l h i : Nat) : Nat := (l * hkv + h) * (np + ns) + i

/-- A vector and its scales for token `t` of (l, h): from the source for tokens at or beyond `n0`, else from the old pages. -/
def tokenVec (x : Shape) (src : Nat → Nat → List Byte) (sfmt stride ntok n0 l h : Nat) (oldKv oldSc : List Byte) (t : Nat)
    (val : Bool) : List Byte × List Byte :=
  if n0 ≤ t then encVec x (srcVec x src sfmt stride ntok l h (t - n0) val)
  else (vecOfImage x oldKv t val, scaleOfImage x oldSc t val)

/-- The pages that PARK (n0 = 0) or EXTEND makes for one layer and head, with their owners, in page order. `old` gives the
images of the pages that are replaced. -/
def newImages (x : Shape) (idx : Nat) (src : Nat → Nat → List Byte) (sfmt stride ntok n0 l h : Nat)
    (oldKv oldSc : List Byte) : List (Owner × List Byte) :=
  let n := n0 + ntok
  let j0 := n0 / x.p
  let k0 := j0 / x.g
  if sfmt = 0xF then
    let np := x.np n
    let ns := x.ns n
    let img (i : Nat) := src (imageIndex np ns x.hkv l h i * 65536) 65536
    ((List.range np).map (fun j => (Owner.kv idx l h j, kvImage x n j (vecOfImage x (img j)))))
    ++ ((List.range ns).map (fun k => (Owner.scale idx l h k, scaleImage x n k (scaleOfImage x (img (np + k))))))
  else
    let tv := tokenVec x src sfmt stride ntok n0 l h oldKv oldSc
    ((List.range' j0 (x.np n - j0)).map (fun j => (Owner.kv idx l h j, kvImage x n j (fun t v => (tv t v).1))))
    ++ (if isMx x.fmt then
          (List.range' k0 (x.ns n - k0)).map (fun k => (Owner.scale idx l h k, scaleImage x n k (fun t v => (tv t v).2)))
        else [])

/-- Every (layer, head) pair of a shape, in order. -/
def Shape.pairs (x : Shape) : List (Nat × Nat) :=
  (List.range x.layers).flatMap (fun l => (List.range x.hkv).map (fun h => (l, h)))

/-! ### Page checks (04 R112) -/

/-- The units of a source that check values cover: offset and length, in order. -/
def checkUnits (x : Shape) (sfmt stride ntok : Nat) : List (Nat × Nat) :=
  if sfmt = 0xF then (List.range (x.pages ntok)).map (fun i => (i * 65536, 65536))
  else
    let half := ntok * x.hkv * x.dim * srcSize sfmt
    (List.range x.layers).flatMap (fun l => [(l * stride, half), (l * stride + half, half)])

/-- Every unit's CRC-64 equals its value at CHK_ADDR. -/
def checksPass (src : Nat → Nat → List Byte) (chk : Nat → BitVec 64) : List (Nat × Nat) → Nat → Bool
  | [], _ => true
  | u :: us, i => decide (crc64 (src u.1 u.2) = chk i) && checksPass src chk us (i + 1)

/-! ### PARK and EXTEND (04 R114 to R116) -/

/-- STAGE of PARK and EXTEND. -/
def isStaged (d : Desc) : Bool := bitOf (fld d 1 1) 2

/-- The 64-byte stage header (04 R116). -/
def stageHeader (off : Nat) (seq : BitVec 32) : List Byte :=
  bytesOf 8 off ++ bytesOf 4 seq.toNat ++ [0, 0, 0, 0x80] ++ bytesOf 48 0

/-- The shape a PARK or EXTEND writes. -/
def sourceShape (s : State) (d : Desc) : Shape :=
  if fld d 0 1 = 0x10 then parkShape d else ((ctxOf s (objOf d)).getD {}).shape

/-- With PCHK = 1 a PARK or EXTEND reads its check values (04 R112). -/
def parkChecks (t id : Nat) (d : Desc) (x : Shape) (s : State) : State :=
  if bitOf (fld d 1 1) 1 then
    issueRead t id (fld d 48 8) (8 * (checkUnits x (srcFmt d) (fld d 24 8) (fld d 16 4)).length) s
  else s

/-- PARK and EXTEND start: with STAGE = 1 a staging region is placed and the header written; else DMA reads fetch the source;
with PCHK further reads fetch the check values (04 R115, R116). -/
def parkStart (t id : Nat) (d : Desc) (s : State) : State :=
  let x := sourceShape s d
  let len := fld d 40 8
  if isStaged d then
    match tunPlace s (64 + len) with
    | none => decideEnd t id stCapacity 0 s
    | some base =>
      let seq := nextSeq s.cmd.seq
      let s2 := addRegion { base := base, len := 64 + len, kind := .stage, trs := t, id := id }
        { s with cmd := { s.cmd with seq := seq } }
      parkChecks t id d x (dmaWrite t (fld d 32 8) (stageHeader base seq) false
        (modHeld t id (fun h => { h with stage := some { base := base, len := 64 + len, seq := seq } }) s2))
  else parkChecks t id d x (issueRead t id (fld d 32 8) (srcLen x d) s)

/-- The source of a PARK or EXTEND, from the tundish or from what DMA brought. -/
def sourceOf (s : State) (h : Held) : Nat → Nat → List Byte :=
  match h.stage with
  | some st => fun off n => tunRead s (st.base + 64 + off) n
  | none => fun off n => rxBytes h (fld h.desc 32 8 + off) n

/-- All input of a PARK or EXTEND is in: DMA data, or the staged source with its doorbell (04 R116). -/
def sourceIn (h : Held) : Bool := inputsIn h && (match h.stage with
  | some st => st.rung
  | none => true)

/-- A staged source holds a poisoned line (02 R47). -/
def sourcePoisoned (s : State) (h : Held) : Bool :=
  match h.stage with
  | some st => poisonedAt s (st.base + 64) (st.len - 64)
  | none => false

/-- The index PARK takes: a never-used one while one exists, else the free index whose last drop is the oldest, the
lowest-numbered on a tie (04 R100). -/
def takeIndex (s : State) : Option Nat :=
  if s.ctx.nextNew < 1048576 then some s.ctx.nextNew
  else
    (s.ctx.recs.foldl (fun (best : Option (Nat × Nat)) e => match e.2.dropNo, e.2.live with
      | some n, false => (match best with
        | none => some (e.1, n)
        | some b => if n < b.2 then some (e.1, n) else some b)
      | _, _ => best) none).map (·.1)

/-- A page of a command that has not committed enters the write buffer with the command's GROUP (11 R329). -/
def createEarly (id group tenant acc : Nat) (p : Owner × List Byte) (s : State) : State :=
  let k := freeSlot s
  let s1 := modPage k (fun q => { q with pend := some id }) (createPage p.1 tenant acc p.2 s)
  let u := slotUnit s1 k
  { s1 with fl := { s1.fl with wbuf := s1.fl.wbuf.map (fun (b : BufUnit) =>
      if u ≤ b.unit ∧ b.unit < u + 4 then { b with cmd := some id, group := group } else b) } }

/-- Pages of a PARK or EXTEND enter the buffer, as many as it takes; the rest follow as earlier ones are programmed (04 R115, 11 R329).
The first of them takes the sequence number of the entry that will commit them. -/
def createSome (t : Nat) (h : Held) (tenant : Nat) (ps : List (Owner × List Byte)) (s : State) : State :=
  let group := if h.group = 0 then s.fl.seq + 1 else h.group
  let now := (ps.drop h.parts).take (bufferFree s / 4)
  let s1 := now.foldl (fun s' p => createEarly h.id group tenant h.acceptNo p s') { s with fl := { s.fl with seq := max s.fl.seq group } }
  modHeld t h.id (fun x => { x with parts := h.parts + now.length, group := group }) s1

/-- The units of a command that have been programmed and are in no entry yet. -/
def earlyPrograms (s : State) (id : Nat) : List (Nat × FlashAddr) :=
  s.fl.wbuf.filterMap (fun b => if b.cmd = some id then b.progAt.map (fun a => (b.unit, a)) else none)

/-- The commit of a PARK or EXTEND: one entry under the reserved number holds its records and the MAP records of what is programmed already;
its pages are the object's from now on, and its reservation becomes the charge (04 R115, 11 R329, 01 R31). `own` gives a page its owner. -/
def commitEarly (t id group : Nat) (own : Owner → Owner) (rs : List Rec) (s : State) : State :=
  let progs := earlyPrograms s id
  let s1 := commitAs group (rs ++ progs.map (fun e => Rec.map e.1 e.2)) { s with
    tier := { s.tier with pages := s.tier.pages.map (fun e =>
      if e.2.pend = some id then (e.1, { e.2 with pend := none, owner := own e.2.owner }) else e) },
    fl := { s.fl with wbuf := s.fl.wbuf.map (fun (b : BufUnit) =>
      if b.cmd = some id then { b with cmd := none, mapSeq := b.progAt.map (fun _ => group) } else b) } }
  modHeld t id (fun h => { h with resv := none }) s1

/-- OBJECT record kinds of the journal (11 Table 95): 1 context, 2 collection, 3 epoch. -/
def ctxObject (idx : Nat) : Rec := .object 1 idx

/-- Check values and poison of a PARK or EXTEND that has all its input: the status that ends it, OK where it may commit. -/
def sourceStatus (s : State) (h : Held) (x : Shape) : Byte :=
  let d := h.desc
  let src := sourceOf s h
  let chk (i : Nat) : BitVec 64 := BitVec.ofNat 64 (natOf (rxBytes h (fld d 48 8 + 8 * i) 8))
  if sourcePoisoned s h then stPoisoned
  else if bitOf (fld d 1 1) 1 && !checksPass src chk (checkUnits x (srcFmt d) (fld d 24 8) (fld d 16 4)) 0 then stCheckMismatch
  else stOk

/-- Bytes of a staged source are counted as read from the host (16 Table 145). -/
def countStaged (t : Nat) (h : Held) (s : State) : State :=
  match h.stage with
  | some st => addCurrent t (fun c => { c with hostRd := c.hostRd + BitVec.ofNat 64 (st.len - 64) }) s
  | none => s

/-- The context of a page that a PARK has not committed: its index is taken at the commit, and until then the page lies under a number beyond
every index. -/
def earlyIndex (id : Nat) : Nat := 1048576 + id

/-- A page of a context under another index. -/
def ofIndex (idx : Nat) : Owner → Owner
  | .kv _ l h j => .kv idx l h j
  | .scale _ l h k => .scale idx l h k
  | o => o

/-- The pages of a PARK, in order. -/
def parkPages (s : State) (h : Held) : List (Owner × List Byte) :=
  let d := h.desc
  let x := parkShape d
  x.pairs.flatMap (fun p => newImages x (earlyIndex h.id) (sourceOf s h) (srcFmt d) (fld d 24 8) (fld d 16 4) 0 p.1 p.2 [] [])

/-- The commit of a PARK: index, record and pages in one journal entry (04 R100, R102, R103). -/
def parkCommit (t : Nat) (h : Held) (s : State) : State × Option (BitVec 64) :=
  match takeIndex s with
  | none => (s, none)
  | some idx =>
    let d := h.desc
    let x := parkShape d
    let tenant := ownTenant s t (fld d 15 1)
    let old := SMap.find {} s.ctx.recs idx
    let rec' : Ctx := { live := true, gen := old.gen, layers := x.layers, hkv := x.hkv, group := fld d 11 1, dim := x.dim,
                        fmt := x.fmt, tenant := tenant, n := fld d 16 4, dropNo := old.dropNo }
    let s2 := commitEarly t h.id h.group (ofIndex idx) [ctxObject idx] { s with ctx := { s.ctx with
      recs := SMap.put {} s.ctx.recs idx rec', nextNew := max s.ctx.nextNew (idx + 1) } }
    (s2, some (BitVec.ofNat 64 (old.gen.toNat * 2 ^ 20 + idx)))

/-- PARK and EXTEND go on once their source is in: a source that fails ends the command; else pages enter the buffer as it has room, and
`done` follows when the last one is in (04 R115, Table 45). -/
def sourceGo (t id : Nat) (h : Held) (x : Shape) (tenant : Nat) (ps : List (Owner × List Byte)) (bad : Byte)
    (done : Held → State → State) (s : State) : State :=
  if sourceIn h then
    let st := if sourceStatus s h x ≠ stOk then sourceStatus s h x else bad
    if st ≠ stOk then finish t id st 0 (freeRegions t id .stage s)
    else
      let s1 := createSome t h tenant ps s
      match heldOf s1 t id with
      | none => s1
      | some h1 => if ps.length ≤ h1.parts then done h1 s1 else s1
  else s

/-- PARK goes on (04 R115, Table 45). -/
def parkFinish (t id : Nat) (h : Held) (s : State) : State :=
  let d := h.desc
  sourceGo t id h (parkShape d) (ownTenant s t (fld d 15 1)) (parkPages s h) stOk (fun h1 s1 =>
    let r := parkCommit t h1 (countStaged t h1 s1)
    match r.2 with
    | none => finish t id stCapacity 0 (freeRegions t id .stage s1)
    | some handle => finish t id stOk handle (freeRegions t id .stage r.1)) s

/-- The slots of the pages an EXTEND reads and replaces for one layer and head: the partly filled last page and the scale page
of its position (04 R108). -/
def replacedSlots (s : State) (c : Ctx) (idx l h : Nat) : Option Nat × Option Nat :=
  let x := c.shape
  let j0 := c.n / x.p
  (if c.n % x.p = 0 then none else slotOfOwner s (.kv idx l h j0),
   if isMx x.fmt then slotOfOwner s (.scale idx l h (j0 / x.g)) else none)

/-- The status of the pages that an EXTEND must read (04 R108). -/
def replacedStatus (s : State) (c : Ctx) (idx : Nat) : Byte :=
  c.shape.pairs.foldl (fun st p =>
    if st ≠ stOk then st
    else
      let r := replacedSlots s c idx p.1 p.2
      let a := (r.1.map (pageStatus s)).getD stOk
      if a ≠ stOk then a else (r.2.map (pageStatus s)).getD stOk) stOk

/-- The image of a slot, empty where there is none. -/
def imageOf (s : State) (k : Option Nat) : List Byte := (k.map (pageBytes s)).getD []

/-- The replacement and new pages of an EXTEND, in order. -/
def extendPages (s : State) (h : Held) (c : Ctx) (idx : Nat) : List (Owner × List Byte) :=
  let d := h.desc
  c.shape.pairs.flatMap (fun p =>
    let r := replacedSlots s c idx p.1 p.2
    newImages c.shape idx (sourceOf s h) (srcFmt d) (fld d 24 8) (fld d 16 4) c.n p.1 p.2 (imageOf s r.1) (imageOf s r.2))

/-- The slots of every page that an EXTEND retires. -/
def retiredSlots (s : State) (c : Ctx) (idx : Nat) : List Nat :=
  c.shape.pairs.flatMap (fun p =>
    let r := replacedSlots s c idx p.1 p.2
    r.1.toList ++ r.2.toList)

/-- The commit of an EXTEND: replacement and new pages, the UNMAP records of the retired pages and the new length in one entry (04 R108). -/
def extendCommit (t : Nat) (h : Held) (c : Ctx) (idx : Nat) (s : State) : State :=
  let ks := retiredSlots s c idx
  let s1 := ks.foldl (fun s' k => deletePage k s') s
  commitEarly t h.id h.group (fun o => o) (ctxObject idx :: ks.map (fun k => Rec.unmap (slotUnit s k) 4)) { s1 with ctx := { s1.ctx with
    recs := SMap.put {} s1.ctx.recs idx { c with n := c.n + fld h.desc 16 4 } } }

/-- EXTEND goes on (04 R108, R115). -/
def extendFinish (t id : Nat) (h : Held) (s : State) : State :=
  match ctxOf s (objOf h.desc) with
  | none => finish t id stStale 0 (freeRegions t id .stage s)
  | some c =>
    let idx := handleIdx (objOf h.desc)
    sourceGo t id h c.shape c.tenant (extendPages s h c idx) (replacedStatus s c idx) (fun h1 s1 =>
      finish t id stOk (BitVec.ofNat 64 (c.n + fld h.desc 16 4)) (freeRegions t id .stage (extendCommit t h1 c idx (countStaged t h1 s1)))) s

/-- A unit of a source has arrived with its check value (04 R112). -/
def checkUnitIn (h : Held) (u : Nat × Nat) (i : Nat) : Bool :=
  received h (fld h.desc 48 8 + 8 * i) 8
  && (match h.stage with
    | some st => st.rung
    | none => received h (fld h.desc 32 8 + u.1) u.2)

/-- Some unit of a source that has arrived fails its check (04 R112, R115). -/
def unitFails (s : State) (h : Held) (us : List (Nat × Nat)) (i : Nat) : Bool :=
  match us with
  | [] => false
  | u :: rest =>
    (checkUnitIn h u i && decide (crc64 (sourceOf s h u.1 u.2) ≠ BitVec.ofNat 64 (natOf (rxBytes h (fld h.desc 48 8 + 8 * i) 8))))
    || unitFails s h rest (i + 1)

/-- With PCHK = 1 a PARK or EXTEND checks each unit as it arrives: the first that fails ends the command with CHECK_MISMATCH (04 R115). -/
def checkArrival (t id : Nat) (s : State) : State :=
  match heldOf s t id with
  | none => s
  | some h =>
    let x := sourceShape s h.desc
    if h.undecided && bitOf (fld h.desc 1 1) 1 && !sourcePoisoned s h
        && unitFails s h (checkUnits x (srcFmt h.desc) (fld h.desc 24 8) (fld h.desc 16 4)) 0 then
      decideEnd t id stCheckMismatch 0 s
    else s

/-! ### RECALL (04 R117 to R120) -/

/-- The progress record of Table 40. -/
def progressRecord (base done : Nat) (d : Desc) : List Byte :=
  bytesOf 8 base ++ bytesOf 4 done ++ bytesOf 2 (fld d 2 2) ++ bytesOf 2 0x8000

/-- The pages of a token range in one layer, in delivery order: each head's key/value pages, then its scale pages. -/
def layerOwners (x : Shape) (idx l tok0 ntok : Nat) : List Owner :=
  let r := rangePages x tok0 ntok
  (List.range x.hkv).flatMap (fun h =>
    (List.range' r.1.1 (r.1.2 - r.1.1)).map (fun j => Owner.kv idx l h j)
    ++ (List.range' r.2.1 (r.2.2 - r.2.1)).map (fun k => Owner.scale idx l h k))

/-- The stored values of token `t`'s key or value in (l, h) (08 R251). -/
def storedVec (s : State) (x : Shape) (idx l h t : Nat) (val : Bool) : List Val :=
  let kv := imageOf s (slotOfOwner s (.kv idx l h (t / x.p)))
  let es := unpackElems (fmtBits x.fmt) x.dim (vecOfImage x kv t val)
  if isMx x.fmt then
    let sc := scaleOfImage x (imageOf s (slotOfOwner s (.scale idx l h (t / x.p / x.g)))) t val
    (List.range x.dim).map (fun i => decodeMx x.fmt (sc.getD (i / 32) 0).toNat (es.getD i 0))
  else es.map (decodeWord 0x1)

/-- The bytes RECALL delivers for one layer: key tensor, then value tensor, or whole pages (04 R109, R110). The two parts are
the units of R112. -/
def layerData (s : State) (x : Shape) (idx l : Nat) (d : Desc) : List (List Byte) :=
  let tok0 := fld d 16 4
  let ntok := fld d 20 4
  let f := fld d 12 1
  if f = 0xF then (layerOwners x idx l tok0 ntok).map (fun o => imageOf s (slotOfOwner s o))
  else [false, true].map (fun val => (List.range' tok0 ntok).flatMap (fun t => (List.range x.hkv).flatMap (fun h =>
    packElems (8 * srcSize f) ((storedVec s x idx l h t val).map (encodeWord f)))))

/-- One layer of a RECALL is delivered, with its progress record and check values (04 R118, R120). -/
def deliverLayer (t : Nat) (d : Desc) (base i : Nat) (units : List (List Byte)) (s : State) : State :=
  let bytes := units.flatten
  let step := if fld d 12 1 = 0xF then bytes.length else fld d 24 8
  let at' := base + i * step
  let s1 := if bitOf (fld d 1 1) 2 then
      addCurrent t (fun c => { c with hostWr := c.hostWr + BitVec.ofNat 64 bytes.length }) (tunWrite at' bytes s)
    else dmaWrite t at' bytes true s
  let s2 := if bitOf (fld d 1 1) 1 then
      dmaWrite t (fld d 48 8 + 8 * units.length * i) (units.flatMap (fun u => bytesOf 8 (crc64 u).toNat)) true s1
    else s1
  dmaWrite t (fld d 56 8) (progressRecord base (i + 1) d) false s2

/-- What the delivery of a page meets: its state, then with PCHK its stored check values (04 R120, 12 R364). -/
def deliverStatus (s : State) (pchk : Bool) (o : Owner) : Byte :=
  match slotOfOwner s o with
  | none => stOk
  | some k => if pageStatus s k ≠ stOk then pageStatus s k else if pchk && pageMismatch s k then stCheckMismatch else stOk

/-- The first page of a list that cannot be delivered, with its status. -/
def firstBadPage (s : State) (pchk : Bool) : List Owner → Option (Owner × Byte)
  | [] => none
  | o :: os => if deliverStatus s pchk o = stOk then firstBadPage s pchk os else some (o, deliverStatus s pchk o)

/-- A page-check mismatch of a page goes to the event log with the flash address of the unit that fails (12 R364). -/
def mismatchEvent (o : Owner) (s : State) : State :=
  match slotOfOwner s o with
  | none => s
  | some k => match (List.range 4).find? (fun i => decide (slotUnit s k + i ∈ s.fl.mismatch)) with
    | none => s
    | some i => raise 0x0007 1 (mapOf s (slotUnit s k + i)).addr.toNat (slotUnit s k + i) 0 s

/-- Layers `i` on of a RECALL, until one cannot be read: the state, layers complete, status. -/
def recallLayers (t : Nat) (d : Desc) (x : Shape) (idx base : Nat) : Nat → Nat → State → State × Nat × Byte
  | 0, i, s => (s, i, stOk)
  | n + 1, i, s =>
    let l := fld d 8 2 + i
    let os := layerOwners x idx l (fld d 16 4) (fld d 20 4)
    match firstBadPage s (bitOf (fld d 1 1) 1) os with
    | some b => (if b.2 = stCheckMismatch then mismatchEvent b.1 s else s, i, b.2)
    | none =>
      let units := layerData s x idx l d
      let s1 := os.foldl (fun s' o => match slotOfOwner s' o with
        | some k => readPage t k s'
        | none => s') s
      recallLayers t d x idx base n (i + 1) (deliverLayer t d base i units s1)

/-- The pages a RECALL reads, in delivery order. -/
def recallOwners (x : Shape) (idx : Nat) (d : Desc) : List Owner :=
  (List.range' (fld d 8 2) (fld d 10 2)).flatMap (fun l => layerOwners x idx l (fld d 16 4) (fld d 20 4))

/-- The device-written lines of a RECALL still wait for the BIRsp of their BISnpInv (02 R45). -/
def awaitsSnoop (s : State) (h : Held) : Bool := (h.exposed.map (fun e => decide (e ∈ s.tun.snoops))).getD false

/-- The layers of a RECALL are delivered once its lines are its own and its reads find room for transient frames (04 R118, 02 R45, 10
R293). -/
def recallRun (t id : Nat) (h : Held) (c : Ctx) (s : State) : State :=
  let d := h.desc
  let idx := handleIdx (objOf d)
  if awaitsSnoop s h then s
  else match frameWait t id ((recallOwners c.shape idx d).filterMap (slotOfOwner s)) s with
  | some s1 => s1
  | none =>
    let base := (h.exposed.map (·.1)).getD (fld d 32 8)
    let r := recallLayers t d c.shape idx base (fld d 10 2) 0 s
    decideEnd t id r.2.2 r.2.1 r.1

/-- Device-written lines that the device is about to change: with back-invalidate in use it sends BISnpInv and waits for the BIRsp (02 R45,
R46). -/
def snoopLines (base len : Nat) (s : State) : State :=
  if s.link.biUsed then emit (.biSnp base len) { s with tun := { s.tun with snoops := s.tun.snoops ++ [(base, len)] } } else s

/-- RECALL starts: with TUNDISH = 1 its lines are placed; the progress record shows LAYERS_DONE = 0, then the layers follow
in order (04 R117 to R120). -/
def recallStart (t id : Nat) (d : Desc) (c : Ctx) (s : State) : State :=
  let begin (base : Nat) (s1 : State) : State :=
    let s2 := dmaWrite t (fld d 56 8) (progressRecord base 0 d) false s1
    match heldOf s2 t id with
    | none => s2
    | some h => recallRun t id h c s2
  if bitOf (fld d 1 1) 2 then
    match tunPlace s (fld d 40 8) with
    | none => decideEnd t id stCapacity 0 s
    | some base =>
      begin base (modHeld t id (fun h => { h with exposed := some (base, fld d 40 8) })
        (snoopLines base (fld d 40 8) (addRegion { base := base, len := fld d 40 8, kind := .recalled, trs := t, id := id } s)))
  else begin (fld d 32 8) s

/-! ### DROP (04 R121) -/

/-- Slots of every page of a context. -/
def ctxSlots (s : State) (idx : Nat) : List Nat :=
  (s.tier.pages.filter (fun e => match e.2.owner with
    | .kv x _ _ _ => x == idx
    | .scale x _ _ _ => x == idx
    | .coll _ _ _ => false)).map (·.1)

/-- A context's pages are freed and its index's generation advances (04 R100, R121). -/
def dropContext (idx : Nat) (s : State) : State :=
  let ks := ctxSlots s idx
  let s1 := ks.foldl (fun s' k => deletePage k s') s
  let s2 := commitEntry (ctxObject idx :: ks.map (fun k => Rec.unmap (slotUnit s k) 4)) s1
  let c := SMap.find {} s2.ctx.recs idx
  { s2 with ctx := { s2.ctx with
      recs := SMap.put {} s2.ctx.recs idx { live := false, gen := c.gen + 1, dropNo := some s2.ctx.dropCount },
      dropCount := s2.ctx.dropCount + 1 } }

/-- DROP, decided when it becomes RUNNING: RESULT is the number of pages freed (04 R121). -/
def dropBody (t id : Nat) (d : Desc) (s : State) : State :=
  let idx := handleIdx (objOf d)
  decideEnd t id stOk (ctxSlots s idx).length (dropContext idx s)

/-! ### WARM (04 R122) -/

/-- The pages of a WARM's range in promotion order: layers, heads, key/value pages, scale pages (10 R307). -/
def warmOwners (x : Shape) (idx : Nat) (d : Desc) : List Owner :=
  (List.range' (fld d 8 2) (fld d 10 2)).flatMap (fun l => layerOwners x idx l (fld d 16 4) (fld d 20 4))

/-- A frame of a page is placed on its stripe stack, to be filled from flash (10 R292). -/
def addFrame (kind : FrameKind) (k : Nat) (p : Page) (s : State) : State :=
  let st := stripeStack p.owner
  let r := placeFrame st p.tenant 1 s
  match r.2 with
  | none => r.1
  | some ch => { r.1 with tier := { r.1.tier with
      frames := r.1.tier.frames ++ [{ fid := r.1.tier.nextFrame, page := k, kind := kind, stack := st, chan := ch, tenant := p.tenant }],
      nextFrame := r.1.tier.nextFrame + 1 } }

/-- A promotion starts: memory is taken on the stripe stack, eviction only where `evict` allows it (10 R300, R307). -/
def startPromotion (k : Nat) (p : Page) (s : State) : State :=
  let r := placeHome (stripeStack p.owner) p.tenant s
  match r.2 with
  | none => r.1
  | some ch => modPage k (fun q => { q with moving := some (stripeStack p.owner, ch) }) r.1

/-- A WARM or riser frame of a page exists: a transient frame of another command is none that WARM can keep (04 R122, 10 Table 85). -/
def heldFrame (s : State) (k : Nat) : Bool := s.tier.frames.any (fun f => f.page == k && (match f.kind with
  | .transient _ _ => false
  | _ => true))

/-- WARM starts: ACTION 0 frames the flash-homed pages of its range, ACTION 1 starts their promotions, skipping pages in a step
member's range (04 R122, R137). -/
def warmStart (t : Nat) (d : Desc) (c : Ctx) (s : State) : State :=
  (warmOwners c.shape (handleIdx (objOf d)) d).foldl (fun s' o =>
    match slotOfOwner s' o with
    | none => s'
    | some k => match pageAt s' k with
      | none => s'
      | some p =>
        if pageStatus s' k ≠ stOk then s'
        else if p.inT1 then touchPage k s'
        else if fld d 12 1 = 0 then (if heldFrame s' k then touchPage k s' else addFrame .warm k p (readPage t k s'))
        else if inMemberRange s' o || p.moving.isSome || inFold s' k then s' else startPromotion k p (readPage t k s')) s

/-- Pages of the range that are T1-homed or held in a frame (04 R122). -/
def warmPlaced (s : State) (os : List Owner) : Nat :=
  (os.filter (fun o => match slotOfOwner s o with
    | none => false
    | some k => ((pageAt s k).map (·.inT1)).getD false || hasFrame s k)).length

/-- The status of pages of a range that a WARM cannot read from flash; a T1-homed page counts as placed whatever its state (04 R122, Table
45). -/
def worstUnread (s : State) (os : List Owner) : Byte :=
  os.foldl (fun st o => match slotOfOwner s o with
    | none => st
    | some k => if ((pageAt s k).map (·.inT1)).getD false then st else worse st (pageStatus s k)) stOk

/-- The status of unreadable pages of a range, by the fixed precedence of R171. -/
def worstPage (s : State) (os : List Owner) : Byte :=
  os.foldl (fun st o => worse st (((slotOfOwner s o).map (pageStatus s)).getD stOk)) stOk

/-- WARM finishes once its placement is done: no frame of its range waits for its fill and no promotion is in progress. -/
def warmFinish (t id : Nat) (h : Held) (s : State) : State :=
  match ctxOf s (objOf h.desc) with
  | none => finish t id stStale 0 s
  | some c =>
    let os := warmOwners c.shape (handleIdx (objOf h.desc)) h.desc
    let busy := os.any (fun o => match slotOfOwner s o with
      | none => false
      | some k => ((pageAt s k).map (·.moving.isSome)).getD false
          || s.tier.frames.any (fun f => f.page == k && f.kind == .warm && !f.filled))
    if busy then s
    else
      let n := warmPlaced s os
      let bad := worstUnread s os
      finish t id (if bad ≠ stOk then bad else if n = os.length then stOk else stShort) (BitVec.ofNat 64 n) s

end Sys2Proof.Machine
end

