-- ==== Sys2Proof/Machine/Scales.lean ====
section
/-! DEFINITION. Learned scales, zero points, the late and group scaling paths, and adaptation (09 R264 to R284). -/
namespace Sys2Proof.Machine

/-! ### Scale records (09 R266 to R270) -/

/-- The group size of a GSIZE code (09 Table 81). -/
def gsizeOf : Nat → Nat
  | 0 => 32 | 1 => 64 | _ => 128

/-- The length of a record with its padded code and zero-point arrays (09 Table 81). -/
def scaleRecLen (nch : Nat) (zp : Bool) : Nat :=
  let a := ceilDiv nch 8 * 8
  32 + a + (if zp then a else 0)

/-- The effective zero point of channel `i` (09 R270). -/
def effZero (r : ScaleRec) (i : Nat) : Int :=
  let z : Int := if r.zp then signedOf 8 (r.zpts.getD i 0).toNat else 0
  if r.fmt = 0xA then z + 128 else z

/-- A normal finite FP32 word. -/
def isNormal32 (w : BitVec 32) : Bool :=
  decide (bitsOf w.toNat 23 8 ≠ 0 ∧ bitsOf w.toNat 23 8 ≠ 255)

/-- A record read from the slot's section: the checks of 09 R267 on the record alone, and the bytes that follow it. -/
def readScaleRec (l : List Byte) : Option (ScaleRec × List Byte) :=
  let b0 := numAt l 0 1
  let nch := numAt l 4 4
  let zp := bitOf b0 4
  let len := scaleRecLen nch zp
  let pad := ceilDiv nch 8 * 8
  let r : ScaleRec := {
    fmt := bitsOf b0 0 4, zp := zp, role := bitsOf b0 5 1, adapt := bitOf b0 6, gsize := numAt l 1 1,
    nch := nch, s2 := BitVec.ofNat 32 (numAt l 8 4), klen := numAt l 12 4,
    codes := (l.drop 32).take nch, zpts := if zp then (l.drop (32 + pad)).take nch else [] }
  let fmtOk : Bool := decide (r.fmt = 0x9 ∨ r.fmt = 0xA ∨ r.fmt = 0xB)
  let resOk : Bool := !bitOf b0 7 && decide (r.gsize < 3) && decide (numAt l 2 2 = 0) && decide (numAt l 16 16 = 0)
  let roleOk : Bool :=
    if r.role = 0 then decide (1 ≤ nch ∧ nch ≤ 65536) && !r.adapt && decide (1 ≤ r.klen ∧ r.klen ≤ 1048576)
    else decide (nch = 1) && decide (r.klen = 0)
  let s2Ok : Bool := isNormal32 r.s2 && !bitOf r.s2.toNat 31
  let codeOk : Bool := r.codes.all (fun c => decide (c.toNat < 0x7F ∧ 0 < c.toNat))
  let rg := intRange r.fmt
  let zOk : Bool := (List.range r.zpts.length).all
    (fun i => decide (rg.1 + 1 ≤ effZero r i ∧ effZero r i ≤ rg.2 - 1))
  let padOk (off : Nat) : Bool := decide (natOf (sliceBytes l (off + nch) (pad - nch)) = 0)
  let padsOk : Bool := padOk 32 && (!zp || padOk (32 + pad))
  if decide (len ≤ l.length) && padsOk && fmtOk && resOk && roleOk && s2Ok && codeOk && zOk then some (r, l.drop len) else none

/-- The learned scale of channel `i` (09 R268). -/
def learnedScale (r : ScaleRec) (i : Nat) : BitVec 32 :=
  toFp32 (mulVal (decodeFinite fmtE4M3 (r.codes.getD i 0).toNat) (ofFp32 r.s2))

/-- The adapted scale (09 R269). -/
def adaptedScale (s a : BitVec 32) : BitVec 32 := fp32Mul s a

/-- The factor of a row (09 R273). -/
def rowFactor (sw sx : BitVec 32) : BitVec 32 := fp32Mul sw sx

/-- A product's factor is a normal FP32 value at A = 0.25 and at A = 4 (09 R267). -/
def factorOk (sw sx : BitVec 32) : Bool :=
  isNormal32 (rowFactor sw (adaptedScale sx 0x3E800000)) && isNormal32 (rowFactor sw (adaptedScale sx 0x40800000))

/-! ### Products (09 R271 to R275) -/

/-- Sum of a run of integers. -/
def sumInt : List Int → Int
  | [] => 0
  | a :: as => a + sumInt as

/-- The exact dot product of integers (08 R258). -/
def dotInt : List Int → List Int → Int
  | a :: as, b :: bs => a * b + dotInt as bs
  | _, _ => 0

/-- The preload term of `k` inputs whose weights sum to `rw` (09 R271, R275). -/
def preloadTerm (k : Nat) (rw zw zx : Int) : Int := k * zw * zx - zx * rw

/-- Late scaling of a row: its accumulator entry, zero point, input sum and factor (09 R272). -/
def lateValue (acc : BitVec 32) (zw : Int) (sx f : BitVec 32) : BitVec 32 :=
  fp32Mul (fp32Fma (toFp32 (negVal (ofInt zw))) (toFp32 (ofInt sx.toInt)) (toFp32 (ofInt acc.toInt))) f

/-- The scaling stage of the group path: the exact partial sum that an entry and an input sum give, times the factor, rounded once, added into
an FP32 entry with one rounding (09 R275). -/
def groupAdd (entry acc : BitVec 32) (zw : Int) (sx f : BitVec 32) : BitVec 32 :=
  fp32Add entry (toFp32 (mulVal (ofInt (acc.toInt - zw * sx.toInt)) (ofFp32 f)))

/-! ### Weights of a slot (09 R267, R271, R275) -/

/-- The integer that a code of FMT stands for. -/
def fmtInt (fmt code : Nat) : Int := if fmt = 0xA then ((code % 256 : Nat) : Int) else signedOf (fmtBits fmt) (code % 2 ^ fmtBits fmt)

/-- Row `i` of a weight tensor, from the slot's objects. -/
def weightRow (digests : List (List Byte)) (tensor : Nat) (r : ScaleRec) (i : Nat) : List Int :=
  (List.range r.klen).map (fun j => fmtInt r.fmt (Config.weightCode digests tensor i j))

/-- A scale record of a slot. -/
def scaleOf (x : FnSlot) (tensor : Nat) : ScaleRec := x.scales.getD tensor ⟨0x9, false, 0, false, 0, 0, 0, 0, [], []⟩

/-- What S3 computes for a weight tensor (09 R271, R275). -/
def weightSums (digests : List (List Byte)) (x : FnSlot) (tensor : Nat) : WeightSums :=
  let r := scaleOf x tensor
  let rows := (List.range r.nch).map (weightRow digests tensor r)
  let rw := rows.map sumInt
  { tensor := tensor, rows := rw,
    groups := rows.map (fun w => (chunksOf (gsizeOf r.gsize) w.length w).map sumInt),
    terms := (((Config.products x.config).filter (fun p => p.1 == tensor)).map (·.2)).map (fun a =>
      (a, (List.range r.nch).map (fun i => preloadTerm r.klen (rw.getD i 0) (effZero r i) (effZero (scaleOf x a) 0)))) }

/-- The weight sums of a slot. -/
def slotSums (digests : List (List Byte)) (x : FnSlot) : List WeightSums :=
  ((List.range x.scales.length).filter (fun i => (scaleOf x i).role == 0)).map (weightSums digests x)

/-- The last two rules of 09 R267 on a product: every row's factor is normal at A = 0.25 and at A = 4, and every row's preload term lies
within INT32. -/
def productOk (digests : List (List Byte)) (x : FnSlot) (p : Nat × Nat) : Bool :=
  let w := scaleOf x p.1
  let a := scaleOf x p.2
  decide (p.1 < x.scales.length ∧ p.2 < x.scales.length ∧ w.role = 0 ∧ a.role = 1)
  && (List.range w.nch).all (fun i => factorOk (learnedScale w i) (learnedScale a 0)
    && (let b := preloadTerm w.klen (sumInt (weightRow digests p.1 w i)) (effZero w i) (effZero a 0)
        decide (-2147483648 ≤ b ∧ b ≤ 2147483647)))

/-- Every product that a slot declares meets them. -/
def productsOk (digests : List (List Byte)) (x : FnSlot) : Bool := (Config.products x.config).all (productOk digests x)

/-! ### Output conversion (09 R274, R278) -/

/-- The conversion of a real value to a learned-scale integer (09 R274): the stored value, whether it was clipped, whether it was NaN, and
the rounded integer d. `r` is the reciprocal of the output scale. -/
def outConvert (r : BitVec 32) (zout lo hi : Int) (y : BitVec 32) : Int × Bool × Bool × Int :=
  let t := ofFp32 (fp32Mul y r)
  match t with
  | .nan => (zout, false, true, 0)
  | .inf s => (if s then lo else hi, true, false, if s then lo - zout - 1 else hi - zout + 1)
  | .num _ _ _ =>
    let d := roundInt t
    let q := clampInt lo hi (d + zout)
    (q.1, q.2, false, d)

/-- The quotient of two numbers rounded once to FP32. -/
def ratio32 (n l : Nat) : BitVec 32 :=
  if l = 0 then toFp32 (.inf false)
  else toFp32 (.num false (2 * (n * 2 ^ 64 / l) + (decide (n * 2 ^ 64 % l ≠ 0)).toNat) (-65))

/-- Range use of one value: |d| / L as FP32, L the distance from z_out to the limit on d's side (09 R278). -/
def rangeUse (zout lo hi d : Int) : BitVec 32 :=
  let l := if d < 0 then (zout - lo).natAbs else (hi - zout).natAbs
  ratio32 d.natAbs l

/-- The FP32 maximum of two range uses. -/
def maxUse (a b : BitVec 32) : BitVec 32 := if fp32Lt a b then b else a

/-! ### Adaptation (09 R280, R281) -/

/-- A multiplier held between 0.25 and 4.0; the flag says the clamp changed it. -/
def clampMult (a : BitVec 32) : BitVec 32 × Bool :=
  if fp32Lt a 0x3E800000 then (0x3E800000, true) else if fp32Lt 0x40800000 a then (0x40800000, true) else (a, false)

/-- The update at a batch completion: `n` values, `c` clipped, range use `u`, CLIP_HI in units of 0.01% (09 R281, R282). -/
def adaptUpdate (clipHi n c : Nat) (u : BitVec 32) (x : Adapt) : Adapt :=
  if n = 0 then x
  else if clipHi * n < c * 10000 then
    let m := clampMult (fp32Mul x.mult 0x3FA00000)
    { x with mult := m.1, quiet := 0, pinned := x.pinned || m.2 }
  else if c = 0 ∧ fp32Lt u 0x3F000000 then
    if x.quiet + 1 = 64 then
      let m := clampMult (fp32Mul x.mult 0x3F7851EC)
      { x with mult := m.1, quiet := 0, pinned := x.pinned || m.2 }
    else { x with quiet := x.quiet + 1 }
  else { x with quiet := 0 }

end Sys2Proof.Machine
end

