-- ==== Sys2Proof/Machine/Jobs.lean ====
section
/-! DEFINITION. The work that commands place on the cores (07 R225, R226, R235, 09 R280): batches, with one job per core with an engine in
service, each with the tiles its function slot declares. What the tiles compute is compiled configuration, which the spec does not publish
(log 10). -/
namespace Sys2Proof.Machine

/-- Core `c`. -/
def getCore (s : State) (c : Nat) : Core := SMap.find {} s.core.cores c

/-- Changes core `c`. -/
def modCore (c : Nat) (f : Core → Core) (s : State) : State :=
  { s with core := { s.core with cores := SMap.modify {} s.core.cores c f } }

/-- Engine `e` (by physical number) of core `c`. -/
def getEngine (s : State) (c e : Nat) : Engine := SMap.find {} (getCore s c).engines e

/-- Changes an engine of a core. -/
def modEngine (e : Nat) (f : Engine → Engine) (c : Core) : Core := { c with engines := SMap.modify {} c.engines e f }

/-- An engine is in service: formed at start and not disabled since (01 R29, 07 R239). -/
def inService (e : Engine) : Bool := e.logical.isSome && !e.disabled

/-- The slot of a kind in the running pattern (14 R420). -/
def kindSlot (s : State) (kind : Nat) : Option FnSlot := s.pol.slots.find? (fun x => x.kind == kind)

/-- The kind's slot references a missing object: its commands end with MEDIA_ERROR (14 R422). -/
def kindWithdrawn (s : State) (kind : Nat) : Bool := ((kindSlot s kind).map (·.withdrawn)).getD false

/-- The kind's slot reads an object that fails its verification (14 R422). -/
def kindUnreadable (s : State) (kind : Nat) : Bool := ((kindSlot s kind).map (slotUnreadable s)).getD false

/-- A slot's commands run in test mode: compiled with the group-path option (09 Table 82). -/
def testMode (x : FnSlot) : Bool := Config.groupSlot x.config

/-- The tiles of a job: one for each declaration of its slot; in test mode they run on the group path (09 R276). -/
def jobTiles (jid core cls : Nat) (x : FnSlot) : List Tile :=
  (List.range x.tiles.length).map (fun i =>
    let d := x.tiles.getD i ⟨0, 0, 0, 0, 0⟩
    { job := jid, index := core * x.tiles.length + i, cls := cls, shape := d.shape, live := d.live, cycles := d.cycles,
      groupPath := testMode x })

/-- One core's job of a batch. -/
def placeJob (cls t id tenant batch : Nat) (x : FnSlot) (core : Nat) (s : State) : State :=
  let jid := s.core.nextJob
  let j : Job := { jid := jid, trs := t, id := id, slot := x.slot, tenant := tenant, batch := batch,
                   sems := (x.tiles.map (·.sems)).foldl max 0, sram := (x.tiles.map (·.sram)).foldl max 0 }
  modCore core (fun c => { c with jobs := c.jobs ++ [j], ready := c.ready ++ jobTiles jid core cls x })
    { s with core := { s.core with nextJob := jid + 1 } }

/-- Every core. -/
def allCores : List Nat := List.range 16

/-- The key of an adaptation state. -/
def adaptKey (slot tensor tenant : Nat) : Nat := (slot * 65536 + tensor) * 256 + tenant

/-- The multipliers in force for a tenant by the adapted tensors of a slot; none in test mode, where A is 1 (09 R276, R283). -/
def multsNow (s : State) (x : FnSlot) (tenant : Nat) : List (Nat × BitVec 32) :=
  if testMode x then []
  else ((List.range x.scales.length).filter (fun i => (scaleOf x i).adapt)).map
    (fun i => (i, (SMap.find {} s.core.adapt (adaptKey x.slot i tenant)).mult))

/-- The most items of a batch (09 R280). -/
def batchItems : Nat := 4096

/-- A batch of a slot's work for a command is dispatched, of the first of `items`: its multipliers are those in force now, and its jobs go to
those of some cores that have an engine in service (09 R280, R283). -/
def placeBatch (cores : List Nat) (cls t id tenant items : Nat) (x : FnSlot) (s : State) : State :=
  let no := s.core.nextBatch
  let b : Batch := { no := no, slot := x.slot, trs := t, id := id, tenant := tenant, cls := cls, cores := cores, left := items - batchItems,
                     mults := multsNow s x tenant }
  ((List.range 16).filter (fun c => decide (c ∈ cores))).foldl (fun s' c =>
    if (getCore s' c).engines.any (fun e => inService e.2) then placeJob cls t id tenant no x c s' else s')
    { s with core := { s.core with batches := s.core.batches ++ [b], nextBatch := no + 1 } }

/-- The first batch of a command's `items` on a slot, where there is one. -/
def placeJobs (cores : List Nat) (cls t id tenant items : Nat) (x : Option FnSlot) (s : State) : State :=
  match x with
  | none => s
  | some x => placeBatch cores cls t id tenant items x s

/-- The TRS number under which the device's own work runs: no page has it. -/
def deviceTrs : Nat := 65536

end Sys2Proof.Machine
end

