-- ==== Sys2Proof/Machine/Vector.lean ====
section
/-! DEFINITION. The approximate functions of the vector units (07 R224, 08 R261) and the conversions of 08 Table 79 between words of
every format without block scales. -/
namespace Sys2Proof.Machine

/-! ### Exact values in fixed point -/

/-- ln 2 with 96 fraction bits. -/
def ln2Fixed : Nat := 54916777467707473351141471128

/-- The terms y^k / k! from the k-th on, `n` of them, with 96 fraction bits. -/
def expTerms (y : Nat) : Nat → Nat → Nat → Nat
  | 0, _, _ => 0
  | n + 1, k, t => t + expTerms y n (k + 1) (t * y / 2 ^ 96 / (k + 1))

/-- 2^(f / 2^96) for a fraction f, with 96 fraction bits. -/
def exp2Fixed (f : Nat) : Nat := expTerms (f * ln2Fixed / 2 ^ 96) 40 0 (2 ^ 96)

/-- The fraction bits of log2 of v / 2^96 in [1, 2), `n` of them. -/
def log2Bits : Nat → Nat → Nat
  | 0, _ => 0
  | n + 1, v =>
    let w := v * v / 2 ^ 96
    if 2 ^ 97 ≤ w then 2 ^ n + log2Bits n (w / 2) else log2Bits n w

/-- The integer square root of `x`, from bit `n` down, above the root `r` found so far. -/
def rootBits (x : Nat) : Nat → Nat → Nat
  | 0, r => r
  | n + 1, r => rootBits x n (if (r + 2 ^ n) * (r + 2 ^ n) ≤ x then r + 2 ^ n else r)

/-- 2^v of a number, far closer than an FP32 word tells. -/
def exp2Val (neg : Bool) (m : Nat) (e : Int) : Val :=
  if decide (9 ≤ topExp m e) && decide (m ≠ 0) then (if neg then .num false 0 0 else .inf false)
  else
    let x : Int := (roundAt .towardZero false m (e + 96) 0 : Nat)
    let y := if neg then -x else x
    .num false (exp2Fixed (y % (2 ^ 96 : Nat)).toNat) (y / (2 ^ 96 : Nat) - 96)

/-- log2 of a positive number. -/
def log2Val (m : Nat) (e : Int) : Val :=
  let k := Nat.log2 m
  let x : Int := ((k : Int) + e) * (2 ^ 80 : Nat) + (log2Bits 80 (m * 2 ^ 96 / 2 ^ k) : Nat)
  .num (decide (x < 0)) x.natAbs (-80)

/-- The reciprocal of a nonzero magnitude. -/
def recipVal (neg : Bool) (m : Nat) (e : Int) : Val := .num neg (2 ^ 128 / m) (-128 - e)

/-- The reciprocal square root of a positive number. -/
def rsqrtVal (m : Nat) (e : Int) : Val :=
  let p := (e % 2).toNat
  .num false (rootBits (2 ^ 192 / (m * 2 ^ p)) 97 0) (-96 - (e - p) / 2)

/-! ### The approximate functions (07 R224, 08 R261) -/

/-- The exact result at a value, or the IEEE 754 special result (08 R261). -/
def approxExact : ApproxFn → Val → Val
  | _, .nan => .nan
  | .exp2, .inf s => if s then .num false 0 0 else .inf false
  | .exp2, .num s m e => exp2Val s m e
  | .log2, .inf s => if s then .nan else .inf false
  | .log2, .num s m e => if m = 0 then .inf true else if s then .nan else log2Val m e
  | .recip, .inf s => .num s 0 0
  | .recip, .num s m e => if m = 0 then .inf s else recipVal s m e
  | .rsqrt, .inf s => if s then .nan else .num false 0 0
  | .rsqrt, .num s m e => if m = 0 then .inf s else if s then .nan else rsqrtVal m e

/-- The number of a function among its siblings. -/
def approxCode : ApproxFn → Nat
  | .exp2 => 0
  | .log2 => 1
  | .recip => 2
  | .rsqrt => 3

/-- A word lies within 2 units in the last place of a number. -/
def withinTwoUlp (w : BitVec 32) (neg : Bool) (m : Nat) (e : Int) : Bool :=
  match ofFp32 w with
  | .num s k u =>
    let z := min (min e u) (ulpExp fmtFp32 m e)
    decide ((alignTo s k u z - alignTo neg m e z).natAbs ≤ 2 ^ (ulpExp fmtFp32 m e + 1 - z).toNat)
  | _ => false

/-- An approximate function on an FP32 word: the special result, or some word within 2 units in the last place of the exact result; which
one the spec leaves open (07 R224; log 9). -/
def approx (f : ApproxFn) (x : BitVec 32) : BitVec 32 :=
  let y := approxExact f (ofFp32 x)
  let r := toFp32 y
  match y with
  | .num s m e =>
    if m = 0 then r
    else
      let c := r + BitVec.ofNat 32 (Config.ulpOffset (approxCode f) x % 5) - 2
      if withinTwoUlp c s m e then c else r
  | _ => r

/-- exp of an FP32 word, formed from exp2 (07 R224): the product with log2 e is rounded once; exp of zero is 1, which 04 R131 asks (log 9). -/
def expWord (x : BitVec 32) : BitVec 32 :=
  if x.toNat % 2 ^ 31 = 0 then 0x3F800000 else approx .exp2 (fp32Mul x 0x3FB8AA3B)

/-! ### Conversions (08 Table 79) -/

/-- What a conversion yields: the code, and whether it counts as clipped or as NaN. -/
structure Converted where
  code : Nat
  clipped : Bool := false
  nan : Bool := false
  deriving DecidableEq, Repr

/-- The code of an integer in its format. -/
def intCode (c : Nat) (x : Int) : Nat := (x % (2 ^ fmtBits c : Nat)).toNat

/-- A format holds integers. -/
def isIntFmt (c : Nat) : Bool := decide (c = 0x9 ∨ c = 0xA ∨ c = 0xB ∨ c = 0xC)

/-- A word of one format without block scales converted to another (08 Table 79): to FP32, FP16 and BF16 under the direction in force,
to integers with saturation and its counts, between integers under SAT, and to B1 by the sign rule. -/
def convertWord (d : Rnd) (sat : Bool) (src dst v : Nat) : Converted :=
  if isIntFmt dst then
    if isIntFmt src then
      let x := if src = 0xA then ((v % 256 : Nat) : Int) else signedOf (fmtBits src) v
      let r := narrowInt sat dst x
      { code := intCode dst r.1, clipped := r.2 }
    else
      let x := decodeWord src v
      let r := toIntFmt dst x
      { code := intCode dst r.1, clipped := r.2, nan := decide (x = .nan) }
  else if dst = 0xD then
    let x := decodeWord src v
    { code := (signBit x).toNat, nan := decide (x = .nan) }
  else { code := vecConvert d src dst v, nan := decide (decodeWord src v = .nan) }

end Sys2Proof.Machine
end

