-- ==== Sys2Proof/Machine/Attention.lean ====
section
/-! DEFINITION. What the device computes for one layer of a step (04 R129 to R131, R133, R135): queries and weights in the array's
formats, scores, partial results per stack, and their merge. The order of floating additions is open (08 R262; log 9). -/
namespace Sys2Proof.Machine

/-! ### Open orders (08 R262, KL-12) -/

/-- A list in the order that the picks choose. -/
def shuffle {α : Type} (pick : Nat → Nat) : Nat → List α → List α
  | 0, l => l
  | n + 1, l => match l[pick n % l.length]? with
    | none => l
    | some x => x :: shuffle pick n (l.eraseIdx (pick n % l.length))

/-- A list in an order that the spec leaves open, by a choice function. -/
def anyOrder {α : Type} (pick : Nat → Nat) (l : List α) : List α := shuffle pick l.length l

/-! ### Vectors as the array takes them (04 R106, R130, 08 R252, R253) -/

/-- A vector of the array: element values before scaling, and the E8M0 code of each block of 32 (none outside the MX formats). -/
structure ArrVec where
  elems : List Val
  scales : List Nat
  deriving DecidableEq, Repr

/-- The scale code of element `j`; 127, a scale of one, where the format has no blocks. -/
def ArrVec.scale (v : ArrVec) (j : Nat) : Nat := v.scales.getD (j / 32) 127

/-- The value of element `j`. -/
def ArrVec.elem (v : ArrVec) (j : Nat) : Val := v.elems.getD j (.num false 0 0)

/-- A query as the array takes it: MXFP8-E4M3 blocks for MX contexts, FP16 for FP16 contexts (04 R130). -/
def queryVec (fmt : Nat) (q : List Val) : ArrVec :=
  if isMx fmt then
    let r := mxVector 0x3 q
    { elems := r.2.1.map (decodeMxElem 0x3), scales := r.1 }
  else { elems := q.map (fun v => decodeWord 0x1 (encodeWord 0x1 v)), scales := [] }

/-- A block of weights as the array takes it (04 R130): one MXFP8-E4M3 block, or FP16. -/
def weightVec (fmt : Nat) (ws : List (BitVec 32)) : ArrVec :=
  if isMx fmt then
    let r := mxBlock 0x3 (ws.map ofFp32)
    { elems := r.2.1.map (decodeMxElem 0x3), scales := [r.1] }
  else { elems := ws.map (fun w => decodeWord 0x1 (encodeWord 0x1 (ofFp32 w))), scales := [] }

/-- A stored key or value vector as the array takes it. -/
def storedArr (s : State) (x : Shape) (idx l h t : Nat) (val : Bool) : ArrVec :=
  let kv := imageOf s (slotOfOwner s (.kv idx l h (t / x.p)))
  let es := unpackElems (fmtBits x.fmt) x.dim (vecOfImage x kv t val)
  if isMx x.fmt then
    { elems := es.map (decodeMxElem x.fmt),
      scales := (scaleOfImage x (imageOf s (slotOfOwner s (.scale idx l h (t / x.p / x.g)))) t val).map (·.toNat) }
  else { elems := es.map (decodeWord 0x1), scales := [] }

/-- Query `qh` of a drop (04 R126): it starts at qh × d × q in Q_FMT. -/
def dropQuery (p : Step) (drop : List Byte) (qh : Nat) : List Val :=
  let n := p.dim * srcSize p.qfmt
  (unpackElems (8 * srcSize p.qfmt) p.dim (sliceBytes drop (qh * n) n)).map (decodeWord p.qfmt)

/-! ### Scores and weights (04 R129, R130) -/

/-- Elements of a vector that one issue takes, by the shape of the slot's tiles (07 Tables 67, 68): 16 in the FP16 mode, else the input
chunk of the shape. -/
def issueWidth (s : State) (fmt : Nat) : Nat :=
  if isMx fmt then
    (match ((kindSlot s 2).bind (fun x => x.tiles.head?)).map (·.shape) with
      | some 1 => 16
      | some 2 => 16
      | _ => 32)
  else 16

/-- One issue of a dot product over the elements `js` of two vectors, block by block (08 R256). -/
def dotIssue (a b : ArrVec) (js : List Nat) (acc : BitVec 32) : BitVec 32 :=
  issueRow ((dedup (js.map (· / 32))).map (fun n =>
    let here := js.filter (fun j => j / 32 == n)
    (here.map a.elem, here.map b.elem, a.scale (32 * n), b.scale (32 * n)))) acc

/-- A dot product accumulated in FP32, its issues in an open order. -/
def dotArr (pick : Nat → Nat) (w dim : Nat) (a b : ArrVec) : BitVec 32 :=
  (anyOrder pick (chunksOf w dim (List.range dim))).foldl (fun acc js => dotIssue a b js acc) 0

/-- FP32 subtraction. -/
def fp32Sub (a b : BitVec 32) : BitVec 32 := fp32Add a (b ^^^ 0x80000000)

/-- A partial result: m, l and o (04 R129). -/
structure Partial where
  m : BitVec 32
  l : BitVec 32
  o : List (BitVec 32)
  deriving DecidableEq, Repr

/-- The shape of a step's context. -/
def Step.shape (p : Step) : Shape := ⟨p.nlayer, p.hkv, p.dim, p.fmt⟩

/-- The tokens of key/value page `j` that a step attends (04 R130). -/
def Step.pageTokens (p : Step) (j : Nat) : List Nat :=
  let lo := max p.tok0 (j * p.shape.p)
  List.range' lo (min p.tok1 ((j + 1) * p.shape.p) - lo)

/-- The weighted sum of one element of the values of some tokens in one issue: each token's product is scaled by its own pair of
scales. `ts` pairs a token's place in its block of weights with its value vector. -/
def valueIssue (w : ArrVec) (e : Nat) (ts : List (Nat × ArrVec)) (acc : BitVec 32) : BitVec 32 :=
  issueRow (ts.map (fun t => ([t.2.elem e], [w.elem t.1], t.2.scale e, w.scale 0))) acc

/-- The attended tokens of some pages in blocks of at most 32, each within one page and counted from the page's first attended token
(04 R130). -/
def Step.tokenBlocks (p : Step) (js : List Nat) : List (List Nat) :=
  js.flatMap (fun j => chunksOf 32 (p.pageTokens j).length (p.pageTokens j))

/-- Choices of a draw for one kind of addition. -/
def site (n kind i : Nat) : Nat → Nat := fun k => Config.order n ((kind * 2 ^ 32 + i) * 2 ^ 32 + k)

/-- The score of a token: SCALE × (q · k) (04 R129). -/
def scoreOf (s : State) (p : Step) (idx l h n : Nat) (q : ArrVec) (t : Nat) : BitVec 32 :=
  fp32Mul p.scale (dotArr (site n 0 t) (issueWidth s p.fmt) p.dim q (storedArr s p.shape idx l h t false))

/-- The greatest of some FP32 words. -/
def maxWord : List (BitVec 32) → BitVec 32
  | [] => 0xFF800000
  | x :: xs => let y := maxWord xs
               if fp32Lt y x then x else y

/-- The partial result of one head over the pages `js` of one stack; the flag says that a score is NaN or infinite (04 R129 to R131). -/
def headPartial (s : State) (p : Step) (idx l h n : Nat) (q : ArrVec) (js : List Nat) : Partial × Bool :=
  let blocks := p.tokenBlocks js
  let sc (t : Nat) : BitVec 32 := scoreOf s p idx l h n q t
  let all := blocks.flatten.map sc
  let m := maxWord all
  let wt (t : Nat) : BitVec 32 := expWord (fp32Sub (sc t) m)
  let sum := (anyOrder (site n 1 (js.headD 0)) blocks.flatten).foldl (fun acc t => fp32Add acc (wt t)) 0
  let width := issueWidth s p.fmt
  let issues := blocks.flatMap (fun b =>
    let w := weightVec p.fmt (b.map wt)
    (chunksOf width b.length (List.range b.length)).map (fun is =>
      (w, is.map (fun i => (i, storedArr s p.shape idx l h (b.getD i 0) true)))))
  let o := (List.range p.dim).map (fun e =>
    (anyOrder (site n 2 (js.headD 0)) issues).foldl (fun acc x => valueIssue x.1 e x.2 acc) 0)
  ({ m := m, l := sum, o := o }, all.any (fun w => isSpecial (ofFp32 w)))

/-! ### The merge (04 R133, R135) -/

/-- a × x + b × y in FP32, with one rounding for each operation or fused, as the compiled configuration has it (log 9). -/
def weigh (fused : Bool) (a x b y : BitVec 32) : BitVec 32 :=
  if fused then fp32Fma a x (fp32Mul b y) else fp32Add (fp32Mul a x) (fp32Mul b y)

/-- The log-sum-exp merge of two partial results (04 R133). -/
def mergePartials (fused : Bool) (x y : Partial) : Partial :=
  let m := if fp32Lt x.m y.m then y.m else x.m
  let a := expWord (fp32Sub x.m m)
  let b := expWord (fp32Sub y.m m)
  { m := m, l := weigh fused a x.l b y.l, o := List.zipWith (fun u v => weigh fused a u b v) x.o y.o }

/-- The stack that holds a page or the frame a member reads it from (01 R20). -/
def stackOf (s : State) (o : Owner) : Nat :=
  match slotOfOwner s o with
  | none => stripeStack o
  | some k => match (pageAt s k).map (fun (q : Page) => q.home) with
    | some (.t1 st _) => st
    | _ => ((s.tier.frames.find? (fun f => f.page == k && f.filled)).map (·.stack)).getD (stripeStack o)

/-- The key/value pages of a step's range in one layer and head. -/
def Step.kvPages (p : Step) : List Nat :=
  let r := stepPages p.shape.p p.tok0 p.tok1
  List.range' r.1 (r.2 - r.1)

/-- The partial results of one head, one for each stack that holds pages of its range. -/
def headPartials (s : State) (p : Step) (idx l h n : Nat) (q : ArrVec) : List (Partial × Bool) :=
  (List.range 16).filterMap (fun st =>
    let js := p.kvPages.filter (fun j => stackOf s (.kv idx l h j) == st)
    if js.isEmpty then none else some (headPartial s p idx l h n q js))

/-- A quiet NaN word. -/
def qnan : Nat := 0x7FC00000

/-- Some element is NaN. -/
def anyNan (o : List (BitVec 32)) : Bool := o.any (fun w => decide (ofFp32 w = .nan))

/-- A head record of a layer (04 R129 to R133): m, l and o merged over the stacks, or the NaN record where a score is NaN or infinite or
a term of o is NaN; with whether it is NaN. -/
def headRecord (s : State) (p : Step) (idx l n : Nat) (drop : List Byte) (qh : Nat) : List Byte × Bool :=
  let ps := headPartials s p idx l (qh / p.group) n (queryVec p.fmt (dropQuery p drop qh))
  let r : Partial := match anyOrder (site n 3 0) (ps.map (·.1)) with
    | [] => { m := 0, l := 0x3F800000, o := List.replicate p.dim 0 }
    | x :: xs => xs.foldl (mergePartials (decide (site n 4 0 0 % 2 = 1))) x
  if ps.any (·.2) || anyNan r.o then ((List.range (p.dim + 2)).flatMap (fun _ => bytesOf 4 qnan), true)
  else (bytesOf 4 r.m.toNat ++ bytesOf 4 r.l.toNat ++ r.o.flatMap (fun w => bytesOf 4 w.toNat), false)

end Sys2Proof.Machine
end

