-- ==== Sys2Proof/Machine/Heat.lean ====
section
/-! DEFINITION. Far-context attention (04 R123 to R140): ATTEND, step doorbells, heats and their boundaries, joins, the riser,
layer completion and the endings of steps. -/
namespace Sys2Proof.Machine

/-! ### A step's sizes and pages (04 R124, R134) -/

/-- Query heads H of a step. -/
def Step.heads (p : Step) : Nat := p.group * p.hkv

/-- Layer stride LS of a step. -/
def Step.ls (p : Step) : Nat := layerStride p.heads p.dim

/-- Drop size DS of a step. -/
def Step.ds (p : Step) : Nat := dropSize p.heads p.dim p.qfmt

/-- The end of a step's layers. -/
def Step.endLayer (p : Step) : Nat := p.layer0 + p.nlayer

/-- The pages of layer `l` in a step's range. -/
def Step.owners (p : Step) (idx l : Nat) : List Owner := layerOwners p.shape idx l p.tok0 (p.tok1 - p.tok0)

/-- Working memory W of a step in pool pages (04 R135). -/
def Step.workPages (p : Step) : Nat := ceilDiv (16 * p.heads * headRec p.dim + p.heads * p.dim * 4) 65536

/-- The step of a held ATTEND that has not ended. -/
def openStep (s : State) (t id : Nat) : Option Step :=
  (heldOf s t id).bind (fun (h : Held) => if h.undecided then h.step else none)

/-- Changes the step of a held command. -/
def modStep (t id : Nat) (f : Step → Step) (s : State) : State :=
  modHeld t id (fun (h : Held) => { h with step := h.step.map f }) s

/-- The context index of a held command's handle. -/
def idxOf (s : State) (t id : Nat) : Nat := ((heldOf s t id).map (fun (h : Held) => handleIdx (objOf h.desc))).getD 0

/-! ### Readiness (04 R134, R137) -/

/-- A page is at hand for a step: T1-homed, or held in a filled frame; a page that cannot be read stands as read. -/
def atHand (s : State) (o : Owner) : Bool :=
  match slotOfOwner s o with
  | none => true
  | some k => ((pageAt s k).map (·.inT1)).getD false || hasFrame s k

/-- The earliest layer a member has asked for and not yet in a heat is ready. -/
def readyLayer (s : State) (idx : Nat) (p : Step) : Option Nat :=
  if p.member then p.requested.head?.filter (fun l => (p.owners idx l).all (atHand s)) else none

/-- Running ATTEND commands whose step has not ended, in acceptance order. -/
def runningSteps (s : State) : List (Nat × Nat × Step) :=
  let cs := (allHeld s).filterMap (fun e => if e.2.undecided then e.2.step.map (fun p => (e.2.acceptNo, e.1, e.2.id, p)) else none)
  (sortBy (fun a b => decide (a.1 < b.1)) cs).map (fun e => e.2)

/-- Some member has a ready request. -/
def anyReady (s : State) : Bool := (runningSteps s).any (fun e => (readyLayer s (idxOf s e.1 e.2.1) e.2.2).isSome)

/-- The heat window opens at the first ready request while no heat is forming (04 R134). -/
def checkWindow (s : State) : State :=
  if s.heat.windowOpen then s
  else if anyReady s then { s with heat := { s.heat with windowOpen := true } } else s

/-! ### The riser (04 R138, R139, 10 R307) -/

/-- A frame that stays for a step: its own, or one that WARM made (04 R138). -/
def committedFrame (s : State) (t id k : Nat) : Bool := s.tier.frames.any (fun f => f.page == k && (match f.kind with
  | .riser a b _ => a == t && b == id
  | .transient a b => a == t && b == id
  | .warm => true
  | .scratch _ _ => false))

/-- A page of a layer that the riser of a step must bring: flash-homed, in no frame of the step or of WARM, in no promotion of its own. -/
def missing (s : State) (t id : Nat) (o : Owner) : Option (Nat × Page) :=
  (slotOfOwner s o).bind (fun k => (pageAt s k).bind (fun p =>
    if p.inT1 || committedFrame s t id k || (p.moving.isSome && p.rider == some (t, id)) then none else some (k, p)))

/-- The reuse prediction: enough steps on the context were accepted within the window (10 R307). -/
def reused (s : State) (idx : Nat) : Bool :=
  decide (polValue s 0x0009 2 ≤ (s.ctx.accepts.filter (fun e => decide (e.1 = idx
    ∧ (now s - e.2).toNat ≤ polValue s 0x000A 30 * 1000000000))).length)

/-- Another member's range holds the page (04 R137 lets only the step's own riser promote it). -/
def otherMember (s : State) (t id : Nat) (o : Owner) : Bool :=
  (allHeld s).any (fun e => (decide (e.1 ≠ t) || decide (e.2.id ≠ id)) && (match e.2.step with
    | some p => p.member && inStepRange p (handleIdx (objOf e.2.desc)) o
    | none => false))
  || s.heat.leaving.any (fun e => e.2.2.2.member && inStepRange e.2.2.2 e.1 o)

/-- A promotion by the riser from free memory, within T1_MAX (10 R307). -/
def riserHome (s : State) (st tenant : Nat) : Option Nat :=
  match tenantPol s tenant with
  | none => none
  | some tp => if tp.t1max ≤ t1Use s tenant + (s.tier.pages.filter (fun e => e.2.tenant == tenant && e.2.moving.isSome)).length
      then none else bestChan s st tenant

/-- A riser frame placed on a stack channel. -/
def putFrame (kind : FrameKind) (k st ch tenant : Nat) (s : State) : State :=
  { s with tier := { s.tier with
      frames := s.tier.frames ++ [{ fid := s.tier.nextFrame, page := k, kind := kind, stack := st, chan := ch, tenant := tenant }],
      nextFrame := s.tier.nextFrame + 1 } }

/-- One page of a committed layer is promoted or framed, from free memory only; none where it does not fit. -/
def riserPage (t id l idx : Nat) (o : Owner) (k : Nat) (p : Page) (s : State) : Option State :=
  let st := stripeStack o
  let home := if reused s idx && !otherMember s t id o && p.moving.isNone && !inFold s k && decide (pageStatus s k = stOk)
              then riserHome s st p.tenant else none
  match home with
  | some ch => some (modPage k (fun q => { q with moving := some (st, ch), rider := some (t, id) }) (readFor none k s))
  | none => match tenantPol s p.tenant with
    | none => none
    | some tp => if tp.framemax < frameUse s p.tenant + 1 then none
        else (bestChan s st p.tenant).map (fun ch => putFrame (.riser t id l) k st ch p.tenant (readFor none k s))

/-- Every missing page of a layer, all or nothing (04 R138). -/
def riserLayer (t id l idx : Nat) (os : List Owner) (s : State) : Option State :=
  os.foldl (fun acc o => acc.bind (fun s' => match missing s' t id o with
    | none => some s'
    | some kp => riserPage t id l idx o kp.1 kp.2 s')) (some s)

/-- Layers in order, until one does not fit. -/
def riserLayers (t id idx : Nat) (p : Step) : List Nat → State → State
  | [], s => s
  | l :: ls, s => match riserLayer t id l idx (p.owners idx l) s with
    | none => s
    | some s' => riserLayers t id idx p ls s'

/-- The riser's commitments for one member: its next D layers that are not computed (04 R138). -/
def riserCommit (t id : Nat) (s : State) : State :=
  match openStep s t id with
  | none => s
  | some p =>
    let lo := p.layer0 + p.doneLayers
    let hi := min p.endLayer (lo + polValue s 0x0004 4)
    if p.member then riserLayers t id (idxOf s t id) p (List.range' lo (hi - lo)) s else s

/-- The layer of a context page. -/
def layerOfOwner : Owner → Nat
  | .kv _ l _ _ => l
  | .scale _ l _ _ => l
  | .coll _ _ _ => 0

/-- A transient frame of a page for a step; without room it waits for its place (10 R293). -/
def transientFor (t id k : Nat) (p : Page) (s : State) : State :=
  let st := stripeStack p.owner
  let r := placeFrame st p.tenant 1 s
  match r.2 with
  | some ch => putFrame (.transient t id) k st ch p.tenant (readFor none k r.1)
  | none => { r.1 with tier := { r.1.tier with
      frames := r.1.tier.frames ++ [{ fid := r.1.tier.nextFrame, page := k, kind := .transient t id, stack := st, chan := 0, tenant := p.tenant,
                                      placed := false }],
      nextFrame := r.1.tier.nextFrame + 1 } }

/-- A page that a fault repair has left flash-homed is read through a transient frame for each member whose range holds it and that has not
computed its layer (04 R137). -/
def repairFrames (k : Nat) (s : State) : State :=
  match pageAt s k with
  | none => s
  | some p =>
    if p.inT1 then s
    else (runningSteps s).foldl (fun s' e =>
      if e.2.2.member = true ∧ inStepRange e.2.2 (idxOf s e.1 e.2.1) p.owner = true
          ∧ e.2.2.layer0 + e.2.2.doneLayers ≤ layerOfOwner p.owner then transientFor e.1 e.2.1 k p s' else s') s

/-! ### Joins and leaves (04 R135, R136) -/

/-- The stack with the most free pool pages on a tenant's channels, the lowest-numbered on a tie. -/
def bestStack (s : State) (tenant : Nat) : Nat :=
  (List.range 16).foldl (fun b st => if stackFree s b tenant < stackFree s st tenant then st else b) 0

/-- The frames of layer LAYER0 that a join takes, guaranteed up to FRAME_Q (10 R300). -/
def joinFrames (t id l : Nat) (os : List Owner) (s : State) : Option State :=
  os.foldl (fun acc o => acc.bind (fun s' => match missing s' t id o with
    | none => some s'
    | some kp =>
      let r := placeFrame (stripeStack o) kp.2.tenant 1 s'
      r.2.map (fun ch => putFrame (.riser t id l) kp.1 (stripeStack o) ch kp.2.tenant (readFor none kp.1 r.1)))) (some s)

/-- A join: working memory on one stack, frames for layer LAYER0; none where it does not fit. -/
def tryJoin (t id : Nat) (p : Step) (s : State) : Option State :=
  let idx := idxOf s t id
  let st := bestStack s p.tenant
  let r := placeFrame st p.tenant p.workPages s
  match r.2 with
  | none => none
  | some ch =>
    (joinFrames t id p.layer0 (p.owners idx p.layer0)
      (modStep t id (fun q => { q with work := [(st, ch, p.workPages)] }) r.1)).map
      (modStep t id (fun q => { q with member := true, deferred := false }))

/-- Joins are considered in acceptance order; one that does not fit is deferred and ends the consideration. The answer lists
the steps admitted. -/
def considerJoins : List (Nat × Nat × Step) → State → State × List (Nat × Nat)
  | [], s => (s, [])
  | e :: es, s =>
    if e.2.2.member then considerJoins es s
    else match tryJoin e.1 e.2.1 e.2.2 s with
      | none => (modStep e.1 e.2.1 (fun q => { q with deferred := true }) s, [])
      | some s1 =>
        let r := considerJoins es s1
        (r.1, (e.1, e.2.1) :: r.2)

/-- Joins, then the riser's commitments for the steps just admitted, in acceptance order. -/
def joinAll (s : State) : State :=
  let r := considerJoins (runningSteps s) s
  r.2.foldl (fun s' e => riserCommit e.1 e.2 s') r.1

/-- A step's riser and transient frames are released. -/
def releaseFrames (t id : Nat) (s : State) : State :=
  { s with tier := { s.tier with frames := s.tier.frames.filter (fun f => match f.kind with
      | .riser a b _ => !(a == t && b == id)
      | .transient a b => !(a == t && b == id)
      | .warm => true
      | .scratch _ _ => true) } }

/-- Leaves release their memory. -/
def leaveAll (s : State) : State :=
  let s1 := s.heat.leaving.foldl (fun s' e => releaseFrames e.2.1 e.2.2.1 s') s
  { s1 with heat := { s1.heat with leaving := [] } }

/-- A step that ends while no heat is forming leaves at once, and deferred joins are considered as at a boundary. -/
def settleLeaves (s : State) : State :=
  if s.heat.windowOpen then s else if s.heat.leaving.isEmpty then s else checkWindow (joinAll (leaveAll s))

/-! ### Endings (04 R132, R140) -/

/-- The completion word of Table 44. -/
def completionWord (layer : Nat) (code : Byte) (nan : Bool) (seq : BitVec 32) : Nat :=
  layer % 256 + code.toNat * 2 ^ 8 + nan.toNat * 2 ^ 16 + 2 ^ 31 + seq.toNat * 2 ^ 32

/-- The completion line: the word, then zeros (04 R132). -/
def completionLine (layer : Nat) (code : Byte) (nan : Bool) (seq : BitVec 32) : List Byte :=
  bytesOf 8 (completionWord layer code nan seq) ++ bytesOf 56 0

/-- The bus address of the block of layer `l`. -/
def Step.blockAt (p : Step) (l : Nat) : Nat := p.resAddr + 64 + (l - p.layer0) * p.ls

/-- An ATTEND that has run ends: a status other than OK and SHORT writes the completion word of the first layer not completed
with OK; the step leaves (04 R132, R135). -/
def attendEndWith (quiet : Bool) (t id : Nat) (code : Byte) (s : State) : State :=
  match (heldOf s t id).bind (·.step) with
  | none => finishWith none quiet t id code 0 s
  | some p =>
    let l := p.layer0 + p.doneLayers
    let s1 := if code = stOk ∨ code = stShort then s
      else dmaWrite t (p.blockAt l + p.ls - 64) (completionLine l code false p.seq) false s
    let s2 := { s1 with heat := { s1.heat with
      running := s1.heat.running.filter (fun r => !(r.1 == t && r.2.1 == id)),
      leaving := s1.heat.leaving ++ [(idxOf s t id, t, id, p)] } }
    settleLeaves (finishWith none quiet t id code (BitVec.ofNat 64 p.doneLayers) s2)

/-- The ordinary ending of an ATTEND. -/
def attendEnd (t id : Nat) (code : Byte) (s : State) : State := attendEndWith false t id code s

/-! ### ATTEND (04 R123, R125) -/

/-- The 64-byte step header of Table 43. -/
def stepHeader (d : Desc) (p : Step) (slot : Nat) : List Byte :=
  bytesOf 8 slot ++ bytesOf 4 p.seq.toNat ++ bytesOf 4 (fld d 2 2 + 2 ^ 31) ++ bytesOf 4 p.ls ++ bytesOf 4 p.ds ++ bytesOf 40 0

/-- The step of an ATTEND descriptor on its context. -/
def newStep (d : Desc) (c : Ctx) (seq : BitVec 32) : Step :=
  { layer0 := fld d 8 2, nlayer := fld d 10 2, tok0 := fld d 16 4, tok1 := fld d 20 4, scale := BitVec.ofNat 32 (fld d 24 4),
    qfmt := fld d 12 1, resAddr := fld d 32 8, group := c.group, hkv := c.hkv, dim := c.dim, fmt := c.fmt, tenant := c.tenant,
    seq := seq, nextLayer := fld d 8 2 }

/-- ATTEND becomes RUNNING: its slot is placed and its header written, and it asks to join; without room for the slot it ends
with CAPACITY (04 R125, R132, R135). A slot that cannot be read ends the step with `bad` before it joins (14 R422). -/
def attendStart (t id : Nat) (bad : Option Byte) (d : Desc) (c : Ctx) (s : State) : State :=
  let seq := nextSeq s.cmd.seq
  let p := newStep d c seq
  let s1 := modHeld t id (fun (h : Held) => { h with step := some p }) { s with cmd := { s.cmd with seq := seq } }
  let len := 64 + 2 * p.ds
  match tunPlace s1 len with
  | none => attendEnd t id stCapacity s1
  | some base =>
    let s2 := addRegion { base := base, len := len, kind := .slot, trs := t, id := id }
      (modStep t id (fun q => { q with slot := some base }) s1)
    let s3 := dmaWrite t p.resAddr (stepHeader d p base) false s2
    match bad with
    | some st => attendEnd t id st s3
    | none => if s3.heat.windowOpen then s3 else checkWindow (joinAll s3)

/-! ### Doorbells (04 R127, R128) -/

/-- A closing or badly rung step with no requested layer outstanding ends (04 R127). -/
def endIfDrained (t id : Nat) (s : State) : State :=
  match openStep s t id with
  | none => s
  | some p =>
    if p.requested.isEmpty ∧ p.placed.isEmpty then
      if p.badBell then attendEnd t id stInvalidField s
      else if p.closing then attendEnd t id (if p.doneLayers = p.nlayer then stOk else stShort) s
      else s
    else s

/-- The doorbell interval Δ at a doorbell that arrives at `t` (04 R139), in whole nanoseconds: the quarter is cut toward zero (DESIGN
CHOICE, log 92). -/
def nextDelta (p : Step) (t : BitVec 64) : Option Nat :=
  match p.lastBell with
  | none => none
  | some t0 =>
    let x := (t - t0).toNat
    match p.delta with
    | none => some x
    | some d => some (if d ≤ x then d + (x - d) / 4 else d - (d - x) / 4)

/-- A doorbell word arrives for an open step (04 R126, R127). Bits [30:8] are taken as if they were zero, and a step that is closing, or
that had a bad doorbell, takes no further doorbell while its last layers run: the spec settles neither (DESIGN CHOICE, log 91). -/
def ringStep (t id : Nat) (p : Step) (v : BitVec 32) (s : State) : State :=
  let s0 := modStep t id (fun q => { q with lastBell := some (now s), delta := nextDelta p (now s) }) s
  if p.closing ∨ p.badBell then s0
  else if bitOf v.toNat 31 then endIfDrained t id (modStep t id (fun q => { q with closing := true }) s0)
  else if bitsOf v.toNat 0 8 = p.nextLayer ∧ p.nextLayer < p.endLayer then
    checkWindow (modStep t id (fun q => { q with requested := q.requested ++ [p.nextLayer], nextLayer := p.nextLayer + 1 }) s0)
  else endIfDrained t id (modStep t id (fun q => { q with badBell := true }) s0)

/-- The placed region of a kind whose doorbell lies at a device address. -/
def bellRegion (s : State) (k : RegionKind) (dpa : Nat) : Option Region :=
  s.tun.regions.find? (fun r => decide (r.kind = k ∧ r.base = dpa))

/-- The host stores bytes in the tundish (16 Table 144, HOST_BYTES). -/
def hostStore (dpa : Nat) (bytes : List Byte) (s : State) : State := bump 0x40 3 bytes.length (tunWrite dpa bytes s)

/-- A word that a step's doorbell holds; of a step that has ended it has no effect (04 R127). -/
def ringStepAt (dpa : Nat) (v : BitVec 32) (s : State) : State :=
  match bellRegion s .slot dpa with
  | none => s
  | some r => match openStep s r.trs r.id with
    | none => s
    | some p => ringStep r.trs r.id p v s

/-- STEP_DOORBELL (04 R127): the word is stored in its line and taken. -/
def stepDoorbell (dpa : Nat) (v : BitVec 32) (s : State) : State :=
  if lateInput s dpa 4 then dropLate s
  else if (bellRegion s .slot dpa).isSome then ringStepAt dpa v (hostStore dpa (bytesOf 4 v.toNat) s) else s

/-! ### Heats (04 R134, R136) -/

/-- The drop buffer of layer `l`: A when the distance from LAYER0 is even, B otherwise (04 R126). -/
def Step.dropAt (p : Step) (l : Nat) : Nat := p.slot.getD 0 + 64 + (if (l - p.layer0) % 2 = 0 then 0 else p.ds)

/-- What a layer meets when it is placed in a heat: a poisoned drop, or the worst state of its pages. -/
def layerStatus (s : State) (idx : Nat) (p : Step) (l : Nat) : Byte :=
  if poisonedAt s (p.dropAt l) p.ds then stPoisoned else worstPage s (p.owners idx l)

/-- The cores that work on a layer: those of the stacks that hold its pages or their frames, and that of the working memory, which merges
(01 R20, 04 R135). -/
def layerCores (s : State) (idx : Nat) (p : Step) (l : Nat) : List Nat :=
  dedup (p.work.map (·.1) ++ (p.owners idx l).map (stackOf s))

/-- A ready layer is placed in the heat, and its work on the cores: the device reads its drop; a drop or page that cannot be read ends the step. -/
def placeLayer (t id : Nat) (s : State) : State :=
  match openStep s t id with
  | none => s
  | some p => match readyLayer s (idxOf s t id) p with
    | none => s
    | some l =>
      let st := layerStatus s (idxOf s t id) p l
      if st ≠ stOk then attendEnd t id st s
      else
        let s1 := modStep t id (fun q => { q with requested := q.requested.drop 1,
                                                  placed := q.placed ++ [(l, tunRead s (p.dropAt l) p.ds)] }) s
        placeJobs (layerCores s (idxOf s t id) p l) 1 t id p.tenant 1 (kindSlot s 2) <| addCurrent t (fun c => { c with hostRd := c.hostRd + BitVec.ofNat 64 p.ds })
          { s1 with heat := { s1.heat with running := s1.heat.running ++ [(t, id, l)] } }

/-- The boundary of a heat: leaves, riser, joins, riser of the joined (04 R136). -/
def boundary (s : State) : State :=
  let s1 := leaveAll s
  let s2 := (runningSteps s1).foldl (fun s' e => riserCommit e.1 e.2.1 s') s1
  joinAll s2

/-- The heat window closes: a boundary, then the heat takes one ready layer of every member. Requests still ready open the
next window (04 R134). -/
def windowClose (s : State) : State :=
  if s.heat.windowOpen then
    let s1 := boundary s
    let s2 := (runningSteps s1).foldl (fun s' e => placeLayer e.1 e.2.1 s') s1
    settleLeaves (checkWindow { s2 with heat := { s2.heat with windowOpen := false } })
  else s

/-! ### A layer completes (04 R129 to R132) -/

/-- Frames of a layer are released: the step's own, and WARM frames of the context's pages of that layer (04 R138, 10 Table 85). -/
def releaseLayer (t id l idx : Nat) (s : State) : State :=
  let here (k : Nat) : Bool := match (pageAt s k).map (fun (p : Page) => p.owner) with
    | some (Owner.kv x a _ _) => x == idx && a == l
    | some (Owner.scale x a _ _) => x == idx && a == l
    | _ => false
  { s with tier := { s.tier with frames := s.tier.frames.filter (fun f => match f.kind with
      | .riser a b m => !(a == t && b == id && m == l)
      | .transient a b => !(a == t && b == id && here f.page)
      | .warm => !here f.page
      | .scratch _ _ => true) } }

/-- The earliest running layer of a member's step completes: head records, completion word, frames released, and the step's
end or further commitments (04 R127, R132, R138). The last layer ends the step with OK even after a bad doorbell, where two bullets of R127
speak (DESIGN CHOICE, log 91). -/
def layerComplete (t id : Nat) (s : State) : State :=
  match openStep s t id with
  | none => s
  | some p => match p.placed.head? with
    | none => s
    | some pl =>
      let l := pl.1
      let idx := idxOf s t id
      let recs := (List.range p.heads).map (fun qh => headRecord s p idx l (draw s + qh) pl.2 qh)
      let s1 := drawn p.heads s
      let s2 := (p.owners idx l).foldl (fun s' o => match slotOfOwner s' o with
        | some k => touchPage k s'
        | none => s') s1
      let s3 := dmaWrite t (p.blockAt l) (recs.flatMap (·.1)) true s2
      let s4 := dmaWrite t (p.blockAt l + p.ls - 64) (completionLine l stOk (recs.any (·.2)) p.seq) false s3
      let s5 := modStep t id (fun q => { q with placed := q.placed.drop 1, doneLayers := q.doneLayers + 1 })
        { s4 with heat := { s4.heat with running := s4.heat.running.filter (fun r => !(r == (t, id, l))) } }
      let s6 := releaseLayer t id l idx (if p.placed.length = 1 then endJobs t id s5 else s5)
      if p.doneLayers + 1 = p.nlayer then attendEnd t id stOk s6
      else checkWindow (endIfDrained t id (riserCommit t id s6))

/-! ### The rows -/

/-- STEP_DOORBELL. -/
def execStepDoorbell (dpa : Nat) (value : BitVec 32) (s : State) : Result :=
  if dpa < tundishSize then whenServing (stepDoorbell dpa value) s else .fault .noSuchAddress

/-- FRAME_FILL_COMPLETE: a frame holds its page's contents; a layer may become ready (04 R134). -/
def frameFilled (frame : Nat) (s : State) : State :=
  checkWindow { s with tier := { s.tier with
    frames := s.tier.frames.map (fun (f : Frame) => if f.fid = frame ∧ f.placed then { f with filled := true } else f) } }

def execFrameFillComplete (frame : Nat) (s : State) : Result := whenServing (frameFilled frame) s

/-- HEAT_WINDOW_CLOSE. -/
def execHeatWindowClose (s : State) : Result := whenServing (windowClose) s

/-- HEAT_LAYER_COMPLETE. -/
def execHeatLayerComplete (trs id : Nat) (s : State) : Result := onTrsServing trs (layerComplete trs id) s

/-- A join deferred beyond the limit ends with CAPACITY and RESULT 0 (04 R136). -/
def joinTimeout (t id : Nat) (s : State) : State :=
  match openStep s t id with
  | none => s
  | some p => if p.deferred then attendEnd t id stCapacity s else s

/-- JOIN_DEFERRAL_TIMEOUT. -/
def execJoinDeferralTimeout (trs id : Nat) (s : State) : Result := onTrsServing trs (joinTimeout trs id) s

/-- WARM_FRAME_EXPIRY: a WARM frame is released after its hold (10 Table 85). -/
def warmExpiry (frame : Nat) (s : State) : State :=
  { s with tier := { s.tier with frames := s.tier.frames.filter (fun f => !(f.fid == frame && f.kind == .warm)) } }

def execWarmFrameExpiry (frame : Nat) (s : State) : Result := whenServing (warmExpiry frame) s

/-- TRANSIENT_FRAME_PLACED: a waiting frame takes its place where room has appeared (10 R293, R296). -/
def transientPlaced (frame : Nat) (s : State) : State :=
  match s.tier.frames.find? (fun f => f.fid == frame && !f.placed) with
  | none => s
  | some f =>
    let r := placeFrame f.stack f.tenant 1 s
    match r.2 with
    | none => s
    | some ch => { r.1 with tier := { r.1.tier with
        frames := r.1.tier.frames.map (fun (g : Frame) => if g.fid = frame then { g with placed := true, chan := ch } else g) } }

def execTransientFramePlaced (frame : Nat) (s : State) : Result := whenServing (transientPlaced frame) s

end Sys2Proof.Machine
end

