-- ==== Sys2Proof/Machine/Search.lean ====
section
/-! DEFINITION. Binary-code search (05): collections and their page images, INSERT, DELETE, SEARCH with its scans, anneal rounds
and MERGE, COLLECTION. -/
namespace Sys2Proof.Machine

/-! ### Collections -/

/-- Collection `c`. -/
def getColl (s : State) (c : Nat) : Coll := SMap.find {} s.coll c

/-- Replaces collection `c`. -/
def setColl (c : Nat) (x : Coll) (s : State) : State := { s with coll := SMap.put {} s.coll c x }

/-- EPOCH, a 32-bit count (05 R150). -/
def Coll.epoch (x : Coll) : Nat := x.epochNo % 2 ^ 32

/-- A code is in the index of epoch `e`. -/
def inIndex (e : Nat) (c : Code) : Bool :=
  ((c.folded.map (fun f => decide (f ≤ e))).getD false) && ((c.removed.map (fun r => decide (e < r))).getD true)

/-- A code is in the current side list. -/
def onSide (c : Code) : Bool := c.folded.isNone && c.removed.isNone

/-- The index of epoch `e`, in slot order. -/
def Coll.index (x : Coll) (e : Nat) : List Code := x.codes.filter (inIndex e)

/-- The current side list, in commit order. -/
def Coll.side (x : Coll) : List Code := x.codes.filter onSide

/-- The level of a node: the largest n up to 6 for which the first 5n bits of SHAKE256 over its ordinal are zero (05 R149). -/
def levelOf (ord : Nat) : Nat :=
  let w := natOf (shake256 4 (bytesOf 8 ord))
  ((List.range 7).filter (fun n => decide (w % 2 ^ (5 * n) = 0))).foldl max 0

/-! ### Page images (05 Tables 47, 48, R148) -/

/-- Bytes of a code. -/
def codeBytes (x : Coll) (c : Code) : List Byte := bytesOf (codeBits x.width / 8) c.bits

/-- An input record: code, ID, ATTR (05 R156). -/
def sideRecord (x : Coll) (c : Code) : List Byte := codeBytes x c ++ bytesOf 8 c.cid ++ bytesOf 8 c.attr

/-- A tag entry: ID, ATTR. -/
def tagEntry (c : Code) : List Byte := bytesOf 8 c.cid ++ bytesOf 8 c.attr

/-- A pending tombstone: ordinal, two zero bytes, commit sequence. -/
def tombEntry (c : Code) : List Byte := bytesOf 6 c.ord ++ bytesOf 2 0 ++ bytesOf 8 (c.tombSeq.getD 0)

/-- The number of a node: its place in the index (log 11). -/
def nodeNumber (ix : List Code) (ord : Nat) : Nat := ix.findIdx (fun c => c.ord == ord)

/-- Neighbour entries of one level, `n` places of 5 bytes. -/
def edgeBytes (ix : List Code) (n : Nat) (es : List Nat) : List Byte :=
  padTo (5 * n) (es.flatMap (fun o => bytesOf 5 (nodeNumber ix o)))

/-- A node record: the level-0 record of R148, then DEGREE / 2 places for each higher level (05 R148, R149). -/
def nodeRecord (x : Coll) (ix : List Code) (c : Code) : List Byte :=
  let r := bytesOf 8 c.cid ++ bytesOf 8 c.attr ++ bytesOf 6 c.ord ++ bytesOf 1 (c.edges.headD []).length
    ++ bytesOf 1 c.tombSeq.isSome.toNat ++ codeBytes x c ++ edgeBytes ix x.degree (c.edges.headD [])
    ++ (List.range' 1 c.level).flatMap (fun l => edgeBytes ix (x.degree / 2) (c.edges.getD l []))
  padTo (32 * ceilDiv r.length 32) r

/-- The size of a level-0 record (05 Table 48). -/
def nodeSize (x : Coll) : Nat := 32 * ceilDiv (24 + codeBits x.width / 8 + 5 * x.degree) 32

/-- Level-0 records per 4 KiB unit. -/
def nodesPerUnit (x : Coll) : Nat := 4096 / nodeSize x

/-- Codes per code page. -/
def codesPerPage (x : Coll) : Nat := 65536 / (codeBits x.width / 8)

/-- Level-0 nodes lie in node pages, higher ones in entry pages. -/
def isLow (c : Code) : Bool := decide (c.level = 0)

/-- Pages of one kind from their chunks. -/
def pageList (kind : Nat) (imgs : List (List Byte)) : List (Nat × Nat × List Byte) :=
  (List.range imgs.length).map (fun i => (kind, i, padTo 65536 (imgs.getD i [])))

/-- The pages of a collection as it stands: kind, number, bytes (05 Table 47). The layout of entry pages, "per anneal", is
records in turn (log 11). -/
def collImages (x : Coll) : List (Nat × Nat × List Byte) :=
  let ix := x.index x.epochNo
  let side := x.side
  let tombs := x.codes.filter tombPending
  let chunk (k : Nat) (l : List Code) (f : Code → List Byte) : List (List Byte) :=
    (chunksOf k l.length l).map (fun cs => cs.flatMap f)
  let unit (cs : List Code) : List Byte :=
    (chunksOf (nodesPerUnit x) cs.length cs).flatMap (fun u => padTo 4096 (u.flatMap (nodeRecord x ix)))
  let low := ix.filter isLow
  (if x.kind = 0 then
    pageList 0 (chunk (codesPerPage x) ix (codeBytes x)) ++ pageList 1 (chunk 4096 ix tagEntry)
  else
    pageList 2 ((chunksOf (16 * nodesPerUnit x) low.length low).map unit)
    ++ (let bytes := (ix.filter (fun c => !isLow c)).flatMap (nodeRecord x ix)
        pageList 3 (chunksOf 65536 bytes.length bytes)))
  ++ pageList 4 (if side.isEmpty then [[]] else chunk (sidePer x.width) side (sideRecord x))
  ++ pageList 5 (if tombs.isEmpty then [[]] else chunk 4096 tombs tombEntry)

/-- One page image is brought into being: an existing page takes the bytes, else a page is created for the epoch. -/
def syncPage (cid tenant acc born : Nat) (img : Nat × Nat × List Byte) (s : State) : State :=
  let o := Owner.coll cid img.1 img.2.1
  match slotOfOwner s o with
  | some k =>
    if pageBytes s k = img.2.2 then s
    else bufferMany (slotUnit s k) acc (s.fl.seq + 1) 4 (putUnitBytes (slotUnit s k) 0 img.2.2 s)
  | none =>
    let s1 := createPage o tenant acc img.2.2 s
    match slotOfOwner s1 o with
    | some k => modPage k (fun p => { p with born := born }) s1
    | none => s1

/-- All page images of a collection are brought into being. -/
def syncColl (cid acc : Nat) (s : State) : State :=
  let x := getColl s cid
  (collImages x).foldl (fun s' img => syncPage cid x.tenant acc x.epochNo img s') s

/-- Live pages of a collection: slot, kind, number. -/
def collPages (s : State) (cid : Nat) : List (Nat × Nat × Nat) :=
  s.tier.pages.filterMap (fun e => match e.2.owner with
    | .coll c k n => if c = cid ∧ e.2.dead.isNone ∧ e.2.pend.isNone then some (e.1, k, n) else none
    | _ => none)

/-- The page of an owner that epoch `e` reads (05 R151). -/
def slotInEpoch (s : State) (o : Owner) (e : Nat) : Option Nat :=
  (s.tier.pages.find? (fun p => p.2.owner == o && p.2.pend.isNone && decide (p.2.born ≤ e)
    && ((p.2.dead.map (fun d => decide (e < d))).getD true))).map (·.1)

/-- The journal record of a collection (11 Table 95). -/
def collObject (cid : Nat) : Rec := .object 2 cid

/-! ### Readability (05 R171) -/

/-- The status of a page that epoch `e` reads. -/
def ownerStatus (s : State) (o : Owner) (e : Nat) : Byte := ((slotInEpoch s o e).map (pageStatus s)).getD stOk

/-- The entry page that a node of level 1 or above begins in: records lie in turn (05 Table 47; log 11). -/
def entryPage (x : Coll) (ix : List Code) (ord : Nat) : Nat :=
  sumOf (((ix.filter (fun c => !isLow c)).takeWhile (fun c => c.ord != ord)).map (fun c => (nodeRecord x ix c).length)) / 65536

/-- The page that holds code `c` for a search in epoch `e`: its code page, node page, entry page or side-list page, with the epoch in which
it is read (05 R151). -/
def codePage (cid : Nat) (x : Coll) (e : Nat) (c : Code) : Option (Owner × Nat) :=
  let ix := x.index e
  if inIndex e c then
    if x.kind = 0 then some (.coll cid 0 (nodeNumber ix c.ord / codesPerPage x), e)
    else if isLow c then some (.coll cid 2 (nodeNumber (ix.filter isLow) c.ord / (16 * nodesPerUnit x)), e)
    else some (.coll cid 3 (entryPage x ix c.ord), e)
  else if onSide c then some (.coll cid 4 (nodeNumber x.side c.ord / sidePer x.width), x.epochNo)
  else none

/-- The tag page of a FLAT index code. -/
def tagPage (cid : Nat) (x : Coll) (e : Nat) (c : Code) : Option (Owner × Nat) :=
  if x.kind = 0 ∧ inIndex e c = true then some (.coll cid 1 (nodeNumber (x.index e) c.ord / 4096), e) else none

/-- The 4 KiB unit of its page in which the tag of a FLAT code or the record of a level-0 node lies: such pages are read by units (10 R310,
Table 85). -/
def codeUnit (x : Coll) (e : Nat) (c : Code) : Option Nat :=
  let ix := x.index e
  if ¬ inIndex e c then none
  else if x.kind = 0 then some (nodeNumber ix c.ord % 4096 / 256)
  else if isLow c then some (nodeNumber (ix.filter isLow) c.ord % (16 * nodesPerUnit x) / nodesPerUnit x)
  else none

/-- What the read of a page meets. -/
def placeStatus (s : State) (p : Option (Owner × Nat)) : Byte := (p.map (fun q => ownerStatus s q.1 q.2)).getD stOk

/-- The status of the page that holds code `c` for a search in epoch `e`. -/
def codeStatus (s : State) (cid : Nat) (x : Coll) (e : Nat) (c : Code) : Byte := placeStatus s (codePage cid x e c)

/-- The status of the tag page of a FLAT index code. -/
def tagStatus (s : State) (cid : Nat) (x : Coll) (e : Nat) (c : Code) : Byte := placeStatus s (tagPage cid x e c)

/-! ### INSERT and DELETE (05 R156 to R159) -/

/-- The codes of packed input records, in order. -/
def parseRecords (w : Nat) (n : Nat) (src : Nat → Nat → List Byte) : List (Nat × Nat × Nat) :=
  let cb := codeBits w / 8
  (List.range n).map (fun i =>
    let r := src (i * (cb + 16)) (cb + 16)
    (natOf (r.take cb), numAt r cb 8, numAt r (cb + 8) 8))

/-- The commit of an insertion: consecutive ordinals, one step of the commit sequence, side-list pages, one journal entry. The
first ordinal is the answer (05 R144, R150, R152, R157). -/
def commitInsert (cid acc : Nat) (recs : List (Nat × Nat × Nat)) (s : State) : State × Nat :=
  let x := getColl s cid
  let news : List Code := (List.range recs.length).map (fun i =>
    let r := recs.getD i (0, 0, 0)
    { ord := x.nextOrd + i, cid := r.2.1, attr := r.2.2, bits := r.1, insSeq := x.commitSeq + 1 })
  let s1 := setColl cid { x with codes := x.codes ++ news, commitSeq := (x.commitSeq + 1) % 2 ^ 64,
                                 nextOrd := x.nextOrd + recs.length } s
  (commitEntry [collObject cid] (syncColl cid acc s1), x.nextOrd)

/-- INSERT finishes: every record in, it commits (05 R157). -/
def insertFinish (t id : Nat) (h : Held) (s : State) : State :=
  let cid := objOf h.desc
  let n := fld h.desc 8 4
  let x := getColl s cid
  if inputsIn h && bufferRoom s (4 * (n / sidePer x.width + 2)) then
    let r := commitInsert cid h.acceptNo (parseRecords x.width n (fun off k => rxBytes h (fld h.desc 24 8 + off) k)) s
    finish t id stOk (BitVec.ofNat 64 (r.2 % 2 ^ 48)) r.1
  else s

/-- The codes that DELETE tombstones: named, held, not tombstoned (05 R159). -/
def deleteTargets (x : Coll) (ords : List Nat) : List Nat :=
  dedup (ords.filter (fun o => x.codes.any (fun c => c.ord == o && c.removed.isNone && c.tombSeq.isNone)))

/-- DELETE finishes (05 R158, R159). -/
def deleteFinish (t id : Nat) (h : Held) (s : State) : State :=
  let cid := objOf h.desc
  let n := fld h.desc 8 4
  if inputsIn h && bufferRoom s (4 * (n / 4096 + 2)) then
    let x := getColl s cid
    let src := rxBytes h (fld h.desc 24 8) (8 * n)
    let named := deleteTargets x ((List.range n).map (fun i => numAt src (8 * i) 8))
    let s1 := setColl cid { x with commitSeq := (x.commitSeq + 1) % 2 ^ 64,
                                   codes := x.codes.map (fun (c : Code) =>
                                     if c.ord ∈ named then { c with tombSeq := some (x.commitSeq + 1) } else c) } s
    finish t id stOk (BitVec.ofNat 64 named.length) (commitEntry [collObject cid] (syncColl cid h.acceptNo s1))
  else s

/-! ### Candidates and hits (05 R142, R143, R151, R161 to R163) -/

/-- What a search in epoch `e` at commit sequence `cs` sees. -/
def visible (e cs : Nat) (c : Code) : Bool :=
  inIndex e c || (decide (c.insSeq ≤ cs) && !((c.folded.map (fun f => decide (f ≤ e))).getD false)
    && ((c.removed.map (fun r => decide (e < r))).getD true))

/-- A code is tombstoned for a search at commit sequence `cs`. -/
def tombed (cs : Nat) (c : Code) : Bool := (c.tombSeq.map (fun n => decide (n ≤ cs))).getD false

/-- The order of R143: distance, ID, ordinal. -/
def hitLt (a b : Hit) : Bool := lexLt [a.dist, a.cid, a.ord] [b.dist, b.cid, b.ord]

/-- The attribute filter of Table 51. -/
def passes (fop mask value attr : Nat) : Bool :=
  match fop with
  | 1 => decide (attr &&& mask = value)
  | 2 => decide (attr &&& mask ≠ value)
  | 3 => decide (attr &&& mask ≤ value)
  | 4 => decide (value ≤ attr &&& mask)
  | _ => true

/-- A hit of a code for a query. -/
def hitOf (w q : Nat) (c : Code) : Hit := { cid := c.cid, attr := c.attr, ord := c.ord, dist := hamming w q c.bits }

/-- The candidate list of a query from the codes compared (05 R162). -/
def candidates (w maxDist cand q : Nat) (cs : List Code) : List Hit :=
  (sortBy hitLt ((cs.map (hitOf w q)).filter (fun h => decide (h.dist ≤ maxDist)))).take cand

/-- The entry node of epoch `e`: highest level, smallest ordinal (05 R149). -/
def entryNode (x : Coll) (e : Nat) : Option Code :=
  (x.index e).foldl (fun best c => match best with
    | none => some c
    | some b => if b.level < c.level ∨ (b.level = c.level ∧ c.ord < b.ord) then some c else some b) none

/-- The neighbour lists of a node that epoch `e` reads (05 R151). -/
def edgesAt (e : Nat) (c : Code) : List (List Nat) :=
  match c.past.find? (fun p => decide (e ≤ p.1)) with
  | some p => p.2
  | none => c.edges

/-- A GRAPH index as a traversal meets it: the nodes of one epoch, which of them can be read, the code width, the query. -/
structure Graph where
  nodes : List Code
  dead : List Nat
  epoch : Nat
  width : Nat
  query : Nat
  deriving DecidableEq, Repr

/-- A node can be read. -/
def Graph.reads (g : Graph) (c : Code) : Bool := decide (c.ord ∉ g.dead)

/-- Of two nodes, the first is the nearer to the query by R143. -/
def Graph.nearer (g : Graph) (a b : Code) : Bool := hitLt (hitOf g.width g.query a) (hitOf g.width g.query b)

/-- A node's neighbours at a level; an unreadable node has none (05 R171). -/
def Graph.next (g : Graph) (lvl : Nat) (c : Code) : List Code :=
  if g.reads c then g.nodes.filter (fun n => decide (n.ord ∈ (edgesAt g.epoch c).getD lvl [])) else []

/-- The greedy descent within one level: the nearest node, and the nodes compared. -/
def Graph.greedy (g : Graph) (lvl : Nat) : Nat → Code → List Code → Code × List Code
  | 0, c, seen => (c, seen)
  | f + 1, c, seen =>
    let ns := g.next lvl c
    let b := (ns.filter g.reads).foldl (fun b n => if g.nearer n b then n else b) c
    if b.ord = c.ord then (c, seen ++ ns) else g.greedy lvl f b (seen ++ ns)

/-- The descent from the entry node through the levels down to 1 (05 R161). -/
def Graph.descend (g : Graph) : Nat → Code → List Code → Code × List Code
  | 0, c, seen => (c, seen)
  | l + 1, c, seen =>
    let r := g.greedy (l + 1) g.nodes.length c seen
    g.descend l r.1 r.2

/-- The level-0 search: while the beam of the `cand` nearest nodes seen holds an unexpanded node nearer than its last place, the
nearest are expanded, in groups whose size batching leaves free (05 R161, R166, R174; log 11). -/
def Graph.expand (g : Graph) (cand : Nat) : Nat → Nat → List Nat → List Code → List Nat × List Code
  | 0, _, done, seen => (done, seen)
  | f + 1, free, done, seen =>
    let beam := (sortBy g.nearer (seen.filter g.reads)).take cand
    let fresh := beam.filter (fun c => decide (c.ord ∉ done)
      && (decide (beam.length < cand) || (beam.getLast?.map (g.nearer c)).getD false))
    if fresh.isEmpty then (done, seen)
    else
      let grp := fresh.take (1 + free % 32)
      let ns := (grp.flatMap (g.next 0)).foldl (fun (l : List Code) n => if l.any (fun m => m.ord == n.ord) then l else l ++ [n]) seen
      g.expand cand f (free / 32) (done ++ grp.map (·.ord)) ns

/-- The nodes of some ordinals. -/
def Graph.named (g : Graph) (ords : List Nat) : List Code := g.nodes.filter (fun c => decide (c.ord ∈ ords))

/-- The nodes a traversal has expanded and compared, from the entry node on; a repeat continues from the beam that its query left
(05 R161, R163). -/
def Graph.traverse (g : Graph) (entry : Option Code) (q : Query) (free : Nat) : List Nat × List Nat :=
  match entry with
  | none => ([], [])
  | some n =>
    let r := g.descend n.level n [n]
    let start := if q.seen.isEmpty then dedup (r.1 :: r.2) else g.named q.seen
    let out := g.expand q.cand (g.nodes.length + 1) free q.spent start
    (out.1, out.2.map (·.ord))

/-- What a query's traversal of a GRAPH index has expanded and compared. -/
def graphSeen (s : State) (cid e : Nat) (q : Query) (free : Nat) : List Nat × List Nat :=
  let x := getColl s cid
  let ix := x.index e
  let g : Graph := { nodes := ix, dead := (ix.filter (fun c => codeStatus s cid x e c != stOk)).map (·.ord), epoch := e,
                     width := codeBits x.width, query := q.code }
  g.traverse (entryNode x e) q free

/-- One pass of a query over the codes that `seen` admits: hits, whether the list is full, statuses met, the codes on the unreadable pages
met, and the pages read with the epoch they belong to: a FLAT scan's candidates' tag pages, a GRAPH traversal's pages (05 R166). -/
structure Pass where
  hits : List Hit
  full : Bool
  lost : Byte
  lostOrds : List Nat
  reads : List ((Owner × Nat) × Option Nat)
  deriving DecidableEq, Repr

/-- The codes whose code, node, entry, side-list or tag page is among some pages: they are the codes lost with those pages (05 R171). -/
def codesOn (cid : Nat) (x : Coll) (e : Nat) (ps : List (Option (Owner × Nat))) : List Nat :=
  (x.codes.filter (fun c => (match codePage cid x e c with
    | none => false
    | some q => decide (some q ∈ ps)) || (match tagPage cid x e c with
    | none => false
    | some q => decide (some q ∈ ps)))).map (·.ord)

/-- A pass (05 R161 to R163, R171). -/
def runPass (s : State) (d : Desc) (r : SearchRec) (q : Query) (seen : Code → Bool) : Pass :=
  let x := getColl s r.coll
  let vis := x.codes.filter (fun c => visible r.epoch r.commitSeq c && seen c)
  let bad := vis.filter (fun c => codeStatus s r.coll x r.epoch c != stOk)
  let ok := vis.filter (fun c => codeStatus s r.coll x r.epoch c == stOk && !tombed r.commitSeq c)
  let cands := candidates (codeBits x.width) (fld d 14 2) q.cand q.code ok
  let codeOf (h : Hit) : Code := (x.codes.find? (fun c => c.ord == h.ord)).getD ⟨0, 0, 0, 0, 0, none, none, none, 0, [], []⟩
  let tagBad := cands.filter (fun h => tagStatus s r.coll x r.epoch (codeOf h) != stOk)
  let good := cands.filter (fun h => tagStatus s r.coll x r.epoch (codeOf h) == stOk
    && passes (fld d 12 1) (fld d 48 8) (fld d 56 8) h.attr)
  { hits := good.take (fld d 8 2), full := decide (cands.length = q.cand),
    lost := (bad.map (codeStatus s r.coll x r.epoch) ++ tagBad.map (fun h => tagStatus s r.coll x r.epoch (codeOf h))).foldl
      worse stOk,
    lostOrds := codesOn r.coll x r.epoch (bad.map (codePage r.coll x r.epoch) ++ tagBad.map (fun h => tagPage r.coll x r.epoch (codeOf h))),
    reads := dedup (if x.kind = 1 then vis.filterMap (fun c => (codePage r.coll x r.epoch c).map (fun p => (p, codeUnit x r.epoch c)))
      else cands.filterMap (fun h => (tagPage r.coll x r.epoch (codeOf h)).map (fun p => (p, codeUnit x r.epoch (codeOf h))))) }

/-- A query after a pass: it repeats with C doubled where R163 says so, else its hits stand. -/
def afterPass (d : Desc) (q : Query) (p : Pass) : Query :=
  if p.hits.length < fld d 8 2 ∧ p.full ∧ q.widened < fld d 11 1 ∧ q.cand < 65536 then
    { q with cand := min (2 * q.cand) 65536, widened := q.widened + 1, onBoard := false }
  else { q with onBoard := false, hits := some p.hits }

/-! ### SEARCH (05 R160, R164 to R166, R171) -/

/-- Changes the search record of a held command. -/
def modSearch (t id : Nat) (f : SearchRec → SearchRec) (s : State) : State :=
  modHeld t id (fun (h : Held) => { h with search := h.search.map f }) s

/-- SEARCH starts: its queries are fetched. -/
def searchStart (t id : Nat) (d : Desc) (s : State) : State :=
  issueRead t id (fld d 24 8) (fld d 10 1 * (codeBits (getColl s (objOf d)).width / 8)) s

/-- Codes counted in LOST (05 R171). -/
def countLost (cid : Nat) (ords : List Nat) (s : State) : State :=
  let x := getColl s cid
  setColl cid { x with lost := dedup (x.lost ++ ords.filter (fun o => x.codes.any (fun c => c.ord == o && c.removed.isNone))) } s

/-- The query header of Table 52. -/
def queryHeader (r : SearchRec) (k : Nat) (q : Query) (n : Nat) : List Byte :=
  bytesOf 8 (n % 2 ^ 16 + q.widened % 8 * 2 ^ 16 + (decide (n < k)).toNat * 2 ^ 19 + r.epoch % 2 ^ 32 * 2 ^ 32)

/-- A hit record. -/
def hitBytes (h : Hit) : List Byte := bytesOf 8 h.cid ++ bytesOf 8 h.attr ++ bytesOf 6 h.ord ++ bytesOf 2 h.dist

/-- The hits of a query; none where it has not ended. -/
def Query.found (q : Query) : List Hit := q.hits.getD []

/-- The number of short queries (05 R164). -/
def shortCount (d : Desc) (r : SearchRec) : Nat := (r.queries.filter (fun q => decide (q.found.length < fld d 8 2))).length

/-- RESULT of a SEARCH (05 R164). -/
def searchResult (d : Desc) (r : SearchRec) : Nat :=
  sumOf (r.queries.map (fun q => q.found.length)) % 2 ^ 32 + shortCount d r % 2 ^ 16 * 2 ^ 32

/-- The result blocks of a SEARCH are written (05 R165). -/
def searchBlocks (t : Nat) (d : Desc) (r : SearchRec) (s : State) : State :=
  let k := fld d 8 2
  (List.range r.queries.length).foldl (fun s' n =>
    let q := r.queries.getD n ({ code := 0, cand := 0 } : Query)
    dmaWrite t (fld d 32 8 + n * queryBlock k) (queryHeader r k q q.found.length ++ q.found.flatMap hitBytes) true s') s

/-- All queries have ended: the result blocks are written and the ending is decided (05 R164, R171). -/
def searchReport (t id : Nat) (d : Desc) (r : SearchRec) (s : State) : State :=
  let st := if r.lost ≠ stOk then r.lost else if 0 < shortCount d r then stShort else stOk
  decideEnd t id st (searchResult d r) (searchBlocks t d r s)

/-- The passes of a command's queries on board, or of all its queries for GRAPH. -/
def passQueries (s : State) (d : Desc) (r : SearchRec) (free : Nat → Nat) : List Query → Nat → List Query × Byte × List Nat × List ((Owner × Nat) × Option Nat)
  | [], _ => ([], stOk, [], [])
  | q :: qs, n =>
    let rest := passQueries s d r free qs (n + 1)
    let x := getColl s r.coll
    if q.hits.isNone ∧ (q.onBoard ∨ x.kind = 1) then
      let g := if x.kind = 1 then graphSeen s r.coll r.epoch q (free n) else ([], [])
      let seen (c : Code) : Bool := if x.kind = 1 then !inIndex r.epoch c || decide (c.ord ∈ g.2) else true
      let p := runPass s d r q seen
      (afterPass d { q with spent := g.1, seen := g.2 } p :: rest.1, worse p.lost rest.2.1, p.lostOrds ++ rest.2.2.1, p.reads ++ rest.2.2.2)
    else (q :: rest.1, rest.2)

/-- The SEARCH descriptor of a held command: its own, or stage B of a CHAIN of form 1 (06 R199, R201). -/
def searchDesc (h : Held) : Desc :=
  if h.op = 0x32 then BitVec.ofNat 512 (natOf (rxBytes h (fld h.desc 16 8 + 64) 64)) else h.desc

/-- The device reads pages for TRS `t`, each in the epoch it belongs to, whole or by 4 KiB units (05 R151, 10 R310). -/
def readPlaces (t : Nat) (ps : List ((Owner × Nat) × Option Nat)) (s : State) : State :=
  (dedup ps).foldl (fun s' p => match slotInEpoch s' p.1.1 p.1.2, p.2 with
    | some k, none => readPage t k s'
    | some k, some i => readPart t k i s'
    | none, _ => s') s

/-- The slots of some pages, each in its epoch. -/
def slotsOf (s : State) (ps : List (Owner × Nat)) : List Nat := (dedup ps).filterMap (fun p => slotInEpoch s p.1 p.2)

/-- One round of passes for a held SEARCH; when every query has its hits, its report. -/
def searchPass (t id : Nat) (free : Nat → Nat) (s : State) : State :=
  match heldOf s t id with
  | none => s
  | some h => match h.search with
    | none => s
    | some r =>
      let p := passQueries s (searchDesc h) r free r.queries 0
      let r1 : SearchRec := { r with queries := p.1, lost := worse r.lost p.2.1 }
      let s1 := readPlaces t p.2.2.2 (countLost r.coll p.2.2.1 (modSearch t id (fun _ => r1) s))
      if r1.queries.all (fun q => q.hits.isSome) then searchReport t id (searchDesc h) r1 s1 else s1

/-- Searches of a collection that wait or run, in acceptance order. -/
def openSearches (s : State) (cid : Nat) : List (Nat × Nat × SearchRec) :=
  let cs := (allHeld s).filterMap (fun e => if e.2.undecided then
    (match e.2.search with
     | some r => if r.coll = cid then some (e.2.acceptNo, e.1, e.2.id, r) else none
     | none => none) else none)
  (sortBy (fun a b => decide (a.1 < b.1)) cs).map (fun e => e.2)

/-- A command's queries that wait to board. -/
def waiting (r : SearchRec) : Nat :=
  if r.loaded then (r.queries.filter (fun q => q.hits.isNone && !q.onBoard)).length else 0

/-- Commands that board a scan of an epoch with `room` places: acceptance order, one epoch, stopping at the first that does not
fit (05 R166). A repeat fits by the queries it still has waiting, not by its NQ, of which the rule speaks (DESIGN CHOICE, log 94). -/
def boarding (epoch : Nat) : List (Nat × Nat × SearchRec) → Nat → List (Nat × Nat)
  | [], _ => []
  | e :: es, room =>
    let n := waiting e.2.2
    if n = 0 ∨ e.2.2.epoch ≠ epoch then boarding epoch es room
    else if n ≤ room then (e.1, e.2.1) :: boarding epoch es (room - n)
    else []

/-- The next scan starts at once if any queries wait and none runs (05 R166). -/
def startScan (cid : Nat) (s : State) : State :=
  let x := getColl s cid
  if x.scanEpoch.isSome ∨ x.kind = 1 then s
  else
    let es := openSearches s cid
    match es.find? (fun e => decide (0 < waiting e.2.2)) with
    | none => s
    | some e =>
      let ep := e.2.2.epoch
      (boarding ep es 32).foldl (fun s' b => modSearch b.1 b.2 (fun r =>
        { r with queries := r.queries.map (fun (q : Query) => if q.hits.isNone then { q with onBoard := true } else q) }) s')
        (setColl cid { x with scanEpoch := some ep } s)

/-- The queries of a search stand ready: they wait to board, or their traversal runs. -/
def loadQueries (t id : Nat) (r : SearchRec) (cand : Nat) (codes : List Nat) (s : State) : State :=
  startScan r.coll (modSearch t id (fun r => { r with queries := codes.map (fun c => ({ code := c, cand := cand } : Query)),
                                                      loaded := true }) s)

/-- The queries of a SEARCH have arrived: they wait to board, or their traversal runs (05 R160, R166). -/
def searchLoad (t id : Nat) (h : Held) (s : State) : State :=
  match h.search with
  | none => s
  | some r =>
    if r.loaded ∨ ¬ inputsIn h then s
    else
      let d := h.desc
      let cb := codeBits (getColl s r.coll).width / 8
      loadQueries t id r (fld d 16 4) ((List.range (fld d 10 1)).map (fun n => natOf (rxBytes h (fld d 24 8 + n * cb) cb))) s

/-- The collection pages of kinds in `ks` that epoch `e` reads. -/
def epochOwners (s : State) (cid e : Nat) (ks : List Nat) : List Owner :=
  s.tier.pages.filterMap (fun p => match p.2.owner with
    | .coll c k n => if c = cid ∧ k ∈ ks ∧ p.2.pend.isNone = true ∧ p.2.born ≤ e ∧ ((p.2.dead.map (fun d => decide (e < d))).getD true) = true
        then some (.coll c k n) else none
    | _ => none)

/-- The tag pages of the candidates of the queries on board a scan (05 R166). -/
def scanTags (s : State) (aboard : List (Nat × Nat × SearchRec)) : List (Owner × Nat) :=
  aboard.flatMap (fun e => ((heldOf s e.1 e.2.1).map (fun (h : Held) => (passQueries s (searchDesc h) e.2.2 (fun _ => 0) e.2.2.queries 0).2.2.2.map (·.1))).getD [])

/-- A FLAT scan ends: every query on board is merged and filtered, and the next scan starts (05 R166). Pages read from flash
wait for a transient frame (10 R293). -/
def flatScanEnd (cid : Nat) (s : State) : State :=
  let x := getColl s cid
  match x.scanEpoch with
  | none => s
  | some ep =>
    let aboard := (openSearches s cid).filter (fun e => e.2.2.queries.any (fun q => q.onBoard))
    let os := (epochOwners s cid ep [0]).map (fun o => (o, ep)) ++ (epochOwners s cid x.epochNo [4]).map (fun o => (o, x.epochNo))
    let go (s0 : State) : State :=
      let s1 := aboard.foldl (fun s' e => searchPass e.1 e.2.1 (fun _ => 0) s') s0
      startScan cid (setColl cid { getColl s1 cid with scanEpoch := none } s1)
    match aboard.head? with
    | none => go s
    | some e => match frameWait e.1 e.2.1 (slotsOf s (os ++ scanTags s aboard)) s with
      | some s1 => s1
      | none => go (readPlaces e.1 (os.map (fun o => (o, none))) s)

/-- A GRAPH search runs its passes to the end (05 R161, R163); its reads wait for a transient frame. -/
def graphRounds (t id : Nat) : Nat → State → State
  | 0, s => s
  | n + 1, s =>
    match heldOf s t id with
    | none => s
    | some h =>
      if h.undecided then
        let base := draw s
        graphRounds t id n (searchPass t id (fun q => Config.freeNat (base + q)) (drawn 32 s))
      else s

/-- The traversal of a GRAPH search. -/
def graphRun (t id : Nat) (h : Held) (s : State) : State :=
  match h.search with
  | none => s
  | some r =>
    if r.loaded ∧ (getColl s r.coll).kind = 1 then
      match frameWait t id (slotsOf s ((epochOwners s r.coll r.epoch [2, 3]).map (fun o => (o, r.epoch)))) s with
      | some s1 => s1
      | none => graphRounds t id 5 s
    else s

/-! ### Anneal (05 R154, R155) -/

/-- Codes whose pages cannot be read now. A round removes them with the codes counted in LOST, though no search has met their pages
(DESIGN CHOICE, log 95). -/
def unreadableCodes (s : State) (cid : Nat) (x : Coll) : List Nat :=
  ((x.codes.filter (fun c => c.removed.isNone && (codeStatus s cid x x.epochNo c != stOk
    || tagStatus s cid x x.epochNo c != stOk))).map (·.ord))

/-- A candidate list of at most BUILD_CAND codes for a new node, of which the nearest become neighbours (05 R155; log 11). -/
def linkNode (x : Coll) (ix : List Code) (free lvl : Nat) (c : Code) : List Nat :=
  let pool := (ix.filter (fun n => decide (lvl ≤ n.level ∧ n.ord ≠ c.ord) && bitOf free (2 * n.ord))).take x.buildCand
  ((sortBy hitLt (pool.map (hitOf (codeBits x.width) c.bits))).take (if lvl = 0 then x.degree else x.degree / 2)).map (·.ord)

/-- An edge to a removed node is replaced by the nearest of that node's neighbours not already linked (05 R155). -/
def repairEdges (x : Coll) (old : List Code) (gone : List Nat) (lvl : Nat) (c : Code) (es : List Nat) : List Nat :=
  let keep := es.filter (fun e => decide (e ∉ gone))
  let fill := es.foldl (fun (acc : List Nat) e =>
    if e ∈ gone then
      let nbrs := ((old.find? (fun n => n.ord == e)).map (fun n => n.edges.getD lvl [])).getD []
      let pool := old.filter (fun n => decide (n.ord ∈ nbrs ∧ n.ord ∉ gone ∧ n.ord ≠ c.ord ∧ n.ord ∉ acc))
      match sortBy hitLt (pool.map (hitOf (codeBits x.width) c.bits)) with
      | [] => acc
      | h :: _ => acc ++ [h.ord]
    else acc) keep
  fill.take (if lvl = 0 then x.degree else x.degree / 2)

/-- New nodes that a node already linked takes as neighbours: which of them do is free; a list that grows past its size keeps
the nearest (05 R155; log 11). -/
def linkBack (x : Coll) (news : List Code) (free lvl : Nat) (c : Code) (es : List Nat) : List Nat :=
  let adds := news.filter (fun n => decide (lvl ≤ n.level ∧ n.ord ∉ es) && bitOf free (2 * n.ord + 1))
  let size := if lvl = 0 then x.degree else x.degree / 2
  if es.length + adds.length ≤ size then es ++ adds.map (·.ord)
  else
    let pool := x.codes.filter (fun n => decide (n.ord ∈ es)) ++ adds
    ((sortBy hitLt (pool.map (hitOf (codeBits x.width) c.bits))).take size).map (·.ord)

/-- The collection after a round commits (05 R155). -/
def annealed (s : State) (cid : Nat) (r : Round) : Coll :=
  let x := getColl s cid
  let e := x.epochNo + 1
  let taken := ((x.side.filter (fun c => decide (c.insSeq ≤ r.insSeq))).take r.count).map (·.ord)
  let bad := x.lost ++ unreadableCodes s cid x
  let step (c : Code) : Code :=
    if c.removed.isSome then c
    else if c.folded.isSome ∨ c.ord ∈ taken then
      if tombed r.insSeq c ∨ c.ord ∈ bad then { c with removed := some e }
      else if c.folded.isSome then c
      else { c with folded := some e, level := if x.kind = 1 then levelOf c.ord else 0 }
    else c
  let cs := x.codes.map step
  let gone := (cs.filter (fun c => c.removed == some e)).map (·.ord)
  let ix := cs.filter (inIndex e)
  let news := ix.filter (fun c => c.folded == some e)
  let free := Config.freeNat r.free
  let link (c : Code) : Code :=
    if x.kind = 1 ∧ inIndex e c = true then
      if c.folded = some e then { c with edges := (List.range (c.level + 1)).map (fun l => linkNode x ix free l c) }
      else
        let es := (List.range c.edges.length).map (fun l =>
          linkBack x news free l c (repairEdges x x.codes gone l c (c.edges.getD l [])))
        if es = c.edges then c else { c with edges := es, past := c.past ++ [(x.epochNo, c.edges)] }
    else c
  { x with codes := cs.map link, epochNo := e, round := none, lost := x.lost.filter (fun o => decide (o ∉ gone)) }

/-- The pages a round writes new: images that differ from the live pages. -/
def roundPagesNew (s : State) (cid : Nat) (y : Coll) : List (Nat × Nat × List Byte) :=
  (collImages y).filter (fun img => match slotOfOwner s (.coll cid img.1 img.2.1) with
    | some k => decide (pageBytes s k ≠ img.2.2)
    | none => true)

/-- A threshold of R154 is crossed. -/
def annealDue (s : State) (x : Coll) : Bool :=
  let count := polValue s 0x0005 4194304
  let share := polValue s 0x0006 100
  let n := (x.index x.epochNo).length
  let past (k : Nat) : Bool := decide (count < k) || (decide (share * n < k * 10000) && decide (65536 ≤ k))
  past (sideLen x) || past (tombLen x)

/-- A round of `count` codes fits the tenant's quota and T1_Q (05 R155, 10 R301). -/
def roundFits (s : State) (cid : Nat) (r : Round) : Bool :=
  let x := getColl s cid
  let ps := roundPagesNew s cid (annealed s cid r)
  pagesFit s x.tenant ps.length
  && keptFit s x.tenant (ps.filter (fun p => keptT1 s (.coll cid p.1 p.2.1))).length

/-- The cores whose stacks hold the pages of a collection or would hold their frames (01 R20). -/
def collCores (s : State) (cid : Nat) : List Nat :=
  dedup (s.tier.pages.filterMap (fun e => match e.2.owner with
    | .coll c k n => if c = cid then some (stackOf s (.coll c k n)) else none
    | _ => none))

/-- A round's work on the cores, as tiles of the COMPARE slot: class 4, or class 2 at a MERGE's foreground priority (05 R168, 07 R226, 14 R420;
DESIGN CHOICE, log 98). -/
def placeRound (cid tenant : Nat) (fg : Bool) (s : State) : State :=
  placeJobs (collCores s cid) (if fg then 2 else 4) deviceTrs cid tenant 1 (kindSlot s 3) s

/-- A round starts, whole or of the smallest size; where neither fits, anneal is held (05 R155). -/
def tryRound (cid : Nat) (fg : Bool) (s : State) : State :=
  let x := getColl s cid
  let mk (n : Nat) : Round := { insSeq := x.commitSeq, count := n, charged := 0, foreground := fg, free := draw s }
  let start (r : Round) : State :=
    placeRound cid x.tenant fg <|
      drawn 1 <| setColl cid { x with held := false, again := false, round := some { r with charged := (roundPagesNew s cid (annealed s cid r)).length } } s
  if roundFits s cid (mk (sideLen x)) then start (mk (sideLen x))
  else if 65536 < sideLen x ∧ roundFits s cid (mk 65536) = true then start (mk 65536)
  else setColl cid { x with held := true } s

/-- Work that stood at a MERGE's acceptance is left (05 R168). -/
def mergeLeft (x : Coll) (seq : Nat) : Bool :=
  x.codes.any (fun c => (onSide c && decide (c.insSeq ≤ seq)) || (c.removed.isNone && tombed seq c))

/-- Running MERGEs of a collection. -/
def openMerges (s : State) (cid : Nat) : List (Nat × Nat × Nat) :=
  (allHeld s).filterMap (fun e => if e.2.op = 0x23 ∧ objOf e.2.desc = cid ∧ e.2.phase = .running ∧ e.2.undecided = true
    then some (e.1, e.2.id, e.2.mergeSeq) else none)

/-- MERGEs of a collection go on: those with nothing left end with OK and the epoch; where work is left and no round runs, a
foreground round starts, and where anneal is held they end with CAPACITY (05 R168). -/
def mergeGo (cid : Nat) (s : State) : State :=
  let done := (openMerges s cid).foldl (fun s' m =>
    if mergeLeft (getColl s' cid) m.2.2 then s' else decideEnd m.1 m.2.1 stOk (getColl s' cid).epoch s') s
  if (openMerges done cid).isEmpty ∨ (getColl done cid).round.isSome then done
  else
    let s1 := tryRound cid true done
    if (getColl s1 cid).held then
      (openMerges s1 cid).foldl (fun s' m => decideEnd m.1 m.2.1 stCapacity (getColl s' cid).epoch s') s1
    else s1

/-- Pages that the round replaced end with the earlier epochs; the others stay. -/
def retirePages (cid e : Nat) (imgs : List (Nat × Nat × List Byte)) (s : State) : State :=
  (collPages s cid).foldl (fun s' p =>
    if imgs.any (fun i => i.1 == p.2.1 && i.2.1 == p.2.2 && decide (i.2.2 = pageBytes s' p.1)) then s'
    else modPage p.1 (fun q => { q with dead := some e }) s') s

/-- The number under which the pages of a collection's round lie until its commit: no command has it. -/
def roundId (cid : Nat) : Nat := 2 ^ 64 + cid

/-- A page of a round stands in the write buffer or on flash already. -/
def roundPageIn (s : State) (cid : Nat) (img : Nat × Nat × List Byte) : Bool :=
  s.tier.pages.any (fun e => decide (e.2.pend = some (roundId cid) ∧ e.2.owner = .coll cid img.1 img.2.1) && decide (pageBytes s e.1 = img.2.2))

/-- Pages of a round enter the write buffer, as many as it takes (11 R329). -/
def stageRound (cid : Nat) (r : Round) (tenant : Nat) (imgs : List (Nat × Nat × List Byte)) (s : State) : State :=
  let group := if r.group = 0 then s.fl.seq + 1 else r.group
  let now := (imgs.filter (fun i => !roundPageIn s cid i)).take (bufferFree s / 4)
  let s1 := now.foldl (fun s' i => createEarly (roundId cid) group tenant 0 (Owner.coll cid i.1 i.2.1, i.2.2) s')
    { s with fl := { s.fl with seq := max s.fl.seq group } }
  let x := getColl s1 cid
  setColl cid { x with round := x.round.map (fun q => { q with group := group }) } s1

/-- A round's work goes on: its pages enter the buffer as it has room, and with the last of them it commits its epoch in one journal entry
(05 R155, 11 R329). -/
def annealCommit (cid : Nat) (s : State) : State :=
  let x := getColl s cid
  match x.round with
  | none => s
  | some r =>
    let y := annealed s cid r
    let news := roundPagesNew s cid y
    let s1 := stageRound cid r x.tenant news s
    if news.all (roundPageIn s1 cid) then
      let group := (((getColl s1 cid).round).map (·.group)).getD 0
      let keep (e : Nat × Page) : Bool := decide (e.2.pend ≠ some (roundId cid)) || news.any (fun i => decide (e.2.owner = .coll cid i.1 i.2.1))
      let s2 := endJobs deviceTrs cid <| retirePages cid y.epochNo (collImages y) { s1 with tier := { s1.tier with pages := s1.tier.pages.filter keep } }
      let s3 := setColl cid y { s2 with tier := { s2.tier with pages := s2.tier.pages.map (fun e =>
        if e.2.pend = some (roundId cid) then (e.1, { e.2 with born := y.epochNo }) else e) } }
      mergeGo cid (commitEarly 0 (roundId cid) group (fun o => o) [.object 3 cid] s3)
    else s1

/-- No open search reads a page that lived in epochs `[born, dead)` (05 R151). -/
def epochFree (s : State) (cid born dead : Nat) : Bool :=
  (allHeld s).all (fun e => match e.2.search with
    | some r => !(decide (r.coll = cid ∧ born ≤ r.epoch ∧ r.epoch < dead) && !e.2.ended)
    | none => true)

/-- Pages of a superseded epoch that no search reads are freed, and codes dropped from every readable epoch are forgotten. -/
def freeEpoch (cid ep : Nat) (s : State) : State :=
  let ks := s.tier.pages.filterMap (fun e => match e.2.owner, e.2.dead with
    | .coll c _ _, some d => if c = cid ∧ e.2.born ≤ ep ∧ ep < d ∧ epochFree s cid e.2.born d = true then some e.1 else none
    | _, _ => none)
  if ks.isEmpty then s
  else
    let s1 := commitEntry (ks.map (fun k => .unmap (slotUnit s k) 4)) (ks.foldl (fun s' k => deletePage k s') s)
    let x := getColl s1 cid
    let kept := x.codes.filter (fun c => match c.removed with
      | none => true
      | some r => !epochFree s1 cid 0 r)
    setColl cid { x with codes := kept.map (fun (c : Code) =>
      { c with past := c.past.filter (fun p => !epochFree s1 cid 0 (p.1 + 1)) }) } s1

/-! ### COLLECTION (05 R169, R170) -/

/-- A command that finds its collection gone or already made ends with INVALID_FIELD (05 R170). -/
def collGone (t id : Nat) (s : State) : State := decideEnd t id stInvalidField 0 s

/-- CREATE. -/
def createBody (t id acc : Nat) (d : Desc) (s : State) : State :=
  let cid := objOf d
  if (collOf s cid).isSome then collGone t id s
  else
    let x : Coll := { live := true, width := fld d 9 1, kind := fld d 10 1 % 2, residency := fld d 10 1 / 2, degree := fld d 11 1,
                      buildCand := fld d 12 2, tenant := ownTenant s t (fld d 14 1) }
    decideEnd t id stOk 0 (modHeld t id (fun h => { h with resv := none })
      (commitEntry [collObject cid] (syncColl cid acc (setColl cid x s))))

/-- DESTROY: any round stops, every page is freed; RESULT is the number of the collection's own pages, without those that a round has made
and not committed (05 R170; DESIGN CHOICE, log 96). -/
def destroyBody (t id : Nat) (d : Desc) (s : State) : State :=
  let cid := objOf d
  if (collOf s cid).isNone then collGone t id s
  else
    let ks := s.tier.pages.filterMap (fun e => match e.2.owner with
      | .coll c _ _ => if c = cid then some e.1 else none
      | _ => none)
    let s1 := endJobs deviceTrs cid (ks.foldl (fun s' k => deletePage k s') s)
    let s2 := commitEntry (collObject cid :: ks.map (fun k => .unmap (slotUnit s k) 4)) (setColl cid {} s1)
    decideEnd t id stOk (ks.filter (fun k => ((pageAt s k).map (fun p => p.pend.isNone)).getD false)).length s2

/-- The state record of Table 49. -/
def collRecord (s : State) (cid : Nat) (x : Coll) : List Byte :=
  let pages := (s.tier.pages.filter (fun e => e.2.pend.isNone && match e.2.owner with
    | .coll c _ _ => c == cid
    | _ => false)).length + (x.round.map (·.charged)).getD 0
  bytesOf 1 x.width ++ bytesOf 1 (x.kind + 2 * x.residency) ++ bytesOf 1 x.degree ++ bytesOf 1 x.tenant ++ bytesOf 4 x.epoch
  ++ bytesOf 8 (x.index x.epochNo).length ++ bytesOf 8 (sideLen x) ++ bytesOf 8 (tombLen x) ++ bytesOf 8 (x.nextOrd % 2 ^ 48)
  ++ bytesOf 8 pages ++ bytesOf 8 x.lost.length ++ bytesOf 1 (x.round.isSome.toNat + 2 * x.held.toNat) ++ bytesOf 7 0

/-- DESCRIBE. -/
def describeBody (t id : Nat) (d : Desc) (s : State) : State :=
  let cid := objOf d
  match collOf s cid with
  | none => collGone t id s
  | some x => decideEnd t id stOk ((x.index x.epochNo).length + sideLen x - tombLen x)
      (dmaWrite t (fld d 16 8) (collRecord s cid x) true s)

/-- COLLECTION by its ACTION. -/
def collectionBody (t id acc : Nat) (d : Desc) (s : State) : State :=
  match fld d 8 1 with
  | 0 => createBody t id acc d s
  | 1 => destroyBody t id d s
  | _ => describeBody t id d s

/-! ### The rows -/

/-- FLAT_SCAN_END. -/
def execFlatScanEnd (cid : Nat) (s : State) : Result := whenServing (flatScanEnd cid) s

/-- A background round starts where a threshold is crossed, or where a reset ended a round, and none runs (05 R154, R155). -/
def annealStart (cid : Nat) (s : State) : State :=
  match collOf s cid with
  | none => s
  | some x => if x.round.isNone && (annealDue s x || x.again) then tryRound cid false s else s

/-- ANNEAL_ROUND_START. -/
def execAnnealRoundStart (cid : Nat) (s : State) : Result := whenServing (annealStart cid) s

/-- ANNEAL_ROUND_COMMIT. -/
def execAnnealRoundCommit (cid : Nat) (s : State) : Result := whenServing (annealCommit cid) s

/-- EPOCH_PAGES_FREED. -/
def execEpochPagesFreed (cid epoch : Nat) (s : State) : Result := whenServing (freeEpoch cid epoch) s

end Sys2Proof.Machine
end

