-- ==== Sys2Proof/Machine/Records.lean ====
section
/-! DEFINITION. FILTER, EMBED and CHAIN (06): record regions, record-format tables, predicates, the three commands' work. -/
namespace Sys2Proof.Machine

/-! ### Record-format table (06 R178, R180) -/

/-- A field entry of Table 57. -/
structure FieldDef where
  off : Nat
  len : Nat
  typ : Nat
  col : Nat
  pad : Nat
  deriving DecidableEq, Repr

/-- A record-format table. -/
structure RecFmt where
  kind : Nat
  sep : Nat
  nfield : Nat
  recLen : Nat
  fields : List FieldDef
  deriving DecidableEq, Repr

/-- The table that bytes hold. -/
def parseFmt (l : List Byte) : RecFmt :=
  let n := numAt l 2 1
  { kind := numAt l 0 1, sep := numAt l 1 1, nfield := n, recLen := numAt l 4 4,
    fields := (List.range n).map (fun f =>
      let b := 64 + 8 * f
      ⟨numAt l b 2, numAt l (b + 2) 2, numAt l (b + 4) 1, numAt l (b + 5) 1, numAt l (b + 6) 2⟩) }

/-- The size of a numeric type; 0 for the string types (06 Table 56). -/
def typeSize (t : Nat) : Nat :=
  if 1 ≤ t ∧ t ≤ 4 then 2 ^ (t - 1) else if 5 ≤ t ∧ t ≤ 8 then 2 ^ (t - 5) else if t = 9 then 4 else if t = 10 then 8 else 0

/-- Classes of types. -/
def isSigned (t : Nat) : Bool := decide (1 ≤ t ∧ t ≤ 4)
def isUnsigned (t : Nat) : Bool := decide (5 ≤ t ∧ t ≤ 8)
def isFloat (t : Nat) : Bool := decide (t = 9 ∨ t = 10)
def isString (t : Nat) : Bool := decide (t = 11 ∨ t = 12)
def isInteger (t : Nat) : Bool := isSigned t || isUnsigned t

/-- The header of a record-format table breaks a rule (06 R180). -/
def fmtHeaderBad (l : List Byte) : Bool :=
  let k := numAt l 0 1
  let sep := numAt l 1 1
  let n := numAt l 2 1
  let rl := numAt l 4 4
  decide (1 < k) || (if k = 0 then decide (sep ≠ 0) else decide (sep = 0x0A)) || decide (n = 0 ∨ 64 < n)
  || decide (numAt l 3 1 ≠ 0) || (if k = 0 then decide (rl = 0 ∨ 65536 < rl) else decide (rl ≠ 0))
  || decide (natOf ((l.drop 8).take 56) ≠ 0)

/-- A field entry breaks a rule (06 R180). -/
def fieldBad (t : RecFmt) (f : FieldDef) : Bool :=
  decide (f.typ = 0 ∨ 12 < f.typ) || decide (f.pad ≠ 0)
  || (if t.kind = 0 then
        decide (f.col ≠ 0) || (if isString f.typ then decide (f.len = 0) else decide (f.len ≠ typeSize f.typ))
        || decide (t.recLen < f.off + f.len)
      else decide (f.off ≠ 0 ∨ f.len ≠ 0 ∨ 63 < f.col))

/-- The table byte at which the first failing entry starts (06 R185). -/
def fmtFail (l : List Byte) : Option Nat :=
  if fmtHeaderBad l then some 0
  else
    let t := parseFmt l
    ((List.range t.nfield).find? (fun i => fieldBad t (t.fields.getD i ⟨0, 0, 0, 0, 0⟩))).map (fun i => 64 + 8 * i)

/-! ### Predicate table (06 R181 to R184) -/

/-- A term of Table 58. -/
structure Term where
  field : Nat
  op : Nat
  coff : Nat
  clen : Nat
  pad : Nat
  num : Nat
  deriving DecidableEq, Repr

/-- A node of Table 58. -/
structure PNode where
  flags : Nat
  left : Nat
  right : Nat
  pad : Nat
  deriving DecidableEq, Repr

/-- A predicate table. -/
structure Pred where
  proj : Nat
  terms : List Term
  nodes : List PNode
  pool : List Byte
  deriving DecidableEq, Repr

/-- The length of a predicate table from its header. -/
def predLen (l : List Byte) : Nat := 16 + 16 * numAt l 0 1 + 4 * numAt l 1 1 + numAt l 2 2

/-- The predicate that bytes hold. -/
def parsePred (l : List Byte) : Pred :=
  let nt := numAt l 0 1
  let nn := numAt l 1 1
  { proj := numAt l 8 8,
    terms := (List.range nt).map (fun i =>
      let b := 16 + 16 * i
      ⟨numAt l b 1, numAt l (b + 1) 1, numAt l (b + 2) 2, numAt l (b + 4) 2, numAt l (b + 6) 2, numAt l (b + 8) 8⟩),
    nodes := (List.range nn).map (fun i =>
      let b := 16 + 16 * nt + 4 * i
      ⟨numAt l b 1, numAt l (b + 1) 1, numAt l (b + 2) 1, numAt l (b + 3) 1⟩),
    pool := sliceBytes l (16 + 16 * nt + 4 * nn) (numAt l 2 2) }

/-- The counts of a predicate header are in range. -/
def predCountsOk (l : List Byte) : Bool :=
  decide (1 ≤ numAt l 0 1 ∧ numAt l 0 1 ≤ 64 ∧ numAt l 1 1 ≤ 63 ∧ numAt l 2 2 ≤ 2048)

/-- The header of a predicate table breaks a rule; `out` is FILTER's OUT (06 R181, R184, R188). -/
def predHeaderBad (out nfield : Nat) (l : List Byte) : Bool :=
  let proj := numAt l 8 8
  !predCountsOk l || decide (numAt l 4 4 ≠ 0) || (if out = 2 then decide (proj = 0 ∨ 2 ^ nfield ≤ proj) else decide (proj ≠ 0))
  || decide (numAt l 1 1 = 0 ∧ numAt l 0 1 ≠ 1)

/-- A term breaks a rule (06 R181, R182, R183). -/
def termBad (t : RecFmt) (p : Pred) (m : Term) : Bool :=
  let typ := (t.fields.getD m.field ⟨0, 0, 0, 0, 0⟩).typ
  let str := isString typ && decide (m.op ≤ 7)
  decide (t.nfield ≤ m.field) || decide (0xA < m.op) || decide (m.pad ≠ 0)
  || (decide (m.op = 6 ∨ m.op = 7) && !isString typ) || (decide (m.op = 8 ∨ m.op = 9) && !isInteger typ)
  || (if str then
        decide (p.pool.length < m.coff + m.clen) || decide (m.num ≠ 0) || decide (255 < m.clen)
        || (decide (m.op = 6) && decide (m.clen = 0)) || (decide (m.op = 7) && decide (m.clen = 0 ∨ 64 < m.clen))
      else decide (m.coff ≠ 0 ∨ m.clen ≠ 0) || (decide (m.op = 0xA) && decide (m.num ≠ 0)))

/-- How often a child byte occurs among the nodes. -/
def childCount (p : Pred) (c : Nat) : Nat :=
  sumOf (p.nodes.map (fun n => (decide (n.left = c)).toNat + (decide (n.right = c)).toNat))

/-- A child of node `i` is legal: a term of the table, or a later node (06 R184). -/
def childOk (p : Pred) (i c : Nat) : Bool :=
  if 128 ≤ c then decide (c - 128 < p.terms.length) else decide (i < c ∧ c < p.nodes.length)

/-- Term `i` fails: its own rules, or it is not a child exactly once. -/
def termFails (t : RecFmt) (p : Pred) (i : Nat) : Bool :=
  termBad t p (p.terms.getD i ⟨0, 0, 0, 0, 0, 0⟩) || (!p.nodes.isEmpty && decide (childCount p (128 + i) ≠ 1))

/-- Node `i` fails. -/
def nodeFails (p : Pred) (i : Nat) : Bool :=
  let n := p.nodes.getD i ⟨0, 0, 0, 0⟩
  decide (3 < n.flags) || decide (n.pad ≠ 0) || !childOk p i n.left || !childOk p i n.right
  || (decide (0 < i) && decide (childCount p i ≠ 1))

/-- The table byte at which the first failing entry of a predicate starts (06 R185). -/
def predFail (out : Nat) (t : RecFmt) (l : List Byte) : Option Nat :=
  if predHeaderBad out t.nfield l then some 0
  else
    let p := parsePred l
    match (List.range p.terms.length).find? (termFails t p) with
    | some i => some (16 + 16 * i)
    | none => ((List.range p.nodes.length).find? (nodeFails p)).map (fun i => 16 + 16 * p.terms.length + 4 * i)

/-! ### Field values (06 R179, R183) -/

/-- A field's value. -/
inductive FVal where
  | null
  | int (i : Int)
  | flt (v : Val)
  | str (l : List Byte)
  deriving DecidableEq, Repr

/-- IEEE 754 binary64. -/
def fmtFp64 : FloatFmt := ⟨11, 52, 1023⟩

/-- Decimal digits. -/
def isDigit (b : Byte) : Bool := decide (0x30 ≤ b.toNat ∧ b.toNat ≤ 0x39)

/-- The number of a run of decimal digits. -/
def decNat (l : List Byte) : Nat := l.foldl (fun a b => 10 * a + (b.toNat - 0x30)) 0

/-- An optional sign is taken off. -/
def takeSign : List Byte → Bool × List Byte
  | [] => (false, [])
  | b :: bs => if b = 0x2D then (true, bs) else if b = 0x2B then (false, bs) else (false, b :: bs)

/-- An integer column: optional sign, 1 to 20 digits, in the type's range (06 R179). -/
def parseInt (typ : Nat) (l : List Byte) : FVal :=
  let r := takeSign l
  if r.2.isEmpty || decide (20 < r.2.length) || !r.2.all isDigit then .null
  else
    let v : Int := if r.1 then -(decNat r.2 : Int) else (decNat r.2 : Int)
    let w := 8 * typeSize typ
    let ok := if isSigned typ then decide (-(2 ^ (w - 1) : Nat) ≤ v ∧ v < (2 ^ (w - 1) : Nat)) else decide (0 ≤ v ∧ v < (2 ^ w : Nat))
    if ok then .int v else .null

/-- The rational n × 10^e as an exact value with a sticky bit, enough for one correct rounding to binary64. -/
def decimalVal (neg : Bool) (n : Nat) (e : Int) : Val :=
  if n = 0 then .num neg 0 0
  else if 0 ≤ e then .num neg (n * 10 ^ e.toNat) 0
  else
    let den := 10 ^ (-e).toNat
    let k := Nat.log2 den + 1200
    let q := n * 2 ^ k / den
    .num neg (2 * q + (decide (n * 2 ^ k % den ≠ 0)).toNat) (-(k : Int) - 1)

/-- A float column: sign, digits, fraction, exponent (06 R179). Exponents beyond every value of the type round as such. -/
def parseFloat (typ : Nat) (l : List Byte) : FVal :=
  let r := takeSign l
  let ip := r.2.takeWhile isDigit
  let r1 := r.2.dropWhile isDigit
  let frac : Option (List Byte × List Byte) := match r1 with
    | b :: bs => if b = 0x2E then (if (bs.takeWhile isDigit).isEmpty then none else some (bs.takeWhile isDigit, bs.dropWhile isDigit))
                 else some ([], b :: bs)
    | [] => some ([], [])
  match frac with
  | none => .null
  | some f =>
    let ex : Option Int := match f.2 with
      | [] => some 0
      | b :: bs => if b = 0x65 ∨ b = 0x45 then
          (let g := takeSign bs
           if g.2.isEmpty || !g.2.all isDigit then none else some (if g.1 then -(decNat g.2 : Int) else (decNat g.2 : Int)))
        else none
    match ex with
    | none => .null
    | some x =>
      if ip.isEmpty then .null
      else
        let n := decNat (ip ++ f.1)
        let e := x - f.1.length
        let top := e + ((ip ++ f.1).dropWhile (fun b => decide (b = 0x30))).length
        let fm := if typ = 9 then fmtFp32 else fmtFp64
        let v : Val := if n = 0 then .num r.1 0 0 else if 400 < top then .inf r.1 else if top < -400 then .num r.1 0 0
                       else decimalVal r.1 n e
        .flt (decodeIeee fm (encodeIeee fm .tiesToEven v))

/-- Bytes up to the first 0x00. -/
def cString (l : List Byte) : List Byte := l.takeWhile (fun b => decide (b ≠ 0))

/-- A fixed-record field's value (06 R178, R179). -/
def fixedVal (typ : Nat) (l : List Byte) : FVal :=
  if isSigned typ then .int (signedOf (8 * typeSize typ) (natOf l))
  else if isUnsigned typ then .int (natOf l : Int)
  else if typ = 9 then .flt (decodeIeee fmtFp32 (natOf l))
  else if typ = 10 then .flt (decodeIeee fmtFp64 (natOf l))
  else if typ = 12 then .str (cString l)
  else .str l

/-- A column's value. -/
def columnVal (typ : Nat) (l : List Byte) : FVal :=
  if isInteger typ then parseInt typ l else if isFloat typ then parseFloat typ l else .str l

/-- The columns of a delimited record (06 R177). -/
def columnsOf (sep : Nat) : List Byte → List (List Byte)
  | [] => [[]]
  | b :: bs =>
    let rest := columnsOf sep bs
    if b.toNat = sep then [] :: rest else (b :: rest.headD []) :: rest.drop 1

/-- The raw bytes of a field; none where a delimited record has fewer columns. -/
def rawField (t : RecFmt) (f : FieldDef) (rec : List Byte) : Option (List Byte) :=
  if t.kind = 0 then some (sliceBytes rec f.off f.len) else (columnsOf t.sep rec)[f.col]?

/-- A field's value in a record. -/
def fieldVal (t : RecFmt) (f : FieldDef) (rec : List Byte) : FVal :=
  match rawField t f rec with
  | none => .null
  | some l => if t.kind = 0 then fixedVal f.typ l else columnVal f.typ l

/-! ### Evaluation (06 R182 to R184) -/

/-- A comparison operator from less-than and equality; `ord` is false where a NaN is compared. -/
def compareOp (op : Nat) (ord lt eq : Bool) : Bool :=
  match op with
  | 0 => ord && eq
  | 1 => !(ord && eq)
  | 2 => ord && lt
  | 3 => ord && (lt || eq)
  | 4 => ord && !(lt || eq)
  | _ => ord && !lt

/-- A string begins with another. -/
def startsWith (c l : List Byte) : Bool := decide (l.take c.length = c)

/-- A constant occurs in a string. -/
def occursIn (c : List Byte) : List Byte → Bool
  | [] => c.isEmpty
  | b :: bs => startsWith c (b :: bs) || occursIn c bs

/-- Strings compare by unsigned byte; a proper prefix is less (06 R183). -/
def strLt : List Byte → List Byte → Bool
  | [], [] => false
  | [], _ :: _ => true
  | _ :: _, [] => false
  | a :: as, b :: bs => decide (a.toNat < b.toNat) || (decide (a = b) && strLt as bs)

/-- A term on a field's value. -/
def evalTerm (typ : Nat) (p : Pred) (m : Term) (v : FVal) : Bool :=
  let c := sliceBytes p.pool m.coff m.clen
  match v with
  | .null => decide (m.op = 0xA)
  | .int i =>
    let n : Int := if isSigned typ then signedOf 64 m.num else (m.num : Int)
    let w := (i % (2 ^ 64 : Nat)).toNat
    if m.op ≤ 5 then compareOp m.op true (decide (i < n)) (decide (i = n))
    else if m.op = 8 then decide (w &&& m.num = m.num)
    else if m.op = 9 then decide (w &&& m.num ≠ 0)
    else false
  | .flt x =>
    let n := decodeIeee fmtFp64 m.num
    let ord := decide (x ≠ .nan ∧ n ≠ .nan)
    if m.op ≤ 5 then compareOp m.op ord (ltVal x n) (!ltVal x n && !ltVal n x) else false
  | .str l =>
    if m.op ≤ 5 then compareOp m.op true (strLt l c) (decide (l = c))
    else if m.op = 6 then startsWith c l
    else if m.op = 7 then occursIn c l
    else false

/-- Term `i` on a record. -/
def termHolds (t : RecFmt) (p : Pred) (rec : List Byte) (i : Nat) : Bool :=
  let m := p.terms.getD i ⟨0, 0, 0, 0, 0, 0⟩
  let f := t.fields.getD m.field ⟨0, 0, 0, 0, 0⟩
  evalTerm f.typ p m (fieldVal t f rec)

/-- A child's result; children of a node come after it, so `fuel` nodes suffice. -/
def childHolds (t : RecFmt) (p : Pred) (rec : List Byte) : Nat → Nat → Bool
  | 0, _ => false
  | fuel + 1, c =>
    if 128 ≤ c then termHolds t p rec (c - 128)
    else
      let n := p.nodes.getD c ⟨0, 0, 0, 0⟩
      let a := childHolds t p rec fuel n.left
      let b := childHolds t p rec fuel n.right
      (if n.flags % 2 = 0 then a && b else a || b) != bitOf n.flags 1

/-- The predicate on a record. -/
def matchesPred (t : RecFmt) (p : Pred) (rec : List Byte) : Bool :=
  if p.nodes.isEmpty then termHolds t p rec 0 else childHolds t p rec (p.nodes.length + 1) 0

/-! ### Regions and records (06 R175 to R177, R190) -/

/-- A record of a region: offset, length, and whether its bytes could not be read. -/
structure Span where
  off : Nat
  len : Nat
  bad : Bool
  deriving DecidableEq, Repr

/-- The region of a command: volume, first block, length, first record's offset, PCHK, and the blocks whose bytes the device has met
poisoned on their way to the tiles. -/
structure Region' where
  vol : Nat
  lba : Nat
  len : Nat
  skip : Nat
  pchk : Bool
  poison : List Nat := []
  deriving DecidableEq, Repr

/-- The statuses of a region's blocks, in order. -/
def regionStatus (s : State) (r : Region') : List Byte :=
  (List.range (ceilDiv r.len 4096)).map (fun i =>
    let st := blockStatus s r.pchk r.vol (r.lba + i)
    if st = stOk ∧ i ∈ r.poison then stPoisoned else st)

/-- The status of the first block of a region that cannot be read. -/
def regionFail (sts : List Byte) : Byte := (sts.find? (fun b => b != stOk)).getD stOk

/-- The bytes of a region. -/
def regionBytes (s : State) (r : Region') : List Byte :=
  ((List.range (ceilDiv r.len 4096)).flatMap (fun i => blockBytes s r.vol (r.lba + i))).take r.len

/-- Whether any block that `[off, off + n)` touches is unreadable. -/
def touchesBad (sts : List Byte) (off n : Nat) : Bool :=
  if n = 0 then false
  else (List.range' (off / 4096) ((off + n - 1) / 4096 + 1 - off / 4096)).any (fun b => sts.getD b stOk != stOk)

/-- Records of a fixed-length region (06 R176). -/
def fixedSpans (r : Region') (recLen : Nat) (sts : List Byte) : List Span :=
  (List.range ((r.len - r.skip) / recLen)).map (fun i =>
    ⟨r.skip + i * recLen, recLen, touchesBad sts (r.skip + i * recLen) recLen⟩)

/-- Records of a delimited region: the bytes of unreadable blocks hold no delimiter, so an unread run joins what lies between
the delimiters around it (06 R177, R190). -/
def lineSpans (sts : List Byte) : List Byte → Nat → Nat → Bool → List Span
  | [], off, start, bad => if off = start then [] else [⟨start, off - start, bad⟩]
  | b :: bs, off, start, bad =>
    let unread := sts.getD (off / 4096) stOk != stOk
    if !unread && decide (b = 0x0A) then ⟨start, off - start, bad⟩ :: lineSpans sts bs (off + 1) (off + 1) false
    else lineSpans sts bs (off + 1) start (bad || unread)

/-- The records of a region, in order. -/
def spansOf (s : State) (r : Region') (t : RecFmt) : List Span :=
  let sts := regionStatus s r
  if t.kind = 0 then fixedSpans r t.recLen sts
  else lineSpans sts ((regionBytes s r).drop r.skip) r.skip r.skip false

/-- The largest delimited record that is evaluated. -/
def maxRecord : Nat := 1048576

/-- A record is overlong (06 R177). -/
def overlong (t : RecFmt) (x : Span) : Bool := decide (t.kind = 1 ∧ maxRecord < x.len)

/-- The bytes of a record. -/
def spanBytes (bytes : List Byte) (x : Span) : List Byte := sliceBytes bytes x.off x.len

/-! ### FILTER (06 R186 to R191) -/

/-- Zero padding to a multiple of `k`. -/
def padMul (k : Nat) (l : List Byte) : List Byte := l ++ List.replicate (k * ceilDiv l.length k - l.length) 0

/-- A projected item. -/
def projItem (raw : Option (List Byte)) : List Byte :=
  match raw with
  | none => bytesOf 4 (2 ^ 31)
  | some l => padMul 4 (bytesOf 4 (l.length % 2 ^ 31) ++ l)

/-- An output entry (06 R188). -/
def filterEntry (out : Nat) (t : RecFmt) (proj : Nat) (x : Span) (rec : List Byte) : List Byte :=
  let head := bytesOf 8 x.off ++ bytesOf 4 x.len ++ bytesOf 4 0
  match out with
  | 0 => head
  | 1 => padMul 16 (head ++ rec)
  | 2 => padMul 16 (head ++ ((List.range t.nfield).filter (fun f => bitOf proj f)).flatMap (fun f =>
      projItem (rawField t (t.fields.getD f ⟨0, 0, 0, 0, 0⟩) rec)))
  | _ => []

/-- What a FILTER finds. -/
structure Found where
  scanned : Nat
  overlong : Nat
  unread : Nat
  hits : List (Span × List Byte)
  deriving DecidableEq, Repr

/-- The scan of a region under a predicate. -/
def scanRegion (s : State) (r : Region') (t : RecFmt) (p : Pred) : Found :=
  let bytes := regionBytes s r
  let all := spansOf s r t
  let readable := all.filter (fun x => !x.bad)
  let eval := readable.filter (fun x => !overlong t x)
  { scanned := eval.length, overlong := readable.length - eval.length, unread := all.length - readable.length,
    hits := (eval.map (fun x => (x, spanBytes bytes x))).filter (fun e => matchesPred t p e.2) }

/-- Entries that fit in `room` bytes, in order, stopping at the first that does not. -/
def fitEntries : List (List Byte) → Nat → List (List Byte)
  | [], _ => []
  | e :: es, room => if e.length ≤ room then e :: fitEntries es (room - e.length) else []

/-- FILTER's output and summary; WRITTEN is the answer (06 R188, R189). -/
def filterOutput (t : Nat) (d : Desc) (len : Nat) (fm : RecFmt) (p : Pred) (f : Found) (s : State) : State × Nat :=
  let out := fld d 1 1 / 4 % 4
  let es := f.hits.map (fun h => filterEntry out fm p.proj h.1 h.2)
  let fit := if out = 3 then [] else fitEntries es (fld d 56 8 - 64)
  let written := fit.length
  let bytes := fit.flatten
  let next := match f.hits.drop written with
    | [] => len
    | h :: _ => h.1.off
  let summary := bytesOf 8 f.scanned ++ bytesOf 8 f.hits.length ++ bytesOf 8 written ++ bytesOf 8 f.overlong ++ bytesOf 8 f.unread
    ++ bytesOf 8 next ++ bytesOf 8 bytes.length ++ bytesOf 1 (decide (written < f.hits.length)).toNat ++ bytesOf 7 0
  let s1 := if bytes.isEmpty then s else dmaWrite t (fld d 48 8 + 64) bytes true s
  (dmaWrite t (fld d 48 8) summary true s1, written)

/-- The region of a FILTER descriptor on a volume. -/
def filterRegion (v : Nat) (d : Desc) : Region' :=
  { vol := v, lba := fld d 8 8, len := fld d 16 8, skip := fld d 24 2, pchk := bitOf (fld d 1 1) 1 }

/-- The device reads a region for a command; with PCHK = 1 a block that fails its page check is written to the event log
(06 R187, 12 R364). -/
def readRegion (t : Nat) (r : Region') (s : State) : State :=
  (List.range (ceilDiv r.len 4096)).foldl (fun s' i =>
    if blockStatus s r.pchk r.vol (r.lba + i) = stCheckMismatch
    then pageCheckEvent (blockUnit s r.vol (r.lba + i)) ((r.lba + i) % 4) s' else s')
    (touchRange t r.vol r.lba (ceilDiv r.len 4096) s)

/-- Ranges of host memory that the tables need, as far as their headers tell (06 R185). -/
def fmtNeeds (h : Held) (a : Nat) : List (Nat × Nat) :=
  if received h a 64 then
    let n := numAt (rxBytes h a 64) 2 1
    if 1 ≤ n ∧ n ≤ 64 then [(a, 64), (a + 64, 8 * n)] else [(a, 64)]
  else [(a, 64)]

def predNeeds (h : Held) (a : Nat) : List (Nat × Nat) :=
  if received h a 16 then
    let l := rxBytes h a 16
    if predCountsOk l then [(a, 16), (a + 16, predLen l - 16)] else [(a, 16)]
  else [(a, 16)]

/-- A record-format table received from a bus address. -/
def fmtBytes (h : Held) (a : Nat) : List Byte := rxBytes h a (64 + 8 * numAt (rxBytes h a 64) 2 1)

/-- A predicate table received from a bus address. -/
def predBytes (h : Held) (a : Nat) : List Byte := rxBytes h a (predLen (rxBytes h a 16))

/-- The ending of a failed table: INVALID_FIELD, BYTE_VALID 0, RESULT as R185. -/
def tableFail (t id sel byte : Nat) (s : State) : State := finish t id stInvalidField (BitVec.ofNat 64 (byte + sel * 2 ^ 32)) s

/-- The ending of a run over a region: a status that the command already ends with, else that of the region's first unread block. -/
def runStatus (st : Byte) (sts : List Byte) : Byte := if st = stOk then regionFail sts else st

/-- FILTER's work once its tables are in, with the status it already ends with, 0 for none (06 R185 to R190, R203). -/
def filterRun (t id : Nat) (st : Byte) (h : Held) (s : State) : State :=
  let d := h.desc
  let fb := fmtBytes h (fld d 32 8)
  let pb := predBytes h (fld d 40 8)
  match fmtFail fb with
  | some b => tableFail t id 0 b s
  | none =>
    let fm := parseFmt fb
    match predFail (fld d 1 1 / 4 % 4) fm pb with
    | some b => tableFail t id 1 b s
    | none =>
      let r : Region' := { filterRegion (objOf d) d with poison := h.badBlocks }
      let o := filterOutput t d r.len fm (parsePred pb) (scanRegion s r fm (parsePred pb)) (readRegion t r s)
      finish t id (runStatus st (regionStatus s r)) (BitVec.ofNat 64 o.2) o.1

/-! ### EMBED (06 R192 to R198) -/

/-- An item to embed: text, ID, ATTR. -/
structure Item where
  text : List Byte
  id : Nat
  attr : Nat
  deriving DecidableEq, Repr

/-- The header walk of text items: ranges needed, headers found, and whether one breaks a limit (06 R194). `off` is the offset
of the next header, `left` the items left. -/
def itemWalk (h : Held) (a srcLen : Nat) : Nat → Nat → List (Nat × Nat) × List (Nat × Nat × Nat × Nat) × Bool
  | 0, _ => ([], [], false)
  | left + 1, off =>
    if srcLen < off + 24 then ([], [], true)
    else if received h (a + off) 24 then
      let hd := rxBytes h (a + off) 24
      let n := numAt hd 0 4
      if 1048576 < n ∨ srcLen < off + 24 + 8 * ceilDiv n 8 then ([], [], true)
      else
        let rest := itemWalk h a srcLen left (off + 24 + 8 * ceilDiv n 8)
        ((a + off, 24) :: rest.1, (off + 24, n, numAt hd 8 8, numAt hd 16 8) :: rest.2.1, rest.2.2)
    else ([(a + off, 24)], [], false)

/-- The text ranges of items whose headers are all in. -/
def textNeeds (a : Nat) (hs : List (Nat × Nat × Nat × Nat)) : List (Nat × Nat) :=
  (hs.filter (fun e => decide (0 < e.2.1))).map (fun e => (a + e.1, e.2.1))

/-- Ranges that text items need (06 R194). -/
def itemNeeds (h : Held) (d : Desc) : List (Nat × Nat) :=
  let a := fld d 32 8
  let w := itemWalk h a (fld d 24 8) (fld d 40 4) 0
  if w.2.2 then w.1 else if w.2.1.length = fld d 40 4 then w.1 ++ textNeeds a w.2.1 else w.1

/-- The earlier of two failing table bytes (06 R185). -/
def firstByte : Option Nat → Option Nat → Option Nat
  | some a, some b => some (min a b)
  | a, b => a.or b

/-- The text items of a descriptor. -/
def textItems (h : Held) (d : Desc) : List Item :=
  let a := fld d 32 8
  (itemWalk h a (fld d 24 8) (fld d 40 4) 0).2.1.map (fun e => ⟨rxBytes h (a + e.1) e.2.1, e.2.2.1, e.2.2.2⟩)

/-- A text item runs past SRC_LEN or is too long. -/
def itemsBad (h : Held) (d : Desc) : Bool := (itemWalk h (fld d 32 8) (fld d 24 8) (fld d 40 4) 0).2.2

/-- ATTR of a record item (06 R194). -/
def attrOf (d : Desc) (t : RecFmt) (rec : List Byte) : Nat :=
  if bitOf (fld d 1 1) 5 then
    match fieldVal t (t.fields.getD (fld d 12 1) ⟨0, 0, 0, 0, 0⟩) rec with
    | .int i => (i % (2 ^ 64 : Nat)).toNat
    | _ => 0
  else 0

/-- The text of a record item; none where its FIELD is NULL (06 R194). -/
def itemText (d : Desc) (t : RecFmt) (rec : List Byte) : Option (List Byte) :=
  if bitOf (fld d 1 1) 4 then some (if t.kind = 0 then cString rec else rec)
  else match fieldVal t (t.fields.getD (fld d 11 1) ⟨0, 0, 0, 0, 0⟩) rec with
    | .str l => some l
    | _ => none

/-- The FIELD and ATTR_FIELD of an EMBED against its record-format table: the failing entry's byte (06 R193). -/
def embedFieldFail (d : Desc) (t : RecFmt) : Option Nat :=
  let f := fld d 1 1
  let typ (i : Nat) : Nat := (t.fields.getD i ⟨0, 0, 0, 0, 0⟩).typ
  let bad1 := !bitOf f 4 && (decide (t.nfield ≤ fld d 11 1) || !isString (typ (fld d 11 1)))
  let bad2 := bitOf f 5 && (decide (t.nfield ≤ fld d 12 1) || !isInteger (typ (fld d 12 1)))
  if bad1 && bad2 then some (64 + 8 * min (fld d 11 1) (fld d 12 1))
  else if bad1 then some (64 + 8 * fld d 11 1) else if bad2 then some (64 + 8 * fld d 12 1) else none

/-- Record items in order until `n` are embedded: the items, records skipped, unread, and the offset of the first record not
taken (06 R194). -/
def takeItems (d : Desc) (t : RecFmt) (bytes : List Byte) (lba len : Nat) :
    Nat → List Span → List Item × Nat × Nat × Nat
  | _, [] => ([], 0, 0, len)
  | 0, x :: _ => ([], 0, 0, x.off)
  | n + 1, x :: xs =>
    if x.bad then
      let r := takeItems d t bytes lba len (n + 1) xs
      (r.1, r.2.1, r.2.2.1 + 1, r.2.2.2)
    else if overlong t x then takeItems d t bytes lba len (n + 1) xs
    else
      let rec' := spanBytes bytes x
      match itemText d t rec' with
      | none =>
        let r := takeItems d t bytes lba len (n + 1) xs
        (r.1, r.2.1 + 1, r.2.2.1, r.2.2.2)
      | some l =>
        let r := takeItems d t bytes lba len n xs
        (⟨l, 4096 * lba + x.off, attrOf d t rec'⟩ :: r.1, r.2)

/-- The vector of an item: free FP32 words (06 R192, R195; log 10). -/
def itemVector (n i dim : Nat) : List Nat := (List.range dim).map (fun j => Config.slotOutput n i j % 2 ^ 32)

/-- A component greater than zero (06 R195). -/
def positive (w : Nat) : Bool := decide (w ≠ 0) && decide (w < 2 ^ 31) && !decide (bitsOf w 23 8 = 255 ∧ w % 2 ^ 23 ≠ 0)

/-- The code of an item: the signs of its vector, or of its projection (06 R195). -/
def itemCode (n i dOut proj w : Nat) : Nat :=
  let comp (j : Nat) : Nat := Config.slotOutput n i ((if proj = 0 then 0 else dOut) + j) % 2 ^ 32
  (List.range w).foldl (fun acc j => if positive (comp j) then acc + 2 ^ j else acc) 0

/-- Whether an item's slot vector holds a NaN. -/
def vectorNan (n i dim : Nat) : Bool := (itemVector n i dim).any (fun w => decide (bitsOf w 23 8 = 255 ∧ w % 2 ^ 23 ≠ 0))

/-- An output entry of EMBED (06 R196). -/
def embedEntryBytes (x : FnSlot) (d : Desc) (n i : Nat) (it : Item) : List Byte :=
  let f := fld d 9 1
  let tag := bytesOf 8 it.id ++ bytesOf 8 it.attr
  if f = 0xD then bytesOf (embedWidth x d / 8) (itemCode n i x.dOut (fld d 10 1) (embedWidth x d)) ++ tag
  else padTo (embedEntry x d) (tag ++ (itemVector n i x.dOut).flatMap (fun w => bytesOf (srcSize f) (encodeWord f (decodeWord 0x0 w))))

/-- What an EMBED made: its items with the number of the free values drawn for them. -/
structure Made where
  base : Nat
  items : List Item
  skipped : Nat
  unread : Nat
  next : Nat
  deriving DecidableEq, Repr

/-- Items cut at MAX_TOKENS. -/
def cutCount (x : FnSlot) (m : Made) : Nat :=
  (m.items.filter (fun it => decide (x.maxTokens < (Config.tokenise x.slot it.text).length))).length

/-- Items whose vector holds a NaN. -/
def nanCount (x : FnSlot) (m : Made) : Nat :=
  ((List.range m.items.length).filter (fun i => vectorNan m.base i x.dOut)).length

/-- The summary of Table 63. -/
def embedSummary (x : FnSlot) (m : Made) (firstOrd : Nat) : List Byte :=
  bytesOf 8 m.items.length ++ bytesOf 8 m.skipped ++ bytesOf 8 (cutCount x m) ++ bytesOf 8 (nanCount x m) ++ bytesOf 8 m.unread
    ++ bytesOf 8 m.next ++ bytesOf 6 firstOrd ++ bytesOf 10 0

/-- EMBED writes its entries, then its summary. -/
def embedOutput (t : Nat) (d : Desc) (x : FnSlot) (m : Made) (firstOrd : Nat) (s : State) : State :=
  let es := (List.range m.items.length).flatMap (fun i => embedEntryBytes x d m.base i (m.items.getD i ⟨[], 0, 0⟩))
  let s1 := if bitOf (fld d 1 1) 6 || es.isEmpty then s else dmaWrite t (fld d 48 8 + 64) es true s
  dmaWrite t (fld d 48 8) (embedSummary x m firstOrd) true s1

/-- The codes that are inserted: those without NaN, in item order (06 R197). -/
def insertRecords (x : FnSlot) (d : Desc) (m : Made) : List (Nat × Nat × Nat) :=
  ((List.range m.items.length).filter (fun i => !vectorNan m.base i x.dOut)).map (fun i =>
    let it := m.items.getD i ⟨[], 0, 0⟩
    (itemCode m.base i x.dOut (fld d 10 1) (embedWidth x d), it.id, it.attr))

/-- The slot of an EMBED descriptor. -/
def embedFn (s : State) (d : Desc) : FnSlot := (embedSlot s d).getD ⟨0, 0, 0, 0, 0, 0, [], [], [], [], [], false, []⟩

/-- The items of an EMBED over a region, under its record format; `keep` selects the records (a CHAIN takes the matches). -/
def embedRegion (s : State) (d : Desc) (r : Region') (fm : RecFmt) (keep : Span → Bool) : Made :=
  let q := takeItems d fm (regionBytes s r) r.lba r.len (fld d 40 4) ((spansOf s r fm).filter (fun x => x.bad || keep x))
  { base := draw s, items := q.1, skipped := q.2.1, unread := q.2.2.1, next := q.2.2.2 }

/-- An EMBED over items or records: output, and with INSERT = 1 the insertion; EMBEDDED, FIRST_ORD and the status are decided
here (06 R196 to R198). -/
def embedCommit (t id acc : Nat) (d : Desc) (x : FnSlot) (m : Made) (st : Byte) (s : State) : State :=
  let res := BitVec.ofNat 64 m.items.length
  if bitOf (fld d 1 1) 3 && decide (st = stOk) then
    let r := commitInsert (fld d 13 1) acc (insertRecords x d m) s
    finish t id stOk res (embedOutput t d x m r.2 r.1)
  else finish t id st res (embedOutput t d x m 0 s)

/-- EMBED's work once its inputs are in, with the status it already ends with, 0 for none: records are taken in order until NITEM are
embedded, and no block beyond them is read (06 R193 to R198, R203). -/
def embedRun (t id : Nat) (st : Byte) (h : Held) (s : State) : State :=
  let d := h.desc
  let x := embedFn s d
  if bitOf (fld d 1 1) 2 then
    if itemsBad h d then finish t id stLength 0 s
    else embedCommit t id h.acceptNo d x ⟨draw s, textItems h d, 0, 0, 0⟩ st (drawn 1 s)
  else
    let fb := fmtBytes h (fld d 32 8)
    match firstByte (fmtFail fb) (embedFieldFail d (parseFmt fb)) with
    | some b => tableFail t id 0 b s
    | none =>
      let r : Region' := { vol := objOf d, lba := fld d 16 8, len := fld d 24 8, skip := fld d 14 2, pchk := bitOf (fld d 1 1) 1,
                           poison := h.badBlocks }
      let m := embedRegion s d r (parseFmt fb) (fun _ => true)
      let taken := { r with len := m.next }
      embedCommit t id h.acceptNo d x m (runStatus st (regionStatus s taken)) (drawn 1 (readRegion t taken s))

/-! ### CHAIN (06 R199 to R202) -/

/-- The stage descriptors of a CHAIN. -/
def stageDesc (h : Held) (i : Nat) : Desc := BitVec.ofNat 512 (natOf (rxBytes h (fld h.desc 16 8 + 64 * i) 64))

/-- Rows of a stage: its opcode, its reserved bits, then its rows in ascending byte order. -/
def stageRows (op : Nat) (d : Desc) (rows : List Row) : List Row :=
  invalid (decide (fld d 0 1 ≠ op)) 0
  :: sortBy (fun a b => decide (a.byte < b.byte)) (invalid (reservedByte d).isSome ((reservedByte d).getD 0) :: rows)

/-- The rows of stage A (06 R200, R201). -/
def stageRowsA (s : State) (t : Nat) (h : Held) : List Row :=
  let c := h.desc
  let a := stageDesc h 0
  if fld c 8 1 = 0 then stageRows 0x30 a (invalid (decide (objOf a ≠ objOf c)) 4 :: filterRows s a)
  else
    stageRows 0x31 a (invalid (!bitOf (fld a 1 1) 2 || bitOf (fld a 1 1) 3) 1 :: invalid (decide (objOf a ≠ 0)) 4
      :: invalid (decide (fld a 9 1 ≠ 0xD)) 9 :: invalid (decide (fld a 40 4 = 0 ∨ 32 < fld a 40 4)) 40 :: embedRows s t true a)

/-- The rows of stage B (06 R200, R201). -/
def stageRowsB (s : State) (t : Nat) (h : Held) : List Row :=
  let c := h.desc
  let a := stageDesc h 0
  let b := stageDesc h 1
  let y := (collOf s (objOf c)).getD {}
  if fld c 8 1 = 0 then
    stageRows 0x31 b (invalid (bitOf (fld b 1 1) 2 || !bitOf (fld b 1 1) 3) 1 :: invalid (decide (objOf b ≠ 0)) 4
      :: invalid (decide (fld b 9 1 ≠ 0xD)) 9 :: invalid (decide (fld b 32 8 ≠ 0)) 32 :: embedRows s t false b)
  else
    stageRows 0x20 b (invalid (decide (objOf b ≠ objOf c ∨ codeBits y.width ≠ embedWidth (embedFn s a) a)) 4
      :: invalid (decide (fld b 10 1 ≠ fld a 40 4)) 10 :: invalid (decide (fld b 24 8 ≠ 0)) 24 :: searchRows y b)

/-- The first failing check of stage A: status and byte offset from PARAM_ADDR (06 R199). -/
def stageFailA (s : State) (t : Nat) (h : Held) : Option (Byte × Nat) :=
  (firstBad (stageRowsA s t h)).map (fun r => (r.code, r.byte))

/-- The first failing check of stage B; the last is the capacity that form 0 needs, which the reservation made when the stages were read
answers (06 R199, R200, 01 R31). -/
def stageFailB (s : State) (t : Nat) (h : Held) : Option (Byte × Nat) :=
  match firstBad (stageRowsB s t h) with
  | some r => some (r.code, 64 + r.byte)
  | none =>
    if fld h.desc 8 1 = 0 ∧ h.resv.isNone = true then some (if mediaWorn s then stMediaWorn else stCapacity, 64 + 40) else none

/-- Ranges of host memory that a CHAIN needs, as far as it can tell. -/
def chainNeeds (s : State) (t : Nat) (h : Held) : List (Nat × Nat) :=
  let p := fld h.desc 16 8
  if received h p 128 then
    if (stageFailA s t h).isSome then [(p, 128)]
    else
      let a := stageDesc h 0
      (p, 128) :: (if fld h.desc 8 1 = 0 then fmtNeeds h (fld a 32 8) ++ predNeeds h (fld a 40 8) else itemNeeds h a)
  else [(p, 128)]

/-- Ranges of host memory that a held command needs before its work, as far as it can tell. -/
def needsOf (s : State) (t : Nat) (h : Held) : List (Nat × Nat) :=
  let d := h.desc
  match h.op with
  | 0x30 => fmtNeeds h (fld d 32 8) ++ predNeeds h (fld d 40 8)
  | 0x31 => if bitOf (fld d 1 1) 2 then itemNeeds h d else fmtNeeds h (fld d 32 8)
  | 0x32 => chainNeeds s t h
  | _ => []

/-- The device issues the reads of the ranges it now needs and has not asked for (06 R185, R199). -/
def issueNeeds (t id : Nat) (s : State) : State :=
  match heldOf s t id with
  | none => s
  | some h =>
    if h.undecided && h.reads.isEmpty then
      ((needsOf s t h).filter (fun r => !received h r.1 r.2)).foldl (fun s' r => issueRead t id r.1 r.2 s') s
    else s

/-- Every range a command needs is in. -/
def needsMet (s : State) (t : Nat) (h : Held) : Bool := inputsIn h && (needsOf s t h).all (fun r => received h r.1 r.2)

/-- Both stages of a CHAIN have been read. -/
def stagesIn (h : Held) : Bool := received h (fld h.desc 16 8) 128

/-- RESULT of a failed table of a CHAIN. -/
def tableAt (sel byte : Nat) : Byte × Nat := (stInvalidField, byte + sel * 2 ^ 32)

/-- The first failing check of a CHAIN whose inputs are in, in stage order, with its RESULT: stage A and its tables, then stage B and its
fields against the record format (06 R199, R185, R194). -/
def chainFail (s : State) (t : Nat) (h : Held) : Option (Byte × Nat) :=
  let a := stageDesc h 0
  let fb := fmtBytes h (fld a 32 8)
  let tablesA : Option (Byte × Nat) :=
    if fld h.desc 8 1 = 0 then
      ((fmtFail fb).map (tableAt 1)).or ((predFail (fld a 1 1 / 4 % 4) (parseFmt fb) (predBytes h (fld a 40 8))).map (tableAt 2))
    else if itemsBad h a then some (stLength, 0) else none
  let tablesB : Option (Byte × Nat) :=
    if fld h.desc 8 1 = 0 then (embedFieldFail (stageDesc h 1) (parseFmt fb)).map (tableAt 1) else none
  (((stageFailA s t h).or tablesA).or (stageFailB s t h)).or tablesB

/-- Form 0 past its checks: filter, embed, insert, all or nothing, with the status it already ends with, 0 for none (06 R200, R202). -/
def chainFilter (t id : Nat) (st0 : Byte) (h : Held) (s : State) : State :=
  let a := stageDesc h 0
  let b := stageDesc h 1
  let fm := parseFmt (fmtBytes h (fld a 32 8))
  let r : Region' := { filterRegion (objOf a) a with poison := h.badBlocks }
  let p := parsePred (predBytes h (fld a 40 8))
  let f := scanRegion s r fm p
  let x := embedFn s b
  let bad := slotUnreadable s x
  let st1 := runStatus st0 (regionStatus s r)
  let st := if st1 = stOk ∧ bad = true then stMediaError else st1
  let m := if bad then ⟨draw s, [], 0, 0, 0⟩ else embedRegion s b r fm (fun y => f.hits.any (fun q => decide (q.1 = y)))
  let o := filterOutput t a r.len fm p f (drawn 1 (readRegion t r s))
  if st ≠ stOk then finish t id st 0 (embedOutput t b x m 0 o.1)
  else
    let q := commitInsert (fld b 13 1) h.acceptNo (insertRecords x b m) o.1
    finish t id stOk (BitVec.ofNat 64 m.items.length) (embedOutput t b x m q.2 q.1)

/-- A search that ends early with a status that keeps RESULT (05 Table 54): the blocks of the queries as they stand, a query that has not
ended counting as short, and RESULT by R164. Where the queries never stood ready, a SEARCH writes NQ empty blocks and a CHAIN, whose
search then has not begun, none (06 R202; DESIGN CHOICE, log 97). -/
def searchStop (t id : Nat) (st : Byte) (h : Held) (s : State) : State :=
  match h.search with
  | none => finish t id st 0 s
  | some r =>
    let d := searchDesc h
    let r1 := if r.loaded then r else { r with queries := List.replicate (fld d 10 1) { code := 0, cand := 0 } }
    finish t id (worse r.lost st) (BitVec.ofNat 64 (searchResult d r1)) (if h.op = 0x20 ∨ r.loaded = true then searchBlocks t d r1 s else s)

/-- Form 1, stage A past its checks: the items are embedded and become the queries of stage B (06 R201). -/
def chainEmbed (t id : Nat) (h : Held) (r : SearchRec) (s : State) : State :=
  let a := stageDesc h 0
  if slotUnreadable s (embedFn s a) then searchStop t id stMediaError h s
  else
    let x := embedFn s a
    let m : Made := ⟨draw s, textItems h a, 0, 0, 0⟩
    let codes := (List.range m.items.length).map (fun i => itemCode m.base i x.dOut (fld a 10 1) (embedWidth x a))
    loadQueries t id r (fld (stageDesc h 1) 16 4) codes (embedOutput t a x m 0 (drawn 1 s))

/-- CHAIN's work once its inputs are in: the checks, then the stages (06 R199 to R202). -/
def chainRun (t id : Nat) (st : Byte) (h : Held) (s : State) : State :=
  if fld h.desc 8 1 = 1 ∧ ((h.search.map (·.loaded)).getD false) = true then
    if st = stOk then graphRun t id h s else searchStop t id st h s
  else match chainFail s t h with
    | some f => finish t id f.1 (BitVec.ofNat 64 f.2) s
    | none =>
      if fld h.desc 8 1 = 0 then chainFilter t id st h s
      else if st = stOk then (match h.search with
        | some r => chainEmbed t id h r s
        | none => s)
      else searchStop t id st h s

/-- The embed stage of a CHAIN. -/
def embedStage (h : Held) : Desc := stageDesc h (if fld h.desc 8 1 = 0 then 1 else 0)

/-- What form 0 reserves where stage B's checks hold: the pages and codes of NITEM insertions (01 R31, 06 R200). -/
def chainResv (s : State) (t : Nat) (h : Held) : Option Resv :=
  let b := stageDesc h 1
  let q := insertResv s (fld b 13 1) (fld b 40 4)
  if fld h.desc 8 1 = 0 ∧ (firstBad (stageRowsB s t h)).isNone = true ∧ mediaWorn s = false
      ∧ (codesFit s q.coll q.codes && pagesFit s q.tenant q.pages && keptFit s q.tenant q.pages) = true
  then some q else none

/-- The stages of a CHAIN have been read: form 0 reserves what its insertion needs (01 R31) and its lock entry covers its collection too
(06 R202), and the embed stage's tiles are placed beside the other stage's (07 Table 74). -/
def chainStages (t id : Nat) (s : State) : State :=
  match heldOf s t id with
  | none => s
  | some h =>
    if h.op = 0x32 ∧ stagesIn h = true ∧ h.applied = false then
      let q := chainResv s t h
      let s1 := modHeld t id (fun (y : Held) => { y with applied := true, resv := q }) s
      let c := LockRange.coll (fld (stageDesc h 1) 13 1)
      let s2 : State := if fld h.desc 8 1 = 0 then
          { s1 with cmd := { s1.cmd with locks := s1.cmd.locks.map (fun (l : Lock) =>
              if l.id = id then { l with ranges := l.ranges ++ [c] } else l) } }
        else s1
      if (stageFailA s t h).isNone ∧ (firstBad (stageRowsB s t h)).isNone = true
      then placeJobs allCores 3 t id (tenantOf s t) (fld (embedStage h) 40 4) (embedSlot s (embedStage h)) s2 else s2
    else s

/-- An earlier accepted command holds a conflicting range. -/
def blocked (s : State) (h : Held) : Bool :=
  match s.cmd.locks.find? (fun l => l.id == h.id) with
  | none => false
  | some m => s.cmd.locks.any (fun l => decide (l.acceptNo < m.acceptNo) && locksConflict l m)

/-- The write buffer has room for what an insertion of a held command would write; a CHAIN that fails a check inserts nothing. -/
def insertRoom (s : State) (t : Nat) (h : Held) : Bool :=
  let d := if h.op = 0x32 then stageDesc h 1 else h.desc
  if h.op = 0x31 ∧ bitOf (fld d 1 1) 3 = true ∨ h.op = 0x32 ∧ fld h.desc 8 1 = 0 ∧ (chainFail s t h).isNone = true then
    bufferRoom s (4 * (fld d 40 4 / sidePer (getColl s (fld d 13 1)).width + 2))
  else true

/-- The run of FILTER, EMBED or CHAIN, with the status it already ends with, 0 for none. -/
def recordsRun (t id : Nat) (st : Byte) (h : Held) (s : State) : State :=
  match h.op with
  | 0x30 => filterRun t id st h s
  | 0x31 => embedRun t id st h s
  | _ => chainRun t id st h s

/-- FILTER, EMBED and CHAIN finish once every range they need is in; a CHAIN of form 0 waits while an earlier command holds its collection
against it (03 R85). -/
def recordsFinish (t id : Nat) (h : Held) (s : State) : State :=
  if needsMet s t h then
    if blocked s h || !insertRoom s t h then s else recordsRun t id stOk h s
  else issueNeeds t id s

/-- FILTER, EMBED or CHAIN ends early with a status that keeps its RESULT and summary (06 Table 65): with its inputs in, it runs over what
is readable; without them nothing has been evaluated, and the summary says so (DESIGN CHOICE, log 97). -/
def recordsStop (t id : Nat) (st : Byte) (h : Held) (s : State) : State :=
  if needsMet s t h then recordsRun t id st h s
  else
    let d := h.desc
    match h.op with
    | 0x30 => finish t id st 0 (filterOutput t d (fld d 16 8) ⟨0, 0, 0, 0, []⟩ ⟨0, [], [], []⟩ ⟨0, 0, 0, []⟩ s).1
    | 0x31 => finish t id st 0 (embedOutput t d (embedFn s d) ⟨0, [], 0, 0, if bitOf (fld d 1 1) 2 then 0 else fld d 14 2⟩ 0 s)
    | _ => searchStop t id st h s

end Sys2Proof.Machine
end

