-- ==== Sys2Proof/Machine/Endings.lean ====
section
/-! DEFINITION. Endings that every command shares (03 R76, R82, R92, R93): what a stopped command has applied, and how it is reported. -/
namespace Sys2Proof.Machine

/-! ### Endings of every command (03 R76, R82, R92, R93) -/

/-- A held command ends with a status and a result. -/
def endCommand (quiet : Bool) (t id : Nat) (st : Byte) (res : BitVec 64) (s : State) : State :=
  match heldOf s t id with
  | none => s
  | some h =>
    if h.ended then s
    else if h.op = 0x13 ∧ h.step.isSome then attendEndWith quiet t id st s
    else freeRegions t id .stage (finishWith none quiet t id st res s)

/-- What a command that is stopped has applied: a WRITE's longest prefix of whole blocks enters the volume; RESULT of the others
follows their endings tables (03 R92, R93, 04 Table 45). -/
def applyStopped (t : Nat) (h : Held) (s : State) : State × Nat :=
  match h.op with
  | 0x02 =>
    if h.applied then (s, fld h.desc 16 4)
    else if h.phase = .running then
      let n := writtenPrefix h 0 (fld h.desc 16 4)
      (applyWrite t h n s, n)
    else (s, 0)
  | 0x15 => if h.phase = .running then
      match ctxOf s (objOf h.desc) with
      | none => (s, 0)
      | some c => (s, warmPlaced s (warmOwners c.shape (handleIdx (objOf h.desc)) h.desc))
    else (s, 0)
  | _ => (s, 0)

/-- A command whose ending is not decided stops with a status. -/
def stopCommand (t id : Nat) (st : Byte) (s : State) : State :=
  match heldOf s t id with
  | none => s
  | some h =>
    if h.undecided then
      let r := applyStopped t h s
      decideEnd t id st r.2 r.1
    else s

/-- A decided ending is reported. -/
def reportDecided (quiet : Bool) (t id : Nat) (s : State) : State :=
  match (heldOf s t id).bind (·.ending) with
  | none => s
  | some e => endCommand quiet t id e.status e.result s

/-- A command meets poison, or weights that cannot be read, as it runs, and ends with the status at once: a search and the commands of 06
keep the RESULT and summary of their tables, a step ends with its completion word, a WRITE keeps its prefix (04 R132, 05 Table 54, 06 Table
65, 07 R220, 12 Table 112). -/
def mediaStop (t id : Nat) (st : Byte) (s : State) : State :=
  match heldOf s t id with
  | none => s
  | some h =>
    if !h.undecided then s
    else match h.op with
      | 0x13 => attendEnd t id st s
      | 0x20 => searchStop t id st h s
      | 0x30 | 0x31 | 0x32 => recordsStop t id st h s
      | _ => reportDecided false t id (stopCommand t id st s)

/-- Every held command of a TRS that has not ended is stopped and reported. -/
def stopAll (quiet : Bool) (st : Byte) (t : Nat) (s : State) : State :=
  let ids := ((getTrs s t).held.filter (fun h => !h.ended)).map (·.id)
  ids.foldl (fun s' id => reportDecided quiet t id (stopCommand t id st s')) s

end Sys2Proof.Machine
end

