-- ==== Sys2Proof/Machine/Fabric.lean ====
section
/-! DEFINITION. The engine as its tile's instructions drive it (01 R18, R19, 07 R204 to R214, R217, R224, 08 R256 to R261, 09 R271 to R275):
memories and transfers, the array with its registers and accumulator file, the vector unit, the scaling stages and the outputs. The engine
instruction encoding is not published (07); the operations arrive with the rows that run a tile (log 10). -/
namespace Sys2Proof.Machine

/-! ### Where a tile runs -/

/-- A partition of an engine of a core. -/
structure Seat where
  core : Nat
  eng : Nat
  part : Nat
  deriving DecidableEq, Repr

/-- The partition of a seat. -/
def partAt (s : State) (q : Seat) : Part := (getEngine s q.core q.eng).parts.getD q.part {}

/-- Changes the partition of a seat. -/
def modPart (q : Seat) (f : Part → Part) (s : State) : State :=
  modCore q.core (modEngine q.eng (fun (g : Engine) => { g with parts := g.parts.modify q.part f })) s

/-- The job that a tile belongs to. -/
def jobOf (c : Core) (jid : Nat) : Option Job := c.jobs.find? (fun j => j.jid == jid)

/-- The job of the tile at a seat. -/
def jobAt (s : State) (q : Seat) : Option Job := ((partAt s q).tile).bind (fun x => jobOf (getCore s q.core) x.job)

/-- The slot of the tile at a seat. -/
def slotAt (s : State) (q : Seat) : Option FnSlot := (jobAt s q).bind (fun j => slotOf s j.slot)

/-- The shape of the tile of a partition; full where it has none. -/
def shapeOf (p : Part) : Nat := (p.tile.map (·.shape)).getD 0

/-! ### Shapes and modes (07 R207, R214, R217, Table 67) -/

/-- Partitions of a shape: 0 full, 1 halves, 2 quadrants, 3 FP16, 4 B1 (14 R419). -/
def partsOf (shape : Nat) : Nat := if shape = 1 then 2 else if shape = 2 then 4 else 1

/-- Rows that a partition of a shape has; in FP16, of 2 × 2 cell groups. -/
def rowsOf (shape : Nat) : Nat := if shape = 2 ∨ shape = 3 then 16 else 32

/-- Cell columns of a partition of a shape; in FP16, of groups. -/
def colsOf (shape : Nat) : Nat := if shape = 0 ∨ shape = 4 then 32 else 16

/-- Accumulator entries and vector registers that a partition names: partitions that share rows share their entries, and all share the
register file, in equal parts (DESIGN CHOICE, log 98). -/
def entriesOf (shape : Nat) : Nat := if shape = 1 ∨ shape = 2 then 16 else 32
def vregsOf (shape : Nat) : Nat := 128 / partsOf shape

/-- The modes of the array. -/
inductive ArrayMode where
  | eight
  | four
  | half
  | binary
  deriving DecidableEq, Repr

/-- The mode of a format; none for those the array does not compute in (07 R208). -/
def modeOf : Nat → Option ArrayMode
  | 0x3 | 0x4 | 0x5 | 0x6 | 0x8 | 0x9 | 0xA => some .eight
  | 0x7 | 0xB => some .four
  | 0x1 | 0x2 => some .half
  | 0xD => some .binary
  | _ => none

/-- A shape admits a mode (07 R214). -/
def shapeTakes (shape : Nat) : ArrayMode → Bool
  | .eight | .four => decide (shape ≤ 2)
  | .half => decide (shape = 3)
  | .binary => decide (shape = 4)

/-- Two formats may meet in a pass: the same, or one of the mixes of 07 R207. -/
def formatsPair (w x : Nat) : Bool :=
  decide (modeOf w = modeOf x) && (decide (w = x) || decide (modeOf w = some .half) || (decide (modeOf w = some .eight) && isMx w == isMx x))

/-- Inputs of an issue in a shape and mode (07 Table 67). -/
def inputsOf (shape : Nat) : ArrayMode → Nat
  | .eight | .half => colsOf shape
  | .four => 2 * colsOf shape
  | .binary => 2048

/-! ### Memories (01 R19, 07 R204, R220, 12 R376) -/

/-- Poisoned lines among those that `[a, a + n)` touches. -/
def anyBad (bad : SMap Bool) (a n : Nat) : Bool := (linesOf a n).any (fun l => SMap.find false bad l)

/-- The poison marks after a write of `n` bytes at `a`: poisoned data mark every line, other data clear the lines written whole (12 R376). -/
def markWrite (bad : SMap Bool) (a n : Nat) (poison : Bool) : SMap Bool :=
  (linesOf a n).foldl (fun m l =>
    if poison then SMap.put false m l true else if a ≤ 64 * l ∧ 64 * l + 64 ≤ a + n then SMap.put false m l false else m) bad

/-- The function scratch pages of a command in a stack, by frame (01 R30). -/
def scratchFrames (s : State) (t id st : Nat) : List Nat :=
  (s.tier.frames.filter (fun f => decide (f.kind = .scratch t id ∧ f.stack = st))).map (·.fid)

/-- A tier page lies in a stack: its T1 home, or a filled frame of it. -/
def pageIn (s : State) (k st : Nat) : Bool :=
  ((pageAt s k).map (fun p => match p.home with
    | .t1 x _ => decide (x = st)
    | _ => false)).getD false
  || s.tier.frames.any (fun f => f.page == k && f.filled && f.stack == st)

/-- `n` bytes at a place, and whether they carry poison; none where the tile at the seat does not reach them (01 R19). -/
def readPlace (s : State) (q : Seat) (n : Nat) : Place → Option (List Byte × Bool)
  | .scratchpad a =>
    let g := getEngine s q.core q.eng
    let p := partAt s q
    if a + n ≤ (p.tile.map (·.live)).getD 0 then some (SMap.getList 0 g.scratchpad (p.base + a) n, anyBad g.bad (p.base + a) n) else none
  | .sram a =>
    let c := getCore s q.core
    match jobAt s q with
    | none => none
    | some j => if a + n ≤ j.sram then some (SMap.getList 0 c.sram (j.base + a) n, anyBad c.badSram (j.base + a) n) else none
  | .scratch i off =>
    let c := getCore s q.core
    match (jobAt s q).bind (fun j => (scratchFrames s j.trs j.id q.core)[i]?) with
    | none => none
    | some f => if off + n ≤ 65536 then some (SMap.getList 0 c.scratch (f * 65536 + off) n, anyBad c.badScratch (f * 65536 + off) n) else none
  | .tier k off =>
    if pageIn s k q.core && decide (off + n ≤ 65536) then
      some (sliceBytes (pageBytes s k) off n, decide ((pageAt s k).map (·.state) = some DataState.poisoned))
    else none

/-- The lines of a place that `n` bytes touch, as a tile declares them. -/
def placeLines (n : Nat) : Place → List (Nat × Nat)
  | .scratchpad a => (linesOf a n).map (fun l => (0, l))
  | .sram a => (linesOf a n).map (fun l => (1, l))
  | .scratch i off => (linesOf (i * 65536 + off) n).map (fun l => (2, l))
  | .tier _ _ => []

/-- Stack DRAM bytes that the tile at a seat reads or writes at a place; the device's own work counts toward no TRS (16 R465, Table 145). -/
def countDram (q : Seat) (n : Nat) (p : Place) (s : State) : State :=
  match p, jobAt s q with
  | .scratch _ _, some j => if j.trs = deviceTrs then s else addCurrent j.trs (fun c => { c with dram := c.dram + BitVec.ofNat 64 n }) s
  | .tier _ _, some j => if j.trs = deviceTrs then s else addCurrent j.trs (fun c => { c with dram := c.dram + BitVec.ofNat 64 n }) s
  | _, _ => s

/-- Bytes are written at a place that the tile reaches; tier pages are only read. -/
def writePlace (q : Seat) (bytes : List Byte) (poison : Bool) (dst : Place) (s : State) : State :=
  let n := bytes.length
  let note (x : State) : State := modPart q (fun (p : Part) => { p with wrote := dedup (p.wrote ++ placeLines n dst) }) x
  match dst with
  | .scratchpad a =>
    let p := partAt s q
    if a + n ≤ (p.tile.map (·.live)).getD 0 then
      note (modCore q.core (modEngine q.eng (fun (g : Engine) => { g with
        scratchpad := SMap.putList 0 g.scratchpad (p.base + a) bytes, bad := markWrite g.bad (p.base + a) n poison })) s)
    else s
  | .sram a =>
    match jobAt s q with
    | none => s
    | some j => if a + n ≤ j.sram then
        note (modCore q.core (fun (c : Core) => { c with
          sram := SMap.putList 0 c.sram (j.base + a) bytes, badSram := markWrite c.badSram (j.base + a) n poison }) s)
      else s
  | .scratch i off =>
    match (jobAt s q).bind (fun j => (scratchFrames s j.trs j.id q.core)[i]?) with
    | none => s
    | some f => if off + n ≤ 65536 then
        countDram q n dst <| note (modCore q.core (fun (c : Core) => { c with
          scratch := SMap.putList 0 c.scratch (f * 65536 + off) bytes, badScratch := markWrite c.badScratch (f * 65536 + off) n poison }) s)
      else s
  | .tier _ _ => s

/-- The tile at a seat has read poison: it ends with POISONED at its boundary (07 R220). -/
def sawPoison (q : Seat) (poison : Bool) (s : State) : State :=
  if poison then modPart q (fun (p : Part) => { p with poisoned := true }) s else s

/-- The tile reads its scratchpad for `f`; a read outside its extent does nothing. -/
def withScratch (q : Seat) (a n : Nat) (f : List Byte → State → State) (s : State) : State :=
  match readPlace s q n (.scratchpad a) with
  | none => s
  | some r => f r.1 (sawPoison q r.2 s)

/-! ### Transfers and credits (07 R205, R232, R238) -/

/-- Flits of a transfer, one credit each. -/
def flitsOf (x : Transfer) : Nat := ceilDiv x.n 256

/-- Credits that an engine holds. -/
def creditsOf (e : Engine) : Nat := sumOf (e.parts.map (fun p => sumOf (p.flight.map flitsOf)))

/-- The most credits of an engine. -/
def maxCredits : Nat := 32

/-- A transfer completes. -/
def completeMove (q : Seat) (x : Transfer) (s : State) : State :=
  match readPlace s q x.n x.src with
  | none => s
  | some r => writePlace q r.1 r.2 x.dst (sawPoison q r.2 (countDram q x.n x.src s))

/-- The transfers of a partition complete in the order in which they began, and their credits return. -/
def drainPart (q : Seat) (s : State) : State :=
  ((partAt s q).flight).foldl (fun s' x => completeMove q x s') (modPart q (fun (p : Part) => { p with flight := [] }) s)

/-- Every transfer of an engine completes. -/
def drainEngine (core eng : Nat) (s : State) : State := (List.range 4).foldl (fun s' i => drainPart ⟨core, eng, i⟩ s') s

/-- A place `k` bytes further on. -/
def placeAt (k : Nat) : Place → Place
  | .scratchpad a => .scratchpad (a + k)
  | .sram a => .sram (a + k)
  | .scratch i off => .scratch i (off + k)
  | .tier i off => .tier i (off + k)

/-- A transfer of at most 8 KiB starts once its credits are free; earlier transfers complete to free them. -/
def startMove (q : Seat) (x : Transfer) (s : State) : State :=
  let s1 := if creditsOf (getEngine s q.core q.eng) + flitsOf x ≤ maxCredits then s else drainEngine q.core q.eng s
  modPart q (fun (p : Part) => { p with flight := p.flight ++ [x] }) s1

/-- A transfer, as pieces of at most the 8 KiB that 32 credits cover. -/
def moveBytes (q : Seat) (src dst : Place) (n : Nat) (s : State) : State :=
  (pieces 8192 (n / 8192 + 2) 0 n).foldl (fun s' r => startMove q ⟨placeAt r.1 src, placeAt r.1 dst, r.2⟩ s') s

/-- One more function scratch page for the command of the tile, in its own stack, where its tenant has room for the frame (01 R30, 10 R293,
Table 86). -/
def claimPage (q : Seat) (s : State) : State :=
  match jobAt s q with
  | none => s
  | some j =>
    let r := placeFrame q.core j.tenant 1 s
    match r.2 with
    | none => s
    | some ch => { r.1 with tier := { r.1.tier with
        frames := r.1.tier.frames ++ [{ fid := r.1.tier.nextFrame, page := 2 ^ 64, kind := .scratch j.trs j.id, stack := q.core, chan := ch,
                                        tenant := j.tenant, placed := true, filled := true }],
        nextFrame := r.1.tier.nextFrame + 1 } }

/-! ### The array's registers (07 R206, R210 to R212) -/

/-- Element `i` of a run of `b`-bit elements. -/
def elemAt (bytes : List Byte) (b i : Nat) : Nat := natOf bytes / 2 ^ (b * i) % 2 ^ b

/-- The 64 bits that a cell of a partition receives of a set of elements `el row column`. -/
def cellWord (shape : Nat) (m : ArrayMode) (el : Nat → Nat → Nat) (r c : Nat) : Nat :=
  match m with
  | .eight => if r < rowsOf shape ∧ c < colsOf shape then el r c else 0
  | .four => if r < rowsOf shape ∧ c < colsOf shape then el r (2 * c) + 16 * el r (2 * c + 1) else 0
  | .half => if r % 2 = 0 ∧ c % 2 = 0 then el (r / 2) (c / 2) else 0
  | .binary => (List.range 64).foldl (fun v i => v + el r (64 * c + i) * 2 ^ i) 0

/-- The registers of 32 × 32 cells, from `f row column`. -/
def cellRegs (f : Nat → Nat → Nat) : SMap (BitVec 32) :=
  SMap.putList 0 [] 0 ((List.range 32).flatMap (fun r => (List.range 32).map (fun c => BitVec.ofNat 32 (f r c))))

/-- The elements of a stationary set's row-major packing. -/
def packedEl (shape fmt : Nat) (m : ArrayMode) (bytes : List Byte) (r j : Nat) : Nat := elemAt bytes (fmtBits fmt) (r * inputsOf shape m + j)

/-- Scale codes of a row in an issue: one for each run of 32 inputs (08 R256). -/
def portionsOf (shape : Nat) (m : ArrayMode) : Nat := ceilDiv (inputsOf shape m) 32

/-- A reload writes a set into the shadow registers; a B1 set fills both registers of each cell, and its pass begins (07 R210, R212). -/
def loadSet (shape fmt : Nat) (m : ArrayMode) (bytes scales : List Byte) (p : Part) : Part :=
  let el := packedEl shape fmt m bytes
  let word := cellWord shape m el
  let set (f : Nat → Nat → Nat) : CellSet := { fmt := fmt, cells := cellRegs f, scales := scales.map (·.toNat) }
  match m with
  | .binary => { p with working := set (fun r c => word r c % 2 ^ 32), shadow := set (fun r c => word r c / 2 ^ 32), passRunning := true, token := false }
  | _ => { p with shadow := set word, shadowReady := true }

/-- The bytes that a set, and its scale codes, take in the scratchpad. -/
def setBytes (shape fmt : Nat) (m : ArrayMode) : Nat := ceilDiv (fmtBits fmt * rowsOf shape * inputsOf shape m) 8
def scaleBytes (shape fmt : Nat) (m : ArrayMode) : Nat := if isMx fmt then rowsOf shape * portionsOf shape m else 0

/-- The reload port reads a set. -/
def reloadNow (q : Seat) (a scales fmt : Nat) (s : State) : State :=
  let shape := shapeOf (partAt s q)
  match modeOf fmt with
  | none => s
  | some m =>
    if shapeTakes shape m then
      withScratch q a (setBytes shape fmt m) (fun bytes s1 =>
        withScratch q scales (scaleBytes shape fmt m) (fun sc s2 => modPart q (loadSet shape fmt m bytes sc) s2) s1) s
    else s

/-- A reload; one asked for before the pending swap waits for it (07 R212). -/
def reload (q : Seat) (a scales fmt : Nat) (s : State) : State :=
  if (partAt s q).shadowReady then modPart q (fun (p : Part) => { p with queued := p.queued ++ [(a, scales, fmt)] }) s
  else reloadNow q a scales fmt s

/-- A swap can take place: the reload is complete and the retirement token of the last pass has arrived (07 R211). -/
def canSwap (p : Part) : Bool := p.shadowReady && (p.token || !p.passRunning)

/-- The shadow registers become the working registers, the next pass may issue, and a waiting reload starts (07 R211, R212). -/
def swapSets (q : Seat) (s : State) : State :=
  let p := partAt s q
  if canSwap p then
    let s1 := modPart q (fun (p : Part) => { p with working := p.shadow, shadowReady := false, token := false, passRunning := true,
                                                    queued := p.queued.drop 1 }) s
    match p.queued with
    | [] => s1
    | r :: _ => reloadNow q r.1 r.2.1 r.2.2 s1
  else s

/-! ### Issues and the accumulator file (07 R206, R213, R217, 08 R256 to R260) -/

/-- The element of a working set in row `r`, column `j`. -/
def weightAt (m : ArrayMode) (w : CellSet) (r j : Nat) : Nat :=
  let cell (r c : Nat) : Nat := (SMap.find 0 w.cells (32 * r + c)).toNat
  match m with
  | .eight => cell r j
  | .four => bitsOf (cell r (j / 2)) (4 * (j % 2)) 4
  | .half => cell (2 * r) (2 * j)
  | .binary => bitsOf (cell r (j / 64)) (j % 64) 1

/-- The value of an element before its block scale. -/
def elemVal (fmt v : Nat) : Val := if isMx fmt then decodeMxElem fmt v else decodeWord fmt v

/-- What an issue of a floating mode adds to row `r`. -/
def floatTerm (shape : Nat) (m : ArrayMode) (w : CellSet) (xs : List Nat) (xfmt : Nat) (xscales : List Byte) (r : Nat) : Val :=
  let n := inputsOf shape m
  let k := portionsOf shape m
  issueSum ((List.range k).map (fun i =>
    let js := List.range' (32 * i) (min 32 (n - 32 * i))
    (js.map (fun j => elemVal w.fmt (weightAt m w r j)), js.map (fun j => elemVal xfmt (xs.getD j 0)),
     if isMx w.fmt then w.scales.getD (r * k + i) 127 else 127, if isMx xfmt then (xscales.getD i 127).toNat else 127)))

/-- What an issue of an integer mode adds to row `r`. -/
def intTerm (shape : Nat) (m : ArrayMode) (w : CellSet) (xs : List Nat) (xfmt r : Nat) : Int :=
  let js := List.range (inputsOf shape m)
  dotInt (js.map (fun j => fmtInt w.fmt (weightAt m w r j))) (js.map (fun j => fmtInt xfmt (xs.getD j 0)))

/-- Differing bit positions between row `r` of a B1 set and the `k`-th code of an issue, of `width` bits (07 R217, 08 R259). The upper 32 bits of
each cell stand in its shadow register. -/
def binaryCount (lo hi : CellSet) (xs : List Nat) (width r k : Nat) : Nat :=
  ((List.range' (k * width) width).filter (fun j =>
    let c := if j % 64 < 32 then lo else hi
    decide (bitsOf (SMap.find 0 c.cells (32 * r + j / 64)).toNat (j % 32) 1 ≠ xs.getD j 0))).length

/-- The accumulator writes of one issue. -/
def issueWrites (p : Part) (m : ArrayMode) (xs : List Nat) (xfmt : Nat) (xscales : List Byte) (entry width : Nat) (sat : Bool) : List AccWrite :=
  let shape := shapeOf p
  (List.range (rowsOf shape)).flatMap (fun r => match m with
    | .binary => (List.range (2048 / width)).map (fun k => ⟨r, entry + k, .int (binaryCount p.working p.shadow xs width r k : Nat) true⟩)
    | _ => if isIntFmt p.working.fmt then [⟨r, entry, .int (intTerm shape m p.working xs xfmt r) sat⟩]
           else [⟨r, entry, .float (floatTerm shape m p.working xs xfmt xscales r)⟩])

/-- An issue: both operands of one mode and a permitted mix, into an entry that the partition names (07 R206, R207). -/
def issue (q : Seat) (a scales fmt entry width : Nat) (sat : Bool) (s : State) : State :=
  let p := partAt s q
  let shape := shapeOf p
  match modeOf fmt with
  | none => s
  | some m =>
    if p.passRunning && shapeTakes shape m && formatsPair p.working.fmt fmt && decide (entry < entriesOf shape) then
      let n := inputsOf shape m
      withScratch q a (ceilDiv (fmtBits fmt * n) 8) (fun bytes s1 =>
        withScratch q scales (if isMx fmt then portionsOf shape m else 0) (fun sc s2 =>
          let ws := issueWrites p m (unpackElems (fmtBits fmt) n bytes) fmt sc entry width sat
          modPart q (fun (p : Part) => { p with writes := p.writes ++ ws }) s2) s1) s
    else s

/-- The pass has made its last issue: its retirement token arrives (07 R211). -/
def lastIssue (p : Part) : Part := if p.passRunning then { p with passRunning := false, token := true } else p

/-- An accumulator write completes; a clamped addition flags the entry (08 R260, 09 R277). -/
def completeWrite (p : Part) (w : AccWrite) : Part :=
  let k := w.row * 32 + w.entry
  let old := SMap.find 0 p.accum k
  match w.term with
  | .int x sat =>
    let r := accAdd sat old.toInt x
    { p with accum := SMap.put 0 p.accum k (BitVec.ofInt 32 r.1), flagged := p.flagged || r.2 }
  | .float v => { p with accum := SMap.put 0 p.accum k (accFloat old v) }

/-- Every issued write to an entry completes, in order (07 R213). -/
def settleEntry (entry : Nat) (p : Part) : Part :=
  let mine (w : AccWrite) : Bool := w.entry == entry
  let r := (p.writes.filter mine).foldl completeWrite p
  { r with writes := p.writes.filter (fun w => !mine w) }

/-- Every issued write of a partition completes. -/
def settleAll (p : Part) : Part :=
  let r := p.writes.foldl completeWrite p
  { r with writes := [] }

/-- The vector unit's view of an entry: the value of each row, once every issued write to it has completed (07 R213). -/
def entryWords (p : Part) (entry : Nat) : List (BitVec 32) :=
  (List.range (rowsOf (shapeOf p))).map (fun r => SMap.find 0 (settleEntry entry p).accum (r * 32 + entry))

/-- An entry of every row is overwritten, after the writes issued to it. -/
def setEntry (entry : Nat) (ws : List (BitVec 32)) (p0 : Part) : Part :=
  let p := settleEntry entry p0
  { p with accum := (List.range ws.length).foldl (fun m r => SMap.put 0 m (r * 32 + entry) (ws.getD r 0)) p.accum }

/-! ### The vector unit (07 R224, 08 R245 to R248, R255, R261) -/

/-- `n` lanes of a register. -/
def lanesOf (p : Part) (reg n : Nat) : List (BitVec 32) := SMap.getList 0 p.vregs (reg * 128) n

/-- Lanes of a register from 0 on are written, where the partition has the register. -/
def setLanes (reg : Nat) (ws : List (BitVec 32)) (p : Part) : Part :=
  if reg < vregsOf (shapeOf p) then { p with vregs := SMap.putList 0 p.vregs (reg * 128) (ws.take 128) } else p

/-- A lane-wise operation on two registers. -/
def lanes2 (f : BitVec 32 → BitVec 32 → BitVec 32) (dst a b : Nat) (p : Part) : Part :=
  setLanes dst ((List.range 128).map (fun l => f ((lanesOf p a 128).getD l 0) ((lanesOf p b 128).getD l 0))) p

/-- A floating operation on every lane. -/
def floatLanes (op : VecOp) (d : Rnd) (fmt dst a b c : Nat) (p : Part) : Part :=
  setLanes dst ((List.range 128).map (fun l => BitVec.ofNat 32 (vecFloat op d fmt ((lanesOf p a 128).getD l 0).toNat
    ((lanesOf p b 128).getD l 0).toNat ((lanesOf p c 128).getD l 0).toNat))) p

/-- The relation of two lanes: floating, where `fmt` names a floating format, else INT32. -/
def laneRel (fmt : Nat) (x y : BitVec 32) : Option Ordering :=
  if fmt ≤ 2 then vecCompare fmt x.toNat y.toNat else some (compare x.toInt y.toInt)

/-- A function of one register's lanes. -/
def lanes1 (f : BitVec 32 → BitVec 32) (dst a : Nat) (p : Part) : Part := setLanes dst ((lanesOf p a 128).map f) p

/-! ### Scales in force (09 R268, R269, R273, R283) -/

/-- The batch of the tile at a seat. -/
def batchAt (s : State) (q : Seat) : Option Batch := (jobAt s q).bind (fun j => s.core.batches.find? (fun b => b.no == j.batch))

/-- The multiplier of a tensor in the batch of the tile at a seat: that of the batch's dispatch; 1 where the tensor does not adapt. -/
def multAt (s : State) (q : Seat) (tensor : Nat) : BitVec 32 :=
  (((batchAt s q).bind (fun b => b.mults.find? (fun e => e.1 == tensor))).map (·.2)).getD 0x3F800000

/-- The scale of an activation in force. -/
def actScale (s : State) (q : Seat) (x : FnSlot) (tensor : Nat) : BitVec 32 :=
  adaptedScale (learnedScale (scaleOf x tensor) 0) (multAt s q tensor)

/-- The factors f of a weight's rows from `row` on (09 R273). -/
def rowFactors (s : State) (q : Seat) (x : FnSlot) (weight act row n : Nat) : List (BitVec 32) :=
  (List.range' row n).map (fun i => rowFactor (learnedScale (scaleOf x weight) i) (actScale s q x act))

/-- The preload terms of a weight's rows from `row` on: those kept with the slot, or of one group (09 R271, R275). -/
def preloads (x : FnSlot) (weight act row n : Nat) (group : Option Nat) : List (BitVec 32) :=
  let r := scaleOf x weight
  match x.sums.find? (fun w => w.tensor == weight) with
  | none => List.replicate n 0
  | some w => (List.range' row n).map (fun i => BitVec.ofInt 32 (match group with
      | none => (((w.terms.find? (fun e => e.1 == act)).map (·.2)).getD []).getD i 0
      | some g =>
        let size := gsizeOf r.gsize
        preloadTerm (min size (r.klen - g * size)) ((w.groups.getD i []).getD g 0) (effZero r i) (effZero (scaleOf x act) 0)))

/-- Late scaling of an entry into a register (09 R272). -/
def lateScale (s : State) (q : Seat) (x : FnSlot) (reg entry weight act row sum : Nat) (p : Part) : Part :=
  let n := rowsOf (shapeOf p)
  let acc := entryWords p entry
  let fs := rowFactors s q x weight act row n
  let sx := (lanesOf p sum 1).getD 0 0
  setLanes reg ((List.range n).map (fun r => lateValue (acc.getD r 0) (effZero (scaleOf x weight) (row + r)) sx (fs.getD r 0))) (settleEntry entry p)

/-- The scaling stage of the group path: the partial sum of `entry` into `acc` (09 R275). -/
def groupStage (s : State) (q : Seat) (x : FnSlot) (acc entry weight act row sum : Nat) (p : Part) : Part :=
  let n := rowsOf (shapeOf p)
  let old := entryWords p acc
  let ps := entryWords p entry
  let fs := rowFactors s q x weight act row n
  let sx := (lanesOf p sum 1).getD 0 0
  setEntry acc ((List.range n).map (fun r =>
    groupAdd (old.getD r 0) (ps.getD r 0) (effZero (scaleOf x weight) (row + r)) sx (fs.getD r 0))) (settleEntry entry p)

/-! ### Outputs (08 R252, R255, 09 R274, R278, 16 R472) -/

/-- What a tile makes of an output joins what it has made. -/
def addOut (o : OutRun) (p : Part) : Part :=
  let here (y : OutRun) : Bool := decide (y.watch = o.watch ∧ y.tensor = o.tensor)
  if p.outs.any here then
    { p with outs := p.outs.map (fun (y : OutRun) => if here y then
        { y with reals := y.reals ++ o.reals, bytes := y.bytes ++ o.bytes, n := y.n + o.n, clipped := y.clipped + o.clipped,
                 use := maxUse y.use o.use } else y) }
  else { p with outs := p.outs ++ [o] }

/-- An output's bytes go to their place and its counts to the tile. -/
def release (q : Seat) (bytes : List Byte) (dst : Place) (o : OutRun) (s : State) : State :=
  modPart q (addOut o) (writePlace q bytes false dst s)

/-- Lanes as FP32, FP16 or BF16 (08 R255). -/
def outFloat (q : Seat) (w : Option WatchTag) (fmt reg n : Nat) (dst : Place) (s : State) : State :=
  let ys := lanesOf (partAt s q) reg n
  let bytes := packElems (fmtBits fmt) (ys.map (fun y => encodeWord fmt (ofFp32 y)))
  if fmt ≤ 2 then release q bytes dst { watch := w, tensor := none, reals := ys, bytes := bytes } s else s

/-- Lanes as MX blocks with their scale codes; every saturated element counts as clipped (08 R252). -/
def outMx (q : Seat) (w : Option WatchTag) (fmt reg n : Nat) (dst scales : Place) (s : State) : State :=
  let ys := lanesOf (partAt s q) reg n
  let r := mxVector fmt (ys.map ofFp32)
  let bytes := packElems (fmtBits fmt) r.2.1
  if isMx fmt then
    release q bytes dst { watch := w, tensor := none, reals := ys, bytes := bytes, clipped := r.2.2 }
      (writePlace q (r.1.map (BitVec.ofNat 8)) false scales s)
  else s

/-- Lanes as a learned-scale integer tensor of the slot: r is formed from the output scale in force (09 R274), and N, C and U are counted
(09 R278). -/
def outInt (q : Seat) (w : Option WatchTag) (tensor reg n : Nat) (dst : Place) (s : State) : State :=
  match slotAt s q with
  | none => s
  | some x =>
    let o := scaleOf x tensor
    let z := effZero o 0
    let lim := intRange o.fmt
    let ys := lanesOf (partAt s q) reg n
    let cs := ys.map (outConvert (fp32Recip (actScale s q x tensor)) z lim.1 lim.2)
    let bytes := packElems (fmtBits o.fmt) (cs.map (fun c => intCode o.fmt c.1))
    if tensor < x.scales.length ∧ o.role = 1 then
      let made : OutRun := {
        watch := w, tensor := some tensor, reals := ys, bytes := bytes,
        n := (cs.filter (fun c => !c.2.2.1)).length, clipped := (cs.filter (fun c => c.2.1)).length,
        use := (cs.map (fun c => if c.2.2.1 then 0 else rangeUse z lim.1 lim.2 c.2.2.2)).foldl maxUse 0 }
      release q bytes dst made s
    else s

/-! ### One operation, and a run of them -/

/-- What an operation does to the tile at a seat. An operand that the tile does not reach makes it do nothing (01 R19; log 98). A tile on the
late path has no scaling stage, and one on the group path no late scaling (09 Table 82). -/
def engineOp (q : Seat) (s : State) : EngOp → State
  | .move src dst n => moveBytes q src dst n s
  | .await => drainPart q s
  | .claim => claimPage q s
  | .reload a scales fmt => reload q a scales fmt s
  | .issue a scales fmt entry width sat => issue q a scales fmt entry width sat s
  | .lastIssue => modPart q lastIssue s
  | .preload entry weight act row group =>
    (match slotAt s q with
     | none => s
     | some x => modPart q (fun (p : Part) => setEntry entry (preloads x weight act row (rowsOf (shapeOf p)) group) p) s)
  | .readAcc reg entry => modPart q (fun (p : Part) => setLanes reg (entryWords p entry) (settleEntry entry p)) s
  | .writeAcc entry reg => modPart q (fun (p : Part) => setEntry entry (lanesOf p reg (rowsOf (shapeOf p))) p) s
  | .late reg entry weight act row sum =>
    (match slotAt s q, (partAt s q).tile with
     | some x, some y => if y.groupPath then s else modPart q (lateScale s q x reg entry weight act row sum) s
     | _, _ => s)
  | .groupScale acc entry weight act row sum =>
    (match slotAt s q, (partAt s q).tile with
     | some x, some y => if y.groupPath then modPart q (groupStage s q x acc entry weight act row sum) s else s
     | _, _ => s)
  | .inputSum reg a fmt n => withScratch q a (ceilDiv (fmtBits fmt * n) 8) (fun bytes s1 =>
      modPart q (setLanes reg (List.replicate 128 (BitVec.ofInt 32 (sumInt ((unpackElems (fmtBits fmt) n bytes).map (fmtInt fmt)))))) s1) s
  | .load reg a bits n => withScratch q a (ceilDiv (bits * n) 8) (fun bytes s1 =>
      modPart q (setLanes reg ((unpackElems bits n bytes).map (BitVec.ofNat 32))) s1) s
  | .store reg a bits n => writePlace q (packElems bits ((lanesOf (partAt s q) reg n).map (·.toNat))) false (.scratchpad a) s
  | .float op d fmt dst a b c => modPart q (floatLanes op d fmt dst a b c) s
  | .compare fmt dst a b rel => modPart q (lanes2 (fun x y => if laneRel fmt x y = rel then 1 else 0) dst a b) s
  | .int op sat dst a b => modPart q (lanes2 (vecInt op sat) dst a b) s
  | .approx f dst a => modPart q (lanes1 (approx f) dst a) s
  | .convert d sat src dstFmt dst a => modPart q (lanes1 (fun x => BitVec.ofNat 32 (convertWord d sat src dstFmt x.toNat).code) dst a) s
  | .outFloat w fmt reg n dst => outFloat q w fmt reg n dst s
  | .outMx w fmt reg n dst scales => outMx q w fmt reg n dst scales s
  | .outInt w tensor reg n dst => outInt q w tensor reg n dst s

/-- The operations of a tile in order; none where the partition has no tile. -/
def runOps (q : Seat) (ops : List EngOp) (s : State) : State :=
  if (partAt s q).tile.isSome then ops.foldl (engineOp q) s else s

/-! ### Poisoned output lines (07 R220, R223) -/

/-- A line that a tile declared is marked: of its scratchpad extent on an engine, of its job's SRAM, of the command's function scratch. -/
def poisonLine (core : Nat) (eng : Option Nat) (base : Nat) (j : Option Job) (l : Nat × Nat) (s : State) : State :=
  match l.1 with
  | 0 => (match eng with
    | some e => modCore core (modEngine e (fun (g : Engine) => { g with bad := SMap.put false g.bad (base / 64 + l.2) true })) s
    | none => s)
  | 1 => (match j with
    | some j => modCore core (fun (c : Core) => { c with badSram := SMap.put false c.badSram (j.base / 64 + l.2) true }) s
    | none => s)
  | _ => (match j.bind (fun j => (scratchFrames s j.trs j.id core)[l.2 / 1024]?) with
    | some f => modCore core (fun (c : Core) => { c with badScratch := SMap.put false c.badScratch (f * 1024 + l.2 % 1024) true }) s
    | none => s)

/-- Poison marks every output line that a partition's tile had written or was to write. -/
def poisonPart (core : Nat) (eng : Option Nat) (p : Part) (s : State) : State :=
  match p.tile with
  | none => s
  | some x =>
    let j := jobOf (getCore s core) x.job
    (dedup (x.lines ++ p.wrote)).foldl (fun s' l => poisonLine core eng p.base j l s') s

end Sys2Proof.Machine
end

