-- ==== Sys2Proof/Machine/Cores.lean ====
section
/-! DEFINITION. Cores and engines (07, 09 R276 to R283, 16 R472 to R475): the tile scheduler, the reload interlock, semaphores,
pre-emption, partition faults, and the batches of adaptation. -/
namespace Sys2Proof.Machine

/-! ### Watched outputs (16 R472 to R475) -/

/-- The mean after one more value, in FP32: order-dependent (16 R472). -/
def meanStep (n : Nat) (mean v : BitVec 32) : BitVec 32 :=
  fp32Add mean (fp32Mul (fp32Add v (toFp32 (negVal (ofFp32 mean)))) (fp32Recip (toFp32 (ofInt (n + 1 : Nat)))))

/-- One written value enters a watch record. -/
def watchValue (r : Watch) (v : BitVec 32) : Watch :=
  let n := (r.count - r.nonfinite).toNat
  if bitsOf v.toNat 23 8 = 255 then { r with count := r.count + 1, nonfinite := r.nonfinite + 1 }
  else { r with count := r.count + 1,
                minV := if n = 0 then v else if fp32Lt v r.minV then v else r.minV,
                maxV := if n = 0 then v else if fp32Lt r.maxV v then v else r.maxV,
                meanV := meanStep n r.meanV v }

/-- A tile's output enters a watch record. -/
def watchTile (o : OutRun) (r : Watch) : Watch :=
  let r1 := o.reals.foldl watchValue r
  { r1 with clipped := r1.clipped + BitVec.ofNat 64 o.clipped, useMax := maxUse r1.useMax o.use }

/-- The tile digest: slot, output, PATTERN_GEN, tile index, output bytes (16 R473). -/
def tileDigest (s : State) (slot output index : Nat) (bytes : List Byte) : BitVec 64 :=
  BitVec.ofNat 64 (natOf (shake256 8 (bytesOf 1 slot ++ bytesOf 1 output ++ bytesOf 4 s.boot.patternGen.toNat ++ bytesOf 4 index ++ bytes)))

/-- The PLACEMENT tag: ENGINE_MAP, each tile's index, core, logical engine and partition in tile order, and a heat's members
(16 R474; the widths of the fields are the model's, log 27). -/
def placementTag (s : State) (tiles : List (Nat × Nat × Nat × Nat)) : BitVec 64 :=
  let ts := sortBy (fun a b => decide (a.1 < b.1)) tiles
  BitVec.ofNat 64 (natOf (shake256 8 (s.boot.engineMap
    ++ ts.flatMap (fun x => bytesOf 4 x.1 ++ bytesOf 1 x.2.1 ++ bytesOf 1 x.2.2.1 ++ bytesOf 1 x.2.2.2)
    ++ s.heat.running.flatMap (fun r => bytesOf 2 r.1 ++ bytesOf 8 r.2.1))))

/-- The cumulative record of a slot, output and tenant, made where there is none. -/
def modCum (slot output tenant : Nat) (f : Watch → Watch) (s : State) : State :=
  let here (w : Watch) : Bool := decide (w.slot = slot ∧ w.output = output ∧ w.tenant = tenant)
  if s.tele.watchCum.any here then
    { s with tele := { s.tele with watchCum := s.tele.watchCum.map (fun w => if here w then f w else w) } }
  else
    let w := f { slot := slot, output := output, tenant := tenant }
    let lt (a b : Watch) : Bool := lexLt [a.tenant, a.slot, a.output] [b.tenant, b.slot, b.output]
    { s with tele := { s.tele with watchCum := insertBy lt w s.tele.watchCum } }

/-- The record that a running command builds for an output of a slot, made where there is none. -/
def modRun (trs id slot output tenant : Nat) (f : WatchRun → WatchRun) (s : State) : State :=
  let here (r : WatchRun) : Bool := decide (r.trs = trs ∧ r.id = id ∧ r.watch.slot = slot ∧ r.watch.output = output)
  if s.tele.watchRun.any here then
    { s with tele := { s.tele with watchRun := s.tele.watchRun.map (fun r => if here r then f r else r) } }
  else
    { s with tele := { s.tele with
        watchRun := s.tele.watchRun ++ [f ⟨trs, id, { slot := slot, output := output, tenant := tenant }, []⟩] } }

/-- Both records of an output take a change: the command's and the cumulative one (16 R475). -/
def modWatch (j : Job) (output : Nat) (f : Watch → Watch) (s : State) : State :=
  modCum j.slot output j.tenant f (modRun j.trs j.id j.slot output j.tenant (fun r => { r with watch := f r.watch }) s)

/-- The multiplier that a conversion used and the state's quiet count and flag (09 R279). -/
def markAdapt (a : BitVec 32) (x : Adapt) (w : Watch) : Watch :=
  { w with mult := a, quiet := x.quiet, pinned := x.pinned, adapted := true }

/-- A tile has written a watched output: both records, the command's with its digest and placement (16 R472 to R475). -/
def watchOutput (j : Job) (g : WatchTag) (core e part index : Nat) (o : OutRun) (a : Option (BitVec 32)) (s : State) : State :=
  let mark : Watch → Watch := match a, o.tensor with
    | some m, some t => markAdapt m (SMap.find {} s.core.adapt (adaptKey j.slot t j.tenant))
    | _, _ => fun w => w
  let s1 := modWatch j g.output (fun w => mark (watchTile o w)) s
  modRun j.trs j.id j.slot g.output j.tenant (fun r =>
    let tiles := r.tiles ++ [(index, core, ((getEngine s core e).logical).getD 0, part)]
    { r with tiles := tiles,
             watch := { r.watch with
               digest := if g.digest then some (r.watch.digest.getD 0 ^^^ tileDigest s j.slot g.output index o.bytes) else r.watch.digest,
               placement := placementTag s tiles } }) s1

/-! ### Endings of jobs (07 R220, R228, R229) -/

/-- A job ends with a status: its command ends with it, and with the command all its jobs (07 R220, R228, R229). -/
def endJobCommand (st : Byte) (j : Job) (s : State) : State :=
  match heldOf s j.trs j.id with
  | none => endJobs j.trs j.id s
  | some h =>
    if h.ended then endJobs j.trs j.id s
    else if h.op = 0x13 then attendEnd j.trs j.id st s
    else if st = stPoisoned then mediaStop j.trs j.id st s
    else finish j.trs j.id st 0 s

/-! ### The scheduler (07 R218, R226, R227, R235) -/

/-- Tiles running on an engine. -/
def running (e : Engine) : List Tile := e.parts.filterMap (fun p => p.tile)

/-- A semaphore is free in no block: it lies in no placed job's block. -/
def semFree (c : Core) (n : Nat) : Bool :=
  c.jobs.all (fun j => match j.block with
    | some b => decide (n < b ∨ b + j.sems ≤ n)
    | none => true)

/-- The lowest free block of `n` of the 256 semaphores (07 R227). -/
def freeSems (c : Core) (n : Nat) : Option Nat :=
  (List.range (257 - n)).find? (fun b => (List.range' b n).all (semFree c))

/-- The lowest line boundary from which `n` bytes below `limit` lie in none of some extents (start, length). -/
def freeExtent (taken : List (Nat × Nat)) (n limit : Nat) : Option Nat :=
  (sortBy (fun a b => decide (a < b)) (0 :: taken.map (fun r => ceilDiv (r.1 + r.2) 64 * 64))).find? (fun b =>
    decide (b + n ≤ limit) && taken.all (fun r => decide (b + n ≤ r.1 ∨ r.1 + r.2 ≤ b)))

/-- A free extent of core SRAM for a job (07 Table 73). -/
def sramRoom (c : Core) (j : Job) : Option Nat :=
  freeExtent ((c.jobs.filter (fun x => x.placed)).map (fun x => (x.base, x.sram))) j.sram 33554432

/-- A free extent of an engine's scratchpad for a tile's live bytes (07 R225, Table 73). -/
def liveRoom (e : Engine) (x : Tile) : Option Nat :=
  freeExtent (e.parts.filterMap (fun p => p.tile.map (fun y => (p.base, y.live)))) x.live 2097152

/-- A job can be placed now, or is. -/
def jobFits (c : Core) (j : Job) : Bool := j.placed || ((sramRoom c j).isSome && (freeSems c j.sems).isSome)

/-- A tile fits a partition of an engine: the partition exists in its shape, every running tile has that shape, the scratchpad has its live
extent free, its job fits, and a known-answer test runs on its own engine. -/
def tileFits (c : Core) (eng : Nat) (e : Engine) (part : Nat) (x : Tile) : Bool :=
  decide (part < partsOf x.shape) && (running e).all (fun y => y.shape == x.shape) && (liveRoom e x).isSome
  && ((jobOf c x.job).map (jobFits c)).getD true && decide (x.kat.getD eng = eng)

/-- The tenant of a tile. -/
def tileTenant (c : Core) (x : Tile) : Nat := ((jobOf c x.job).map (·.tenant)).getD 0

/-- Tiles of a class and tenant already dispatched. -/
def servedBy (c : Core) (cls tenant : Nat) : Nat :=
  ((c.served.find? (fun e => e.1 == cls && e.2.1 == tenant)).map (·.2.2)).getD 0

/-- The weight of a tenant (07 R226). -/
def weightOf (s : State) (tenant : Nat) : Nat := max 1 (((tenantPol s tenant).map (·.weight)).getD 1)

/-- Between two fitting tiles: higher class first, then the tenant served least for its weight, then age (07 R226; the form of
the weighted round robin is the model's, log 28). -/
def before (s : State) (c : Core) (a b : Tile) : Bool :=
  decide (a.cls < b.cls) || (decide (a.cls = b.cls) &&
    (let ta := tileTenant c a
     let tb := tileTenant c b
     decide (servedBy c a.cls ta * weightOf s tb < servedBy c b.cls tb * weightOf s ta)))

/-- The tile that the scheduler dispatches next to a partition; the governor may make background tiles wait (15 Table 140). -/
def nextTile (s : State) (c : Core) (eng : Nat) (e : Engine) (part : Nat) : Option Tile :=
  (c.ready.filter (fun x => tileFits c eng e part x && !(s.gov.bgTiles && x.cls == 4))).foldl (fun best x => match best with
    | none => some x
    | some b => if before s c x b then some x else some b) none

/-- Counts a dispatch for the round robin. -/
def serve (cls tenant : Nat) (c : Core) : Core :=
  { c with served := c.served.filter (fun e => !(e.1 == cls && e.2.1 == tenant)) ++ [(cls, tenant, servedBy c cls tenant + 1)] }

/-- The first tile of a job places it: its semaphore block and its SRAM are assigned (07 R227, Table 73). -/
def placeFirst (jid : Nat) (c : Core) : Core :=
  { c with jobs := c.jobs.map (fun (j : Job) => if j.jid = jid ∧ ¬ j.placed then
      { j with placed := true, block := if j.sems = 0 then none else freeSems c j.sems, base := (sramRoom c j).getD 0 } else j) }

/-- A partition takes a tile, with the output lines that it declares. -/
def seatTile (x : Tile) (lines : List (Nat × Nat)) (base : Nat) (p : Part) : Part :=
  { clearPart p with tile := some { x with lines := lines }, base := base }

/-- An engine takes tiles: in service, not stopped by the governor, no check or save pending. A dispatch restarts an engine
that was stopped for want of a tile (15 R447). -/
def canRun (e : Engine) : Bool := inService e && !e.govStopped && !e.checking && !e.preempt

/-- The highest class among the tiles of saved work. -/
def savedClass (v : Saved) : Nat := (v.parts.filterMap (fun p => p.tile)).foldl (fun m x => min m x.cls) 4

/-- The saved work of a core that is restored next: of the highest class, the oldest. -/
def bestSaved (c : Core) : Option Saved :=
  c.saves.foldl (fun best v => match best with
    | none => some v
    | some b => if savedClass v < savedClass b then some v else some b) none

/-- Saved scratchpad bytes return to an engine, in place of what lies in the extents of the saved tiles. -/
def restoreBytes (v : Saved) (g : Engine) : Engine :=
  let cleared := v.parts.foldl (fun m p => match p.tile with
    | some x => SMap.clearRange m p.base x.live
    | none => m) g.scratchpad
  { g with scratchpad := v.scratchpad.foldl (fun m e => SMap.put 0 m e.1 e.2) cleared,
           bad := v.bad.foldl (fun m e => SMap.put false m e.1 e.2) g.bad }

/-- Saved work is restored on an idle engine of its core, with every register and live byte (07 R231). It holds no credit and takes credits
anew as its transfers begin (07 R232). -/
def restoreWork (core eng : Nat) (v : Saved) (s : State) : State :=
  modCore core (fun c => modEngine eng (fun (g : Engine) => { restoreBytes v g with stopped := false, parts := v.parts })
    { c with saves := c.saves.filter (fun w => w != v) }) s

/-- A ready tile goes to a partition and begins. -/
def dispatch (q : Seat) (x : Tile) (lines : List (Nat × Nat)) (ops : List EngOp) (s : State) : State :=
  let base := (liveRoom (getEngine s q.core q.eng) x).getD 0
  runOps q ops <|
    modCore q.core (fun c => modEngine q.eng (fun (g : Engine) => { g with parts := g.parts.modify q.part (seatTile x lines base), stopped := false })
      (placeFirst x.job (serve x.cls (tileTenant c x) { c with ready := c.ready.filter (fun y => y != x) }))) s

/-- TILE_DISPATCH: work saved by an engine-level switch is restored on an idle engine unless a ready tile of a higher class fits; else the next
ready tile is dispatched (07 R226, R231). -/
def tileDispatch (core eng part : Nat) (lines : List (Nat × Nat)) (ops : List EngOp) (s : State) : State :=
  let c := getCore s core
  let e := getEngine s core eng
  if canRun e ∧ (e.parts.getD part {}).tile.isNone = true then
    match bestSaved c, nextTile s c eng e part with
    | some v, some x =>
      if (running e).isEmpty ∧ savedClass v ≤ x.cls then restoreWork core eng v s else dispatch ⟨core, eng, part⟩ x lines ops s
    | some v, none => if (running e).isEmpty then restoreWork core eng v s else s
    | none, some x => dispatch ⟨core, eng, part⟩ x lines ops s
    | none, none => s
  else s

/-! ### Faults of an engine (07 R220, R222, 01 R28, R29) -/

/-- The jobs of a partition's tile end with PARTITION_FAULT and its lines are poisoned. -/
def faultPart (core eng part : Nat) (s : State) : State :=
  let p := (getEngine s core eng).parts.getD part {}
  match p.tile with
  | none => s
  | some x =>
    let s1 := modPart ⟨core, eng, part⟩ clearPart (poisonPart core (some eng) p s)
    match jobOf (getCore s core) x.job with
    | some j => endJobCommand stPartitionFault j s1
    | none => s1

/-- Jobs running on an engine end with PARTITION_FAULT and the engine is out of service until the next start (01 R28, R29). -/
def disableEngine (core eng : Nat) (s : State) : State :=
  let s1 := (List.range 4).foldl (fun s' p => faultPart core eng p s') s
  raise 0x0021 2 (10 * core + eng) 0 0
    (modCore core (modEngine eng (fun (g : Engine) => { g with disabled := true, stopped := true, checking := false, preempt := false })) s1)

/-! ### Tile boundaries (07 R225, R229, 09 R277) -/

/-- The semaphores that a tile holds. -/
def heldSems (c : Core) (x : Tile) : List Nat := (c.sems.filter (fun e => e.2.holder == some (x.job, x.index))).map (·.1)

/-- The last tile of a job has passed its boundary: the job ends and its block is free. -/
def jobDone (jid : Nat) (c : Core) : Core :=
  if c.ready.any (fun x => x.job == jid) || c.engines.any (fun e => (running e.2).any (fun x => x.job == jid))
      || c.saves.any (fun v => v.parts.any (fun p => (p.tile.map (fun x => x.job == jid)).getD false)) then c
  else match jobOf c jid with
    | none => c
    | some j =>
      let c1 := match j.block with
        | some b => freeBlock b j.sems c
        | none => c
      { c1 with jobs := c1.jobs.filter (fun x => x.jid != jid) }

/-- Changes a batch. -/
def modBatch (no : Nat) (f : Batch → Batch) (s : State) : State :=
  { s with core := { s.core with batches := s.core.batches.map (fun (b : Batch) => if b.no = no then f b else b) } }

/-- A conversion's counts enter its batch (09 R278). -/
def countOut (tensor : Nat) (o : OutRun) (b : Batch) : Batch :=
  let outs := (o.watch.map (fun g => [g.output])).getD []
  let old : BatchCount := (b.counts.find? (fun c => c.tensor == tensor)).getD { tensor := tensor }
  { b with counts := b.counts.filter (fun c => c.tensor != tensor)
      ++ [{ old with n := old.n + o.n, clipped := old.clipped + o.clipped, use := maxUse old.use o.use, outputs := dedup (old.outputs ++ outs) }] }

/-- An output of a completed tile is released: counted for its tensor's batch, and watched. -/
def releaseOut (core eng part : Nat) (x : Tile) (j : Job) (s : State) (o : OutRun) : State :=
  let s1 := match o.tensor with
    | some t => modBatch j.batch (countOut t o) s
    | none => s
  let b := s.core.batches.find? (fun b => b.no == j.batch)
  match o.watch with
  | none => s1
  | some g => watchOutput j g core eng part x.index o (o.tensor.bind (fun t => (b.bind (fun b => b.mults.find? (fun e => e.1 == t))).map (·.2))) s1

/-- A late-path tile whose accumulator saturated releases nothing and runs again on the group path; the recovery is counted per slot and
output, and its batch makes no update (09 R277, R283). -/
def recoverTile (core : Nat) (x : Tile) (j : Job) (outs : List OutRun) (s : State) : State :=
  let s1 := bump 0x70 (3 * j.slot + 2) 1 (modBatch j.batch (fun b => { b with rerun := true })
    (modCore core (fun c => { c with ready := c.ready ++ [{ x with groupPath := true, lines := [] }] }) s))
  (dedup (outs.filterMap (fun o => o.watch.map (·.output)))).foldl (fun s' o =>
    modWatch j o (fun r => { r with recoveries := r.recoveries + 1 }) s') s1

/-- A known-answer test ends: an engine that fails it is handled as one that fails its on-line check (12 R361). -/
def katComplete (core eng : Nat) (failed : List CheckTest) (s : State) : State :=
  if failed.isEmpty then s else disableEngine core eng (raise 0x0020 1 (10 * core + eng) 0 1 s)

/-- The last operations of a tile run, its transfers complete and every accumulator write is made (07 R225, R232, R238). -/
def closeTile (q : Seat) (ops : List EngOp) (s : State) : State := modPart q settleAll (drainPart q (runOps q ops s))

/-- TILE_COMPLETE: a tile that read poison is ended with POISONED, one that still holds a semaphore with SEMAPHORE_TIMEOUT; one whose
accumulator saturated on the late path runs again; any other releases its outputs (07 R220, R225, R229, 09 R277). -/
def tileComplete (core eng part : Nat) (ops : List EngOp) (failed : List CheckTest) (s0 : State) : State :=
  let q : Seat := ⟨core, eng, part⟩
  match (partAt s0 q).tile with
  | none => s0
  | some x =>
    let s := closeTile q ops s0
    let p := partAt s q
    let c := getCore s core
    let gone := modPart q clearPart s
    if x.kat.isSome then katComplete core eng failed gone
    else match jobOf c x.job with
      | none => gone
      | some j =>
        if p.poisoned then endJobCommand stPoisoned j (poisonPart core (some eng) p gone)
        else if !(heldSems c x).isEmpty then endJobCommand stSemTimeout j (bump 0x70 (3 * j.slot) 1 gone)
        else if p.flagged && !x.groupPath then recoverTile core x j p.outs gone
        else modCore core (jobDone x.job) (p.outs.foldl (releaseOut core eng part x j) gone)

/-- STATIONARY_SWAP: token and reload present, the shadow registers become the working registers, a waiting reload starts, and the next pass
issues (07 R211, R212). -/
def swapAndRun (q : Seat) (ops : List EngOp) (s : State) : State :=
  if canSwap (partAt s q) then runOps q ops (swapSets q s) else s

/-! ### Semaphores (07 R227, R228) -/

/-- The absolute number of a job's semaphore for the tile at a seat, with the tile. -/
def semOf (s : State) (q : Seat) (sem : Nat) : Option (Nat × Tile) :=
  match (partAt s q).tile with
  | none => none
  | some x => (jobOf (getCore s q.core) x.job).bind (fun j => j.block.bind (fun b => if sem < j.sems then some (b + sem, x) else none))

/-- Acquire: granted at once, or queued in arrival order. -/
def acquireSem (x : Tile) (m : Sem) : Sem :=
  if m.holder.isNone then { m with holder := some (x.job, x.index) } else { m with queue := m.queue ++ [(x.job, x.index)] }

/-- Release by the holder: granted to the oldest queued request. -/
def releaseSem (x : Tile) (m : Sem) : Sem :=
  if m.holder = some (x.job, x.index) then { holder := m.queue.head?, queue := m.queue.drop 1 } else m

/-- Changes the semaphore that a seat's tile names. -/
def modSem (core eng part sem : Nat) (f : Tile → Sem → Sem) (s : State) : State :=
  match semOf s ⟨core, eng, part⟩ sem with
  | none => s
  | some n => modCore core (fun c => { c with sems := SMap.modify {} c.sems n.1 (f n.2) }) s

/-- The hold limit passes: the holder's job ends with SEMAPHORE_TIMEOUT. -/
def semTimeout (core eng part sem : Nat) (s : State) : State :=
  let c := getCore s core
  match semOf s ⟨core, eng, part⟩ sem with
  | none => s
  | some n =>
    if (SMap.find {} c.sems n.1).holder = some (n.2.job, n.2.index) then
      match jobOf c n.2.job with
      | some j => endJobCommand stSemTimeout j s
      | none => s
    else s

/-! ### Pre-emption (07 R226, R230 to R233) -/

/-- A ready tile of a higher class waits behind a tile that runs on the engine. -/
def outranked (c : Core) (e : Engine) : Bool := (running e).any (fun x => c.ready.any (fun y => decide (y.cls < x.cls)))

/-- A waiting core-level pre-emption becomes engine-level, counted against the running slots (07 R233). -/
def escalate (core eng : Nat) (s : State) : State :=
  let c := getCore s core
  let e := getEngine s core eng
  if outranked c e && !e.preempt then
    let slots := dedup ((running e).filterMap (fun x => (jobOf c x.job).map (fun j => j.slot)))
    slots.foldl (fun s' n => bump 0x70 (3 * n + 1) 1 s')
      (modCore core (modEngine eng (fun (g : Engine) => { g with preempt := true })) s)
  else s

/-- Some partition of an engine holds a semaphore. -/
def holdsSem (c : Core) (eng : Nat) : Bool := (running (SMap.find {} c.engines eng)).any (fun x => !(heldSems c x).isEmpty)

/-- The bytes of a scratchpad that lie in the live extents of an engine's tiles. -/
def liveBytes (g : Engine) : Mem :=
  g.scratchpad.filter (fun e => g.parts.any (fun p => (p.tile.map (fun x => decide (p.base ≤ e.1 ∧ e.1 < p.base + x.live))).getD false))

/-- The marks of the lines in those extents. -/
def liveBad (g : Engine) : SMap Bool :=
  g.bad.filter (fun e => g.parts.any (fun p =>
    (p.tile.map (fun x => decide (p.base ≤ 64 * e.1 + 63 ∧ 64 * e.1 < p.base + x.live))).getD false))

/-- What an engine holds goes to its core's engine save area: live scratchpad bytes, cell registers, accumulators and vector registers of all
partitions together (07 R231, R232). -/
def saveWork (eng : Nat) (c : Core) : Core :=
  let g := SMap.find {} c.engines eng
  let saved := if (running g).isEmpty then c.saves else c.saves ++ [⟨eng, g.parts, liveBytes g, liveBad g⟩]
  modEngine eng (fun (g : Engine) => { g with preempt := false, parts := g.parts.map clearPart }) { c with saves := saved }

/-- An engine-level save: every transfer in flight completes, credits return, the pipeline drains, and the state is saved; it waits while a
partition holds a semaphore (07 R231 to R233). -/
def engineSave (core eng : Nat) (s : State) : State :=
  if holdsSem (getCore s core) eng then modCore core (modEngine eng (fun (g : Engine) => { g with preempt := true })) s
  else modCore core (saveWork eng)
    (modCore core (modEngine eng (fun (g : Engine) => { g with parts := g.parts.map settleAll })) (drainEngine core eng s))

/-- An engine that holds no tile is stopped (15 R447). -/
def idleStop (core eng : Nat) (s : State) : State :=
  if (running (getEngine s core eng)).isEmpty then modCore core (modEngine eng (fun (g : Engine) => { g with stopped := true })) s
  else s

/-! ### Faults (07 R220 to R223, 01 R28, R29) -/

/-- The partitions that a fault belongs to, in the shape in use: its own; those that share the row (halves share every row,
quadrants p and its neighbour); all (07 R220). -/
def faultParts (shape part : Nat) : FaultPlace → List Nat
  | .partition => [part]
  | .rowTop => if shape = 1 then [0, 1] else if shape = 2 then [part / 2 * 2, part / 2 * 2 + 1] else [part]
  | .outputPort => List.range (partsOf shape)

/-- Nanoseconds of 24 hours (07 R222). -/
def dayNs : Nat := 86400000000000

/-- PARTITION_FAULT_DETECTED: a second fault of the engine within 24 hours disables it without a check, and where the first's check is still
pending the first is written to the event log with it (07 R222). -/
def partitionFault (core eng part : Nat) (place : FaultPlace) (s : State) : State :=
  let e := getEngine s core eng
  if inService e then
    let shape := ((running e).head?.map (fun x => x.shape)).getD 0
    let ps := faultParts shape part place
    let mask := sumOf (ps.map (fun p => 2 ^ p))
    let s1 := ps.foldl (fun s' p => faultPart core eng p s') s
    let again := (e.faultAt.map (fun t0 => decide ((now s - t0).toNat < dayNs))).getD false
    let s2 := if again && e.checking then raise 0x0020 1 (10 * core + eng) e.faultParts 2 s1 else s1
    if again then disableEngine core eng (raise 0x0020 1 (10 * core + eng) mask 2 s2)
    else modCore core (modEngine eng (fun (g : Engine) => { g with checking := true, faultParts := mask, faultAt := some (now s) })) s1
  else s

/-- The on-line check ends, once the other partitions' tiles have: the array in every mode through the group-scaling path at G = 32, 64 and
128 with the vendor firmware's test scales, and the vector unit; `failed` are the tests it fails (07 R222, 09 Table 82). -/
def checkComplete (core eng : Nat) (failed : List CheckTest) (s : State) : State :=
  let e := getEngine s core eng
  if e.checking && (running e).isEmpty then
    if failed.isEmpty then
      raise 0x0020 1 (10 * core + eng) e.faultParts 0
        (modCore core (modEngine eng (fun (g : Engine) => { g with checking := false })) s)
    else disableEngine core eng (raise 0x0020 1 (10 * core + eng) e.faultParts 1 s)
  else s

/-- CORE_CONTROL_FAULT: every job on the core ends, its lines are poisoned, and its scheduler and engines start afresh
(07 R223). -/
def coreFault (core : Nat) (s : State) : State :=
  let c := getCore s core
  let s0 := c.engines.foldl (fun s' e => e.2.parts.foldl (fun s'' p => poisonPart core (some e.1) p s'') s') s
  let s1 := c.saves.foldl (fun s' v => v.parts.foldl (fun s'' p => poisonPart core none p s'') s') s0
  let s2 := c.jobs.foldl (fun s' j => endJobCommand stPartitionFault j s') s1
  raise 0x0022 2 core c.jobs.length 0 (modCore core (fun g => { g with
    ready := [], jobs := [], sems := [], served := [], saves := [],
    engines := SMap.mapVals {} (fun _ (e : Engine) => { e with parts := [{}, {}, {}, {}], preempt := false }) g.engines }) s2)

/-- The known-answer test of an engine, as a class 0 tile of at most 200 µs that needs the whole engine (12 R361). -/
def katTile (eng : Nat) : Tile := { job := 2 ^ 64, index := eng, cls := 0, shape := 0, live := 0, cycles := 720000, kat := some eng }

/-- ENGINE_KAT_TIMER: every engine in service has its test made ready, unless one still waits (12 R361). -/
def engineKat (s : State) : State :=
  let due (c : Core) : List Nat := (c.engines.filter (fun e => inService e.2 && !c.ready.any (fun x => decide (x.kat = some e.1)))).map Prod.fst
  let made (c : Core) : Core := { c with ready := c.ready ++ (due c).map katTile }
  { s with core := { s.core with cores := SMap.mapVals {} (fun _ (c : Core) => made c) s.core.cores } }

/-! ### Batches (09 R279 to R283) -/

/-- CLIP_HI of a slot in units of 0.01% (09 R282). -/
def clipHi (s : State) (slot : Nat) : Nat := ((s.pol.clipHi.find? (fun e => e.1 == slot)).map (·.2)).getD 10

/-- The update of one adapted tensor of a batch that ended OK on the late path, from the counts of its own conversion (09 R281), and its
records (09 R279). -/
def updateTensor (b : Batch) (s : State) (m : Nat × BitVec 32) : State :=
  let c : BatchCount := (b.counts.find? (fun c => c.tensor == m.1)).getD { tensor := m.1 }
  let k := adaptKey b.slot m.1 b.tenant
  let new := adaptUpdate (clipHi s b.slot) c.n c.clipped c.use (SMap.find {} s.core.adapt k)
  c.outputs.foldl (fun s' o => modCum b.slot o b.tenant (fun r => { r with mult := new.mult, quiet := new.quiet, pinned := new.pinned }) s')
    { s with core := { s.core with adapt := SMap.put {} s.core.adapt k new } }

/-- A batch still has jobs on some core. -/
def batchRuns (s : State) (no : Nat) : Bool := s.core.cores.any (fun c => c.2.jobs.any (fun j => j.batch == no))

/-- The next batch of a command that has items left is dispatched, with the multipliers then in force (09 R280, R283). -/
def nextBatch (b : Batch) (s : State) : State :=
  match slotOf s b.slot, (heldOf s b.trs b.id).map (·.undecided) with
  | some x, some true => if 0 < b.left then placeBatch b.cores b.cls b.trs b.id b.tenant b.left x s else s
  | _, _ => s

/-- BATCH_COMPLETE, once every tile of the batch has: each adapted tensor is updated in turn, unless the batch ended otherwise than with OK or
was re-run (09 R281, R283), and the command's next batch is dispatched. -/
def batchComplete (no : Nat) (ok : Bool) (s : State) : State :=
  match s.core.batches.find? (fun b => b.no == no) with
  | none => s
  | some b =>
    if batchRuns s no then s
    else
      let s1 := { s with core := { s.core with batches := s.core.batches.filter (fun x => x.no != no) } }
      nextBatch b (if ok && !b.rerun then b.mults.foldl (updateTensor b) s1 else s1)

/-! ### A crystal cycle (15 R446, R448, R451, 16 Tables 144, 145; log 1) -/

/-- An engine's island is stopped: a spare, disabled or idle engine, or one that the governor stops once it holds no tile (15 R447). -/
def engineHalted (e : Engine) : Bool := e.stopped || e.disabled || (e.govStopped && (running e).isEmpty)

/-- Cycles of an engine island that end within 40 ns: one lasts (64 + s) / 230.4 ns at stretch s (15 R446). -/
def engineCycles (stretch : Nat) (e : Engine) : Nat := if engineHalted e then 0 else (e.phase + 9216) / (64 + stretch)

/-- An engine's counters after 40 ns (16 Table 144). -/
def clocked (stretch : Nat) (e : Engine) : Engine :=
  let n := BitVec.ofNat 64 (engineCycles stretch e)
  { e with
    cycles := e.cycles + n
    busyCycles := if (running e).isEmpty then e.busyCycles else e.busyCycles + n
    stretchedNs := if inService e && decide (0 < stretch) then e.stretchedNs + 40 else e.stretchedNs
    stoppedNs := if engineHalted e then e.stoppedNs + 40 else e.stoppedNs
    phase := if engineHalted e then e.phase else (e.phase + 9216) % (64 + stretch) }

/-- The pages whose commands have a tile on an engine, with the engine's cycles of 40 ns. -/
def busyWork (s : State) : List (Nat × Nat) :=
  s.core.cores.flatMap (fun (c : Nat × Core) => c.2.engines.flatMap (fun (e : Nat × Engine) =>
    ((dedup ((running e.2).filterMap (fun x => (jobOf c.2 x.job).map (fun (j : Job) => j.trs)))).filter (· != deviceTrs)).map
      (fun t => (t, engineCycles s.gov.stretch e.2))))

/-- The counters of engines and of their commands' pages run on by 40 ns. -/
def countEngines (s : State) : State :=
  let s1 := (busyWork s).foldl (fun s' w => addCurrent w.1 (fun c => { c with engCycles := c.engCycles + BitVec.ofNat 64 w.2 }) s') s
  { s1 with core := { s1.core with cores := SMap.mapVals {} (fun _ (c : Core) =>
      { c with engines := SMap.mapVals {} (fun _ (e : Engine) => clocked s.gov.stretch e) c.engines }) s1.core.cores } }

/-- What passes when no command waits: one crystal cycle of the timebase while the crystal is good and no POR holds the
always-on island; engine islands run but in Fettle mode (13 Table 121, 15 R444). -/
def idleCycle (s : State) : State :=
  if s.aon.crystalGood ∧ ¬ s.aon.porAsserted then
    let s1 := if s.boot.mode = .service ∨ s.boot.mode = .starting then countEngines s else s
    { s1 with aon := { s.aon with timebase := s.aon.timebase + crystalNs } }
  else s

/-! ### The rows -/

/-- BATCH_COMPLETE. -/
def execBatchComplete (batch : Nat) (ok : Bool) (s : State) : Result := whenServing (batchComplete batch ok) s

/-- TILE_DISPATCH. -/
def execTileDispatch (core eng part : Nat) (lines : List (Nat × Nat)) (ops : List EngOp) (s : State) : Result :=
  whenServing (tileDispatch core eng part lines ops) s

/-- TILE_COMPLETE. -/
def execTileComplete (core eng part : Nat) (ops : List EngOp) (failed : List CheckTest) (s : State) : Result :=
  whenServing (tileComplete core eng part ops failed) s

/-- STATIONARY_SWAP. -/
def execStationarySwap (core eng part : Nat) (ops : List EngOp) (s : State) : Result :=
  whenServing (swapAndRun ⟨core, eng, part⟩ ops) s

/-- SEMAPHORE_ACQUIRE. -/
def execSemaphoreAcquire (core eng part sem : Nat) (s : State) : Result := whenServing (modSem core eng part sem acquireSem) s

/-- SEMAPHORE_RELEASE. -/
def execSemaphoreRelease (core eng part sem : Nat) (s : State) : Result := whenServing (modSem core eng part sem releaseSem) s

/-- SEMAPHORE_HOLD_TIMEOUT. -/
def execSemaphoreHoldTimeout (core eng part sem : Nat) (s : State) : Result := whenServing (semTimeout core eng part sem) s

/-- PREEMPTION_ESCALATION. -/
def execPreemptionEscalation (core eng : Nat) (s : State) : Result := whenServing (escalate core eng) s

/-- ENGINE_LEVEL_SAVE. -/
def execEngineLevelSave (core eng : Nat) (s : State) : Result := whenServing (engineSave core eng) s

/-- ENGINE_IDLE_STOP. -/
def execEngineIdleStop (core eng : Nat) (s : State) : Result := whenServing (idleStop core eng) s

/-- PARTITION_FAULT_DETECTED. -/
def execPartitionFaultDetected (core eng part : Nat) (place : FaultPlace) (s : State) : Result :=
  whenServing (partitionFault core eng part place) s

/-- ONLINE_CHECK_COMPLETE. -/
def execOnlineCheckComplete (core eng : Nat) (failed : List CheckTest) (s : State) : Result := whenServing (checkComplete core eng failed) s

/-- CORE_CONTROL_FAULT. -/
def execCoreControlFault (core : Nat) (s : State) : Result := whenServing (coreFault core) s

/-- ENGINE_KAT_TIMER. -/
def execEngineKatTimer (s : State) : Result := whenServing engineKat s

end Sys2Proof.Machine
end

