-- ==== Sys2Proof/Machine/Framing.lean ====
section
/-! DEFINITION. What one lane sends at Extended Rate (02 R63 to R65): alignment markers, FEC blocks of four interleaved Reed-Solomon
codewords, PAM4 levels and precoding. Only the link partner observes it; the link's rows count what a receiver makes of it (log 34). -/
namespace Sys2Proof.Machine

/-! ### Alignment markers (02 R64, Table 22) -/

/-- Bytes 0 to 7 of a marker: AM_SYNC, LANE, BLOCK modulo 256. -/
def markerHead (lane block : Nat) : List Byte := bytesOf 6 0x6A9C35F0C963 ++ [BitVec.ofNat 8 (lane % 16 + block % 16 * 16), BitVec.ofNat 8 (block % 256 / 16)]

/-- The 80-bit marker of a lane's block; the bytes stand as bit 0 first. -/
def alignMarker (lane block : Nat) : List Byte := markerHead lane block ++ bytesOf 2 (crc16 (markerHead lane block) 0xFFFF)

/-- A received marker is the one that a lane's block carries. -/
def markerMatches (lane block : Nat) (m : List Byte) : Bool := decide (m = alignMarker lane block)

/-- A lane locks to three consecutive markers at the block spacing (02 R59 step 7). -/
def lanesLock (lane block : Nat) (ms : List (List Byte)) : Bool :=
  decide (3 ≤ ms.length) && (List.range ms.length).all (fun i => markerMatches lane (block + i) (ms.getD i []))

/-- Four consecutive mismatches lose a lane (02 R62). -/
def laneLost (lane block : Nat) (ms : List (List Byte)) : Bool :=
  (List.range ms.length).any (fun i => decide (i + 4 ≤ ms.length)
    && (List.range 4).all (fun k => !markerMatches lane (block + i + k) (ms.getD (i + k) [])))

/-! ### RS(544,514) over GF(2^10) (02 R63) -/

/-- One doubling step of a product in GF(2^10) with x^10 + x^3 + 1, Clause 91's polynomial. PRESUMED (log 34). -/
def gfDouble (a : Nat) : Nat := if 512 ≤ a then (2 * a) % 1024 ^^^ 9 else 2 * a

/-- The product of two field elements, over the low `n` bits of the second. -/
def gfMulBits : Nat → Nat → Nat → Nat
  | 0, _, _ => 0
  | n + 1, a, b => (if b % 2 = 1 then a else 0) ^^^ gfMulBits n (gfDouble a) (b / 2)

/-- The product of two field elements. -/
def gfMul (a b : Nat) : Nat := gfMulBits 10 a b

/-- A power of the field's generator α = 2. -/
def gfPow : Nat → Nat
  | 0 => 1
  | n + 1 => gfDouble (gfPow n)

/-- A polynomial, highest coefficient first, times x + r. -/
def polyTimesRoot (r : Nat) (p : List Nat) : List Nat := List.zipWith (· ^^^ ·) (p ++ [0]) (0 :: p.map (gfMul r))

/-- The generator with roots α^0 to α^(n−1), highest coefficient first. PRESUMED (log 34). -/
def rsGenerator : Nat → List Nat
  | 0 => [1]
  | n + 1 => polyTimesRoot (gfPow n) (rsGenerator n)

/-- One message symbol enters the encoder, whose register holds the remainder. -/
def rsShift (g r : List Nat) (m : Nat) : List Nat :=
  let f := m ^^^ r.headD 0
  List.zipWith (fun (a b : Nat) => a ^^^ gfMul f b) (r.tail ++ [0]) g.tail

/-- The 30 parity symbols of a message. -/
def rsParity (msg : List Nat) : List Nat := msg.foldl (rsShift (rsGenerator 30)) (List.replicate 30 0)

/-- The value of a codeword, highest coefficient first, at a field element. -/
def polyAt (x : Nat) (p : List Nat) : Nat := p.foldl (fun (acc c : Nat) => gfMul acc x ^^^ c) 0

/-! ### Striping (02 R63; PCIe flit mode, log 34) -/

/-- The bytes that one of `lanes` lanes carries of a stream of flits: byte i goes to lane i modulo the width. PRESUMED. -/
def laneBytes (lanes lane : Nat) (flits : List Byte) : List Byte :=
  (List.range (flits.length / lanes)).map (fun i => flits.getD (i * lanes + lane) 0)

/-! ### FEC blocks -/

/-- The bits of bytes in time order, bit 0 of each byte first. -/
def bitsInTime (l : List Byte) : List Bool := l.flatMap (fun b => (List.range 8).map (fun i => b.getLsbD i))

/-- Ten-bit symbols of a bit stream, the first bit in time as bit 0. -/
def tenBitSymbols : Nat → List Bool → List Nat
  | 0, _ => []
  | n + 1, l => ((List.range 10).map (fun i => (l.getD i false).toNat * 2 ^ i)).sum :: tenBitSymbols n (l.drop 10)

/-- Codeword `c` of a block's symbols: symbol n goes to codeword n mod 4 at position n div 4, then its parity. -/
def blockCodeword (syms : List Nat) (c : Nat) : List Nat :=
  let msg := (List.range 514).map (fun i => syms.getD (4 * i + c) 0)
  msg ++ rsParity msg

/-- The 2,176 wire symbols of a block: the lane's marker and 2,560 scrambled bytes, symbol p being symbol p div 4 of codeword p mod 4. -/
def wireSymbols (lane block : Nat) (scrambled : List Byte) : List Nat :=
  let syms := tenBitSymbols 2056 (bitsInTime (alignMarker lane block ++ scrambled.take 2560))
  let words := (List.range 4).map (blockCodeword syms)
  (List.range 2176).map (fun p => (words.getD (p % 4) []).getD (p / 4) 0)

/-! ### PAM4 (02 R65) -/

/-- A bit pair, first bit in time first, as the number 0 to 3 of its level from −3 up. -/
def grayLevel (first second : Bool) : Nat :=
  match first, second with
  | false, false => 0
  | false, true => 1
  | true, true => 2
  | true, false => 3

/-- The amplitude of a level. -/
def pamLevel (n : Nat) : Int := 2 * (n : Int) - 3

/-- 1/(1+D) precoding modulo 4 after Gray coding, from the previous level sent. -/
def precoded : Nat → List Nat → List Nat
  | _, [] => []
  | y, x :: xs => (x + 4 - y % 4) % 4 :: precoded ((x + 4 - y % 4) % 4) xs

/-- The Gray levels of a bit stream. -/
def grayLevels : List Bool → List Nat
  | a :: b :: l => grayLevel a b :: grayLevels l
  | _ => []

/-- The levels of one block on its lane, from the last level of the block before it; the transmitter precodes when the partner has
asked it to. -/
def blockLevels (precode : Bool) (last lane block : Nat) (scrambled : List Byte) : List Nat :=
  let bits := (wireSymbols lane block scrambled).flatMap (fun v => (List.range 10).map (fun i => v.testBit i))
  if precode then precoded last (grayLevels bits) else grayLevels bits

/-- The levels of consecutive blocks on a lane, the precoder carrying its last level from block to block. -/
def streamLevels (precode : Bool) (lane : Nat) : Nat → Nat → List (List Byte) → List Nat
  | _, _, [] => []
  | last, block, b :: bs =>
    let ls := blockLevels precode last lane block b
    ls ++ streamLevels precode lane (ls.getLast?.getD last) (block + 1) bs

/-- The amplitudes that a lane sends from ER entry on. Block 0 finds the precoder at level 0, for which the spec gives no value
(DESIGN CHOICE, log 88). -/
def laneLevels (precode : Bool) (lane : Nat) (blocks : List (List Byte)) : List Int :=
  (streamLevels precode lane 0 0 blocks).map pamLevel

end Sys2Proof.Machine
end

