-- ==== Sys2Proof/Machine/Er.lean ====
section
/-! DEFINITION. Extended Rate (02 R56 to R62): the ER DVSEC, the handshake, entry to ER and fallback to 64 GT/s. -/
namespace Sys2Proof.Machine

/-! ### The ER DVSEC (02 R57, Tables 19 and 20) -/

/-- ER_VERSION of this port (02 Table 20). -/
def erVersion : BitVec 8 := 1

/-- ER_ARM. -/
def erArmed (s : State) : Bool := s.link.erCtl.getLsbD 0

/-- PRECODE_REQ. -/
def erPrecodeReq (s : State) : Bool := s.link.erCtl.getLsbD 1

/-- AUTO_DOWNGRADE. -/
def erAutoDowngrade (s : State) : Bool := s.link.erCtl.getLsbD 2

/-- ER_ACTIVE. -/
def erActive (s : State) : Bool := s.link.erStatus.getLsbD 0

/-- ER_AGREED. -/
def erAgreed (s : State) : Bool := s.link.erStatus.getLsbD 1

/-- An ER_STATUS of its fields. -/
def erStatusOf (active agreed failed precode : Bool) (cause : Nat) : BitVec 32 :=
  BitVec.ofNat 32 (active.toNat + 2 * agreed.toNat + 4 * failed.toNat + 8 * precode.toNat + cause % 16 * 16)

/-- FAIL_CAUSE. -/
def erCause (s : State) : Nat := bitsOf s.link.erStatus.toNat 4 4

/-- ER_FAILED. -/
def erFailed (s : State) : Bool := s.link.erStatus.getLsbD 2

/-- PRECODE_ACTIVE. -/
def erPrecode (s : State) : Bool := s.link.erStatus.getLsbD 3

/-- The link is in L0 at 64 GT/s (02 Table 21). -/
def at64 (s : State) : Bool := s.link.up && decide (s.link.rate = .gt64) && !s.link.recovery

/-- The DVSEC as it reads (02 Table 19), with the length and identifiers of R57; the extended capability header holds its
identifier, version 1h and no next capability (PCIe; log 13). -/
def erDvsec (s : State) : List Byte :=
  bytesOf 4 0x00010023 ++ bytesOf 4 (Config.imiaranVid.toNat + 0x24 * 2 ^ 20) ++ bytesOf 2 1 ++ bytesOf 2 0
  ++ bytesOf 4 (1 + 2 * erVersion.toNat + 16) ++ bytesOf 4 s.link.erCtl.toNat ++ bytesOf 4 s.link.erStatus.toNat
  ++ bytesOf 4 s.link.erFecCorr.toNat ++ bytesOf 4 s.link.erFecUncorr.toNat ++ bytesOf 4 s.link.erCounts.toNat

/-- A saturating 32-bit count. -/
def satAdd (v : BitVec 32) (n : Nat) : BitVec 32 := BitVec.ofNat 32 (min (v.toNat + n) (2 ^ 32 - 1))

/-- ER_COUNTS with an entry and a fallback count added, each modulo 2^16. -/
def erCount (entries fallbacks : Nat) (v : BitVec 32) : BitVec 32 :=
  BitVec.ofNat 32 ((bitsOf v.toNat 0 16 + entries) % 2 ^ 16 + (bitsOf v.toNat 16 16 + fallbacks) % 2 ^ 16 * 2 ^ 16)

/-! ### Handshake (02 R58 to R60) -/

/-- A handshake message: a Type 1 vendor-defined message, Terminate at Receiver, with KIND, ER_VERSION and PRECODE_REQ in header bytes
12 to 15 (02 R58). -/
def handshake (kind version : Nat) (precode : Bool) : Out :=
  .vendorMessage 4 0x7F Config.imiaranVid (BitVec.ofNat 32 (kind + version * 2 ^ 8 + precode.toNat * 2 ^ 16))

/-- A write of ER_CTL: reserved bits stay zero; ER_ARM becoming 1 opens a handshake, with ER_OFFER where the link is in L0 at
64 GT/s. Clearing ER_ARM after agreement leaves ER_AGREED set (DESIGN CHOICE, log 88). -/
def erCtlWrite (v : BitVec 32) (s : State) : State :=
  let s1 := { s with link := { s.link with erCtl := v &&& 7 } }
  if erArmed s1 && !erArmed s then
    let s2 := { s1 with link := { s1.link with erDead := false, erAcceptSent := false, erAcceptRecv := false, erOfferSent := at64 s } }
    if at64 s then emit (handshake 1 1 (erPrecodeReq s1)) s2 else s2
  else s1

/-- The handshake fails: no fallback is counted, and the port stays silent until ER_ARM is cleared and set again (02 R60). -/
def erRefuse (cause : Nat) (s : State) : State :=
  { s with link := { s.link with erStatus := erStatusOf (erActive s) false true (erPrecode s) cause, erDead := true } }

/-- ER_AGREED, once the port has both sent and received ER_ACCEPT. -/
def erSettle (s : State) : State :=
  if s.link.erAcceptSent && s.link.erAcceptRecv then
    { s with link := { s.link with erStatus := s.link.erStatus ||| 2 } }
  else s

/-- The port takes part in a handshake: armed, and not failed since it was armed. -/
def erOpen (s : State) : Bool := erArmed s && !s.link.erDead

/-- A received ER_OFFER. -/
def erOffered (version : BitVec 8) (precode : Bool) (s : State) : State :=
  if erOpen s then
    if version = erVersion then
      erSettle (emit (handshake 2 1 (erPrecodeReq s)) { s with link := { s.link with erAcceptSent := true, erTxPrecode := precode } })
    else erRefuse 2 s
  else s

/-- A received ER_ACCEPT answers this port's offer. -/
def erAccepted (version : BitVec 8) (precode : Bool) (s : State) : State :=
  if erOpen s && s.link.erOfferSent && !erAgreed s then
    if version = erVersion then erSettle { s with link := { s.link with erAcceptRecv := true, erTxPrecode := precode } }
    else erRefuse 2 s
  else s

/-- 1 ms after the offer the port is not agreed. -/
def erSilent (s : State) : State :=
  if erOpen s && s.link.erOfferSent && !erAgreed s then erRefuse 1 s else s

/-! ### Entry and fallback (02 R59 to R62) -/

/-- The retraining changes the link island's clock (15 R450). -/
def erRetrained (s : State) : State :=
  { s with isl := { s.isl with approx := if Island.link ∈ s.isl.approx then s.isl.approx else s.isl.approx ++ [.link] } }

/-- The partner directs Recovery: the agreed port follows it to ER. -/
def erRecovery (s : State) : State :=
  if at64 s && erAgreed s then emit (.recoverySpeed true) { s with link := { s.link with recovery := true } } else s

/-- The link returns through Recovery.Speed to 64 GT/s; the port reports the cause and counts the fallback. -/
def erFallback (cause lane : Nat) (s : State) : State :=
  let s1 := emit (.recoverySpeed false) (erRetrained { s with link := { s.link with
    rate := .gt64, recovery := false, erStatus := erStatusOf false false true false cause,
    erCounts := erCount 0 1 s.link.erCounts, erDead := true } })
  fenced (raise 0x0044 1 cause lane 0) s1

/-- Each configured lane has seen `markers` consecutive alignment markers (`lanesLock`): with three on each the link is in L0 at ER; fewer lanes
than are configured is WIDTH (02 R59, R60). -/
def erLocked (markers : List Nat) (s : State) : State :=
  if s.link.recovery && erAgreed s then
    if markers.length < s.link.width then erFallback 6 markers.length s
    else if (markers.take s.link.width).all (fun m => decide (3 ≤ m)) then
      erRetrained { s with link := { s.link with
        rate := .er, recovery := false, erStatus := erStatusOf true true (erFailed s) (erPrecodeReq s) (erCause s),
        erFecCorr := 0, erFecUncorr := 0, erCounts := erCount 1 0 s.link.erCounts } }
    else s
  else s

/-- Equalisation has exceeded 24 ms, or a lane has not locked: a fallback with EQ_TIMEOUT or LOCK, the lane a free value where the
rule names none (log 7). -/
def erEqFails (lockFailed : Bool) (s : State) : State :=
  if s.link.recovery && erAgreed s then
    erFallback (if lockFailed then 4 else 3) (Config.freeNat (draw s) % 8) (drawn 1 s)
  else s

/-- Uncorrectable codewords of one lane within 1 s are counted; more than 8 with AUTO_DOWNGRADE end ER and clear ER_ARM (02 R62). -/
def erErrorRate (lane count : Nat) (s : State) : State :=
  if erActive s then
    let s1 := bump 0x20 2 count { s with link := { s.link with erFecUncorr := satAdd s.link.erFecUncorr count } }
    if erAutoDowngrade s ∧ 8 < count then
      erFallback 5 lane { s1 with link := { s1.link with erCtl := s1.link.erCtl &&& 6 } }
    else s1
  else s

/-- Four consecutive marker mismatches on a lane (`laneLost`). -/
def erMarkerLoss (lane misses : Nat) (s : State) : State :=
  if erActive s ∧ 4 ≤ misses then erFallback 4 lane s else s

/-- The partner returns the link to 64 GT/s: this port has not failed. -/
def erPartnerLeaves (s : State) : State :=
  if s.link.up ∧ (erActive s = true ∨ (s.link.recovery = true ∧ erAgreed s = true)) then
    erRetrained { s with link := { s.link with
      rate := .gt64, recovery := false, erStatus := erStatusOf false (erAgreed s) (erFailed s) false (erCause s) } }
  else s

/-! ### The rows -/

/-- The port works: the always-on reset is over and the link island runs. -/
def portUp (s : State) : Bool := decide (s.boot.mode ≠ .inReset) && s.link.up

/-- A row of the link, with no effect while the link is down (log 2). -/
def onLink (f : State → State) (s : State) : Result := .next (if portUp s then f s else s)

/-- ER_CTL_WRITE. -/
def execErCtlWrite (value : BitVec 32) (s : State) : Result := onLink (erCtlWrite value) s

/-- ER_OFFER. -/
def execErOffer (version : BitVec 8) (precode : Bool) (s : State) : Result := onLink (erOffered version precode) s

/-- ER_ACCEPT. -/
def execErAccept (version : BitVec 8) (precode : Bool) (s : State) : Result := onLink (erAccepted version precode) s

/-- ER_OFFER_TIMEOUT. -/
def execErOfferTimeout (s : State) : Result := onLink erSilent s

/-- ER_RECOVERY_SPEED. -/
def execErRecoverySpeed (s : State) : Result := onLink erRecovery s

/-- ER_LOCK_ACHIEVED. -/
def execErLockAchieved (markers : List Nat) (s : State) : Result := onLink (erLocked markers) s

/-- ER_EQ_TIMEOUT. -/
def execErEqTimeout (lockFailed : Bool) (s : State) : Result := onLink (erEqFails lockFailed) s

/-- ER_ERROR_RATE_FALLBACK. -/
def execErErrorRateFallback (lane count : Nat) (s : State) : Result := onLink (erErrorRate lane count) s

/-- ER_MARKER_LOSS_FALLBACK. -/
def execErMarkerLossFallback (lane misses : Nat) (s : State) : Result := onLink (erMarkerLoss lane misses) s

/-- PARTNER_ER_FALLBACK. -/
def execPartnerErFallback (s : State) : Result := onLink erPartnerLeaves s

end Sys2Proof.Machine
end

