-- ==== Sys2Proof/Machine/Nor.lean ====
section
/-! DEFINITION. The pattern memory (14 R407 to R412, 13 R393 to R398, 16 R480, R481): NOR bytes, programs and erases, sector
remap, the start log, the event ring and the health records. Addresses are logical: a logged sector that a spare replaces is
reached through it. -/
namespace Sys2Proof.Machine

/-! ### Bytes, programs, erases (14 R407 to R409) -/

/-- `n` NOR bytes at a physical address. -/
def norRaw (s : State) (a n : Nat) : List Byte := SMap.getList 0xFF s.nor.mem a n

/-- Programs bytes: each bit can only change from 1 to 0. -/
def programBytes : Nat → List Byte → Mem → Mem
  | _, [], m => m
  | a, b :: bs, m => programBytes (a + 1) bs (SMap.put 0xFF m a (SMap.find 0xFF m a &&& b))

/-- Whether a program would raise a bit. -/
def bitRise (s : State) (a : Nat) (bytes : List Byte) : Bool :=
  (List.range bytes.length).any (fun i =>
    let old := SMap.find 0xFF s.nor.mem (a + i)
    decide (old &&& bytes.getD i 0 ≠ bytes.getD i 0))

/-- Whether any byte of a physical range has been programmed. -/
def norListed (s : State) (a n : Nat) : Bool := s.nor.mem.any (fun e => decide (a ≤ e.1 ∧ e.1 < a + n))

/-! ### Logged regions and remap (14 R411, R412) -/

/-- The first logged sector; logged sectors are numbered from it in address order. -/
def loggedBase : Nat := 3073

/-- The four remap entries of a logged sector. -/
def remapWords (s : State) (l : Nat) : List Nat :=
  (List.range 4).map (fun e => natOf (norRaw s (0x2000 + 16 * l + 4 * e) 4))

/-- The spare sector that a remap entry names: none where its halves are not complements. -/
def spareOf (w : Nat) : Option Nat := if w % 65536 + w / 65536 = 65535 ∧ w ≠ 4294967295 then some (w % 65536) else none

/-- A remap entry is unused. -/
def unusedEntry (w : Nat) : Bool := decide (w = 4294967295)

/-- The physical sector that serves for a logged sector. -/
def servingSector (s : State) (l : Nat) : Nat := (((remapWords s l).filterMap spareOf).getLast?).getD (loggedBase + l)

/-- The physical address of a logical one. -/
def norAddr (s : State) (a : Nat) : Nat :=
  let sec := a / 65536
  if loggedBase ≤ sec ∧ sec < loggedBase + 352 then servingSector s (sec - loggedBase) * 65536 + a % 65536 else a

/-- `n` NOR bytes at a logical address within one sector. -/
def norRead (s : State) (a n : Nat) : List Byte := norRaw s (norAddr s a) n

/-- Programs bytes at a logical address within one sector. -/
def norProgram (a : Nat) (bytes : List Byte) (s : State) : State :=
  { s with nor := { s.nor with mem := programBytes (norAddr s a) bytes s.nor.mem } }

/-- Erases the sector of a logical address. -/
def norErase (sector : Nat) (s : State) : State :=
  { s with nor := { s.nor with mem := SMap.clearRange s.nor.mem (norAddr s (sector * 65536)) 65536 } }

/-- Spare sectors that remap entries name. -/
def namedSpares (s : State) : List Nat :=
  if norListed s 0x2000 0x1600 then dedup ((List.range 352).flatMap (fun l => (remapWords s l).filterMap spareOf)) else []

/-- Free spare sectors (16 Table 144, SPARES 18). -/
def freeSectors (s : State) : Nat := 671 - (namedSpares s).length

/-- A logged sector fails: the lowest-numbered free spare serves for it, recorded in its first unused entry; with all four used,
or no spare left, it is withdrawn. Either writes an event (14 R411). -/
def replaceSector (l : Nat) (s : State) : State :=
  let named := namedSpares s
  match ((List.range 4).find? (fun e => unusedEntry ((remapWords s l).getD e 0))),
        ((List.range' 3425 671).find? (fun k => decide (k ∉ named))) with
  | some e, some k =>
    raise 0x0043 1 l k 0 (norProgram (0x2000 + 16 * l + 4 * e) (bytesOf 2 k ++ bytesOf 2 (65535 - k)) s)
  | _, _ => raise 0x0043 1 l (2 ^ 64 - 1) 0 { s with nor := { s.nor with gone := s.nor.gone ++ [l] } }

/-! ### The start log (13 R393 to R397) -/

/-- The address of a start-log block. -/
def logAddr (b : Nat) : Nat := 0xC010000 + 4096 * b

/-- The ERASE_MARK. -/
def eraseMark : List Byte := bytesOf 4 0x53544C47 ++ bytesOf 4 0xACABB3B8

/-- A logged sector has been withdrawn: its region runs one sector short (14 R411; log 100). -/
def isGone (s : State) (l : Nat) : Bool := decide (l ∈ s.nor.gone)

/-- A block is usable: its sector not withdrawn, its ERASE_MARK exact and every other byte erased. -/
def blockUsable (s : State) (b : Nat) : Bool :=
  let a := norAddr s (logAddr b)
  !isGone s (b / 16) && decide (norRead s (logAddr b) 8 = eraseMark) && s.nor.mem.all (fun e => !decide (a + 8 ≤ e.1 ∧ e.1 < a + 4096))

/-- The ATTEMPT word of a block. -/
def attemptOf (s : State) (b : Nat) : Nat := natOf (norRead s (logAddr b + 8) 8)

/-- Outcome bits of an ATTEMPT word that are programmed: SUCCESS, FAILED, HELD, PIN_ABORT from bit 33. -/
def outcomeBits (w : Nat) : List Nat := (List.range 4).filter (fun i => !bitOf w (33 + i))

/-- A word is well-formed (13 R394). -/
def wellFormedWord (w : Nat) : Bool :=
  !bitOf w 32 && decide (bitsOf w 37 3 = 7 ∧ bitsOf w 54 10 = 1023) && decide ((outcomeBits w).length ≤ 1)

/-- Blocks whose word is well-formed, with the words. -/
def wellFormedBlocks (s : State) : List (Nat × Nat) :=
  ((List.range 256).filter (fun b => norListed s (norAddr s (logAddr b)) 16)).filterMap (fun b =>
    let w := attemptOf s b
    if wellFormedWord w then some (b, w) else none)

/-- The modulus of SEQ. -/
def seqMod : Nat := 4294967295

/-- The newest well-formed word: no other has a SEQ from w + 1 to w + 256 (13 R396). -/
def newestWord (s : State) : Option (Nat × Nat) :=
  let ws := wellFormedBlocks s
  ws.find? (fun e => ws.all (fun x => !(let d := (x.2 % 2 ^ 32 + seqMod - e.2 % 2 ^ 32) % seqMod
                                        decide (1 ≤ d ∧ d ≤ 256))))

/-- Words from one on backwards in SEQ: a record `n` starts before SEQ `q`. -/
def wordOfSeq (s : State) (q : Nat) : Option (Nat × Nat) := (wellFormedBlocks s).find? (fun e => decide (e.2 % 2 ^ 32 = q))

/-- SEQ one earlier. -/
def prevSeq (q : Nat) : Nat := (q + seqMod - 1) % seqMod

/-- F of 13 R397 over `n` blocks backwards in the ring from block `x`: FAILED and unfinished records count, a word that is not
well-formed is unfinished (13 R394), PIN_ABORT is passed over, SUCCESS and HELD stop the count. -/
def countFailures (s : State) : Nat → Nat → Nat
  | 0, _ => 0
  | n + 1, x =>
    let w := attemptOf s x
    let before := countFailures s n ((x + 255) % 256)
    if w = 2 ^ 64 - 1 then before
    else if ¬ wellFormedWord w then 1 + before
    else match outcomeBits w with
      | [] => 1 + before
      | o :: _ => if o = 1 then 1 + before else if o = 3 then before else 0

/-- The newest record whose outcome is SUCCESS, from SEQ `q` backwards. -/
def newestSuccess (s : State) : Nat → Nat → Option (Nat × Nat)
  | 0, _ => none
  | n + 1, q =>
    match wordOfSeq s q with
    | none => none
    | some e => if outcomeBits e.2 = [0] then some e else newestSuccess s n (prevSeq q)

/-- The ERASE_MARKs of a start-log sector's 16 blocks are programmed. -/
def markSector (k : Nat) (s : State) : State :=
  (List.range 16).foldl (fun s' i => norProgram (logAddr (16 * k + i)) eraseMark s') s

/-- The first usable block from `b` on in ring order. -/
def usableFrom (s : State) (b : Nat) : Option Nat := ((List.range 256).map (fun i => (b + i) % 256)).find? (blockUsable s)

/-- A detail entry of the start log (13 R395). -/
def logEntry (type : Nat) (payload : List Byte) : List Byte :=
  bytesOf 4 (type + payload.length * 256) ++ payload ++ List.replicate (4 * ceilDiv payload.length 4 - payload.length) 0

/-- Appends a detail entry to the current start's block where it fits. -/
def appendEntry (type : Nat) (payload : List Byte) (s : State) : State :=
  match s.boot.logBlock with
  | none => s
  | some b =>
    let e := logEntry type payload
    if s.boot.logNext + e.length ≤ 4096 then
      let s1 := norProgram (logAddr b + s.boot.logNext) e s
      { s1 with boot := { s1.boot with logNext := s1.boot.logNext + e.length } }
    else s

/-! ### The event ring (16 R480) -/

/-- The address of ring sector `k`. -/
def ringAddr (k : Nat) : Nat := 0xC710000 + 65536 * k

/-- The header of a ring sector or a health copy: magic, sequence, CRC-32. -/
def logHeader (magic seq : Nat) : List Byte :=
  let h := bytesOf 4 magic ++ bytesOf 4 seq
  h ++ bytesOf 4 (crc32 h).toNat

/-- The sequence of a ring sector with a valid header. -/
def ringSeq (s : State) (k : Nat) : Option Nat :=
  if norListed s (norAddr s (ringAddr k)) 128 then
    let h := norRead s (ringAddr k) 12
    if h = logHeader 0x4C594556 (numAt h 4 4) then some (numAt h 4 4) else none
  else none

/-- The ring sector of the highest sequence. -/
def newestRing (s : State) : Option (Nat × Nat) :=
  (List.range 240).foldl (fun best k => match ringSeq s k, best with
    | some q, none => some (k, q)
    | some q, some b => if b.2 < q then some (k, q) else some b
    | none, b => b) none

/-- Records programmed in a ring sector. -/
def ringFill (s : State) (k : Nat) : Nat :=
  ((List.range 511).find? (fun i => !norListed s (norAddr s (ringAddr k + 128 * (i + 1))) 128)).getD 511

/-- The next record position of the ring after a start. -/
def ringFind (s : State) : Nat :=
  match newestRing s with
  | none => 0
  | some b => (b.1 * 511 + ringFill s b.1) % 122640

/-- The record position of the ring from a position on, past withdrawn sectors; each round passes one. -/
def ringFrom (s : State) : Nat → Nat → Nat
  | 0, p => p
  | n + 1, p => if isGone s (112 + p / 511) then ringFrom s n ((p / 511 + 1) % 240 * 511) else p

/-- The position of the next record. -/
def ringNext (s : State) : Nat := if s.nor.gone.isEmpty then s.tele.ringPos else ringFrom s 240 s.tele.ringPos

/-- What the NOR controller does next for the event ring: erase or head the sector it enters, or program a record. -/
def ringOp (s : State) : Option NorOp :=
  match s.tele.norQueue with
  | [] => none
  | r :: _ =>
    let p := ringNext s
    let k := p / 511
    let a := ringAddr k
    if p % 511 = 0 ∧ (ringSeq s k).isSome ∧ ((newestRing s).map (·.1)) ≠ some k then
      some (.erasing (a / 65536) false)
    else if (ringSeq s k).isNone then
      if norListed s (norAddr s a) 65536 then some (.erasing (a / 65536) false)
      else some (.program a (logHeader 0x4C594556 (((newestRing s).map (·.2 + 1)).getD 0)) false)
    else some (.program (a + 128 * (p % 511 + 1)) r false)

/-! ### Health records (16 R481, 12 R368) -/

/-- An entry of the health records. -/
def healthEntry (kind unit target : Nat) : List Byte :=
  let lo := kind + unit % 4096 * 16
  bytesOf 2 lo ++ bytesOf 4 target ++ bytesOf 2 (65535 - lo)

/-- The address of copy `c` of the health records. -/
def healthAddr (c : Nat) : Nat := 0xC610000 + c * 524288

/-- An entry is programmed into both copies, one after the other; the first entry makes the headers. -/
def healthAppend (kind unit target : Nat) (s : State) : State :=
  let i := s.tele.healthPos
  let one (c : Nat) : List NorOp :=
    (if i = 0 then [NorOp.program (healthAddr c) (logHeader 0x4C594852 0) false] else [])
    ++ [NorOp.program (healthAddr c + 128 + 8 * i) (healthEntry kind unit target) false]
  { s with nor := { s.nor with ops := s.nor.ops ++ one 0 ++ one 1 }, tele := { s.tele with healthPos := i + 1 } }

/-- A stored entry: kind, unit, target. -/
def healthParse (w : Nat) : Option (Nat × Nat × Nat) :=
  if w % 65536 + w / 2 ^ 48 = 65535 ∧ 1 ≤ w % 16 ∧ w % 16 ≤ 3 then some (w % 16, bitsOf w 4 12, bitsOf w 16 32) else none

/-- Entry words of copy `c` up to the end of its list. -/
def healthWords (s : State) (c : Nat) : Nat → Nat → List Nat
  | 0, _ => []
  | n + 1, i =>
    let a := healthAddr c + 128 + 8 * i
    if norListed s (norAddr s a) 8 then natOf (norRead s a 8) :: healthWords s c n (i + 1) else []

/-- Entries present in either copy, and the number of entry places used. -/
def healthRead (s : State) : List (Nat × Nat × Nat) × Nat :=
  let a := healthWords s 0 65520 0
  let b := healthWords s 1 65520 0
  (dedup ((a ++ b).filterMap healthParse), max a.length b.length)

/-! ### Operations in progress (14 R409 to R411, R431) -/

/-- The operation the NOR performs: the oldest waiting, or the event ring's. -/
def norHead (s : State) : Option NorOp := s.nor.ops.head?.or (ringOp s)

/-- The operation that a program completion ends: while an erase is suspended, a program of another sector (14 R410). -/
def programHead (s : State) : Option NorOp :=
  match norHead s with
  | some (.program a b w) => some (.program a b w)
  | some (.erasing k _) => if s.nor.suspended then s.nor.ops.find? (fun o => match o with
      | .program a _ _ => decide (a / 65536 ≠ k)
      | .erasing _ _ => false) else none
  | none => none

/-- Removes the first occurrence of an operation. -/
def removeOp (o : NorOp) : List NorOp → List NorOp
  | [] => []
  | x :: xs => if x = o then xs else x :: removeOp o xs

/-- A window command is running (14 R430). -/
def windowBusy (s : State) : Bool := s.nor.ops.any (fun o => match o with
  | .program _ _ w => w
  | .erasing _ w => w)

/-- Sets LAST_RESULT. -/
def setResult (r : Nat) (s : State) : State := { s with nor := { s.nor with lastResult := r } }

/-- PWIN_STATE (14 Table 135). -/
def pwinState (s : State) : Nat :=
  let susp := s.nor.suspended && (match s.nor.ops.head? with
    | some (.erasing _ w) => w
    | _ => false)
  (s.nor.enabled || decide (s.boot.mode = .fettle)).toNat + s.nor.armed.toNat * 2 + (windowBusy s).toNat * 4 + susp.toNat * 8 + s.nor.lastResult % 16 * 16

/-- The logged sector of a logical address. -/
def loggedOf (a : Nat) : Option Nat :=
  if loggedBase ≤ a / 65536 ∧ a / 65536 < loggedBase + 352 then some (a / 65536 - loggedBase) else none

/-- The event ring moves past the record just programmed. -/
def ringAdvance (a : Nat) (s : State) : State :=
  if ringAddr 0 ≤ a ∧ a < ringAddr 240 ∧ a % 65536 ≠ 0 then
    { s with tele := { s.tele with norQueue := s.tele.norQueue.drop 1, ringPos := (ringNext s + 1) % 122640 } }
  else s

/-- A background command's erase of a sector is counted, and the command ends with its last sector (14 R425). -/
def bgErased (k : Nat) (s : State) : State :=
  match s.nor.bg, s.nor.session with
  | some b, some x =>
    let base := (match x.target with
      | .cope => 1
      | .drag => 1537)
    if b.1 = 0xC010 ∧ base ≤ k ∧ k < base + 1536 then
      { s with nor := { s.nor with bg := if b.2 + 1 = ceilDiv x.len 65536 then none else some (b.1, b.2 + 1) } }
    else s
  | _, _ => s

/-- A program of the commit record ends its background command, and with success the session (14 R423, R427). -/
def bgProgrammed (ok : Bool) (a : Nat) (s : State) : State :=
  match s.nor.bg with
  | some b => if b.1 = 0xC012 ∧ (a = 0x10000 + 0xFFC0 ∨ a = 0x6010000 + 0xFFC0) then
      { s with nor := { s.nor with bg := none, session := if ok then none else s.nor.session } } else s
  | none => s

/-- NOR_PROGRAM_COMPLETE: the bytes are programmed; a failed read-back in a logged sector engages a spare, in which the program
is repeated, or withdraws the sector; in a window command it sets NOR_FAIL (14 R409, R411). -/
def norProgramComplete (ok : Bool) (s : State) : State :=
  match programHead s with
  | some (.program a bytes w) =>
    let s0 := { s with nor := { s.nor with ops := removeOp (.program a bytes w) s.nor.ops } }
    if ok then
      let s1 := bgProgrammed true a (norProgram a bytes s0)
      let s2 := if s.nor.ops.isEmpty then ringAdvance a s1 else s1
      if w then setResult 0 s2 else s2
    else match loggedOf a with
      | some l => let s1 := replaceSector l s
                  if isGone s1 l then replaceSector l s0 else s1
      | none => if w then setResult 7 s0 else bgProgrammed false a s0
  | _ => s

/-- NOR_ERASE_COMPLETE: the sector is erased; a start-log sector takes its ERASE_MARKs; a failed erase of a logged sector engages
a spare (13 R393, 14 R408, R411). -/
def norEraseComplete (ok : Bool) (s : State) : State :=
  match norHead s, s.nor.suspended with
  | some (.erasing k w), false =>
    let s0 := { s with nor := { s.nor with ops := removeOp (.erasing k w) s.nor.ops } }
    let s1 := if ok then norErase k s0 else (match loggedOf (k * 65536) with
      | some l => replaceSector l s0
      | none => s0)
    let s2 := if loggedBase ≤ k ∧ k < loggedBase + 16 then markSector (k - loggedBase) s1 else s1
    let s3 := bgErased k s2
    if w then setResult (if ok then 0 else 7) s3 else s3
  | _, _ => s

/-- NOR_ERASE_SUSPEND: an erase that has run 1 ms is suspended for a read (14 R410). -/
def norSuspend (runNs : Nat) (s : State) : State :=
  match norHead s with
  | some (.erasing _ _) => if 1000000 ≤ runNs then { s with nor := { s.nor with suspended := true } } else s
  | _ => s

/-- NOR_ERASE_RESUME: with no read pending, or after 200 µs (14 R410). -/
def norResume (readPending : Bool) (suspendedNs : Nat) (s : State) : State :=
  if !readPending || decide (200000 ≤ suspendedNs) then { s with nor := { s.nor with suspended := false } } else s

/-! ### The rows -/

/-- NOR_PROGRAM_COMPLETE. -/
def execNorProgramComplete (ok : Bool) (s : State) : Result := .next (fenced (norProgramComplete ok) s)

/-- NOR_ERASE_COMPLETE. -/
def execNorEraseComplete (ok : Bool) (s : State) : Result := .next (fenced (norEraseComplete ok) s)

/-- NOR_ERASE_SUSPEND. -/
def execNorEraseSuspend (runNs : Nat) (s : State) : Result := .next (fenced (norSuspend runNs) s)

/-- NOR_ERASE_RESUME. -/
def execNorEraseResume (readPending : Bool) (suspendedNs : Nat) (s : State) : Result := .next (fenced (norResume readPending suspendedNs) s)

end Sys2Proof.Machine
end

