-- ==== Sys2Proof/Machine/Integrity.lean ====
section
/-! DEFINITION. Data integrity (12): correctable and uncorrectable errors, repair, leaky buckets, and the hub control processors
with the management watchdog's expiry (13 R405). -/
namespace Sys2Proof.Machine

/-! ### Correctable errors (12 R368 to R372) -/

/-- The regions of CE and UE: 741 (16 Table 144). -/
def regionCount : Nat := 741

/-- One correctable error in a region: counted; the bucket rises, and above 64 raises CE_RATE and empties (12 R372). -/
def countCe (region : Nat) (s : State) : State :=
  if region < regionCount then
    let s1 := bump 0x10 region 1 s
    let n := SMap.find 0 s1.integ.buckets region + 1
    if 64 < n then raise 0x0011 1 region 0 0 { s1 with integ := { s1.integ with buckets := SMap.put 0 s1.integ.buckets region 0 } }
    else { s1 with integ := { s1.integ with buckets := SMap.put 0 s1.integ.buckets region n } }
  else s

/-- Remap entries of a stack channel in use. -/
def remapUsed (s : State) (chan : Nat) : Nat :=
  ((List.range 16).filter (fun e => decide (SMap.find 0 s.integ.remap (16 * chan + e) ≠ 0))).length

/-- The lowest unused remap entry of a stack channel. -/
def freeRemap (s : State) (chan : Nat) : Option Nat :=
  (List.range 16).find? (fun e => decide (SMap.find 0 s.integ.remap (16 * chan + e) = 0))

/-- A remap entry is engaged for a row segment. -/
def setRemap (chan e segment : Nat) (s : State) : State :=
  { s with integ := { s.integ with remap := SMap.put 0 s.integ.remap (16 * chan + e) (segment + 1) } }

/-- The lowest unused spare word of an SRAM block of cells. -/
def freeWord (s : State) (ram : Nat) : Option Nat :=
  (List.range 4).find? (fun e => decide (SMap.find 0 s.integ.sram (4 * ram + e) = 0))

/-- A spare word is engaged. -/
def setWord (ram e word : Nat) (s : State) : State :=
  { s with integ := { s.integ with sram := SMap.put 0 s.integ.sram (4 * ram + e) (word + 1) } }

/-- Pool pages of 64 KiB hold 64 row segments of 1 KiB (12 R368, R369; log 29). -/
def poolPageOf (segment : Nat) : Nat := segment / 64

/-- A T1 home leaves a withdrawn page: to another channel of its stack, else it is demoted (12 R369). -/
def moveHome (k : Nat) (s : State) : State :=
  match pageAt s k with
  | none => s
  | some p => match p.home with
    | .t1 st _ => match bestChan s st p.tenant with
      | some c => modPage k (fun q => { q with home := .t1 st c }) s
      | none => repairFrames k (demotePage k false s)
    | _ => s

/-- A frame leaves a withdrawn page, or waits for another. -/
def moveFrame (f : Frame) (s : State) : State :=
  let dest := bestChan s f.stack f.tenant
  { s with tier := { s.tier with frames := s.tier.frames.map (fun (g : Frame) =>
      if g.fid = f.fid then (match dest with
        | some c => { g with chan := c }
        | none => { g with placed := false, filled := false }) else g) } }

/-- One page of working memory on a channel moves to another channel of the stack; without room it waits where it is. -/
def moveWork (t id st ch tenant : Nat) (s : State) : State :=
  match bestChan s st tenant with
  | none => s
  | some c => modStep t id (fun p => { p with work :=
      (p.work.map (fun w => if w.1 = st ∧ w.2.1 = ch then (w.1, w.2.1, w.2.2 - 1) else w)) ++ [(st, c, 1)] }) s

/-- The pool page that holds a fault is withdrawn until the next start (12 R369). -/
def withdrawPage (chan segment : Nat) (place : DramPlace) (s : State) : State :=
  let s1 := raise 0x0012 1 chan (poolPageOf segment) 0
    { s with tier := { s.tier with withdrawn := SMap.modify 0 s.tier.withdrawn chan (· + 1) } }
  match place with
  | .home k => moveHome k s1
  | .frame n => (match s1.tier.frames.find? (fun f => f.fid == n) with
    | some f => moveFrame f s1
    | none => s1)
  | .working t id => (match openStep s1 t id with
    | some p => moveWork t id (chan / 32) (chan % 32) p.tenant s1
    | none => s1)
  | _ => s1

/-- A hard DRAM fault: a remap entry, else by where it lies (12 R368, R369). -/
def hardDram (chan segment : Nat) (place : DramPlace) (s : State) : State :=
  match freeRemap s chan with
  | some e => raise 0x0010 0 chan e 0 (healthAppend 1 chan segment (setRemap chan e segment s))
  | none => match place with
    | .reserved => s
    | p => withdrawPage chan segment p s

/-- A correctable DRAM error on one of the 512 stack channels. -/
def dramCe (chan segment : Nat) (hard : Bool) (place : DramPlace) (s : State) : State :=
  if chan < 512 then
    let s1 := countCe chan s
    if hard then hardDram chan segment place s1 else s1
  else s

/-- A correctable SRAM error: a hard fault engages a spare word, without one the word stays in use (12 R370). -/
def sramCe (region ram word : Nat) (hard : Bool) (s : State) : State :=
  let s1 := countCe region s
  if hard && decide (ram < 4496) then
    match freeWord s1 ram with
    | some e => raise 0x0010 0 region e 0 (healthAppend 2 ram word (setWord ram e word s1))
    | none => s1
  else s1

/-- Every bucket falls by 1 (12 R372). -/
def leak (s : State) : State :=
  { s with integ := { s.integ with buckets := SMap.mapVals 0 (fun _ n => n - 1) s.integ.buckets } }

/-- The patrol of core SRAM, the hub cache and the processor memories (12 R374): the regions from 672 to 724. -/
def patrolSram (found : List (Nat × Nat × Nat × Bool)) (s : State) : State :=
  found.foldl (fun s' f => if 672 ≤ f.1 ∧ f.1 < 725 then sramCe f.1 f.2.1 f.2.2.1 f.2.2.2 s' else s') s

/-! ### Lanes (12 R371) -/

/-- Failed data lanes of a stack link's direction (0 out, 1 in), as a set of lane numbers. -/
def laneSet (s : State) (link dir : Nat) : Nat := SMap.find 0 s.integ.lanes (2 * link + dir)

/-- Lane repair of one direction: newly failed lanes take spares and enter the health records; beyond 4 the direction runs at
half width (12 R371; log 29). -/
def repairLanes (link dir : Nat) (failed : List Nat) (s : State) : State :=
  let old := laneSet s link dir
  let fresh := (dedup failed).filter (fun l => !bitOf old l)
  let new := fresh.foldl (fun m l => m + 2 ^ l) old
  let s1 := fresh.foldl (fun s' l => healthAppend 3 link (256 * dir + l) s')
    { s with integ := { s.integ with lanes := SMap.put 0 s.integ.lanes (2 * link + dir) new } }
  if 4 < popCount 256 new ∧ popCount 256 old ≤ 4 then raise 0x0013 1 link dir 0 s1 else s1

/-- LANE_RETRAIN: more than 1,000 retries counted, then lane repair of both directions. -/
def retrain (link : Nat) (outFailed inFailed : List Nat) (s : State) : State :=
  if link < 16 then
    let s1 := bump 0x20 (4 + link) (1001 + Config.freeNat (draw s)) (drawn 1 s)
    repairLanes link 1 inFailed (repairLanes link 0 outFailed s1)
  else s

/-- Spare lanes still free (16 Table 144, SPARES 21). -/
def freeLanes (s : State) : Nat := 128 - sumOf (s.integ.lanes.map (fun e => min 4 (popCount 256 e.2)))

/-! ### The management watchdog's expiry (13 R405) -/

/-- What the WATCHDOG entry says of the NOR: none, program, erase, erase suspended. -/
def norActivity (s : State) : Nat :=
  match norHead s with
  | none => 0
  | some (.program _ _ _) => 1
  | some (.erasing _ _) => if s.nor.suspended then 3 else 2

/-- The watchdog expires: processors halt, FAULT# and the fatal AER error, a WATCHDOG entry, and the latch for the next start. -/
def expire (duty : Nat) (s : State) : State :=
  let s1 := fenced (appendEntry 0x03 (bytesOf 8 (now s).toNat ++ bytesOf 1 duty ++ bytesOf 1 (norActivity s) ++ bytesOf 6 0)) s
  emit .aerFatalInternal { s1 with
    boot := { s1.boot with mode := .expired, faultPin := true, wdRunning := false },
    aon := { s1.aon with wdLatch := true },
    link := aerLog 0x400000 0 s1.link,
    integ := { s1.integ with procs := SMap.mapVals {} (fun _ (p : Proc) => if p.st = .active then { p with st := .faulted } else p) s1.integ.procs } }

/-! ### Hub control processors (12 R378 to R380) -/

/-- Processor `p`. -/
def procOf (s : State) (p : Nat) : Proc := SMap.find {} s.integ.procs p

/-- Replaces processor `p`. -/
def setProc (p : Nat) (x : Proc) (s : State) : State :=
  { s with integ := { s.integ with procs := SMap.put {} s.integ.procs p x } }

/-- The lowest-numbered processor in a state. -/
def lowestProc (s : State) (st : ProcSt) : Option Nat := (List.range 36).find? (fun p => decide ((procOf s p).st = st))

/-- Processors in service. -/
def procsActive (s : State) : Nat := ((List.range 36).filter (fun p => decide ((procOf s p).st = .active))).length

/-- The lowest duty kind of a mask, 1 to 7. -/
def firstDuty (m : Byte) : Nat := ((List.range 8).find? (fun i => bitOf m.toNat i)).getD 0 + 1

/-- A duty that no processor takes: as the watchdog's expiry where it runs; during S1 to S4 the stage timer governs (13 R404). -/
def dutyLost (duty : Nat) (s : State) : State := if s.boot.wdRunning then expire duty s else s

/-- A processor faults: the lowest-numbered free spare takes its duties; with none, processors still in service take them, the
lowest-numbered first (log 29). Unreadable duty state, or nobody left, is as the watchdog's expiry (12 R379, R380). -/
def procFault (p : Nat) (dutyReadable : Bool) (s : State) : State :=
  let x := procOf s p
  if x.st = .spare then setProc p { st := .faulted } s
  else if x.st ≠ .active then s
  else
    let s1 := setProc p { st := .faulted } s
    if ¬ dutyReadable then dutyLost (firstDuty x.duties) s1
    else match lowestProc s1 .spare with
      | some q => fenced (fun y => raise 0x0023 1 p 0 q (setProc q { st := .active, duties := x.duties } y)) s1
      | none => match lowestProc s1 .active with
        | some q => fenced (fun y => raise 0x0024 2 p (procsActive y) 0
            (setProc q { procOf y q with duties := (procOf y q).duties ||| x.duties } y)) s1
        | none => dutyLost (firstDuty x.duties) s1

/-! ### Uncorrectable errors (12 R376, R377, Table 112) -/

/-- An uncorrectable error is counted for its region and reported with its row of Table 112. -/
def countUe (region row : Nat) (s : State) : State :=
  if region < regionCount then raise 0x0014 2 region row 0 (bump 0x11 region 1 s) else s

/-- The data of a General Media Event Record for a tundish line: its device address and an uncorrectable-error descriptor
(12 R377; layout PRESUMED from CXL 3.1, log 13). -/
def mediaEvent (line : Nat) : List Byte := bytesOf 8 (64 * line) ++ [1] ++ List.replicate 71 0

/-- A tile has consumed poison: its command ends with POISONED (12 Table 112). -/
def poisonCommand (t id : Nat) (s : State) : State := mediaStop t id stPoisoned s

/-- Working memory of a command holds poison: a record region's block stays unread and the command goes on (06 R190); anything else ends the
command (12 Table 112). -/
def poisonWork (t id : Nat) (block : Option Nat) (s : State) : State :=
  match block, heldOf s t id with
  | some b, some h =>
    if h.op = 0x30 ∨ (h.op = 0x31 ∧ bitOf (fld h.desc 1 1) 2 = false) ∨ (h.op = 0x32 ∧ fld h.desc 8 1 = 0)
    then modHeld t id (fun (y : Held) => { y with badBlocks := dedup (y.badBlocks ++ [b]) }) s
    else poisonCommand t id s
  | _, _ => poisonCommand t id s

/-- A unit becomes UNREADABLE: it leaves the write buffer and its map entry takes the state (11 Table 94). -/
def unitUnreadable (u : Nat) (s : State) : State :=
  reportLost stMediaError [u] (commitEntry [.state u 1 3]
    { s with fl := { s.fl with wbuf := s.fl.wbuf.filter (fun b => b.unit != u) } })

/-- The frame is discarded and filled again; the command whose tile has consumed the line ends POISONED. -/
def frameUe (n : Nat) (consumed : Option (Nat × Nat)) (s : State) : State :=
  let s1 := { s with tier := { s.tier with
    frames := s.tier.frames.map (fun (f : Frame) => if f.fid = n then { f with filled := false } else f) } }
  match consumed with
  | some c => poisonCommand c.1 c.2 s1
  | none => s1

/-! ### The rows -/

/-- DRAM_CORRECTABLE_ERROR. -/
def execDramCorrectableError (chan segment : Nat) (hard : Bool) (place : DramPlace) (s : State) : Result :=
  whenAlive (dramCe chan segment hard place) s

/-- SRAM_CORRECTABLE_ERROR. -/
def execSramCorrectableError (region ram word : Nat) (hard : Bool) (s : State) : Result := whenAlive (sramCe region ram word hard) s

/-- BUCKET_LEAK. -/
def execBucketLeak (s : State) : Result := whenAlive leak s

/-- DRAM_PATROL_READ: a line with an error is corrected and written back (12 R373); the governor may pause the patrol (15 Table 140). -/
def execDramPatrolRead (chan segment : Nat) (error hard : Bool) (place : DramPlace) (s : State) : Result :=
  whenAlive (fun x => if error && !x.gov.bgDram then dramCe chan segment hard place x else x) s

/-- SRAM_PATROL. -/
def execSramPatrol (found : List (Nat × Nat × Nat × Bool)) (s : State) : Result := whenAlive (patrolSram found) s

/-- LANE_RETRAIN. -/
def execLaneRetrain (link : Nat) (outFailed inFailed : List Nat) (s : State) : Result := whenAlive (retrain link outFailed inFailed) s

/-- PROCESSOR_FAULT. -/
def execProcessorFault (p : Nat) (dutyReadable : Bool) (s : State) : Result := .next (if alive s then procFault p dutyReadable s else s)

/-- PROCESSOR_PROGRESS_TIMEOUT: 100 ms without progress is a fault (12 R378). -/
def execProcessorProgressTimeout (p : Nat) (dutyReadable : Bool) (s : State) : Result := .next (if alive s then procFault p dutyReadable s else s)

end Sys2Proof.Machine
end

