-- ==== Sys2Proof/Machine/FlashOps.lean ====
section
/-! DEFINITION. The flash media at work (11): program, read and erase completions, relocations, garbage collection, folds,
checkpoints, wear levelling, refresh, retirement, die loss and the write-origin window. -/
namespace Sys2Proof.Machine

/-! ### Superblocks, blocks and dies -/

/-- Superblock `k`. -/
def sbOf (s : State) (k : Nat) : Superblock := SMap.find {} s.fl.sbs k

/-- Changes superblock `k`. -/
def modSb (k : Nat) (f : Superblock → Superblock) (s : State) : State :=
  { s with fl := { s.fl with sbs := SMap.modify {} s.fl.sbs k f } }

/-- Changes block `k`. -/
def modBlock (k : Nat) (f : Block → Block) (s : State) : State :=
  { s with fl := { s.fl with blocks := SMap.modify {} s.fl.blocks k f } }

/-- Changes die `k`. -/
def modDie (k : Nat) (f : Die → Die) (s : State) : State := { s with fl := { s.fl with dies := SMap.modify {} s.fl.dies k f } }

/-- Die `k`. -/
def dieOf (s : State) (k : Nat) : Die := SMap.find {} s.fl.dies k

/-- A die completes an operation: a run of failures ends. -/
def dieOk (k : Nat) (s : State) : State := modDie k (fun d => { d with fails := 0 }) s

/-- The island of a superblock key. -/
def sbIsland (k : Nat) : Nat := k / 42840

/-- Mapped units whose address satisfies a test. -/
def unitsWhere (s : State) (f : FlashAddr → Bool) : List Nat :=
  (s.fl.map.filter (fun (e : Nat × MapEntry) => decide (e.2.st = 1) && f e.2.addr)).map (·.1)

/-- Valid units of a superblock (11 R333). -/
def sbUnits (s : State) (k : Nat) : List Nat := unitsWhere s (fun a => sbKey s a == k)

/-- Valid units of a block. -/
def unitsOfBlock (s : State) (k : Nat) : List Nat := unitsWhere s (fun a => blockKey a == k)

/-- A superblock may be erased: closed, named by no map entry, with every relocation out of it durable (11 Table 99). -/
def canErase (s : State) (k : Nat) : Bool :=
  decide ((sbOf s k).st = .closed) && (sbUnits s k).isEmpty && s.fl.relocs.all (fun (r : Reloc) => r.sb != k)
  && s.fl.wbuf.all (fun b => (b.progAt.map (sbKey s)) != some k)

/-- Superblocks of an island: 16 positions of 2,520 blocks (11 R315). -/
def islandSbs : Nat := 40320

/-- The free pool of an island: erased or erasable superblocks (11 R333). -/
def freePool (s : State) (island : Nat) : Nat :=
  islandSbs - (s.fl.sbs.filter (fun (e : Nat × Superblock) => sbIsland e.1 == island && decide (e.2.st ≠ .free) && !canErase s e.1)).length

/-- The temperature of a flash island in 0.1 °C (16 Table 151, sensors 42 to 49). -/
def islandTemp (s : State) (island : Nat) : Int := s.gov.temps.getD (33 + island) 0

/-! ### Relocations (11 R334, Table 99) -/

/-- A unit is under relocation. -/
def relocating (s : State) (u : Nat) : Bool := s.fl.relocs.any (fun (r : Reloc) => r.units.any (fun x => x.unit == u))

/-- No new erase or relocation starts during the flush of 11 Table 101. -/
def flashStopped (s : State) : Bool := s.boot.flushing || s.gov.powerLost

/-- Step 1: the source's valid units are read (16 Table 144, FLASH_READ). -/
def startReloc (sb : Nat) (purpose : Purpose) (page : Option Nat) (units : List Nat) (s : State) : State :=
  let us := units.filter (fun u => !relocating s u)
  if us.isEmpty || flashStopped s then s
  else
    let s1 := us.foldl (fun s' u => bump 0x30 (faChan (mapOf s u).addr) 1 s') s
    { s1 with fl := { s1.fl with relocs := s1.fl.relocs ++
        [{ sb := sb, purpose := purpose, page := page, units := us.map (fun u => { unit := u, src := (mapOf s u).addr }) }] } }

/-- Changes the units of every relocation; one with none left ends. -/
def mapRelocs (f : RelocUnit → Option RelocUnit) (s : State) : State :=
  { s with fl := { s.fl with relocs := (s.fl.relocs.map (fun (r : Reloc) =>
      { r with units := r.units.filterMap f })).filter (fun (r : Reloc) => !r.units.isEmpty) } }

/-- A refresh of a block (11 R344). -/
def refreshBlock (k : Nat) (s : State) : State :=
  startReloc (sbKey s (blockAddr k)) .refresh none (unitsOfBlock s k) s

/-! ### Retirement (11 R353) -/

/-- Bytes of a QLC-mode block. -/
def blockCapacity : Nat := 25165824

/-- A block counts toward the spare capacity: those of primary dies and of engaged spares (11 R350). -/
def countsSpare (s : State) (k : Nat) : Bool :=
  let a := blockAddr k
  decide (faPos a < 16) || (dieOf s (dieKey a)).serves.isSome

/-- A block goes to the slag list with its RETIRE record and event (11 R353, Table 104). -/
def retireBlock (k reason : Nat) (s : State) : State :=
  if (SMap.find {} s.fl.blocks k).retired.isSome then s
  else
    let s1 := commitEntry [.retire k reason] s
    let s2 := { s1 with fl := { s1.fl with spareBytes := s1.fl.spareBytes - (if countsSpare s k then blockCapacity else 0) } }
    endurance (raise 0x0008 0 (blockAddr k).toNat reason 0 s2)

/-- A block that has failed retires once no map entry names it (11 R336); until then its reason is kept. -/
def doomBlock (k reason : Nat) (s : State) : State :=
  if (unitsOfBlock s k).isEmpty then retireBlock k reason s
  else modBlock k (fun b => { b with doomed := some (b.doomed.getD reason) }) s

/-- Failed blocks that no map entry names any longer retire. -/
def settleDoomed (s : State) : State :=
  s.fl.blocks.foldl (fun s' (e : Nat × Block) => match e.2.doomed with
    | some r => if (unitsOfBlock s' e.1).isEmpty then retireBlock e.1 r s' else s'
    | none => s') s

/-! ### Programs (11 R328, R329, Table 97) -/

/-- Where staged data go: SLC while the SLC buffer has room, else QLC. -/
def stagedDest (s : State) : SbState := if slcUse s < slcSize s then .openSlc else .openQlc

/-- The destination of a unit (11 Table 97). -/
def destOf (s : State) (u : Nat) : SbState :=
  if storeBase ≤ u then .openQlc
  else match (slotOfUnit s u).bind (pageAt s) with
    | some p => (match p.home with
      | .t2 => .openSlc
      | .t3 => .openQlc
      | .t1 _ _ => stagedDest s)
    | none => stagedDest s

/-- Where a unit stands or is about to stand: its programmed image in the buffer, its copy, or its map entry. -/
def placeOf (s : State) (u : Nat) : Option FlashAddr :=
  match s.fl.wbuf.find? (fun b => b.unit == u) with
  | some b => b.progAt
  | none => match s.fl.relocs.findSome? (fun (r : Reloc) => r.units.find? (fun x => x.unit == u && decide (x.stage < 3))) with
    | some x => if x.stage = 0 then none else some x.copy
    | none => if (mapOf s u).st = 1 then some (mapOf s u).addr else none

/-- The four units of a tier page go to four different channels of one island (01 Table 9, 11 Table 93). -/
def spreads (s : State) (u : Nat) (a : FlashAddr) : Bool :=
  match slotOfUnit s u with
  | none => true
  | some k => (List.range 4).all (fun i =>
      let v := slotUnit s k + i
      v == u || (match placeOf s v with
        | some b => decide (faChan b ≠ faChan a ∧ faChan b / 16 = faChan a / 16)
        | none => true))

/-- A program to an address passes: the address lies in the geometry, on a die that serves its channel and is not suspended, in a
block not retired and a page not programmed since its erase. -/
def canProgram (s : State) (a : FlashAddr) : Bool :=
  let d := dieOf s (dieKey a)
  addrOk (sbOf s (sbKey s a)).slc a && !d.lost && !d.suspended && (decide (faPos a < 16) || d.serves.isSome)
  && (SMap.find {} s.fl.blocks (blockKey a)).retired.isNone && (unitsWhere s (fun b => b == a)).isEmpty
  && s.fl.wbuf.all (fun b => b.progAt != some a) && (tagAt s a).isNone

/-- The member blocks of a superblock: `(channel, plane)` pairs of its island. -/
def members (island : Nat) : List (Nat × Nat) :=
  (List.range 16).flatMap (fun i => (List.range 4).map (fun p => (16 * island + i, p)))

/-- The key of the member block of a superblock; an engaged spare die takes its lost die's place. -/
def memberKey (s : State) (pos block : Nat) (m : Nat × Nat) : Nat :=
  let p := if (dieOf s (m.1 * 17 + 16)).serves = some pos then 16 else pos
  ((m.1 * 17 + p) * 4 + m.2) * 2520 + block

/-- A superblock is free for opening. -/
def sbFree (s : State) (k : Nat) : Bool := decide ((sbOf s k).st = .free) && !(sbOf s k).reserve

/-- The wear of a superblock: that of its members, but for retired ones (11 R342; log 99). -/
def sbWear (s : State) (k : Nat) : Nat :=
  sumOf ((members (sbIsland k)).map (fun m =>
    let b := SMap.find {} s.fl.blocks (memberKey s (k / 2520 % 17) (k % 2520) m)
    if b.retired.isSome then 0 else b.wear20))

/-- No free superblock of the island has less wear. -/
def leastWorn (s : State) (k : Nat) : Bool :=
  decide (sbWear s k = 0)
  || (List.range islandSbs).all (fun i => !sbFree s (sbIsland k * 42840 + i) || decide (sbWear s k ≤ sbWear s (sbIsland k * 42840 + i)))

/-- No free superblock of the island has more wear: one that has any holds a block of the block table. -/
def mostWorn (s : State) (k : Nat) : Bool :=
  s.fl.blocks.all (fun (e : Nat × Block) =>
    let j := sbKey s (blockAddr e.1)
    decide (sbIsland j ≠ sbIsland k) || !sbFree s j || decide (sbWear s j ≤ sbWear s k))

/-- A superblock is open for a use, or can be opened for it: free ones open in ascending wear (11 R342). -/
def sbFits (s : State) (k : Nat) (want : SbState) : Bool :=
  decide ((sbOf s k).st = want) || (sbFree s k && leastWorn s k)

/-- A superblock takes the copies of a relocation: wear levelling moves data into the most worn free blocks (11 R343). -/
def copyFits (s : State) (k : Nat) (p : Purpose) : Bool :=
  match p with
  | .wear => (decide ((sbOf s k).st = .openCopy) || sbFree s k) && mostWorn s k
  | _ => sbFits s k .openCopy

/-- Opens a free superblock; the island's open superblock of that use closes (11 R315; log 12). -/
def openSb (k : Nat) (want : SbState) (s : State) : State :=
  if (sbOf s k).st = want then s
  else
    let s1 := { s with fl := { s.fl with sbs := SMap.mapVals {} (fun j (x : Superblock) =>
        if sbIsland j = sbIsland k ∧ x.st = want then { x with st := .closed, closedAt := now s } else x) s.fl.sbs } }
    modSb k (fun x => { x with st := want, slc := decide (want = .openSlc) }) s1

/-- The last page of a block in its mode. -/
def lastPage (slc : Bool) : Nat := if slc then 383 else 1535

/-- The FLASH_BYTES instance of a purpose (16 Table 144); pattern store objects have none. -/
def purposeInst : Purpose → Option Nat
  | .volume => some 0
  | .tier => some 1
  | .store => none
  | .gc => some 2
  | .fold => some 3
  | .wear => some 4
  | .refresh => some 5

/-- One page is programmed with its tag: counters, the block's program time and temperature, the die's success. -/
def pageProgrammed (purpose : Purpose) (a : FlashAddr) (tag : Tag) (s : State) : State :=
  let s1 := bump 0x31 (faChan a) 1 { s with fl := { s.fl with tags := SMap.put none s.fl.tags a.toNat (some tag) } }
  let s2 := (match purposeInst purpose with
    | some i => bump 0x34 i 16384 s1
    | none => s1)
  dieOk (dieKey a) (modBlock (blockKey a) (fun b => { b with progAt := s2.fl.mediaMinutes, progTemp := islandTemp s2 (faChan a / 16) }) s2)

/-- The purpose of a unit's first program. -/
def purposeOf (s : State) (u : Nat) : Purpose :=
  if storeBase ≤ u then .store else if (volumeOfUnit s u).isSome then .volume else .tier

/-- The relocation that waits for a unit's copy to be programmed. -/
def relocWaiting (s : State) (u : Nat) : Option Reloc :=
  s.fl.relocs.find? (fun (r : Reloc) => r.units.any (fun x => x.unit == u && x.stage == 0))

/-- The tag of a unit's first program: SEQ is the entry sequence count, GROUP the buffered unit's. -/
def firstTag (s : State) (u : Nat) : Tag :=
  tagOf u s.fl.seq (((s.fl.wbuf.find? (fun b => b.unit == u)).map (·.group)).getD 0) false 0

/-- The tag of a copy, with the SEQ and GROUP of its original (11 Table 96). -/
def copyTag (s : State) (u : Nat) : Tag :=
  let o := tagAt s (mapOf s u).addr
  tagOf u ((o.map (·.seq)).getD 0) ((o.map (·.group)).getD 0) true 0

/-- A FLUSH of a collection runs: it makes the device program the tail of the side list too (03 R87). -/
def flushesColl (s : State) (cid : Nat) : Bool :=
  (allHeld s).any (fun e => decide (e.2.op = 0x03 ∧ fld e.2.desc 8 1 = 2 ∧ objOf e.2.desc = cid) && e.2.undecided)

/-- A unit of the tail of a side list that does not fill its page: it stays in the write buffer (05 R152). -/
def tailUnit (s : State) (u : Nat) : Bool :=
  match ((slotOfUnit s u).bind (pageAt s)).map (fun (p : Page) => p.owner) with
  | some (.coll cid 4 n) =>
    let x := SMap.find {} s.coll cid
    decide (sideLen x < (n + 1) * sidePer x.width) && !flushesColl s cid
  | _ => false

/-- One unit's program passes: a relocation's copy in the copy superblock, or a buffered unit at its destination. -/
def programUnit (e : Nat × FlashAddr) (s : State) : State :=
  let u := e.1
  let a := e.2
  let k := sbKey s a
  if ¬ (canProgram s a = true ∧ spreads s u a = true) then s
  else
    let copy := (relocWaiting s u).filter (fun (r : Reloc) => copyFits s k r.purpose)
    match copy with
    | some r =>
      pageProgrammed r.purpose a (copyTag s u) (mapRelocs (fun x =>
        some (if x.unit = u ∧ x.stage = 0 then { x with copy := a, stage := 1 } else x)) (openSb k .openCopy s))
    | none =>
      if s.fl.wbuf.any (fun b => b.unit == u && b.progAt.isNone) && sbFits s k (destOf s u) && !tailUnit s u then
        let s1 := openSb k (destOf s u) s
        pageProgrammed (purposeOf s u) a (firstTag s u) { s1 with fl := { s1.fl with
          wbuf := s1.fl.wbuf.map (fun (b : BufUnit) => if b.unit = u then { b with progAt := some a } else b) } }
      else s

/-- A tier page's flash location changes blocks: a T1 home's later flash home follows the mode (10 Table 84). -/
def setBacking (u : Nat) (slc : Bool) (s : State) : State :=
  match slotOfUnit s u with
  | none => s
  | some k => modPage k (fun p => { p with backSlc := slc }) s

/-- MAP records of the units just programmed, in one entry (11 R320, Table 95). -/
def mapProgrammed (us : List (Nat × FlashAddr)) (s : State) : State :=
  let new := us.filter (fun e => s.fl.wbuf.any (fun b => b.unit == e.1 && b.progAt == some e.2 && b.mapSeq.isNone && b.cmd.isNone))
  if new.isEmpty then s
  else
    let s1 := { s with fl := { s.fl with wbuf := s.fl.wbuf.map (fun (b : BufUnit) =>
        if new.any (fun e => e.1 == b.unit) then { b with mapSeq := some (s.fl.seq + 1) } else b) } }
    let s2 := commitEntry (new.map (fun e => Rec.map e.1 e.2)) s1
    new.foldl (fun s' e => setBacking e.1 (slcAddr s' e.2) s') s2

/-- Superblocks whose last page has been programmed close. -/
def closeFull (us : List (Nat × FlashAddr)) (s : State) : State :=
  us.foldl (fun s' e =>
    let k := sbKey s' e.2
    let x := sbOf s' k
    if faPage e.2 = lastPage x.slc ∧ x.st ≠ .free ∧ x.st ≠ .closed then
      modSb k (fun y => { y with st := .closed, closedAt := now s' }) s' else s') s

/-- The waiting backing units whose page is still a T1 home with its image enter the buffer while it has room (11 R356). -/
def drainRewrites (s : State) : State :=
  let live := s.fl.rewrites.filter (fun u => match (slotOfUnit s u).bind (pageAt s) with
    | some p => p.inT1 && decide (p.state = .good)
    | none => false)
  let n := bufferFree s
  (live.take n).foldl (fun s' u => bufferUnit u 0 0 s') { s with fl := { s.fl with rewrites := live.drop n } }

/-- NAND_PROGRAM_COMPLETE. -/
def programsPass (us : List (Nat × FlashAddr)) (s : State) : State :=
  drainRewrites (settleDoomed (closeFull us (mapProgrammed us (us.foldl (fun s' e => programUnit e s') s))))

/-- NAND_PROGRAM_FAIL (11 R336, R354): copies in the block go back to their sources, what the block holds is read back: lost
units become UNREADABLE, the others are relocated, and the block retires once no map entry names it. -/
def programFails (a : FlashAddr) (lost : List Nat) (s : State) : State :=
  let k := blockKey a
  let s1 := unprogram (fun b => blockKey b == k)
    (mapRelocs (fun x => some (if (x.stage = 1 ∨ x.stage = 2) ∧ blockKey x.copy = k then { x with stage := 0 } else x)) s)
  let bad := (unitsOfBlock s1 k).filter (fun u => decide (u ∈ lost))
  let s2 := if bad.isEmpty then s1
    else reportLost stMediaError (bad.filter (fun u => !inBuffer s1 u)) (commitEntry (bad.map (fun u => Rec.state u 1 3)) s1)
  doomBlock k 1 (startReloc (sbKey s2 a) .gc none (unitsOfBlock s2 k) s2)

/-! ### Reads and verification (11 R344, R346, Table 99, 12 R364, R365) -/

/-- A unit's newest location is still the source of its relocation (11 R335). -/
def stillSource (s : State) (x : RelocUnit) : Bool :=
  !inBuffer s x.unit && decide ((mapOf s x.unit).st = 1) && decide ((mapOf s x.unit).addr = x.src)

/-- Steps 4 and, for a page's fold, its commit point: verified units take their RELOCATE record in one entry where their newest
location is still the source; the others' copies are discarded (11 R334, R335, 10 Table 84). -/
def commitReloc (r : Reloc) (xs : List RelocUnit) (s : State) : State :=
  let live := xs.filter (stillSource s)
  let seq := s.fl.seq + 1
  let s1 := mapRelocs (fun x => if xs.any (fun y => y.unit == x.unit) then
      (if live.any (fun y => y.unit == x.unit) then some { x with stage := 3, seq := seq } else none) else some x) s
  if live.isEmpty then s1
  else
    let s2 := live.foldl (fun s' x => setBacking x.unit false s') (commitEntry (live.map (fun x => Rec.relocate x.unit x.src x.copy)) s1)
    match r.page with
    | none => s2
    | some k =>
      bump 0x55 (((pageAt s2 k).map (·.tenant)).getD 0) 1 (dropFrames k (modPage k (fun p => { p with home := .t3, backSlc := false }) s2))

/-- The relocation of a unit whose programmed copy is read back. -/
def relocRead (s : State) (u : Nat) (a : FlashAddr) : Option (Reloc × RelocUnit) :=
  s.fl.relocs.findSome? (fun (r : Reloc) =>
    (r.units.find? (fun x => x.unit == u && x.stage == 1 && x.copy == a)).map (fun x => (r, x)))

/-- A copy passes its read-back: it commits at once, or with the other units of its page (10 Table 84). A fold of a page that a
member's range has meanwhile taken in is abandoned (10 R291). -/
def copyVerified (r : Reloc) (x : RelocUnit) (s : State) : State :=
  match r.page with
  | none => commitReloc r [x] s
  | some k =>
    let s1 := mapRelocs (fun y => some (if y.unit = x.unit then { y with stage := 2 } else y)) s
    match s1.fl.relocs.find? (fun (q : Reloc) => q.page == some k) with
    | none => s1
    | some q =>
      if q.units.all (fun y => y.stage == 2) then
        if ((pageAt s1 k).map (fun p => inMemberRange s1 p.owner)).getD true || !q.units.all (stillSource s1) then
          { s1 with fl := { s1.fl with relocs := s1.fl.relocs.filter (fun (y : Reloc) => y.page != some k) } }
        else commitReloc q q.units s1
      else s1

/-- The source's own check fails after a decode: its bytes and check go on unchanged (12 R365). -/
def sourceMismatch (s : State) (u : Nat) : Bool :=
  (List.range 4).any (fun c => match checkOf s u c with
    | some v => decide (v ≠ crc64 (unitBytes s u (c * 4096) 4096))
    | none => false)

/-- Step 3: the read-back of a copy. -/
def readBack (r : Reloc) (x : RelocUnit) (outcome : ReadOutcome) (checkOk : Bool) (s : State) : State :=
  match outcome with
  | .hard _ =>
    if checkOk then copyVerified r x s
    else
      let s1 := raise 0x0007 1 x.copy.toNat x.unit 0 s
      if sourceMismatch s x.unit then copyVerified r x s1
      else mapRelocs (fun y => some (if y.unit = x.unit then { y with stage := 0 } else y)) s1
  | _ => mapRelocs (fun y => some (if y.unit = x.unit then { y with stage := 0 } else y)) s

/-- Reads since erase at which a block is refreshed (11 R344). -/
def readLimit (slc : Bool) : Nat := if slc then 1000000 else 200000

/-- The block of an address is refreshed where `need` says so; a soft decode within 24 h of its programming dooms it (11 R344,
Table 104). -/
def afterRead (a : FlashAddr) (need soft : Bool) (s : State) : State :=
  let k := blockKey a
  let b := SMap.find {} s.fl.blocks k
  let s1 := if need || decide (readLimit (slcAddr s a) ≤ b.reads) then refreshBlock k s else s
  if soft && decide (s.fl.mediaMinutes ≤ b.progAt + 1440) then doomBlock k 3 s1 else s1

/-- Codeword decodes beyond ladder step 0 of an outcome (16 Table 144, FLASH_RETRY). -/
def retriesOf : ReadOutcome → Nat
  | .hard k => k
  | .soft _ => 9
  | .failed => 9

/-- A unit's read fails every stage: UNREADABLE with its record and event, and its block is doomed once the rest is moved (11 R346,
R353). -/
def readFails (u : Nat) (a : FlashAddr) (s : State) : State :=
  let s1 := raise 0x0006 1 a.toNat u 0 (commitEntry [.state u 1 3] s)
  doomBlock (blockKey a) 4 (refreshBlock (blockKey a) (reportLost stMediaError ([u].filter (fun x => !inBuffer s x)) s1))

/-- The read of a mapped unit. -/
def unitRead (u : Nat) (a : FlashAddr) (outcome : ReadOutcome) (s : State) : State :=
  let s1 := bump 0x33 (faChan a) (retriesOf outcome) (dieOk (dieKey a) s)
  match outcome with
  | .hard k => afterRead a (decide (5 ≤ k)) false (modBlock (blockKey a) (fun b => { b with reads := b.reads + 1, lastStep := k }) s1)
  | .soft k => afterRead a true true (modBlock (blockKey a) (fun b => { b with reads := b.reads + 1, lastStep := k }) s1)
  | .failed => readFails u a (modBlock (blockKey a) (fun b => { b with reads := b.reads + 1 }) s1)

/-- The bytes of a tier page's unit fail its page check (12 R363, R364). -/
def tierMismatch (u : Nat) (s : State) : State :=
  if ((slotOfUnit s u).bind (pageAt s)).isSome then noteMismatch [u] s else s

/-- NAND_READ_COMPLETE: the read-back of a copy, or the read of the unit that the map names there. -/
def nandRead (u : Nat) (a : FlashAddr) (outcome : ReadOutcome) (checkOk : Bool) (s : State) : State :=
  match relocRead s u a with
  | some e => settleDoomed (readBack e.1 e.2 outcome checkOk (bump 0x30 (faChan a) 1 s))
  | none => if (mapOf s u).st = 1 ∧ (mapOf s u).addr = a then
      unitRead u a outcome (if checkOk = true ∨ outcome = .failed then s else tierMismatch u s) else s

/-! ### Erases (11 R334, R342) -/

/-- One member is erased: its wear rises by 1, in SLC mode by 1/20, and its read count clears; a failure retires it. -/
def memberErased (slc : Bool) (pos block : Nat) (failed : List (Nat × Nat)) (m : Nat × Nat) (s : State) : State :=
  let k := memberKey s pos block m
  if (SMap.find {} s.fl.blocks k).retired.isSome then s
  else
    let s1 := bump 0x32 m.1 1 (modBlock k (fun b => { b with
      wear20 := b.wear20 + (if slc then 1 else 20), reads := 0, lastStep := 0 })
      { s with fl := { s.fl with tags := s.fl.tags.filter (fun e => blockKey (BitVec.ofNat 37 e.1) != k) } })
    if m ∈ failed then retireBlock k 2 s1 else dieOk (k / 10080) s1

/-- NAND_ERASE_COMPLETE: an erasable superblock returns to the free pool. -/
def eraseComplete (island pos block : Nat) (failed : List (Nat × Nat)) (s : State) : State :=
  let k := (island * 17 + pos) * 2520 + block
  if island < 8 ∧ pos < 16 ∧ block < 2520 ∧ canErase s k = true then
    endurance (modSb k (fun _ => {}) ((members island).foldl (fun s' m => memberErased (sbOf s k).slc pos block failed m s') s))
  else s

/-! ### Die loss (11 R355, R356) -/

/-- The decimal 250 GB of a die (11 R312). -/
def dieBytes : Nat := 250000000000

/-- Volumes that hold one of some units, as a mask. -/
def volumeMask (s : State) (us : List Nat) : Nat :=
  sumOf ((dedup (us.filterMap (fun u => (volumeOfUnit s u).map (·.1)))).map (fun v => 2 ^ v))

/-- Tier pages lost with some units: every page but a T1 home with an intact DRAM image. -/
def pagesLost (s : State) (us : List Nat) : List Nat :=
  (dedup (us.filterMap (slotOfUnit s))).filter (fun k => match pageAt s k with
    | some p => !(p.inT1 && decide (p.state = .good))
    | none => false)

/-- A T1 home keeps its image, and a new backing location is written from it (11 R356). -/
def rewriteBacking (us : List Nat) (s : State) : State :=
  drainRewrites { s with fl := { s.fl with rewrites := dedup (s.fl.rewrites ++ us) } }

/-- Steps 1, 2 and 4 of die loss for a die that holds data, or for an unengaged spare with none. -/
def dieLoss (c p : Nat) (s : State) : State :=
  let k := c * 17 + p
  let all := unitsWhere s (fun a => dieKey a == k)
  let us := all.filter (fun u => !inBuffer s u)
  let s1 := mapRelocs (fun x => if dieKey x.src = k then none
      else some (if x.stage < 3 ∧ dieKey x.copy = k then { x with stage := 0 } else x))
    (unprogram (fun b => dieKey b == k) (modDie k (fun d => { d with lost := true, suspended := false }) s))
  let s2 := if all.isEmpty then s1 else commitEntry (all.map (fun u => Rec.state u 1 2)) s1
  let s3 := commitEntry ((List.range 10080).map (fun b => Rec.retire (k * 10080 + b) 5)) s2
  let s4 := rewriteBacking us s3
  raise 0x0004 2 (c * 32 + p) (volumeMask s us) (pagesLost s us).length
    (reportLost stDieLost (us.filter (fun u => (volumeOfUnit s u).isSome)) s4)

/-- A die is declared lost: a primary die engages its channel's unused spare; an engaged spare, or a die without one, lowers the
spare capacity by 250 GB (11 R355). -/
def loseDie (c p : Nat) (s : State) : State :=
  let k := c * 17 + p
  if (dieOf s k).lost then s
  else
    let sp := dieOf s (c * 17 + 16)
    let engaged := (dieOf s k).serves.isSome
    let s1 := dieLoss c p s
    let fall (x : State) : State := endurance { x with fl := { x.fl with spareBytes := x.fl.spareBytes - dieBytes } }
    if p = 16 then (if engaged then fall s1 else s1)
    else if sp.serves.isNone ∧ sp.lost = false then endurance (modDie (c * 17 + 16) (fun d => { d with serves := some p }) s1)
    else fall s1

/-- NAND_OPERATION_TIMEOUT: the third in a row loses the die. -/
def dieTimeout (c p : Nat) (s : State) : State :=
  if c < 128 ∧ p < 17 ∧ (dieOf s (c * 17 + p)).lost = false then
    let s1 := modDie (c * 17 + p) (fun d => { d with fails := d.fails + 1 }) s
    if 3 ≤ (dieOf s1 (c * 17 + p)).fails then loseDie c p s1 else s1
  else s

/-! ### Suspend (11 R348, R349) -/

/-- A program or erase is suspended for a read; during the flush and recovery none is (11 R349). -/
def suspendDie (c p : Nat) (s : State) : State :=
  if c < 128 ∧ p < 17 ∧ s.boot.flushing = false then modDie (c * 17 + p) (fun d => { d with suspended := !d.lost }) s else s

/-- The suspended operation resumes. -/
def resumeDie (c p : Nat) (s : State) : State := modDie (c * 17 + p) (fun d => { d with suspended := false }) s

/-! ### Background work (11 R327, R331, R333, R343): the governor pauses all but GC (15 Table 140) -/

/-- Closed superblocks of an island that may be victims: not of the flush reserve, and not under relocation already. -/
def victims (s : State) (island : Nat) : List (Nat × Superblock) :=
  s.fl.sbs.filter (fun (e : Nat × Superblock) => sbIsland e.1 == island && decide (e.2.st = .closed) && !e.2.reserve
    && s.fl.relocs.all (fun (r : Reloc) => r.sb != e.1) && !(sbUnits s e.1).isEmpty)

/-- The first element that none before it and none after it beats. -/
def bestBy {α : Type} (lt : α → α → Bool) (l : List α) : Option α :=
  l.foldl (fun best a => match best with
    | none => some a
    | some b => if lt a b then some a else some b) none

/-- GC_START: below 3% of free superblocks, the victim with the fewest valid units, the oldest closing time on a tie (11 R333). -/
def gcStart (island : Nat) (s : State) : State :=
  if island < 8 ∧ freePool s island * 100 < 3 * islandSbs then
    match bestBy (fun (a b : Nat × Superblock) => lexLt [(sbUnits s a.1).length, a.2.closedAt.toNat]
        [(sbUnits s b.1).length, b.2.closedAt.toNat]) (victims s island) with
    | some v => startReloc v.1 .gc none (sbUnits s v.1) s
    | none => s
  else s

/-- Units that a fold of staged data moves: volume blocks and backing locations (11 R331). -/
def foldable (s : State) (u : Nat) : Bool :=
  (volumeOfUnit s u).isSome || (((slotOfUnit s u).bind (pageAt s)).map (·.inT1)).getD false

/-- SLC_FOLD: above 50% of S the SLC superblock programmed longest ago is folded (11 R331). -/
def slcFold (s : State) : State :=
  if slcSize s < 2 * slcUse s ∧ s.gov.bgFlash = false then
    let cands := s.fl.sbs.filter (fun (e : Nat × Superblock) => e.2.slc && decide (e.2.st = .closed)
      && ((sbUnits s e.1).filter (foldable s)).any (fun u => !relocating s u))
    match bestBy (fun (a b : Nat × Superblock) => decide (a.2.closedAt < b.2.closedAt)) cands with
    | some v => startReloc v.1 .fold none ((sbUnits s v.1).filter (foldable s)) s
    | none => s
  else s

/-- Map segments of 4,096 units that differ from their checkpoint. -/
def changedSegments (s : State) : List Nat :=
  dedup (((s.fl.map.filter (fun (e : Nat × MapEntry) => decide (SMap.find {} s.fl.base e.1 ≠ e.2))).map (fun e => e.1 / 4096))
    ++ ((s.fl.base.filter (fun (e : Nat × MapEntry) => decide (SMap.find {} s.fl.map e.1 ≠ e.2))).map (fun e => e.1 / 4096)))

/-- A record changes a unit of map segment `g`. -/
def touchesSegment (g : Nat) : Rec → Bool
  | .map u _ => u / 4096 == g
  | .relocate u _ _ => u / 4096 == g
  | .unmap f n => decide (f < (g + 1) * 4096 ∧ g * 4096 < f + n)
  | .state f n _ => decide (f < (g + 1) * 4096 ∧ g * 4096 < f + n)
  | _ => false

/-- Recovery needs an entry: it is later than the older checkpoint of a segment it changes (11 R325, R327). -/
def entryNeeded (ck : SMap (List Nat)) (e : JEntry) : Bool :=
  ck.any (fun c => decide (c.2.foldl min (c.2.headD 0) < e.seq) && e.recs.any (touchesSegment c.1))

/-- The journal from the oldest entry that recovery needs. -/
def liveJournal (ck : SMap (List Nat)) (j : List JEntry) : List JEntry := j.dropWhile (fun e => e.durable && !entryNeeded ck e)

/-- CHECKPOINT_CYCLE: changed segments and the block table are written; the two newest checkpoints of a segment stay, and the
journal drops what neither needs. The media clock and the host's timebase are stored with them (11 R327, R347). -/
def checkpoint (s : State) : State :=
  let segs := changedSegments s
  let s1 := journalFlush (commitEntry (segs.map (fun g => Rec.checkpoint g s.fl.seq)) s)
  let ck := segs.foldl (fun m g => SMap.modify [] m g (fun l => (s1.fl.seq :: l).take 2)) s1.fl.ckpt
  bump 0x34 6 (segs.length * 20480 + 701890560)
    { s1 with fl := { s1.fl with base := s1.fl.map, ckpt := ck, ckptTag := some (tagOf noUnit s1.fl.seq 0 false 2),
                                 journal := liveJournal ck s1.fl.journal,
                                 mediaMinutes := s1.fl.mediaMinutes + polValue s 0x0D 600 / 60,
                                 hostTb := if s.aon.tbFromHost then some (now s) else none } }

/-- At 6 GiB of journal, checkpointing runs in the foreground (11 R325). -/
def boundJournal (s : State) : State :=
  if 6 * 2 ^ 30 ≤ sumOf (s.fl.journal.map (fun e => entrySize e.recs)) then checkpoint s else s

/-- Wear of an island's blocks in all, in twentieths of a cycle. -/
def islandWear (s : State) (island : Nat) : Nat :=
  sumOf (s.fl.blocks.map (fun (e : Nat × Block) => if e.1 / 171360 / 16 = island ∧ e.1 / 10080 % 17 < 16 then e.2.wear20 else 0))

/-- Blocks of an island (11 Table 90). -/
def islandBlocks : Nat := 2580480

/-- A closed block is cold and under-worn: below the mean by more than WL_GAP, written more than 7 days ago (11 R343). -/
def coldBlock (s : State) (k : Nat) : Bool :=
  let b := SMap.find {} s.fl.blocks k
  decide ((b.wear20 + 20 * polValue s 0x10 100) * islandBlocks < islandWear s (k / 171360 / 16))
  && decide (b.progAt + 10080 < s.fl.mediaMinutes) && decide ((sbOf s (sbKey s (blockAddr k))).st = .closed)

/-- WEAR_LEVEL_CHECK. -/
def wearLevel (s : State) : State :=
  if s.gov.bgFlash then s
  else (dedup (s.fl.map.filterMap (fun (e : Nat × MapEntry) => if e.2.st = 1 then some (blockKey e.2.addr) else none))).foldl
    (fun s' k => if coldBlock s k then startReloc (sbKey s' (blockAddr k)) .wear none (unitsOfBlock s' k) s' else s') s

/-! ### The flash background scan (11 R345, 12 R375) -/

/-- The bucket of a value among rising bounds. -/
def bucketOf (bounds : List Int) (x : Int) : Nat := (bounds.filter (fun b => decide (b ≤ x))).length

/-- The calibration entry of an address: die, retention age, temperature difference, wear (11 R345). -/
def calibKey (s : State) (a : FlashAddr) : Nat :=
  let b := SMap.find {} s.fl.blocks (blockKey a)
  let age := bucketOf [60, 1440, 10080, 43200, 129601] (s.fl.mediaMinutes - b.progAt : Nat)
  let temp := bucketOf [-299, -100, 100, 300] (islandTemp s (faChan a / 16) - b.progTemp)
  let wear := bucketOf [7500, 15000, 24000, 30001] (b.wear20 : Nat)
  dieKey a * 150 + age * 25 + temp * 5 + wear

/-- The refresh limit of the scan: ladder step 3, soft decode, or more than 60% of the hard-decode limit at step 0 (12 R375). -/
def scanRefresh (outcome : ReadOutcome) (bits : Nat) : Bool :=
  match outcome with
  | .hard k => decide (3 ≤ k) || decide (36 * 36864 < bits * 10000)
  | _ => true

/-- FLASH_SCAN_READ: the page's calibration entry takes a new set (a free value, log 7), a check mismatch is an event only, and the
refresh limit applies; a page that no stage decodes is handled as any read (11 R346). -/
def scanRead (a : FlashAddr) (outcome : ReadOutcome) (bits : Nat) (checkOk : Bool) (s : State) : State :=
  if s.gov.bgFlash || (SMap.find {} s.fl.blocks (blockKey a)).retired.isSome || canErase s (sbKey s a) || decide ((sbOf s (sbKey s a)).st = .free) then s
  else
    let u := (unitsWhere s (fun b => b == a)).head?
    let s1 := bump 0x30 (faChan a) 1 (bump 0x33 (faChan a) (retriesOf outcome) (drawn 1 { s with fl := { s.fl with
      calib := SMap.put 0 s.fl.calib (calibKey s a) (Config.freeNat (draw s) : Int) } }))
    let s2 := if checkOk then s1 else raise 0x0007 1 a.toNat (u.getD 0) 0 ((u.map (fun v => tierMismatch v s1)).getD s1)
    let s3 := modBlock (blockKey a) (fun b => { b with reads := b.reads + 1 }) s2
    match outcome, u with
    | .failed, some u => readFails u a s3
    | .failed, none => s3
    | .soft _, _ => afterRead a true true s3
    | .hard _, _ => afterRead a (scanRefresh outcome bits) false s3

/-- WRITE_ORIGIN_WINDOW_EXPIRY: the write's data have reached flash, and its origin is forgotten (11 R357). -/
def originExpires (t acc : Nat) (s : State) : State :=
  if s.fl.wbuf.any (fun b => decide (acc ∈ b.accs)) then s
  else { s with fl := { s.fl with origins := s.fl.origins.filter (fun o => !(o.trs == t && o.acc == acc)) } }

/-! ### Uncorrectable errors (12 R377, Table 112) -/

/-- Table 112, by where the error lies. A codeword in flash is a read that fails every stage (11 R346). -/
def uncorrectable (region : Nat) (place : UePlace) (s : State) : State :=
  match place with
  | .home k _ readable =>
    let s1 := countUe region 1 s
    if readable && decide (unitsStatus s (slotUnit s k) = stOk) then s1 else modPage k (fun p => { p with state := .poisoned }) s1
  | .frame n consumed => frameUe n consumed (countUe region 2 s)
  | .writeBuffer u => let s1 := countUe region 3 s
                      if inBuffer s1 u then unitUnreadable u s1 else s1
  | .journalStaging => countUe region 4 s
  | .mapShard _ => let s1 := countUe region 5 s
                   { s1 with fl := { s1.fl with mapRebuilds := s1.fl.mapRebuilds + 1 } }
  | .homeTable ks => ks.foldl (fun s' k => repairFrames k (demotePage k false s')) (countUe region 6 s)
  | .working t id b => poisonWork t id b (countUe region 7 s)
  | .scratchpadLine c e l => modCore c (modEngine e (fun (g : Engine) => { g with bad := SMap.put false g.bad l true })) (countUe region 7 s)
  | .coreSramLine c l => modCore c (fun (x : Core) => { x with badSram := SMap.put false x.badSram l true }) (countUe region 7 s)
  | .scratchLine c l => modCore c (fun (x : Core) => { x with badScratch := SMap.put false x.badScratch l true }) (countUe region 7 s)
  | .tundish line => logRecord 2 true (mediaEvent line) (setPoison line true (countUe region 8 s))
  | .hubCache key => cacheDrop key 1 (countUe region 9 s)
  | .processor p readable => procFault p readable (countUe region 10 s)
  | .flash u => if (mapOf s u).st = 1 then settleDoomed (readFails u (mapOf s u).addr s) else s

/-! ### The rows -/

/-- JOURNAL_FLUSH_TIMER. -/
def execJournalFlushTimer (s : State) : Result := whenServing (fun x => drainRewrites (boundJournal (journalFlush x))) s

/-- NAND_PROGRAM_COMPLETE. -/
def execNandProgramComplete (units : List (Nat × FlashAddr)) (s : State) : Result := whenServing (programsPass units) s

/-- NAND_PROGRAM_FAIL. -/
def execNandProgramFail (addr : FlashAddr) (lost : List Nat) (s : State) : Result := whenServing (programFails addr lost) s

/-- NAND_READ_COMPLETE. -/
def execNandReadComplete (unit : Nat) (addr : FlashAddr) (outcome : ReadOutcome) (checkOk : Bool) (s : State) : Result :=
  whenServing (nandRead unit addr outcome checkOk) s

/-- NAND_ERASE_COMPLETE. -/
def execNandEraseComplete (island pos block : Nat) (failed : List (Nat × Nat)) (s : State) : Result :=
  whenServing (eraseComplete island pos block failed) s

/-- NAND_OPERATION_TIMEOUT. -/
def execNandOperationTimeout (chan pos : Nat) (s : State) : Result := whenServing (dieTimeout chan pos) s

/-- SUSPEND_MIN_RUN_REACHED. -/
def execSuspendMinRunReached (chan pos : Nat) (s : State) : Result := whenServing (suspendDie chan pos) s

/-- READ_SERVICE_EXPIRY. -/
def execReadServiceExpiry (chan pos : Nat) (s : State) : Result := whenServing (resumeDie chan pos) s

/-- FLUSH_RESERVE_RESTORED: fresh blocks are the reserve, what the flush wrote lies in ordinary closed superblocks, and writing commands
may be accepted (11 R339). -/
def execFlushReserveRestored (s : State) : Result :=
  whenServing (fun x => { x with fl := { x.fl with
      reserveReady := true, sbs := SMap.mapVals {} (fun _ (y : Superblock) => { y with reserve := false }) x.fl.sbs } }) s

/-- GC_START. -/
def execGcStart (island : Nat) (s : State) : Result := whenServing (gcStart island) s

/-- SLC_FOLD. -/
def execSlcFold (s : State) : Result := whenServing slcFold s

/-- CHECKPOINT_CYCLE. -/
def execCheckpointCycle (s : State) : Result := whenServing checkpoint s

/-- WEAR_LEVEL_CHECK. -/
def execWearLevelCheck (s : State) : Result := whenServing wearLevel s

/-- FLASH_SCAN_READ. -/
def execFlashScanRead (addr : FlashAddr) (outcome : ReadOutcome) (bits : Nat) (checkOk : Bool) (s : State) : Result :=
  whenServing (scanRead addr outcome bits checkOk) s

/-- UNCORRECTABLE_ERROR: in a processor it is that processor's fault (12 Table 112). -/
def execUncorrectableError (region : Nat) (place : UePlace) (s : State) : Result := 
  .next (if alive s then (match place with
    | .processor p readable => procFault p readable (fenced (countUe region 10) s)
    | _ => fenced (uncorrectable region place) s) else s)

/-- WRITE_ORIGIN_WINDOW_EXPIRY. -/
def execWriteOriginWindowExpiry (trs seq : Nat) (s : State) : Result := whenServing (originExpires trs seq) s

end Sys2Proof.Machine
end

