-- ==== Sys2Proof/Machine/Flags.lean ====
section
/-! DEFINITION. The status words of the block: STATE, STATUS, TAG and the bytes of a TRS page (03 Tables 23 to 26, 31, 16
Table 145), GRADE (00 R4), and the registers of BAR0 that show the start (02 Table 15). -/
namespace Sys2Proof.Machine

/-- The head command: the oldest held (03 R74). -/
def headOf (p : Trs) : Option Held := p.held.head?

/-- HEAD of STATE (03 Table 24). -/
def headCode (p : Trs) : Nat :=
  match headOf p with
  | none => 0x0
  | some h => match h.phase with
    | .pending => 0x6
    | .accepted => 0x1
    | .running => 0x2
    | .done => 0x3
    | .error => 0x4

/-- STATE (03 Table 24). -/
def stateWord (p : Trs) : BitVec 32 :=
  let dfr : Bool := ((headOf p).bind (·.deferred)).isSome
  BitVec.ofNat 32 (headCode p + p.busy.toNat * 2 ^ 4 + p.resetting.toNat * 2 ^ 5 + p.held.length % 64 * 2 ^ 8
    + dfr.toNat * 2 ^ 31)

/-- STATUS (03 Table 25). -/
def statusWord (p : Trs) : BitVec 32 :=
  match headOf p with
  | none => 0
  | some h => BitVec.ofNat 32 (h.status.toNat + h.byte % 64 * 2 ^ 8 + h.byteValid.toNat * 2 ^ 14)

/-- RESULT of the head (03 R74). -/
def resultWord (p : Trs) : BitVec 64 := ((headOf p).map (·.result)).getD 0

/-- DEFERRED of the head report (03 Table 31). -/
def deferredOf (p : Trs) : BitVec 64 := ((headOf p).bind (·.deferred)).getD 0

/-- TAG: the head's TAG and OPCODE (03 Table 23). -/
def tagWord (p : Trs) : BitVec 32 :=
  match headOf p with
  | none => 0
  | some h => BitVec.ofNat 32 (fld h.desc 2 2 + h.op * 2 ^ 16)

/-- BIND_CTL (03 Table 26). -/
def bindCtl (b : Binding) (priv : Bool) : BitVec 32 :=
  BitVec.ofNat 32 (b.valid.toNat + (b.valid && priv).toNat * 2 + b.rids.length % 32 * 2 ^ 8)

/-- A counter set in the layout of Table 145, SAMPLE_SEQ first. -/
def ctrBytes (seq : BitVec 64) (c : CtrSet) : List Byte :=
  bytesOf 8 seq.toNat ++ bytesOf 8 c.hostRd.toNat ++ bytesOf 8 c.hostWr.toNat ++ bytesOf 8 c.flashRd.toNat
    ++ bytesOf 8 c.buffer.toNat ++ bytesOf 8 c.dram.toNat ++ bytesOf 8 c.engCycles.toNat ++ bytesOf 8 c.elapsed.toNat

/-- Bytes 0x000 to 0x0FF of a TRS page (03 Table 23): write-only registers and unlisted offsets read zero. -/
def trsBytes (p : Trs) (t : Nat) : List Byte :=
  bytesOf 64 p.command.toNat
  ++ bytesOf 4 0 ++ bytesOf 4 (stateWord p).toNat ++ bytesOf 4 (statusWord p).toNat ++ bytesOf 4 0
  ++ bytesOf 8 (resultWord p).toNat ++ bytesOf 8 (deferredOf p).toNat ++ bytesOf 4 (tagWord p).toNat ++ bytesOf 28 0
  ++ ctrBytes p.sampleSeq p.lastSet
  ++ bytesOf 4 (bindCtl p.bind (decide (t < 16))).toNat ++ bytesOf 4 p.bind.tenant ++ bytesOf 4 p.bind.vector ++ bytesOf 4 0
  ++ (p.bind.rids.flatMap (fun r => bytesOf 2 r.toNat) ++ bytesOf 32 0).take 32 ++ bytesOf 16 0

/-- A read of `w` bytes at an offset of a TRS page. -/
def trsRead (p : Trs) (t off w : Nat) : List Byte := sliceBytes (trsBytes p t) off w

end Sys2Proof.Machine
end

