-- ==== Sys2Proof/Machine/Telemetry.lean ====
section
/-! DEFINITION. Counters and watch records read by commands (16 R463 to R476): the values of every counter kind, COUNTERS,
DIGEST_READ and the payload of COUNTERS_GLOBAL. -/
namespace Sys2Proof.Machine

/-! ### Levels (16 Table 144) -/

/-- The usable energy of a cell in microjoules: half its capacitance in µF times 54² − 30² (17 R489). -/
def cellEnergy (c : Cell) : Nat := 1008 * c.cap

/-- Cells in the bank. -/
def passing (s : State) : List Cell := s.gov.cells.filter (fun c => !c.isolated)

/-- The usable energy of the bank in microjoules. -/
def bankEnergy (s : State) : Nat := sumOf ((passing s).map cellEnergy)

/-- The flush needs 7.8 J. -/
def flushEnergy : Nat := 7800000

/-- The weakest passing cell's energy. -/
def weakest (s : State) : Nat := ((passing s).map cellEnergy).foldl min (bankEnergy s)

/-- The state of the bank: 0 healthy, 1 degraded, 2 failed (17 R489). -/
def bankState (s : State) : Nat :=
  if flushEnergy ≤ bankEnergy s - weakest s then 0 else if flushEnergy ≤ bankEnergy s then 1 else 2

/-- SPARES (kind 0x13) by instance. -/
def sparesOf (s : State) (i : Nat) : Nat :=
  if i < 16 then ((getCore s i).engines.filter (fun e => e.2.pass && e.2.logical.isNone && !e.2.disabled)).length
  else match i with
    | 16 => 128 - (s.fl.dies.filter (fun e => e.1 % 17 = 16 && (e.2.serves.isSome || e.2.lost))).length
    | 17 => ((List.range 36).filter (fun p => decide ((procOf s p).st = .spare))).length
    | 18 => freeSectors s
    | 19 => 8192 - s.integ.remap.length
    | 20 => 17984 - s.integ.sram.length
    | 21 => freeLanes s
    | 22 => spareShare s
    | _ => (decide (bankState s = 0)).toNat

/-- The value of an instance of a counter kind: a level, or the count. -/
def counterValue (s : State) (kind i : Nat) : Nat :=
  match kind with
  | 0x01 => (getEngine s (i / 10) (i % 10)).busyCycles.toNat
  | 0x02 => (getEngine s (i / 10) (i % 10)).cycles.toNat
  | 0x03 => (getEngine s (i / 10) (i % 10)).stretchedNs.toNat
  | 0x04 => (getEngine s (i / 10) (i % 10)).stoppedNs.toNat
  | 0x05 => sumOf (((getCore s i).engines.filter (fun e => inService e.2)).map (fun e => e.2.busyCycles.toNat)) % 2 ^ 64
  | 0x12 => 16 - remapUsed s i
  | 0x13 => sparesOf s i
  | 0x50 => t1Use s i
  | 0x51 => t2Use s i
  | 0x52 => frameUse s i
  | 0x53 => chargedTo s i
  | _ => (counted kind i s).toNat

/-! ### COUNTERS (16 R469, R470) -/

/-- The header of Table 147. -/
def counterHeader (s : State) (seq kind scope instances first written : Nat) : List Byte :=
  bytesOf 8 (now s).toNat ++ bytesOf 8 seq ++ bytesOf 2 kind ++ bytesOf 1 scope ++ bytesOf 1 (tsApprox s).toNat
    ++ bytesOf 4 instances ++ bytesOf 4 first ++ bytesOf 4 written ++ bytesOf 32 0

/-- An output of COUNTERS or DIGEST_READ: it counts toward no set of the TRS (16 R466). -/
def quietWrite (t addr : Nat) (bytes : List Byte) (s : State) : State :=
  if masters s then bump 0x57 (tenantOf s t) bytes.length (bump 0x40 1 bytes.length (emitAll (hostWrites s addr bytes true) s)) else s

/-- COUNTERS, decided when it becomes RUNNING. -/
def countersBody (t id : Nat) (d : Desc) (s : State) : State :=
  let out (bytes : List Byte) : State := quietWrite t (fld d 16 8) bytes s
  match fld d 8 1 with
  | 0 =>
    let p := settleElapsed (now s) (getTrs s t)
    decideEnd t id stOk 16 (out (counterHeader s p.sampleSeq.toNat 0 0 0 0 16 ++ ctrBytes p.sampleSeq p.lastSet
      ++ ctrBytes p.sampleSeq p.current))
  | 1 =>
    let kind := fld d 10 2
    let first := fld d 12 4
    let n := (kindInstances kind).getD 0 - first
    let k := min n ((fld d 24 8 - 64) / 8)
    decideEnd t id (if k = n then stOk else stShort) k (out (counterHeader s 0 kind 1 (n + first) first k
      ++ (List.range' first k).flatMap (fun i => bytesOf 8 (counterValue s kind i))))
  | _ =>
    decideEnd t id stOk 8 (out (counterHeader s 0 0 2 8 0 8
      ++ (List.range 8).flatMap (fun i => bytesOf 8 (counterValue s (0x50 + i) (objOf d)))))

/-! ### Watch records (16 R475, R476) -/

/-- A watch record in the layout of Table 148. -/
def watchBytes (s : State) (w : Watch) : List Byte :=
  bytesOf 1 w.slot ++ bytesOf 1 w.output ++ bytesOf 1 (w.digest.isSome.toNat + 2 * w.adapted.toNat + 4 * w.pinned.toNat)
  ++ bytesOf 1 w.tenant ++ bytesOf 4 s.boot.patternGen.toNat ++ bytesOf 8 w.count.toNat ++ bytesOf 8 w.nonfinite.toNat
  ++ bytesOf 8 w.clipped.toNat ++ bytesOf 4 w.minV.toNat ++ bytesOf 4 w.maxV.toNat ++ bytesOf 4 w.meanV.toNat
  ++ bytesOf 4 (if w.adapted then w.useMax.toNat else 0) ++ bytesOf 4 (if w.adapted then w.mult.toNat else 0x3F800000)
  ++ bytesOf 1 w.quiet ++ bytesOf 3 0 ++ bytesOf 8 w.recoveries.toNat ++ bytesOf 8 (w.digest.getD 0).toNat
  ++ bytesOf 8 w.placement.toNat ++ bytesOf 16 0

/-- DIGEST_READ, decided when it becomes RUNNING: the LAST records of the TRS, or a tenant's cumulative records, as many whole
records as fit. -/
def digestBody (t id : Nat) (d : Desc) (s : State) : State :=
  let scope := fld d 8 1
  let ws := if scope = 0 then (s.tele.watchLast.filter (fun e => e.1 == t)).map (·.2)
            else s.tele.watchCum.filter (fun w => w.tenant == objOf d)
  let n := ws.length
  let k := min n ((fld d 24 8 - 64) / 96)
  let seq := if scope = 0 then (getTrs s t).sampleSeq.toNat else 0
  decideEnd t id (if k = n then stOk else stShort) k (quietWrite t (fld d 16 8)
    (counterHeader s seq 0 scope n 0 k ++ (ws.take k).flatMap (watchBytes s)) s)

/-- The payload of COUNTERS_GLOBAL; none where the kind or the first instance does not exist (16 R471). -/
def globalCounters (s : State) (kind first : Nat) : Option (List Byte) :=
  match kindInstances kind with
  | none => none
  | some n => if first < n then
      let k := min (n - first) 8184
      some (counterHeader s 0 kind 1 n first k ++ (List.range' first k).flatMap (fun i => bytesOf 8 (counterValue s kind i)))
    else none

end Sys2Proof.Machine
end

