-- ==== Sys2Proof/Machine/Intake.lean ====
section
/-! DEFINITION. Command intake (03): submission, the checks of Table 27, range locks, starting a command, host data and timers,
endings, QRESET and NEXT, and the rows that submit each command. -/
namespace Sys2Proof.Machine

/-! ### Starting (03 R76, R85, 04 R101, 05 R170, 14 R422) -/

/-- The kind of function slot whose work a command is, 0 for none. -/
def slotKind (d : Desc) : Nat :=
  match fld d 0 1 with
  | 0x13 => 2
  | 0x20 | 0x23 => 3
  | 0x30 => 4
  | 0x32 => if fld d 8 1 = 0 then 4 else 3
  | _ => 0

/-- The collection a command works on, where it names one at its start. -/
def startColl (d : Desc) : Option Nat :=
  match fld d 0 1 with
  | 0x20 | 0x21 | 0x22 | 0x23 => some (objOf d)
  | 0x31 => if bitOf (fld d 1 1) 3 then some (fld d 13 1) else none
  | 0x32 => if fld d 8 1 = 1 then some (objOf d) else none
  | _ => none

/-- A command whose object went before it starts: an old handle ends it with STALE (04 R101), a destroyed collection with INVALID_FIELD (05
R170), with no side effect. -/
def objectGone (s : State) (d : Desc) : Option Byte :=
  let op := fld d 0 1
  if 0x11 ≤ op ∧ op ≤ 0x15 ∧ (ctxOf s (objOf d)).isNone = true then some stStale
  else if ((startColl d).map (fun c => (collOf s c).isNone)).getD false then some stInvalidField
  else if op = 0x24 ∧ (collOf s (objOf d)).isSome = decide (fld d 8 1 = 0) then some stInvalidField
  else none

/-- What a command meets as it becomes RUNNING: a changed VALID, a slot that is withdrawn or reads an object that fails its
verification. -/
def startFail (s : State) (d : Desc) : Option Byte :=
  let op := fld d 0 1
  if op = 0x50 ∧ (getTrs s (objOf d)).bind.valid = decide (fld d 8 1 = 0) then some stInvalidField
  else if slotKind d ≠ 0 ∧ (kindWithdrawn s (slotKind d) = true ∨ kindUnreadable s (slotKind d) = true) then some stMediaError
  else if op = 0x31 ∧ ((embedSlot s d).map (slotUnreadable s)).getD false = true then some stMediaError
  else none

/-- BIND with ACTION 0x00 (03 R99). -/
def bindBody (t id : Nat) (d : Desc) (s : State) : State :=
  decideEnd t id stOk 0 (modTrs (objOf d) (fun p => { p with
    bind := { valid := true, priv := false, tenant := fld d 9 1, vector := fld d 10 2, rids := bindRids d },
    defer := [], deferOver := [], lastSet := {}, current := {}, sampleSeq := 0 }) s)

/-- BIND with ACTION 0x01: the target's commands end without completions, its reports go with what they hold in the tundish, and
the binding goes (03 R83, R99). RESETTING and BUSY go to 0 with them, for which R68 and R99 have no word (DESIGN CHOICE, log 88). -/
def unbindBody (t id : Nat) (d : Desc) (s : State) : State :=
  let g := objOf d
  let n := ((getTrs s g).held.filter (fun h => h.undecided)).length
  let s1 := stopAll true stQueueReset g s
  let s2 := ((getTrs s1 g).held.map (·.id)).foldl (fun s' i => releaseReport g i s') s1
  let s3 := modTrs g (fun p => { p with held := [], bind := {}, defer := [], deferOver := [], resetting := false, busy := false })
    { s2 with fl := { s2.fl with origins := s2.fl.origins.filter (fun o => o.trs != g) } }
  decideEnd t id stOk n s3

/-- The first action of a command on data or objects (03 R76). -/
def startBody (t id acc : Nat) (d : Desc) (s : State) : State :=
  let c := (ctxOf s (objOf d)).getD {}
  let tn := tenantOf s t
  match fld d 0 1 with
  | 0x00 => finish t id stOk 0 s
  | 0x01 => readBody t id d s
  | 0x02 => writeStart t id d s
  | 0x04 => releaseGo t id d acc s
  | 0x10 | 0x11 => parkStart t id d s
  | 0x12 => recallStart t id d c s
  | 0x13 => attendStart t id none d c s
  | 0x14 => dropBody t id d s
  | 0x15 => warmStart t d c s
  | 0x20 => placeJobs (collCores s (objOf d)) 2 t id tn 1 (kindSlot s 3) (searchStart t id d s)
  | 0x21 => issueRead t id (fld d 24 8) (fld d 8 4 * recordBytesOf (getColl s (objOf d)).width) s
  | 0x22 => issueRead t id (fld d 24 8) (8 * fld d 8 4) s
  | 0x23 => mergeGo (objOf d) s
  | 0x24 => collectionBody t id acc d s
  | 0x30 => placeJobs allCores 3 t id tn 1 (kindSlot s 4) (issueNeeds t id s)
  | 0x31 => placeJobs allCores 3 t id tn (fld d 40 4) (embedSlot s d) (issueNeeds t id s)
  | 0x32 => placeJobs (if fld d 8 1 = 0 then allCores else collCores s (objOf d)) (if fld d 8 1 = 0 then 3 else 2) t id tn 1 (kindSlot s (slotKind d)) (issueNeeds t id s)
  | 0x40 => countersBody t id d s
  | 0x41 => digestBody t id d s
  | 0x50 => if fld d 8 1 = 0 then bindBody t id d s else unbindBody t id d s
  | _ => s

/-- A command that cannot go on as it becomes RUNNING: a step opens and ends with its completion word (04 R132); one whose weights cannot be
read keeps its RESULT and summary (06 Table 65); any other command ends. -/
def startEnd (t id : Nat) (st : Byte) (d : Desc) (s : State) : State :=
  if fld d 0 1 = 0x13 then attendStart t id (some st) d ((ctxOf s (objOf d)).getD {}) s
  else if st = stMediaError then mediaStop t id st s
  else finish t id st 0 s

/-- An accepted command that no earlier command blocks becomes RUNNING. -/
def tryStart (t id : Nat) (s : State) : State :=
  match heldOf s t id with
  | none => s
  | some h =>
    if h.phase = .accepted ∧ h.ending.isNone = true ∧ blocked s h = false then
      match objectGone s h.desc with
      | some st => finish t id st 0 s
      | none =>
        let s1 := startEvent t id s
        match startFail s1 h.desc with
        | some st => startEnd t id st h.desc s1
        | none => startBody t id h.acceptNo h.desc s1
    else s

/-! ### Acceptance (03 R77, Table 27) -/

/-- Steps 2 to 6: the status and the byte that STATUS names. -/
def earlyFail (s : State) (t : Nat) (d : Desc) : Option (Byte × Option Nat) :=
  let op := fld d 0 1
  if s.boot.mode = .fettle then some (stFettle, none)
  else if op ∉ opcodes then some (stInvalidOpcode, none)
  else if (op = 0x50 ∨ op = 0x40 ∧ (fld d 8 1 = 1 ∨ fld d 8 1 = 2)) ∧ privileged t = false then some (stNotPermitted, none)
  else match reservedByte d with
    | some b => some (stInvalidField, some b)
    | none => match objectCheck s t d with
      | some f => some f
      | none => (firstBad (fieldRows s t d)).map (fun r =>
          (r.code, if r.code = stInvalidField ∨ r.code = stLength then some r.byte else none))

/-- Step 7 waits: a Sanitize that drains, and for writing commands the flush reserve. -/
def waitsAtSeven (s : State) (d : Desc) : Bool := decide (s.nor.sanitize = 1) || (writes d && !s.fl.reserveReady)

/-- The checks of step 7 in their order. -/
def resourceFail (s : State) (t : Nat) (d : Desc) : Option Byte :=
  if needsTundish d && !tundishCommitted s then some stNotPermitted
  else if needsSpares d && mediaWorn s then some stMediaWorn
  else if capacityOk s t d then none else some stCapacity

/-- Entries of the range-lock table. -/
def lockEntries : Nat := 1024

/-- Step 9: the command is ACCEPTED with its lock entry and reservation, and starts unless an earlier command blocks it. -/
def accept (t id : Nat) (s : State) : State :=
  match heldOf s t id with
  | none => s
  | some h =>
    let d := h.desc
    let n := s.cmd.acceptCount + 1
    let x := getColl s (objOf d)
    let srch : Option SearchRec :=
      if fld d 0 1 = 0x20 ∨ fld d 0 1 = 0x32 ∧ fld d 8 1 = 1 then some { coll := objOf d, epoch := x.epochNo, commitSeq := x.commitSeq }
      else none
    let s1 := modHeld t id (fun (y : Held) => { y with phase := .accepted, waitRes := false, waitLock := false, acceptNo := n,
                                                       resv := resvOf s t d, search := srch, mergeSeq := x.commitSeq }) s
    let locks := (match lockOf s d with
      | some l => s.cmd.locks ++ [{ trs := t, id := id, acceptNo := n, excl := l.1, ranges := l.2 }]
      | none => s.cmd.locks)
    let accs := if fld d 0 1 = 0x13 then s.ctx.accepts ++ [(handleIdx (objOf d), now s)] else s.ctx.accepts
    tryStart t id { s1 with cmd := { s1.cmd with acceptCount := n, locks := locks }, ctx := { s1.ctx with accepts := accs } }

/-- Step 8: locking commands are accepted in GO-arrival order while entries last (03 R86). -/
def takeLock (t id : Nat) (s : State) : State :=
  match heldOf s t id with
  | none => s
  | some h =>
    if (lockOf s h.desc).isSome ∧ (lockEntries ≤ s.cmd.locks.length ∨ (allHeld s).any (fun e => e.2.waitLock) = true) then
      bump 0x60 4 1 (modHeld t id (fun (y : Held) => { y with waitRes := false, waitLock := true }) s)
    else accept t id s

/-- Step 7 on. -/
def fromSeven (t id : Nat) (s : State) : State :=
  match heldOf s t id with
  | none => s
  | some h =>
    if waitsAtSeven s h.desc then modHeld t id (fun (y : Held) => { y with waitRes := true }) s
    else match resourceFail s t h.desc with
      | some st => finish t id st 0 s
      | none => takeLock t id s

/-- The checks of a new held command. -/
def admitHeld (t id : Nat) (d : Desc) (s : State) : State :=
  match earlyFail s t d with
  | some f => finish t id f.1 0 (modHeld t id (fun (y : Held) => { y with byte := f.2.getD 0, byteValid := f.2.isSome }) s)
  | none => fromSeven t id s

/-- Whether BAR2 writes reach a TRS page: the BAR decodes and the device is alive (02 R38, 13 R405). -/
def bar2Writable (s : State) : Bool := decodes s s.link.bar2 && alive s

/-- A GO with bit 0 = 1 that has arrived on an admitted page (03 R68, R72). -/
def goArrived (t : Nat) (s : State) : State :=
  let p := getTrs s t
  if 32 ≤ p.held.length ∨ p.resetting = true then modTrs t (fun q => { q with busy := true }) s
  else
    let id := s.cmd.goCount
    admitHeld t id p.command (modTrs t (fun q => { q with busy := false, held := q.held ++ [{ id := id, desc := p.command }] })
      { s with cmd := { s.cmd with goCount := id + 1 } })

/-- A requester writes a descriptor to COMMAND and 1 to GO (02 R42, 03 R72). -/
def goSubmit (t : Nat) (rid : BitVec 16) (d : Desc) (s : State) : State :=
  if bar2Writable s then
    if admits s t rid then goArrived t (modTrs t (fun p => { p with command := d }) s) else refuseWrite s
  else s

/-! ### Rows on waiting commands (03 R77, R85, R86) -/

/-- Pending commands of the device that satisfy a test, in GO-arrival order. -/
def pendingBy (f : Held → Bool) (s : State) : List (Nat × Nat) :=
  (sortBy (fun (a b : Nat × Held) => decide (a.2.id < b.2.id))
    ((allHeld s).filter (fun e => decide (e.2.phase = .pending) && f e.2 && e.2.ending.isNone))).map (fun e => (e.1, e.2.id))

/-- Entries have freed: waiters are accepted in GO-arrival order. -/
def acceptWaiters : List (Nat × Nat) → State → State
  | [], s => s
  | e :: es, s => if lockEntries ≤ s.cmd.locks.length then s else acceptWaiters es (accept e.1 e.2 s)

/-- LOCK_ENTRY_FREED. -/
def lockFreed (s : State) : State := acceptWaiters (pendingBy (fun h => h.waitLock) s) s

/-- ACCEPTANCE_WAIT_END: commands that waited at step 7 continue their checks. -/
def waitEnded (s : State) : State := (pendingBy (fun h => h.waitRes) s).foldl (fun s' e => fromSeven e.1 e.2 s') s

/-! ### COMMAND_FINISH (03 R83) -/

/-- A running command finishes its work, or its decided ending is reported. -/
def commandFinish (t id : Nat) (s : State) : State :=
  match heldOf s t id with
  | none => s
  | some h =>
    if h.ending.isSome then reportDecided false t id s
    else if h.phase = .running then
      match h.op with
      | 0x02 => writeFinish t id h s
      | 0x03 => flushFinish t id h s
      | 0x04 => releaseGo t id h.desc h.acceptNo s
      | 0x10 => parkFinish t id h s
      | 0x11 => extendFinish t id h s
      | 0x12 => (match ctxOf s (objOf h.desc) with
        | some c => recallRun t id h c s
        | none => finish t id stStale 0 s)
      | 0x15 => warmFinish t id h s
      | 0x20 => graphRun t id h s
      | 0x21 => insertFinish t id h s
      | 0x22 => deleteFinish t id h s
      | 0x30 | 0x31 | 0x32 => recordsFinish t id h s
      | _ => s
    else s

/-! ### Host data and timers (02 R52, 03 R91, R92) -/

/-- A command's input fails: it stops with the status, a WRITE with its prefix (03 R92). -/
def failInput (t id : Nat) (st : Byte) (s : State) : State :=
  if st = stPoisoned ∧ ((heldOf s t id).map (fun (h : Held) => decide (h.op ∈ [0x20, 0x30, 0x31, 0x32]))).getD false = true then mediaStop t id st s
  else modHeld t id (fun (h : Held) => { h with reads := [] }) (stopCommand t id st s)

/-- Data of one DMA read enter a command. -/
def takeData (t id addr len : Nat) (bytes : List Byte) (s : State) : State :=
  let s1 := countHostRead t len (modHeld t id (fun (h : Held) => { h with
    reads := h.reads.filter (fun r => r.1 != addr), rx := SMap.putList 0 h.rx addr (sliceBytes bytes 0 len),
    rxAt := h.rxAt ++ [(addr, len)] }) s)
  match heldOf s1 t id with
  | none => s1
  | some h => match h.op with
    | 0x10 | 0x11 => checkArrival t id s1
    | 0x20 => searchLoad t id h s1
    | 0x30 | 0x31 | 0x32 => issueNeeds t id (chainStages t id s1)
    | _ => s1

/-- DMA_COMPLETION_ARRIVAL: data, poison or a failure for an outstanding read; anything later is dropped and counted (02 R52, 03
R91). -/
def dmaArrive (t id addr : Nat) (o : DmaOutcome) (s : State) : State :=
  match heldOf s t id with
  | none => bump 0x60 (if id ∈ s.cmd.stalled then 0 else 1) 1 s
  | some h =>
    match h.reads.find? (fun r => r.1 == addr), h.undecided with
    | some r, true => (match o with
      | .data bytes => takeData t id addr r.2 bytes s
      | .poisoned => failInput t id stPoisoned s
      | .unsupported => failInput t id stHostAccess s
      | .aborted => failInput t id stHostAccess s)
    | _, _ => bump 0x60 (if h.status = stInputStalled ∨ (h.ending.map (·.status)) = some stInputStalled then 0 else 1) 1 s

/-- Completion Timeout Disable of Device Control 2 (02 R52). -/
def timeoutDisabled (s : State) : Bool := s.link.cfg.devCtl2.getLsbD 4

/-- COMPLETION_TIMEOUT: a read times out unless the host has disabled the timeout. -/
def readTimeout (t id : Nat) (s : State) : State :=
  match heldOf s t id with
  | none => s
  | some h => if h.undecided && !h.reads.isEmpty && !timeoutDisabled s then bump 0x20 3 1 (failInput t id stHostAccess s) else s

/-- A RUNNING command waits for input from the host: DMA completions, its stage doorbell, or a step's next doorbell (03 R91). -/
def waitsForHost (h : Held) : Bool :=
  !h.reads.isEmpty || (match h.stage with
    | some st => !st.rung
    | none => false) || (match h.step with
    | some p => p.member && p.requested.isEmpty && p.placed.isEmpty
    | none => false)

/-- INACTIVITY_TIMEOUT. -/
def inactive (t id : Nat) (s : State) : State :=
  match heldOf s t id with
  | none => s
  | some h => if h.undecided && decide (h.phase = .running) && waitsForHost h then failInput t id stInputStalled s else s

/-! ### The stage doorbell (04 R116) -/

/-- A word that a stage doorbell holds: the current STAGE_SEQ takes the source. -/
def ringStageAt (dpa : Nat) (v : BitVec 32) (s : State) : State :=
  match bellRegion s .stage dpa with
  | none => s
  | some r => checkArrival r.trs r.id (modHeld r.trs r.id (fun (h : Held) => match h.stage with
      | some x => if x.seq = v ∧ h.undecided = true then { h with stage := some { x with rung := true } } else h
      | none => h) s)

/-- STAGE_DOORBELL: the word is stored in its line and taken. -/
def stageDoorbell (dpa : Nat) (v : BitVec 32) (s : State) : State :=
  if lateInput s dpa 4 then dropLate s
  else if (bellRegion s .stage dpa).isSome then ringStageAt dpa v (hostStore dpa (bytesOf 4 v.toNat) s) else s

/-! ### NEXT and QRESET (03 R68, R75, R93) -/

/-- NEXT with bit 0 = 1 retires the head report when it is DONE or ERROR. -/
def nextReport (t : Nat) (s : State) : State :=
  match headOf (getTrs s t) with
  | none => s
  | some h => if h.ended then
      releaseReport t h.id (modTrs t (fun p => { p with held := p.held.drop 1, busy := false }) s)
    else s

/-- QRESET with bit 0 = 1: every undecided command is stopped with QUEUE_RESET. -/
def qreset (t : Nat) (s : State) : State :=
  if (getTrs s t).resetting then s
  else
    let ids := ((getTrs s t).held.filter (fun h => h.undecided)).map (·.id)
    ids.foldl (fun s' id => stopCommand t id stQueueReset s') (modTrs t (fun p => { p with resetting := true }) s)

/-- QRESET_COMPLETE: the stopped commands are reported and RESETTING and BUSY return to 0. -/
def qresetEnd (t : Nat) (s : State) : State :=
  if (getTrs s t).resetting then
    let ids := ((getTrs s t).held.filter (fun h => h.ending.isSome)).map (·.id)
    modTrs t (fun p => { p with resetting := false, busy := false }) (ids.foldl (fun s' id => reportDecided false t id s') s)
  else s

/-- A write of NEXT or QRESET from a requester. -/
def ctlWrite (t : Nat) (rid : BitVec 16) (v : BitVec 32) (f : State → State) (s : State) : State :=
  if bar2Writable s then
    if admits s t rid then (if bitOf v.toNat 0 then f s else s) else refuseWrite s
  else s

/-! ### The rows -/

/-- A row that submits a command: the descriptor carries the row's opcode (log 6). -/
def goRow (op t : Nat) (rid : BitVec 16) (d : Desc) (s : State) : Result :=
  onTrs t (goSubmit t rid (setDescByte d 0 (BitVec.ofNat 8 op))) s

/-- A row of a command with a selector at byte `b`: `v` for this row (log 6). -/
def goRowWith (op b v t : Nat) (rid : BitVec 16) (d : Desc) (s : State) : Result :=
  goRow op t rid (setDescByte d b (BitVec.ofNat 8 v)) s

/-- The first row of a command with several: a selector that another row carries becomes 0 (log 6). -/
def goRowFirst (op b last t : Nat) (rid : BitVec 16) (d : Desc) (s : State) : Result :=
  goRow op t rid (if 1 ≤ fld d b 1 ∧ fld d b 1 ≤ last then setDescByte d b 0 else d) s

/-- GO_SUBMIT_NOP. -/
def execGoSubmitNop (trs : Nat) (rid : BitVec 16) (desc : Desc) (s : State) : Result := goRow 0x00 trs rid desc s
/-- READ. -/
def execRead (trs : Nat) (rid : BitVec 16) (desc : Desc) (s : State) : Result := goRow 0x01 trs rid desc s
/-- WRITE. -/
def execWrite (trs : Nat) (rid : BitVec 16) (desc : Desc) (s : State) : Result := goRow 0x02 trs rid desc s
/-- FLUSH. -/
def execFlush (trs : Nat) (rid : BitVec 16) (desc : Desc) (s : State) : Result := goRow 0x03 trs rid desc s
/-- RELEASE. -/
def execRelease (trs : Nat) (rid : BitVec 16) (desc : Desc) (s : State) : Result := goRow 0x04 trs rid desc s
/-- BIND with ACTION 0x00, or out of range. -/
def execBind (trs : Nat) (rid : BitVec 16) (desc : Desc) (s : State) : Result := goRowFirst 0x50 8 1 trs rid desc s
/-- BIND with ACTION 0x01. -/
def execUnbind (trs : Nat) (rid : BitVec 16) (desc : Desc) (s : State) : Result := goRowWith 0x50 8 1 trs rid desc s
/-- PARK. -/
def execPark (trs : Nat) (rid : BitVec 16) (desc : Desc) (s : State) : Result := goRow 0x10 trs rid desc s
/-- EXTEND. -/
def execExtend (trs : Nat) (rid : BitVec 16) (desc : Desc) (s : State) : Result := goRow 0x11 trs rid desc s
/-- RECALL. -/
def execRecallContext (trs : Nat) (rid : BitVec 16) (desc : Desc) (s : State) : Result := goRow 0x12 trs rid desc s
/-- ATTEND. -/
def execAttend (trs : Nat) (rid : BitVec 16) (desc : Desc) (s : State) : Result := goRow 0x13 trs rid desc s
/-- DROP. -/
def execDrop (trs : Nat) (rid : BitVec 16) (desc : Desc) (s : State) : Result := goRow 0x14 trs rid desc s
/-- WARM with ACTION 0x00, or out of range. -/
def execWarmFrames (trs : Nat) (rid : BitVec 16) (desc : Desc) (s : State) : Result := goRowFirst 0x15 12 1 trs rid desc s
/-- WARM with ACTION 0x01. -/
def execWarmPromote (trs : Nat) (rid : BitVec 16) (desc : Desc) (s : State) : Result := goRowWith 0x15 12 1 trs rid desc s
/-- SEARCH. -/
def execSearch (trs : Nat) (rid : BitVec 16) (desc : Desc) (s : State) : Result := goRow 0x20 trs rid desc s
/-- INSERT. -/
def execInsert (trs : Nat) (rid : BitVec 16) (desc : Desc) (s : State) : Result := goRow 0x21 trs rid desc s
/-- DELETE. -/
def execDelete (trs : Nat) (rid : BitVec 16) (desc : Desc) (s : State) : Result := goRow 0x22 trs rid desc s
/-- MERGE. -/
def execMerge (trs : Nat) (rid : BitVec 16) (desc : Desc) (s : State) : Result := goRow 0x23 trs rid desc s
/-- COLLECTION with ACTION CREATE, or out of range. -/
def execCollectionCreate (trs : Nat) (rid : BitVec 16) (desc : Desc) (s : State) : Result := goRowFirst 0x24 8 2 trs rid desc s
/-- COLLECTION with ACTION DESTROY. -/
def execCollectionDestroy (trs : Nat) (rid : BitVec 16) (desc : Desc) (s : State) : Result := goRowWith 0x24 8 1 trs rid desc s
/-- COLLECTION with ACTION DESCRIBE. -/
def execCollectionDescribe (trs : Nat) (rid : BitVec 16) (desc : Desc) (s : State) : Result := goRowWith 0x24 8 2 trs rid desc s
/-- FILTER. -/
def execFilter (trs : Nat) (rid : BitVec 16) (desc : Desc) (s : State) : Result := goRow 0x30 trs rid desc s
/-- EMBED. -/
def execEmbed (trs : Nat) (rid : BitVec 16) (desc : Desc) (s : State) : Result := goRow 0x31 trs rid desc s
/-- CHAIN with FORM 0x00, or out of range. -/
def execChainFilterEmbedInsert (trs : Nat) (rid : BitVec 16) (desc : Desc) (s : State) : Result := goRowFirst 0x32 8 1 trs rid desc s
/-- CHAIN with FORM 0x01. -/
def execChainEmbedSearch (trs : Nat) (rid : BitVec 16) (desc : Desc) (s : State) : Result := goRowWith 0x32 8 1 trs rid desc s
/-- COUNTERS. -/
def execCounters (trs : Nat) (rid : BitVec 16) (desc : Desc) (s : State) : Result := goRow 0x40 trs rid desc s
/-- DIGEST_READ. -/
def execDigestRead (trs : Nat) (rid : BitVec 16) (desc : Desc) (s : State) : Result := goRow 0x41 trs rid desc s

/-- INVALID_OPCODE: a descriptor whose opcode Table 28 does not hold (log 6). -/
def execInvalidOpcode (trs : Nat) (rid : BitVec 16) (desc : Desc) (s : State) : Result :=
  onTrs trs (goSubmit trs rid (if fld desc 0 1 ∈ opcodes then setDescByte desc 0 0xFF else desc)) s

/-- NEXT. -/
def execNext (trs : Nat) (rid : BitVec 16) (value : BitVec 32) (s : State) : Result :=
  onTrs trs (ctlWrite trs rid value (nextReport trs)) s

/-- QRESET. -/
def execQreset (trs : Nat) (rid : BitVec 16) (value : BitVec 32) (s : State) : Result :=
  onTrs trs (ctlWrite trs rid value (qreset trs)) s

/-- QRESET_COMPLETE. -/
def execQresetComplete (trs : Nat) (s : State) : Result :=
  onTrs trs (fun x => if alive x then qresetEnd trs x else x) s

/-- LOCK_ENTRY_FREED. -/
def execLockEntryFreed (s : State) : Result := whenServing lockFreed s

/-- CONFLICT_CLEARED: an accepted command whose range is free starts. -/
def execConflictCleared (trs id : Nat) (s : State) : Result := onTrsServing trs (tryStart trs id) s

/-- ACCEPTANCE_WAIT_END. -/
def execAcceptanceWaitEnd (s : State) : Result := whenServing waitEnded s

/-- COMMAND_FINISH. -/
def execCommandFinish (trs id : Nat) (s : State) : Result := onTrsServing trs (commandFinish trs id) s

/-- DMA_COMPLETION_ARRIVAL. -/
def execDmaCompletionArrival (trs id addr : Nat) (outcome : DmaOutcome) (s : State) : Result :=
  onTrs trs (fun x => if alive x then dmaArrive trs id addr outcome x else x) s

/-- COMPLETION_TIMEOUT. -/
def execCompletionTimeout (trs id : Nat) (s : State) : Result :=
  onTrs trs (fun x => if alive x then readTimeout trs id x else x) s

/-- INACTIVITY_TIMEOUT. -/
def execInactivityTimeout (trs id : Nat) (s : State) : Result := onTrsServing trs (inactive trs id) s

/-- STAGE_DOORBELL. -/
def execStageDoorbell (dpa : Nat) (value : BitVec 32) (s : State) : Result :=
  if dpa < tundishSize then whenServing (stageDoorbell dpa value) s else .fault .noSuchAddress

end Sys2Proof.Machine
end

