-- ==== Sys2Proof/Machine/TierOps.lean ====
section
/-! DEFINITION. Moves of tier pages that the device makes by itself (10 R288 to R291, R303 to R308): promotion commits, eviction
at low water, idle demotion, T2 folds and the reload of collection pages. -/
namespace Sys2Proof.Machine

/-- A promotion in progress ends without effect. -/
def abandonMove (k : Nat) (s : State) : State := modPage k (fun p => { p with moving := none, rider := none }) s

/-- PROMOTION_COMMIT (10 R288, R291, 12 R364): the page becomes T1-homed and its WARM and transient frames go; a page that cannot
be read or fails its check stays flash-homed. A page in a member's range is promoted by that member's own riser only: any other promotion of
it is given up (04 R122, R137). -/
def promotionCommit (k : Nat) (verified : Bool) (s : State) : State :=
  match pageAt s k with
  | none => s
  | some p => match p.moving with
    | none => s
    | some sc =>
      if unitsStatus s (slotUnit s k) ≠ stOk then checkWindow (abandonMove k s)
      else if verified = false ∨ pageMismatch s k = true then
        checkWindow (raise 0x0007 1 (mapOf s (slotUnit s k)).addr.toNat (slotUnit s k) 0
          (noteMismatch [slotUnit s k] (abandonMove k s)))
      else if (match p.rider with
          | none => inMemberRange s p.owner
          | some r => otherMember s r.1 r.2 p.owner) then checkWindow (abandonMove k s)
      else checkWindow (dropWarm k (modPage k (fun q => { q with home := .t1 sc.1 sc.2, moving := none, rider := none }) s))

/-- Free pool pages of a stack. -/
def poolFree (s : State) (st : Nat) : Nat := sumOf ((List.range 32).map (chanFree s st))

/-- Pool pages of a stack. -/
def poolPages : Nat := 32 * chanPages

/-- A stack stands at or above LOW_WATER (10 R305). -/
def aboveWater (st : Nat) (s : State) : Bool := decide (polValue s 0x08 2 * poolPages ≤ 100 * poolFree s st)

/-- LOW_WATER_EVICTION. -/
def lowWater (st : Nat) (s : State) : State := evictUntil (aboveWater st) st (List.range 32) s.tier.pages.length s

/-- IDLE_DEMOTION: a T1-homed page not read for T1_IDLE is demoted, but for pages that 10 R303 excludes. -/
def idleDemote (k : Nat) (s : State) : State :=
  match pageAt s k with
  | none => s
  | some p =>
    if p.inT1 && decide (polValue s 0x0B 600 * 1000000000 ≤ (now s - p.lastUse).toNat) && !inMemberRange s p.owner
      && !keptT1 s p.owner && p.moving.isNone && !unbacked s k then demotePage k false s
    else s

/-- A T2 page that may be folded: not in a member's range, in no move, readable, and on flash with no relocation in progress. -/
def foldsNow (s : State) (e : Nat × Page) : Bool :=
  decide (e.2.home = .t2) && !inMemberRange s e.2.owner && e.2.moving.isNone
  && (List.range 4).all (fun i => let u := slotUnit s e.1 + i
                                  !inBuffer s u && decide ((mapOf s u).st = 1) && !relocating s u)

/-- T2_FOLD: above 90% of the T2 size, pages start their fold, oldest last use first, down to 80% (10 R308). -/
def t2FoldStart (s : State) : State :=
  let used := (s.tier.pages.filter (fun e => e.2.home == .t2)).length
  let size := t2Pages s
  if 9 * size < 10 * used ∧ s.gov.bgFlash = false then
    let cands := sortBy (fun (a b : Nat × Page) => lexLt (evictKey a.2) (evictKey b.2)) (s.tier.pages.filter (foldsNow s))
    let folding := (s.tier.pages.filter (fun e => e.2.home == .t2 && inFold s e.1)).length
    (cands.take (used - folding - 8 * size / 10)).foldl (fun s' e =>
      startReloc (sbKey s' (mapOf s' (slotUnit s' e.1)).addr) .fold (some e.1) ((List.range 4).map (slotUnit s' e.1 + ·)) s') s
  else s

/-- Collection pages that must be T1-homed and are not: collections in ascending ID, pages in ascending number (10 R290). -/
def reloads (s : State) : List (Nat × Page) :=
  let key (p : Page) : List Nat := match p.owner with
    | .coll c k n => [c, n, k]
    | _ => []
  sortBy (fun (a b : Nat × Page) => lexLt (key a.2) (key b.2))
    (s.tier.pages.filter (fun e => keptT1 s e.2.owner && !e.2.inT1 && e.2.moving.isNone && e.2.dead.isNone && !inFold s e.1))

/-- COLLECTION_RELOAD: every such page that a stack accepts starts its promotion (10 R290, R296). -/
def collectionReload (s : State) : State :=
  (reloads s).foldl (fun s' e =>
    if pageStatus s' e.1 ≠ stOk then s'
    else
      let r := placeKept (stripeStack e.2.owner) e.2.tenant 16 s'
      match r.2 with
      | none => r.1
      | some sc => modPage e.1 (fun q => { q with moving := some sc }) (readFor none e.1 r.1)) s

/-- DEMOTED_DRAM_FREED: without a reader left, the DRAM location of a demoted page is free (10 Table 84). -/
def dramFreed (k : Nat) (s : State) : State :=
  if ((pageAt s k).map (fun p => hasReader s p.owner)).getD false then s
  else { s with tier := { s.tier with dramPending := s.tier.dramPending.filter (fun e => e.1 != k) } }

/-! ### The rows -/

/-- PROMOTION_COMMIT. -/
def execPromotionCommit (page : Nat) (verified : Bool) (s : State) : Result := whenServing (promotionCommit page verified) s

/-- LOW_WATER_EVICTION. -/
def execLowWaterEviction (stack : Nat) (s : State) : Result := whenServing (lowWater stack) s

/-- IDLE_DEMOTION. -/
def execIdleDemotion (page : Nat) (s : State) : Result := whenServing (idleDemote page) s

/-- T2_FOLD. -/
def execT2Fold (s : State) : Result := whenServing t2FoldStart s

/-- COLLECTION_RELOAD. -/
def execCollectionReload (s : State) : Result := whenServing collectionReload s

/-- DEMOTED_DRAM_FREED. -/
def execDemotedDramFreed (page : Nat) (s : State) : Result := whenServing (dramFreed page) s

end Sys2Proof.Machine
end

