-- ==== Sys2Proof/Machine/Cipher.lean ====
section
/-! DEFINITION. The ciphers the spec names: AES-256 (FIPS 197), its key wrap (RFC 3394, 14 R437) and the XTS mode of the media cipher
(IEEE 1619, 14 R438). A block or a key is a list of bytes in the standards' order. -/
namespace Sys2Proof.Machine

/-! ### The field of AES -/

/-- Twice a byte in the field of AES, modulo x^8 + x^4 + x^3 + x + 1. -/
def aesTwice (a : Byte) : Byte := if a.msb then (a <<< 1) ^^^ 0x1B else a <<< 1

/-- The product of two bytes. -/
def aesTimes (a b : Byte) : Byte :=
  (List.range 8).foldl (fun acc i => aesTwice acc ^^^ (if b.getLsbD (7 - i) then a else 0)) 0

/-- The inverse of a byte, its 254th power; 0 of 0. -/
def aesInverse (a : Byte) : Byte :=
  ((List.range 7).foldl (fun (x : Byte × Byte) _ =>
    let sq := aesTimes x.2 x.2
    (aesTimes x.1 sq, sq)) (1, a)).1

/-- The S-box: the inverse, then the affine map. -/
def aesSub (a : Byte) : Byte :=
  let b := aesInverse a
  b ^^^ b.rotateLeft 1 ^^^ b.rotateLeft 2 ^^^ b.rotateLeft 3 ^^^ b.rotateLeft 4 ^^^ 0x63

/-- The inverse of the S-box. -/
def aesUnsub (a : Byte) : Byte := aesInverse (a.rotateLeft 1 ^^^ a.rotateLeft 3 ^^^ a.rotateLeft 6 ^^^ 0x05)

/-! ### Rounds over a block of 16 bytes, column by column -/

/-- Byte-wise sum of two lists. -/
def xorList (a b : List Byte) : List Byte := List.zipWith (fun (x y : Byte) => x ^^^ y) a b

/-- Row `r` turns by `r` columns: left with `back` false, right with `back` true. -/
def aesShift (back : Bool) (b : List Byte) : List Byte :=
  (List.range 16).map (fun i => b.getD (i % 4 + 4 * ((i / 4 + (if back then 4 - i % 4 else i % 4)) % 4)) 0)

/-- Each column times a circulant matrix with first row `m`. -/
def aesMix (m : List Byte) (b : List Byte) : List Byte :=
  (List.range 16).map (fun i => (List.range 4).foldl (fun acc k =>
    acc ^^^ aesTimes (b.getD (i / 4 * 4 + k) 0) (m.getD ((k + 4 - i % 4) % 4) 0)) 0)

/-- The next word of the key schedule, from the words so far (FIPS 197, 8 key words). -/
def aesNextWord (ws : List (List Byte)) : List Byte :=
  let i := ws.length
  let prev := ws.getD (i - 1) []
  let turned := prev.drop 1 ++ prev.take 1
  let fresh :=
    if i % 8 = 0 then xorList (turned.map aesSub) [1 <<< (i / 8 - 1), 0, 0, 0]
    else if i % 8 = 4 then prev.map aesSub
    else prev
  xorList (ws.getD (i - 8) []) fresh

/-- The fifteen round keys of a 32-byte key. -/
def aesKeys (key : List Byte) : List (List Byte) :=
  let ws := (List.range 52).foldl (fun w _ => w ++ [aesNextWord w]) ((List.range 8).map (fun i => sliceBytes key (4 * i) 4))
  (List.range 15).map (fun r => ((ws.drop (4 * r)).take 4).flatten)

/-- AES-256 of one block under its round keys. -/
def aesEncrypt (ks : List (List Byte)) (b : List Byte) : List Byte :=
  (List.range 14).foldl (fun x r =>
    let y := aesShift false (x.map aesSub)
    xorList (if r = 13 then y else aesMix [2, 3, 1, 1] y) (ks.getD (r + 1) [])) (xorList b (ks.getD 0 []))

/-- The inverse of `aesEncrypt`. -/
def aesDecrypt (ks : List (List Byte)) (b : List Byte) : List Byte :=
  (List.range 14).foldl (fun x r =>
    let y := xorList x (ks.getD (14 - r) [])
    (aesShift true (if r = 0 then y else aesMix [14, 11, 13, 9] y)).map aesUnsub) b |> fun x => xorList x (ks.getD 0 [])

/-! ### Key wrap (RFC 3394) -/

/-- The initial value of the wrap. -/
def wrapStart : List Byte := List.replicate 8 0xA6

/-- A step counter, as eight bytes, highest first. -/
def wrapCount (t : Nat) : List Byte := (bytesOf 8 t).reverse

/-- The wrap of a key of `8 n` bytes. -/
def aesWrap (kek key : List Byte) : List Byte :=
  let ks := aesKeys kek
  let n := key.length / 8
  let r := (List.range (6 * n)).foldl (fun (x : List Byte × List (List Byte)) t =>
    let b := aesEncrypt ks (x.1 ++ x.2.getD (t % n) [])
    (xorList (b.take 8) (wrapCount (t + 1)), x.2.set (t % n) (b.drop 8)))
    (wrapStart, (List.range n).map (fun i => sliceBytes key (8 * i) 8))
  r.1 ++ r.2.flatten

/-- The key inside a wrapped value; none where it does not authenticate. -/
def aesUnwrap (kek wrapped : List Byte) : Option (List Byte) :=
  let ks := aesKeys kek
  let n := wrapped.length / 8 - 1
  let r := (List.range (6 * n)).foldl (fun (x : List Byte × List (List Byte)) j =>
    let t := 6 * n - 1 - j
    let b := aesDecrypt ks (xorList x.1 (wrapCount (t + 1)) ++ x.2.getD (t % n) [])
    (b.take 8, x.2.set (t % n) (b.drop 8)))
    (sliceBytes wrapped 0 8, (List.range n).map (fun i => sliceBytes wrapped (8 * (i + 1)) 8))
  if r.1 = wrapStart then some r.2.flatten else none

/-! ### XTS (IEEE 1619) -/

/-- The next tweak: times x in the field of 2^128, the low byte first. -/
def xtsNext (t : List Byte) : List Byte :=
  let v := natOf t * 2
  bytesOf 16 (if v < 2 ^ 128 then v else (v - 2 ^ 128) ^^^ 0x87)

/-- One data unit under a 64-byte key pair, block by block between two sums with the tweak. -/
def xtsUnit (cipher : List Byte → List Byte) (second : List Byte) (no : Nat) (data : List Byte) : List Byte :=
  ((List.range (data.length / 16)).foldl (fun (x : List Byte × List Byte) i =>
    (x.1 ++ xorList (cipher (xorList (sliceBytes data (16 * i) 16) x.2)) x.2, xtsNext x.2))
    ([], aesEncrypt (aesKeys second) (bytesOf 16 no))).1

/-- XTS encryption of data unit `no` under a key pair. -/
def xtsEncrypt (pair : List Byte) (no : Nat) (data : List Byte) : List Byte :=
  xtsUnit (aesEncrypt (aesKeys (pair.take 32))) (pair.drop 32) no data

/-- XTS decryption. -/
def xtsDecrypt (pair : List Byte) (no : Nat) (data : List Byte) : List Byte :=
  xtsUnit (aesDecrypt (aesKeys (pair.take 32))) (pair.drop 32) no data

end Sys2Proof.Machine
end

