-- ==== Sys2Proof/Machine/Pattern.lean ====
section
/-! DEFINITION. The pattern image (14 R413 to R422): header, commit record, sections, the verification of a slot, the owner
policy tables, function slots and pattern store objects. -/
namespace Sys2Proof.Machine

/-- The bytes of an ASCII string. -/
def ascii (l : List Char) : List Byte := l.map (fun c => BitVec.ofNat 8 c.toNat)

/-! ### Images in a slot (14 R413 to R415) -/

/-- The first NOR byte of a slot. -/
def slotBase : Slot → Nat
  | .cope => 0x10000
  | .drag => 0x6010000

/-- The first sector of a slot. -/
def slotSector (x : Slot) : Nat := slotBase x / 65536

/-- The other slot. -/
def otherSlot : Slot → Slot
  | .cope => .drag
  | .drag => .cope

/-- The size of a slot in bytes. -/
def slotSize : Nat := 100663296

/-- `n` bytes of a slot from an offset. -/
def imgBytes (s : State) (x : Slot) (off n : Nat) : List Byte := norRaw s (slotBase x + off) n

/-- A section table entry (14 Table 127). -/
structure Sect where
  type : Nat
  index : Nat
  off : Nat
  len : Nat
  crc : Nat
  zero : Bool
  deriving DecidableEq, Repr

/-- An image header with its section table (14 Table 126). -/
structure Image where
  head : List Byte
  table : List Byte
  gen : Nat
  len : Nat
  sects : List Sect
  deriving DecidableEq, Repr

/-- A section entry from its 32 bytes. -/
def parseSect (l : List Byte) : Sect :=
  { type := numAt l 0 1, index := numAt l 1 1, off := numAt l 4 4, len := numAt l 8 4, crc := numAt l 12 4,
    zero := decide (numAt l 2 2 = 0 ∧ numAt l 16 16 = 0) }

/-- The header of a slot's image: MAGIC, FORMAT and HDR_CRC correct. -/
def imageOfSlot (s : State) (x : Slot) : Option Image :=
  let h := imgBytes s x 0 64
  if h.take 8 ≠ ascii ['L', 'Y', 'M', 'P', 'T', 'R', 'N', '1'] then none
  else
    let n := numAt h 10 2
    let tb := imgBytes s x 64 (32 * n)
    if numAt h 8 2 = 1 ∧ (crc32 (h.take 60 ++ tb)).toNat = numAt h 60 4 then
      some { head := h, table := tb, gen := numAt h 12 4, len := numAt h 16 4,
             sects := (List.range n).map (fun i => parseSect (sliceBytes tb (32 * i) 32)) }
    else none

/-- The digest over header bytes 0 to 63 and the section table. -/
def headDigest (m : Image) : List Byte := digest32 (m.head ++ m.table)

/-- The commit record of an image (14 Table 129). -/
def commitRecord (m : Image) : List Byte :=
  let b := bytesOf 4 0x434D5431 ++ bytesOf 4 0xBCB2ABCE ++ bytesOf 4 m.gen ++ bytesOf 4 m.len ++ headDigest m ++ bytesOf 12 0
  b ++ bytesOf 4 (crc32 b).toNat

/-- A slot is a candidate (14 R415). -/
def candidate (s : State) (x : Slot) : Option Image :=
  match imageOfSlot s x with
  | none => none
  | some m =>
    let c := imgBytes s x 0xFFC0 64
    if (crc32 (c.take 60)).toNat = numAt c 60 4 ∧ numAt c 8 4 = m.gen ∧ numAt c 12 4 = m.len
        ∧ (c.drop 16).take 32 = headDigest m then some m else none

/-- The bytes of a section. -/
def sectBytes (s : State) (x : Slot) (e : Sect) : List Byte := imgBytes s x e.off e.len

/-- The first section of a type. -/
def sectOf (m : Image) (t : Nat) : Option Sect := m.sects.find? (fun e => e.type == t)

/-- Sections of a type. -/
def sectsOf (m : Image) (t : Nat) : List Sect := m.sects.filter (fun e => e.type == t)

/-- Sections lie in ascending order from 0x1_0000 on, on 256-byte boundaries, apart, below IMAGE_LEN (14 R413). -/
def layoutOk : Nat → Nat → List Sect → Bool
  | _, _, [] => true
  | lo, len, e :: es => decide (lo ≤ e.off ∧ e.off % 256 = 0 ∧ 1 ≤ e.len ∧ e.off + e.len ≤ len) && e.zero
      && layoutOk (e.off + e.len) len es

/-- The counts of 14 Table 128. -/
def countsOk (m : Image) : Bool :=
  let n (t : Nat) : Nat := (sectsOf m t).length
  let fs : List Nat := (sectsOf m 3).map (fun e => e.index)
  decide (n 1 = 1 ∧ n 2 ≤ 1 ∧ n 4 ≤ 1 ∧ n 5 ≤ 1 ∧ n 3 ≤ 64 ∧ m.sects.length = n 1 + n 2 + n 3 + n 4 + n 5)
  && decide (if n 2 = 0 then n 3 = 0 else 3 ≤ n 3) && decide (dedup fs = fs)
  && m.sects.all (fun e => decide (e.type = 3 ∨ e.index = 0))
  && decide ((n 2 = 0 ∧ n 3 = 0) ∨ n 5 = 1)

/-- Check 1 of 14 R416: the image's form and every section CRC. -/
def crcsOk (s : State) (x : Slot) (m : Image) : Bool :=
  decide (1 ≤ m.sects.length ∧ m.sects.length ≤ 128 ∧ 0x10100 ≤ m.len ∧ m.len ≤ slotSize ∧ 1 ≤ m.gen ∧ m.gen < 4294967295)
  && decide (numAt m.head 20 40 = 0) && layoutOk 0x10000 m.len m.sects && countsOk m
  && m.sects.all (fun e => decide ((crc32 (sectBytes s x e)).toNat = e.crc))

/-- Check 2: the vendor firmware's key and signature. -/
def vendorOk (s : State) (x : Slot) (m : Image) : Bool :=
  match sectOf m 1 with
  | none => false
  | some e =>
    let b := sectBytes s x e
    let body := sliceBytes b 3072 (numAt b 4 4)
    decide (3072 + numAt b 4 4 ≤ e.len) && decide (digest32 (sliceBytes b 8 68) = Config.vendorRoot)
    && Config.xmssVerify (sliceBytes b 8 68) body (sliceBytes b 80 2820)

/-- The owner digest (14 R414). -/
def ownerDigest (s : State) (x : Slot) (m : Image) : List Byte :=
  digest32 (m.head.take 60 ++ m.table ++ (m.sects.filter (fun e => e.type != 5)).flatMap (sectBytes s x))

/-- Signature bytes of a PARAM (14 R432). -/
def sigLen : Nat → Option Nat
  | 1 => some 2500
  | 2 => some 2692
  | 3 => some 2820
  | _ => none

/-- Check 3: the owner's signature under a key. -/
def ownerSigOk (s : State) (x : Slot) (m : Image) (param : Nat) (pub : List Byte) : Bool :=
  match sectOf m 2, sectOf m 5 with
  | some _, some e =>
    let b := sectBytes s x e
    decide (numAt b 0 1 = param ∧ numAt b 1 3 = 0 ∧ some (numAt b 4 4) = sigLen param)
    && Config.xmssVerify pub (ownerDigest s x m) (sliceBytes b 8 (numAt b 4 4))
  | _, _ => false

/-! ### Function slots (14 R419, R420, 07 R235, 09 R267) -/

/-- The class of a kind (07 Table 71). -/
def classOf : Nat → Nat
  | 1 => 3
  | 2 => 1
  | 3 => 2
  | _ => 3

/-- A tile declaration from its 16 bytes, within the limits of 07 Table 73. -/
def parseTile (l : List Byte) : Option TileDecl :=
  let t : TileDecl := { shape := numAt l 0 1, sems := numAt l 1 1, cycles := numAt l 4 4, live := numAt l 8 4, sram := numAt l 12 4 }
  if t.shape ≤ 4 ∧ t.sems ≤ 32 ∧ numAt l 2 2 = 0 ∧ t.cycles ≤ 28800 ∧ t.live ≤ 2097152 ∧ t.sram ≤ 33554432 then some t else none

/-- Scale records in turn; none where one breaks a rule. -/
def parseScales : Nat → List Byte → Option (List ScaleRec × List Byte)
  | 0, l => some ([], l)
  | n + 1, l =>
    match readScaleRec l with
    | none => none
    | some r => (parseScales n r.2).map (fun x => (r.1 :: x.1, x.2))

/-- A function slot's section; none where it breaks a limit. -/
def parseSlot (index : Nat) (l : List Byte) : Option FnSlot :=
  let kind := numAt l 1 1
  let nt := numAt l 3 1
  let embed := decide (kind = 1)
  let maxTok := numAt l 4 4
  let dOut := numAt l 8 4
  let nproj := numAt l 12 1
  let nobj := numAt l 16 4
  let co := numAt l 20 4
  let cl := numAt l 24 4
  let pw := (List.range 4).map (fun i => numAt l (32 + 2 * i) 2)
  let tiles := (List.range nt).filterMap (fun i => parseTile (sliceBytes l (64 + 16 * i) 16))
  match parseScales (numAt l 14 2) (l.drop (64 + 16 * nt)) with
  | none => none
  | some sc =>
    let config := sliceBytes l co cl
    if numAt l 0 1 = index ∧ 1 ≤ kind ∧ kind ≤ 4 ∧ numAt l 2 1 = classOf kind ∧ 1 ≤ nt ∧ nt ≤ 16 ∧ tiles.length = nt
        ∧ (embed = true → 1 ≤ maxTok ∧ 1 ≤ dOut ∧ nproj ≤ 4) ∧ (embed = false → maxTok = 0 ∧ dOut = 0 ∧ nproj = 0)
        ∧ numAt l 13 1 = 0 ∧ nproj ≤ nobj ∧ co % 256 = 0 ∧ co + cl ≤ l.length ∧ numAt l 28 4 = 0 ∧ numAt l 40 24 = 0
        ∧ (pw.take nproj).all (fun w => decide (w = 256 ∨ w = 512 ∨ w = 1024 ∨ w = 2048)) = true
        ∧ (pw.drop nproj).all (fun w => decide (w = 0)) = true ∧ 4 * nobj ≤ sc.2.length then
      some { slot := index, kind := kind, cls := classOf kind, maxTokens := maxTok, dOut := dOut, nproj := nproj,
             projW := pw.take nproj, tiles := tiles, scales := sc.1,
             objects := (List.range nobj).map (fun i => numAt sc.2 (4 * i) 4), config := config }
    else none

/-- The entries of a STORE_INDEX: digest, length, chunk digests; none where it breaks a rule. -/
def parseIndex (l : List Byte) : Option (List (List Byte × Nat × List (List Byte))) :=
  let n := numAt l 0 4
  let es := (List.range n).map (fun i =>
    let e := sliceBytes l (8 + 48 * i) 48
    let k := ceilDiv (numAt e 32 8) 1048576
    (e, (e.take 32, numAt e 32 8, (List.range k).map (fun j => sliceBytes l (numAt e 40 4 + 32 * j) 32))))
  if decide (numAt l 4 4 = 0 ∧ 8 + 48 * n ≤ l.length)
      && es.all (fun e => decide (1 ≤ e.2.2.1 ∧ e.2.2.1 ≤ 64000000000 ∧ numAt e.1 44 4 = 0
          ∧ numAt e.1 40 4 + 32 * e.2.2.2.length ≤ l.length ∧ digest32 e.2.2.2.flatten = e.2.1))
      && decide (sumOf (es.map (fun e => 16384 * ceilDiv e.2.2.1 16384)) ≤ 64000000000) then
    some (es.map (·.2))
  else none

/-- The objects an image's index names. -/
def imageObjects (s : State) (x : Slot) (m : Image) : List (List Byte × Nat × List (List Byte)) :=
  ((sectOf m 4).bind (fun e => parseIndex (sectBytes s x e))).getD []

/-- The digests of a slot's objects, in the order of its references (14 R419, R421). -/
def slotDigests (objs : List (List Byte × Nat × List (List Byte))) (x : FnSlot) : List (List Byte) :=
  x.objects.map (fun e => ((objs[e]?).map (·.1)).getD [])

/-- The slots of an image. -/
def imageSlots (s : State) (x : Slot) (m : Image) : List FnSlot :=
  (sectsOf m 3).filterMap (fun e => parseSlot e.index (sectBytes s x e))

/-- The kinds of slots that an image holds (14 R420). -/
def kindsOk (s : State) (x : Slot) (m : Image) : Bool :=
  let n (k : Nat) : Nat := ((imageSlots s x m).filter (fun f => f.kind == k)).length
  (sectsOf m 2).isEmpty || decide (n 2 = 1 ∧ n 3 = 1 ∧ n 4 = 1)

/-- Check 4: every slot within its limits, and the kinds of 14 R420. -/
def limitsOk (s : State) (x : Slot) (m : Image) : Bool :=
  let fs := imageSlots s x m
  decide (fs.length = (sectsOf m 3).length)
  && fs.all (fun f => productsOk (slotDigests (imageObjects s x m) f) f) && kindsOk s x m

/-! ### The owner's record (14 R433) -/

/-- The owner record. -/
structure OwnerRec where
  copy : Nat
  seq : Nat
  epoch : Nat
  claimed : Bool
  param : Nat
  pub : List Byte
  deriving DecidableEq, Repr

/-- The address of owner copy `c`. -/
def ownerAddr (c : Nat) : Nat := 0xC510000 + c * 524288

/-- The owner record of a copy, where it is valid. -/
def ownerCopy (s : State) (c : Nat) : Option OwnerRec :=
  let b := norRead s (ownerAddr c) 128
  if b.take 8 = ascii ['L', 'Y', 'M', 'O', 'W', 'N', 'R', '1'] ∧ (crc32 (b.take 124)).toNat = numAt b 124 4 then
    some { copy := c, seq := numAt b 8 4, epoch := numAt b 12 4, claimed := decide (numAt b 16 1 = 1), param := numAt b 17 1,
           pub := sliceBytes b 20 68 }
  else none

/-- The current owner record: the valid copy of higher COPY_SEQ. A module with neither is unclaimed with epoch 0 (log 30). -/
def ownerNow (s : State) : OwnerRec :=
  match ownerCopy s 0, ownerCopy s 1 with
  | some a, some b => if a.seq < b.seq then b else a
  | some a, none => a
  | none, some b => b
  | none, none => { copy := 1, seq := 0, epoch := 0, claimed := false, param := 0, pub := List.replicate 68 0 }

/-! ### Verification of a slot (14 R416) -/

/-- The SLOT_CHECK code of a slot (13 Table 119): 0 verified, 1 not a candidate, 2 CRC, 3 vendor signature, 4 owner signature,
5 limits. -/
def verifyImage (s : State) (x : Slot) (m : Image) : Nat :=
  let o := ownerNow s
  if ¬ crcsOk s x m then 2
  else if ¬ vendorOk s x m then 3
  else if ¬ o.claimed then 0
  else if ¬ ownerSigOk s x m o.param o.pub then 4
  else if ¬ limitsOk s x m then 5 else 0

/-- The SLOT_CHECK code of a slot tried at start. -/
def verifySlot (s : State) (x : Slot) : Nat :=
  match candidate s x with
  | none => 1
  | some m => verifyImage s x m

/-! ### Owner policy tables (14 R417, R418) -/

/-- The entry size of a table. -/
def entryBytes : Nat → Option Nat
  | 1 => some 48
  | 2 => some 16
  | 3 => some 48
  | 4 => some 8
  | 5 => some 8
  | _ => none

/-- The tables of an owner section; each round reads one. -/
def parseTables : Nat → List Byte → Option (List (Nat × List Byte))
  | 0, l => if l.isEmpty then some [] else none
  | n + 1, l =>
    if l.isEmpty then some []
    else
      let id := numAt l 0 2
      let len := numAt l 4 4
      match entryBytes id with
      | none => none
      | some k => if 8 ≤ l.length ∧ numAt l 2 2 = 0 ∧ len % k = 0 ∧ 8 + len ≤ l.length then
          (parseTables n (l.drop (8 + len))).map (fun ts => (id, (l.drop 8).take len) :: ts)
        else none

/-- The entries of a table. -/
def tableEntries (ts : List (Nat × List Byte)) (id : Nat) : List (List Byte) :=
  match ts.find? (fun t => t.1 == id), entryBytes id with
  | some t, some k => (List.range (t.2.length / k)).map (fun i => sliceBytes t.2 (k * i) k)
  | _, _ => []

/-- The range of a VALUE_ID (14 Table 131, 10 Table 89, 11 Table 105, 15 Tables 142, 143). -/
def valueRange : Nat → Option (Nat × Nat)
  | 0x01 => some (5, 200)
  | 0x02 => some (500, 20000)
  | 0x03 => some (1000, 10000000)
  | 0x04 => some (1, 16)
  | 0x05 => some (65536, 16777216)
  | 0x06 => some (10, 1000)
  | 0x07 => some (10, 90)
  | 0x08 => some (0, 10)
  | 0x09 => some (1, 16)
  | 0x0A => some (1, 3600)
  | 0x0B => some (10, 86400)
  | 0x0C => some (1000, 5000)
  | 0x0D => some (60, 3600)
  | 0x0E => some (500, 7000)
  | 0x0F => some (5, 50)
  | 0x10 => some (50, 500)
  | 0x11 => some (200, 2000)
  | 0x12 => some (3600, 86400)
  | 0x13 => some (3600, 259200)
  | 0x14 => some (86400, 2592000)
  | 0x15 => some (500, 30000)
  | 0x40 => some (200, 600)
  | 0x41 => some (60, 190)
  | 0x42 => some (80, 170)
  | 0x43 => some (40, 110)
  | 0x44 => some (80, 95)
  | 0x45 => some (85, 100)
  | 0x46 => some (60, 70)
  | _ => none

/-- A TENANT entry with its tier entry (10 Table 87). -/
def parseTenant (l : List Byte) : Nat × TenantPol :=
  (numAt l 0 1, { weight := numAt l 1 1, t1q := numAt l 8 4, t1max := numAt l 12 4, frameq := numAt l 16 4, framemax := numAt l 20 4,
                  t2q := numAt l 24 4, chanMask := BitVec.ofNat 32 (numAt l 28 4), wayMask := BitVec.ofNat 24 (numAt l 32 3),
                  cap := numAt l 36 8 })

/-- The rules of one TENANT entry (10 R298). -/
def tenantOk (l : List Byte) : Bool :=
  let t := (parseTenant l).2
  decide (1 ≤ t.weight ∧ numAt l 2 6 = 0 ∧ numAt l 35 1 = 0 ∧ numAt l 44 4 = 0 ∧ t.t1q ≤ t.t1max ∧ t.t1max ≤ 16601088
    ∧ t.frameq ≤ t.framemax ∧ t.framemax ≤ 16601088 ∧ t.chanMask ≠ 0 ∧ t.wayMask ≠ 0 ∧ t.cap % 65536 = 0
    ∧ t.cap ≤ 448000000000000)

/-- The rule of 10 R298 on each stack channel. -/
def channelsOk (ts : List (Nat × TenantPol)) : Bool :=
  (List.range 32).all (fun k => decide (sumOf ((ts.filter (fun e => bitOf e.2.chanMask.toNat k)).map (fun e =>
    ceilDiv (e.2.t1q + e.2.frameq) (16 * popCount 32 e.2.chanMask.toNat))) ≤ 32424))

/-- A TRS_BIND entry. -/
def parseBind (l : List Byte) : TrsBind :=
  { trs := numAt l 0 1, tenant := numAt l 1 1, vector := numAt l 2 2,
    rids := (List.range (numAt l 4 1)).map (fun i => BitVec.ofNat 16 (numAt l (16 + 2 * i) 2)) }

/-- The rules of one TRS_BIND entry. -/
def bindOk (l : List Byte) : Bool :=
  let n := numAt l 4 1
  decide (numAt l 0 1 < 16 ∧ numAt l 2 2 < 2048 ∧ 1 ≤ n ∧ n ≤ 16 ∧ numAt l 5 11 = 0)
  && (List.range' n (16 - n)).all (fun i => decide (numAt l (16 + 2 * i) 2 = 0))

/-- No repeats. -/
def distinct (l : List Nat) : Bool := decide (dedup l = l)

/-- The policy that an owner section sets, where it is valid (14 R418, 01 R31, 10 R298). -/
def parsePolicy (l : List Byte) : Option Policy :=
  match parseTables 6 l with
  | none => none
  | some ts =>
    let te := tableEntries ts 1
    let tenants := te.map parseTenant
    let ve := tableEntries ts 2
    let vols : List VolPol := ve.map (fun e => { vol := numAt e 0 1, tenant := numAt e 1 1, blocks := numAt e 8 8 })
    let be := tableEntries ts 3
    let vals := (tableEntries ts 4).map (fun e => (numAt e 0 2, numAt e 4 4))
    let clips := (tableEntries ts 5).map (fun e => (numAt e 0 1, numAt e 4 4))
    let known (t : Nat) : Bool := tenants.any (fun e => e.1 == t)
    let bytesFor (p : VolPol → Bool) : Nat := sumOf ((vols.filter p).map (fun v => 4096 * v.blocks))
    if distinct (ts.map (·.1)) && distinct (tenants.map (·.1)) && te.all tenantOk && channelsOk tenants
        && distinct (vols.map (·.vol))
        && ve.all (fun e => decide (numAt e 0 1 < 64 ∧ numAt e 2 6 = 0 ∧ 1 ≤ numAt e 8 8) && known (numAt e 1 1))
        && decide (bytesFor (fun _ => true) ≤ 448000000000000)
        && tenants.all (fun t => decide (bytesFor (fun v => v.tenant == t.1) ≤ t.2.cap))
        && distinct (be.map (fun e => numAt e 0 1)) && be.all (fun e => bindOk e && known (numAt e 1 1))
        && distinct (vals.map (·.1)) && (tableEntries ts 4).all (fun e => decide (numAt e 2 2 = 0)
          && ((valueRange (numAt e 0 2)).map (fun r => decide (r.1 ≤ numAt e 4 4 ∧ numAt e 4 4 ≤ r.2))).getD false)
        && distinct (clips.map (·.1)) && (tableEntries ts 5).all (fun e => decide (numAt e 0 1 < 64 ∧ numAt e 1 3 = 0
          ∧ 1 ≤ numAt e 4 4 ∧ numAt e 4 4 ≤ 500)) then
      some { tenants := tenants, volumes := sortBy (fun a b => decide (a.vol < b.vol)) vols, trsBind := be.map parseBind,
             values := vals, clipHi := clips }
    else none

/-! ### Pattern store objects (14 R421, R422) -/

/-- Ranges cover `[a, a + n)`. -/
def rangesCover (rs : List (Nat × Nat)) : Nat → Nat → Nat → Bool
  | 0, _, n => decide (n = 0)
  | f + 1, a, n =>
    if n = 0 then true
    else match rs.find? (fun r => decide (r.1 ≤ a ∧ a < r.1 + r.2)) with
      | none => false
      | some r => if a + n ≤ r.1 + r.2 then true else rangesCover rs f (r.1 + r.2) (a + n - (r.1 + r.2))

/-- An object is complete. -/
def objComplete (o : StoreObj) : Bool := rangesCover o.got o.got.length 0 o.len

/-- Bytes of an object still missing. -/
def objMissing (o : StoreObj) : Nat := o.len - sumOf (o.got.map (·.2))

/-- The stored object of a digest. -/
def storeObj (s : State) (dg : List Byte) : Option StoreObj := s.fl.objects.find? (fun o => decide (o.digest = dg))

/-- An object is present and complete. -/
def objPresent (s : State) (dg : List Byte) : Bool := ((storeObj s dg).map objComplete).getD false

/-- A session's index can be read: its header, table and index section have been written (14 R426). -/
def stagedIndex (s : State) : List (List Byte × Nat × List (List Byte)) :=
  match s.nor.session with
  | none => []
  | some x =>
    let inn (a n : Nat) : Bool := rangesCover x.written x.written.length a n
    match (if inn 0 64 then imageOfSlot s x.target else none) with
    | none => []
    | some m => if inn 64 m.table.length && ((sectOf m 4).map (fun e => inn e.off e.len)).getD false then imageObjects s x.target m
                else []

/-- Digests that committed slots and the open session reference. -/
def referenced (s : State) : List (List Byte) :=
  ([Slot.cope, Slot.drag].flatMap (fun x =>
    if (s.nor.session.map (·.target)) = some x then []
    else ((candidate s x).map (fun m => (imageObjects s x m).map (·.1))).getD []))
  ++ (stagedIndex s).map (·.1)

/-- Units of the pattern store that an object takes. -/
def objUnits (o : StoreObj) : Nat := ceilDiv o.len 16384

/-- An object's units leave the write buffer and its content is gone. -/
def dropObject (o : StoreObj) (s : State) : State :=
  clearUnits (storeBase + o.base) (objUnits o) { s with fl := { s.fl with
    objects := s.fl.objects.filter (fun x => decide (x.digest ≠ o.digest)),
    wbuf := s.fl.wbuf.filter (fun b => decide (b.unit < storeBase + o.base ∨ storeBase + o.base + objUnits o ≤ b.unit)) } }

/-- Objects are freed, their units unmapped in one entry (14 R422). -/
def dropObjects (l : List StoreObj) (s : State) : State :=
  if l.isEmpty then s
  else commitEntry (l.map (fun o => .unmap (storeBase + o.base) (objUnits o))) (l.foldl (fun s' o => dropObject o s') s)

/-- Objects that nothing references are freed (14 R422). -/
def freeObjects (s : State) : State := dropObjects (s.fl.objects.filter (fun o => decide (o.digest ∉ referenced s))) s

/-! ### The running pattern (14 R422, 13 R387) -/

/-- The policy, slots and objects of a verified slot are loaded. -/
def loadPattern (x : Slot) (s : State) : State :=
  match candidate s x with
  | none => s
  | some m =>
    let p := ((sectOf m 2).bind (fun e => parsePolicy (sectBytes s x e))).getD {}
    { s with pol := { p with slots := imageSlots s x m, objects := imageObjects s x m } }

/-- The slots are placed at S3: the row sums and preload terms of their weights are computed and kept (09 R271, R275). -/
def placeSlots (s : State) : State :=
  { s with pol := { s.pol with slots := s.pol.slots.map (fun (x : FnSlot) => { x with sums := slotSums (slotDigests s.pol.objects x) x }) } }

/-- The end of S4: slots that reference a missing object are withdrawn, with an event each (14 R422). -/
def withdrawSlots (s : State) : State :=
  s.pol.slots.foldl (fun s' f =>
    match f.objects.find? (fun e => match s'.pol.objects[e]? with
      | some o => !objPresent s' o.1
      | none => true) with
    | none => s'
    | some e => raise 0x0041 2 f.slot e 0 { s' with pol := { s'.pol with
        slots := s'.pol.slots.map (fun (g : FnSlot) => if g.slot = f.slot then { g with withdrawn := true } else g) } }) s

end Sys2Proof.Machine
end

