-- ==== Sys2Proof/Machine/Trust.lean ====
section
/-! DEFINITION. Staging, the pattern window, the owner, keys, Sanitize and attestation (14 R423 to R443): the mailbox commands of
the chapter on the pattern and the writes to BAR4. -/
namespace Sys2Proof.Machine

/-! ### Answers -/

/-- The mailbox answers. -/
def answer (rc : Rc) (payload : List Byte) (s : State) : State := emit (.mailbox rc payload) s

/-- A staging command is refused: the code and an event naming the row of Table 133 (14 R428). -/
def refuseStage (op row : Nat) (rc : Rc) (s : State) : State := answer rc [] (raise 0x0042 0 op row 0 s)

/-- Performs every operation of the NOR that waits, in order. -/
def drainNor : Nat → State → State
  | 0, s => s
  | n + 1, s =>
    match s.nor.ops with
    | [] => s
    | .program _ _ _ :: _ => drainNor n (norProgramComplete true s)
    | .erasing _ _ :: _ => drainNor n (norEraseComplete true { s with nor := { s.nor with suspended := false } })

/-- All waiting operations are performed. -/
def drained (s : State) : State := drainNor s.nor.ops.length s

/-- Pages of at most 256 bytes of a program. -/
def pagePieces : Nat → Nat → List Byte → List (Nat × List Byte)
  | 0, _, _ => []
  | n + 1, a, l =>
    if l.isEmpty then []
    else
      let k := 256 - a % 256
      (a, l.take k) :: pagePieces n (a + k) (l.drop k)

/-- The device programs bytes behind the operations that wait (14 R431). -/
def queueProgram (a : Nat) (bytes : List Byte) (s : State) : State :=
  if s.nor.ops.isEmpty then norProgram a bytes s
  else { s with nor := { s.nor with
    ops := s.nor.ops ++ (pagePieces (bytes.length / 256 + 2) a bytes).map (fun p => .program p.1 p.2 false) } }

/-! ### Staging (14 R423 to R428) -/

/-- The staging target (14 R424). -/
def stagingTarget (s : State) : Slot :=
  match s.boot.slot with
  | some x => otherSlot x
  | none => match candidate s .cope, candidate s .drag with
    | none, _ => .cope
    | some _, none => .drag
    | some a, some b => if a.gen < b.gen then .cope else .drag

/-- REJECT_GEN of the newest start record whose outcome is SUCCESS (14 R425). -/
def rejectGen (s : State) : Nat :=
  match newestWord s with
  | none => 0
  | some e => match newestSuccess s 256 (e.2 % 2 ^ 32) with
    | none => 0
    | some r => natOf (norRead s (logAddr r.1 + 28) 4)

/-- PATTERN_STAGE_BEGIN (14 R425): a session opens and the target's sectors are erased in the background. -/
def stageBegin (p : List Byte) (s : State) : State :=
  let gen := numAt p 0 4
  let len := numAt p 4 4
  if p.length ≠ 16 then refuseStage 0xC010 1 .invalidPayloadLength s
  else if numAt p 8 8 ≠ 0 then refuseStage 0xC010 1 .invalidInput s
  else if gen ≤ s.boot.patternGen.toNat ∨ gen ≤ rejectGen s ∨ len < 0x10100 ∨ slotSize < len then refuseStage 0xC010 2 .invalidInput s
  else if s.nor.bg.isSome then refuseStage 0xC010 3 .busy s
  else
    let x := stagingTarget s
    let s1 := freeObjects { s with nor := { s.nor with
      session := some { gen := BitVec.ofNat 32 gen, len := len, target := x }, bg := some (0xC010, 0),
      ops := s.nor.ops ++ (List.range (ceilDiv len 65536)).map (fun i => .erasing (slotSector x + i) false) } }
    answer .backgroundStarted [] s1

/-- Ranges overlap. -/
def meets (a n : Nat) (r : Nat × Nat) : Bool := decide (a < r.1 + r.2 ∧ r.1 < a + n)

/-- Image data is programmed in place (14 R426). -/
def stageImage (x : Session) (off : Nat) (bytes : List Byte) (s : State) : State :=
  let n := bytes.length
  answer .success (bytesOf 8 0) (queueProgram (slotBase x.target + off) bytes { s with nor := { s.nor with
    session := some { x with written := x.written ++ [(off, n)] } } })

/-- Where image data may not go: beyond the image, on bytes already written, on the commit record, or nothing at all. -/
def imageRefused (x : Session) (off n : Nat) : Bool :=
  decide (n = 0 ∨ x.len < off + n) || x.written.any (meets off n) || meets off n (0xFFC0, 64)

/-- The first place in the pattern store for an object. -/
def storePlace (s : State) : Nat := (s.fl.objects.map (fun o => o.base + objUnits o)).foldl max 0

/-- The object of an index entry, made where the store does not hold it; none where the store is full. -/
def storeTake (s : State) (dg : List Byte) (len : Nat) : Option (StoreObj × State) :=
  match storeObj s dg with
  | some o => some (o, s)
  | none =>
    let used := sumOf (s.fl.objects.map objUnits)
    if 3906250 < used + ceilDiv len 16384 then none
    else
      let o : StoreObj := { digest := dg, len := len, base := storePlace s }
      some (o, { s with fl := { s.fl with objects := s.fl.objects ++ [o] } })

/-- Chunks of an object that a write completes and whose bytes do not have their digest. -/
def badChunks (s : State) (o : StoreObj) (cs : List (List Byte)) (off n : Nat) : List Nat :=
  ((List.range cs.length).filter (fun j => decide (1048576 * j < off + n ∧ off < 1048576 * (j + 1)))).filter (fun j =>
    let len := min 1048576 (o.len - 1048576 * j)
    rangesCover o.got o.got.length (1048576 * j) len
    && !decide (digest32 (SMap.getList 0 s.fl.data ((storeBase + o.base) * 16384 + 1048576 * j) len) = cs.getD j []))

/-- Ranges without those of a chunk. -/
def dropChunk (j : Nat) (rs : List (Nat × Nat)) : List (Nat × Nat) :=
  let a := 1048576 * j
  let b := a + 1048576
  rs.flatMap (fun r => (if r.1 < a then [(r.1, min (r.1 + r.2) a - r.1)] else [])
    ++ (if b < r.1 + r.2 then [(max r.1 b, r.1 + r.2 - max r.1 b)] else []))

/-- Object data enters the store through the write buffer, and each chunk that completes is verified (14 R426, 11 Table 97). -/
def stageObject (e : List Byte × Nat × List (List Byte)) (off : Nat) (bytes : List Byte) (s : State) : State :=
  let n := bytes.length
  match (if n = 0 then some (((storeObj s e.1).getD { digest := e.1, len := e.2.1, base := 0 }), s) else storeTake s e.1 e.2.1) with
  | none => refuseStage 0xC011 6 .invalidInput s
  | some r =>
    let o := r.1
    if n = 0 then answer .success (bytesOf 8 (if objComplete o then 0 else objMissing o)) s
    else if objComplete o then answer .success (bytesOf 8 0) r.2
    else if o.got.any (meets off n) then refuseStage 0xC011 5 .invalidInput s
    else
      let o1 : StoreObj := { o with got := o.got ++ [(off, n)] }
      let u0 := off / 16384
      let s1 := bufferMany (storeBase + o.base + u0) 0 0 ((off + n - 1) / 16384 + 1 - u0)
        { r.2 with fl := { r.2.fl with data := SMap.putList 0 r.2.fl.data ((storeBase + o.base) * 16384 + off) bytes } }
      let bad := badChunks s1 o1 e.2.2 off n
      let o2 : StoreObj := { o1 with got := bad.foldl (fun g j => dropChunk j g) o1.got }
      let s2 := { s1 with fl := { s1.fl with objects := s1.fl.objects.map (fun y => if y.digest = o.digest then o2 else y) } }
      if bad.isEmpty then answer .success (bytesOf 8 (objMissing o2)) s2 else refuseStage 0xC011 5 .invalidInput s2

/-- What refuses a DATA command by its range before any data is taken: the row of Table 133 and its code. -/
def dataRefusal (s : State) (x : Session) (target off obj n : Nat) : Option (Nat × Rc) :=
  if target = 0 then (if imageRefused x off n then some (5, .invalidInput) else none)
  else match (stagedIndex s)[obj]? with
    | none => some (5, .invalidInput)
    | some e =>
      if e.2.1 < off + n then some (5, .invalidInput)
      else if s.boot.mode = .fettle then some (6, .mediaDisabled)
      else if n = 0 then none
      else match storeTake s e.1 e.2.1 with
        | none => some (6, .invalidInput)
        | some r => if !objComplete r.1 && r.1.got.any (meets off n) then some (5, .invalidInput) else none

/-- Data in place of a DATA command: image or object. -/
def stageBytes (x : Session) (target off obj : Nat) (bytes : List Byte) (s : State) : State :=
  match dataRefusal s x target off obj bytes.length with
  | some r => refuseStage 0xC011 r.1 r.2 s
  | none =>
    if target = 0 then stageImage x off bytes s
    else match (stagedIndex s)[obj]? with
      | none => s
      | some e => stageObject e off bytes s

/-- PATTERN_STAGE_DATA (14 R426, R428). `dma` is how the device's read of SRC_ADDR ends. -/
def stageData (p : List Byte) (dma : DmaOutcome) (s : State) : State :=
  let len := numAt p 4 4
  let src := numAt p 16 8
  let inline := decide (src = 0)
  if p.length < 64 ∨ (inline = true ∧ (65472 < len ∨ p.length ≠ 64 + len)) ∨ (inline = false ∧ p.length ≠ 64) then
    refuseStage 0xC011 1 .invalidPayloadLength s
  else if numAt p 1 3 ≠ 0 ∨ numAt p 28 36 ≠ 0 ∨ 1 < numAt p 0 1 then refuseStage 0xC011 1 .invalidInput s
  else if inline = false ∧ s.nor.bg.isSome = true then refuseStage 0xC011 3 .busy s
  else match s.nor.session with
    | none => refuseStage 0xC011 4 .invalidSecurityState s
    | some x =>
      if inline then stageBytes x (numAt p 0 1) (numAt p 8 8) (numAt p 24 4) (p.drop 64) s
      else if 1073741824 < len ∨ src % 64 ≠ 0 then refuseStage 0xC011 5 .invalidInput s
      else match dataRefusal s x (numAt p 0 1) (numAt p 8 8) (numAt p 24 4) len with
      | some r => refuseStage 0xC011 r.1 r.2 s
      | none =>
        let s1 := emitAll (hostReads s (dmaReads src len)) (answer .backgroundStarted [] s)
        match dma with
        | .data bytes => stageBytes x (numAt p 0 1) (numAt p 8 8) (numAt p 24 4) (sliceBytes bytes 0 len) (bump 0x40 0 len s1)
        | _ => refuseStage 0xC011 7 .internalError s1

/-- The checks of PATTERN_STAGE_COMMIT (14 R427). -/
def commitOk (s : State) (x : Session) : Option Image :=
  match imageOfSlot s x.target with
  | none => none
  | some m =>
    let policyOk := ((sectOf m 2).map (fun e => (parsePolicy (sectBytes s x.target e)).isSome)).getD true
    let objs := imageObjects s x.target m
    let objsOk := ((sectOf m 4).map (fun e => (parseIndex (sectBytes s x.target e)).isSome)).getD true
      && (imageSlots s x.target m).all (fun f => f.objects.all (fun i => decide (i < objs.length)))
      && (decide (s.boot.mode = .fettle) || objs.all (fun o => objPresent s o.1))
    if verifyImage s x.target m = 0 ∧ kindsOk s x.target m = true ∧ policyOk = true ∧ m.gen = x.gen.toNat ∧ objsOk = true then some m else none

/-- PATTERN_STAGE_COMMIT. -/
def stageCommit (p : List Byte) (s : State) : State :=
  if p.length ≠ 8 then refuseStage 0xC012 1 .invalidPayloadLength s
  else if natOf p ≠ 0 then refuseStage 0xC012 1 .invalidInput s
  else if s.nor.bg.isSome then refuseStage 0xC012 3 .busy s
  else match s.nor.session with
    | none => refuseStage 0xC012 4 .invalidSecurityState s
    | some x =>
      let s1 := drained s
      match commitOk s1 x with
      | none => refuseStage 0xC012 8 .invalidInput s1
      | some m => answer .backgroundStarted [] { s1 with nor := { s1.nor with
          bg := some (0xC012, 0), ops := s1.nor.ops ++ [.program (slotBase x.target + 0xFFC0) (commitRecord m) false] } }

/-! ### The pattern window (14 R429 to R431) -/

/-- BAR4 is enabled: by PATTERN_WINDOW, or in Fettle mode; after watchdog expiry it is not (02 R41, 13 R405). -/
def windowOpen (s : State) : Bool := decide (s.boot.mode = .fettle) || (s.nor.enabled && decide (s.boot.mode = .service ∨ s.boot.mode = .starting))

/-- A range of the target slot outside the commit record. -/
def inTarget (x : Session) (a n : Nat) : Bool :=
  decide (slotBase x.target ≤ a ∧ a + n ≤ slotBase x.target + slotSize) && !meets (a - slotBase x.target) n (0xFFC0, 64)

/-- A PW_CMD write: it runs or sets LAST_RESULT, and disarms the window. -/
def windowCmd (cmd : Nat) (s : State) : State :=
  let s0 := { s with nor := { s.nor with armed := false, keyHalf := false } }
  let a := s.nor.pwAddr.toNat
  let n := s.nor.pwLen.toNat
  if ¬ s.nor.armed then setResult 1 s0
  else match s.nor.session with
    | none => setResult 2 s0
    | some x =>
      if windowBusy s then setResult 6 s0
      else if cmd = 1 then
        let bytes := (bytesOf 256 s.nor.pwBuf.toNat).take n
        if ¬ inTarget x a n then setResult 3 s0
        else if n = 0 ∨ 256 < n ∨ 256 < a % 256 + n then setResult 5 s0
        else if bitRise s a bytes then setResult 4 s0
        else { s0 with nor := { s0.nor with ops := s0.nor.ops ++ [.program a bytes true],
                                            session := some { x with written := x.written ++ [(a - slotBase x.target, n)] } } }
      else if cmd = 2 then
        if ¬ inTarget x (a / 65536 * 65536) 65536 then setResult 3 s0
        else if a % 65536 ≠ 0 then setResult 5 s0
        else { s0 with nor := { s0.nor with ops := s0.nor.ops ++ [.erasing (a / 65536) true] } }
      else s0

/-- PW_KEY. -/
def windowKey (v : Nat) (s : State) : State :=
  if v = 0x50574B31 then { s with nor := { s.nor with keyHalf := true, armed := false } }
  else { s with nor := { s.nor with armed := s.nor.keyHalf && decide (v = 0xAFA8B4CE), keyHalf := false } }

/-- Bytes of PW_BUF from `i` on. -/
def putBuf (i n v : Nat) (b : BitVec 2048) : BitVec 2048 :=
  BitVec.ofNat 2048 (b.toNat - bitsOf b.toNat (8 * i) (8 * n) * 2 ^ (8 * i) + v % 2 ^ (8 * n) * 2 ^ (8 * i))

/-- A write of BAR4 (14 R429, Table 134). -/
def windowWrite (off width v : Nat) (s : State) : State :=
  if ¬ windowOpen s then s
  else
    let s0 := { s with nor := { s.nor with keyHalf := false } }
    if off = 0x00 ∧ width = 4 then windowKey v s
    else if off = 0x08 ∧ width = 4 then { s0 with nor := { s0.nor with pwAddr := BitVec.ofNat 32 v } }
    else if off = 0x0C ∧ width = 4 then { s0 with nor := { s0.nor with pwLen := BitVec.ofNat 32 v } }
    else if off = 0x10 ∧ width = 4 then windowCmd v s
    else if 0x100 ≤ off ∧ off + width ≤ 0x200 then { s0 with nor := { s0.nor with pwBuf := putBuf (off - 0x100) width v s0.nor.pwBuf } }
    else bump 0x60 3 1 s0

/-! ### Keys (14 R436, R437) -/

/-- The key-wrapping key of an owner epoch (14 R436). -/
def kwk (s : State) (epoch : Nat) : List Byte :=
  digest32 (s.boot.pufRoot ++ ascii ['I', 'M', 'I', 'A', 'R', 'A', 'N', '-', 'K', 'W', 'K'] ++ bytesOf 4 epoch)

/-- A key-table entry. -/
structure KeyEntry where
  kind : Nat
  id : Nat
  gen : Nat
  wrapped : List Byte
  deriving DecidableEq, Repr

/-- Entry places of a copy's key table: sectors 1 to 7, 80 bytes each. -/
def keyPlaces : Nat := 7 * 65536 / 80

/-- The entries of a copy up to its end; destroyed ones are left out. -/
def keyEntries (s : State) (c : Nat) : Nat → Nat → List KeyEntry
  | 0, _ => []
  | n + 1, i =>
    let b := norRaw s (ownerAddr c + 65536 + 80 * i) 80
    if b = List.replicate 80 0xFF then []
    else if natOf b = 0 then keyEntries s c n (i + 1)
    else { kind := numAt b 0 1, id := numAt b 1 1, gen := numAt b 4 4, wrapped := sliceBytes b 8 72 } :: keyEntries s c n (i + 1)

/-- The live key entries of the current copy. -/
def keysNow (s : State) : List KeyEntry := keyEntries s (ownerNow s).copy keyPlaces 0

/-- The bytes of an entry. -/
def keyBytes (k : KeyEntry) : List Byte := bytesOf 1 k.kind ++ bytesOf 1 k.id ++ bytesOf 2 0 ++ bytesOf 4 k.gen ++ sliceBytes k.wrapped 0 72

/-- A fresh entry: a random key pair under the key-wrapping key. -/
def freshKey (s : State) (kind id : Nat) : KeyEntry :=
  let raw := (List.range 64).map (fun i => Config.freeByte (draw s) (65536 * kind + 256 * id + i))
  { kind := kind, id := id, gen := s.fl.keyGen, wrapped := aesWrap (kwk s (ownerNow s).epoch) raw }

/-- One copy of the owner region is rewritten: its sectors are erased, then the record and the key entries programmed. -/
def writeCopy (o : OwnerRec) (keys : List KeyEntry) (s : State) : State :=
  let a := ownerAddr o.copy
  let s1 := (List.range 8).foldl (fun s' i => norErase (a / 65536 + i) s') s
  let b := ascii ['L', 'Y', 'M', 'O', 'W', 'N', 'R', '1'] ++ bytesOf 4 o.seq ++ bytesOf 4 o.epoch ++ bytesOf 1 (if o.claimed then 1 else 2)
    ++ bytesOf 1 o.param ++ bytesOf 2 0 ++ sliceBytes o.pub 0 68 ++ bytesOf 36 0
  norProgram (a + 65536) (keys.flatMap keyBytes) (norProgram a (b ++ bytesOf 4 (crc32 b).toNat) s1)

/-- The owner record and key table change: the older copy first, with COPY_SEQ + 1, then the other in the same way (14 R433). -/
def writeOwner (o : OwnerRec) (keys : List KeyEntry) (s : State) : State :=
  let cur := ownerNow s
  writeCopy { o with copy := cur.copy, seq := cur.seq + 2 } keys (writeCopy { o with copy := 1 - cur.copy, seq := cur.seq + 1 } keys s)

/-- An entry holds a key: its wrapped value authenticates. -/
def keyGood (s : State) (k : KeyEntry) : Bool :=
  decide (k.gen = s.fl.keyGen) && (aesUnwrap (kwk s (ownerNow s).epoch) k.wrapped).isSome

/-- The objects that need keys: each declared volume and tenant, and the pattern store. -/
def keyObjects (s : State) : List (Nat × Nat) :=
  s.pol.volumes.map (fun v => (1, v.vol)) ++ s.pol.tenants.map (fun t => (2, t.1)) ++ [(3, 0)]

/-! ### The media cipher (14 R438) -/

/-- The object whose key encrypts a unit: its volume, the tenant that owns its tier page, or the pattern store. -/
def keyOfUnit (s : State) (u : Nat) : Nat × Nat :=
  if storeBase ≤ u then (3, 0)
  else match volumeOfUnit s u with
    | some v => (1, v.1)
    | none => (2, (((slotOfUnit s u).bind (pageAt s)).map (·.tenant)).getD 0)

/-- The key pair of an object: the entry of the device key generation, unwrapped (14 R437). -/
def mediaPair (s : State) (o : Nat × Nat) : Option (List Byte) :=
  ((keysNow s).find? (fun k => decide (k.kind = o.1 ∧ k.id = o.2) && keyGood s k)).bind (fun k => aesUnwrap (kwk s (ownerNow s).epoch) k.wrapped)

/-- What stands on flash for codeword `c` of a unit: State holds the data of a unit as they enter and leave the media cipher, and this is
their ciphertext, wherever the unit lies. -/
def codewordOnFlash (s : State) (u c : Nat) : Option (List Byte) :=
  (mediaPair s (keyOfUnit s u)).map (fun pair => xtsEncrypt pair (4 * u + c) (unitBytes s u (4096 * c) 4096))

/-- The 28 bytes of a page tag: the fields of 11 Table 96 in turn from bit 0, then zeros (the order is the model's, log 90). -/
def tagBytes (t : Tag) : List Byte :=
  bytesOf 28 (t.unit % 2 ^ 40 + 2 ^ 40 * (t.seq % 2 ^ 64) + 2 ^ 104 * (t.group % 2 ^ 64) + 2 ^ 168 * t.copy.toNat + 2 ^ 169 * (t.kind % 8)
    + 2 ^ 172 * t.check.toNat)

/-- Bytes 0 to 4,111 of codeword `c` of the page at an address that holds a unit: DATA, CHECK, CHK_VALID and TAG_PART (12 Table 110). The
parity bytes that follow are of an LDPC code that the spec does not give. -/
def codewordBytes (s : State) (u c : Nat) (a : FlashAddr) : Option (List Byte) :=
  match codewordOnFlash s u c, tagAt s a with
  | some d, some t =>
    let chk := checkOf s u c
    some (d ++ bytesOf 8 ((chk.map (·.toNat)).getD 0) ++ bytesOf 1 chk.isSome.toNat ++ sliceBytes (tagBytes t) (7 * c) 7)
  | _, _ => none

/-! ### The owner (14 R434, R435) -/

/-- ID_PUB of the boot record. -/
def idPub (s : State) : List Byte := norRaw s 0x1100 68

/-- CLAIM_OWNER. -/
def claimOwner (p : List Byte) (s : State) : State :=
  let o := ownerNow s
  let pub := sliceBytes p 8 68
  match sigLen (numAt p 0 1) with
  | none => answer .invalidInput [] s
  | some n =>
    if p.length ≠ 80 + n then answer .invalidPayloadLength [] s
    else if o.claimed then answer .invalidSecurityState [] s
    else if s.nor.bg.isSome then answer .busy [] s
    else if numAt p 1 3 ≠ 0 ∨ numAt p 76 4 ≠ 0 ∨ numAt p 4 4 ≠ o.epoch + 1
        ∨ Config.xmssVerify pub (digest32 (ascii ['I', 'M', 'I', 'A', 'R', 'A', 'N', '-', 'C', 'L', 'A', 'I', 'M'] ++ sliceBytes p 4 4
            ++ idPub s ++ pub)) (sliceBytes p 80 n) = false then answer .invalidInput [] s
    else answer .backgroundStarted []
      (writeOwner { o with epoch := o.epoch + 1, claimed := true, param := numAt p 0 1, pub := pub } (keysNow s) s)

/-- RELEASE_OWNER, in Fettle mode only: the session ends, every key entry is destroyed, and the record becomes unclaimed with the
next epoch. -/
def releaseOwner (p : List Byte) (s : State) : State :=
  let o := ownerNow s
  if s.boot.mode ≠ .fettle then answer .unsupported [] s
  else match sigLen o.param with
    | none => answer .invalidInput [] s
    | some n =>
      if p.length ≠ 8 + n then answer .invalidPayloadLength [] s
      else if s.nor.bg.isSome then answer .busy [] s
      else if numAt p 0 4 ≠ o.epoch ∨ numAt p 4 4 ≠ 0 ∨ o.claimed = false
          ∨ Config.xmssVerify o.pub (digest32 (ascii ['I', 'M', 'I', 'A', 'R', 'A', 'N', '-', 'R', 'E', 'L', 'E', 'A', 'S', 'E']
              ++ sliceBytes p 0 4 ++ idPub s)) (sliceBytes p 8 n) = false then answer .invalidInput [] s
      else answer .backgroundStarted []
        (writeOwner { o with epoch := o.epoch + 1, claimed := false, param := 0, pub := List.replicate 68 0 } []
          (freeObjects { s with nor := { s.nor with session := none } }))

/-! ### Sanitize (14 R439) -/

/-- SANITIZE: steps begin in S5; new commands wait at step 7 from now on. -/
def sanitizeStart (s : State) : State :=
  match s.boot.mode with
  | .service => if s.nor.bg.isSome ∨ s.nor.sanitize ≠ 0 then answer .busy [] s
      else answer .backgroundStarted [] { s with nor := { s.nor with sanitize := 1, bg := some (0x4400, 0) } }
  | .fettle => answer .unsupported [] s
  | _ => answer .mediaDisabled [] s

/-- Every accepted command has ended. -/
def allDrained (s : State) : Bool := (allHeld s).all (fun e => e.2.ended || decide (e.2.phase = .pending))

/-- Every volume and tier unit is unmapped in one entry, and every context and collection is deleted; generations advance as DROP
advances them (04 R100). -/
def unmapStored (s : State) : State :=
  commitEntry [.unmap 0 storeBase] { s with
    tier := { s.tier with pages := [], frames := [], dramPending := [], cache := [] },
    coll := [],
    ctx := { s.ctx with
      recs := SMap.mapVals {} (fun _ (c : Ctx) => if c.live then { live := false, gen := c.gen + 1, dropNo := some s.ctx.dropCount } else c) s.ctx.recs,
      dropCount := s.ctx.dropCount + 1 },
    fl := { s.fl with data := SMap.clearRange s.fl.data 0 (storeBase * 16384), check := [], rewrites := [],
                      mismatch := s.fl.mismatch.filter (fun u => decide (storeBase ≤ u)),
                      wbuf := s.fl.wbuf.filter (fun b => decide (storeBase ≤ b.unit)) } }

/-- Step 2 of Sanitize: everything is unmapped, the device key generation rises by 1, and the entry is made durable. -/
def unmapAll (s : State) : State := journalFlush (unmapStored { s with fl := { s.fl with keyGen := s.fl.keyGen + 1 } })

/-- SANITIZE_DRAINED: steps 2 to 5. The pattern store's entry follows the device key generation. -/
def sanitizeDrained (s : State) : State :=
  if s.nor.sanitize = 1 ∧ allDrained s = true then
    let kept := (keysNow s).filter (fun k => decide (k.kind = 3))
    let s1 := unmapAll s
    let fresh := (keyObjects s1).filterMap (fun k => if k.1 = 3 then none else some (freshKey s1 k.1 k.2))
    let keys := fresh ++ kept.map (fun k => { k with gen := s1.fl.keyGen })
    let s2 := writeOwner (ownerNow s1) keys (drawn 1 s1)
    { s2 with nor := { s2.nor with sanitize := 0, bg := none } }
  else s

/-! ### Attestation (14 R440 to R443) -/

/-- The address of sector `k` of the XMSS state region. -/
def xmssAddr (k : Nat) : Nat := 0xC110000 + 65536 * k

/-- SEQ and BASE of a sector with a valid header. -/
def xmssHead (s : State) (k : Nat) : Option (Nat × Nat) :=
  let h := norRead s (xmssAddr k) 20
  if numAt h 0 4 = 0x584D5354 ∧ (crc32 (h.take 16)).toNat = numAt h 16 4 then some (numAt h 4 4, numAt h 8 8) else none

/-- The active sector: the valid header of highest SEQ. -/
def xmssActive (s : State) : Option (Nat × Nat × Nat) :=
  (List.range 64).foldl (fun best k => match xmssHead s k, best with
    | some h, none => some (k, h.1, h.2)
    | some h, some b => if b.2.1 < h.1 then some (k, h.1, h.2) else some b
    | none, b => b) none

/-- A sector header is programmed. -/
def writeXmssHead (k seq base : Nat) (s : State) : State :=
  let h := bytesOf 4 0x584D5354 ++ bytesOf 4 seq ++ bytesOf 8 base
  norProgram (xmssAddr k) (h ++ bytesOf 4 (crc32 h).toNat ++ bytesOf 44 0) s

/-- The first reservation byte of a sector that is not reserved. -/
def freeByteOf (s : State) (k : Nat) : Option Nat :=
  let a := norAddr s (xmssAddr k) + 64
  (List.range 65472).find? (fun j => decide (SMap.find 0xFF s.nor.mem (a + j) = 0xFF))

/-- The next sector of the XMSS region in ring order that has not been withdrawn. -/
def nextXmss (s : State) (k : Nat) : Nat :=
  (((List.range' 1 63).map (fun i => (k + i) % 64)).find? (fun j => !isGone s (16 + j))).getD ((k + 1) % 64)

/-- A block of leaves is reserved: its byte is programmed; half-way the next sector is erased, and an exhausted sector hands over
to the next. The answer is the block, none where the leaves are exhausted (14 R441). -/
def reserveBlock (s : State) : State × Option Nat :=
  let s0 := if (xmssActive s).isNone then writeXmssHead 0 0 0 s else s
  match xmssActive s0 with
  | none => (s0, none)
  | some a =>
    let r : State × Nat × Nat × Nat := match freeByteOf s0 a.1 with
      | some j => (s0, a.1, a.2.2, j)
      | none => let k := nextXmss s0 a.1
                (writeXmssHead k (a.2.1 + 1) (a.2.2 + 65472) s0, k, a.2.2 + 65472, 0)
    let j := r.2.2.2
    let block := r.2.2.1 + j
    if 1073741824 ≤ block then (s0, none)
    else
      let s1 := norProgram (xmssAddr r.2.1 + 64 + j) [0] r.1
      let s2 := if j + 1 = 32736 then norErase (xmssAddr (nextXmss s1 r.2.1) / 65536) s1 else s1
      (s2, some block)

/-- The leaf of the next signature: a fresh block at each start and after 1,024 leaves. -/
def nextLeaf (s : State) : State × Option Nat :=
  match s.nor.xmssBlock with
  | some b =>
    if s.nor.xmssLeaf < 1024 then
      ({ s with nor := { s.nor with xmssLeaf := s.nor.xmssLeaf + 1 } }, some (1024 * b + s.nor.xmssLeaf))
    else
      let r := reserveBlock s
      ({ r.1 with nor := { r.1.nor with xmssBlock := r.2.or (some b), xmssLeaf := if r.2.isSome then 1 else 1024 } }, r.2.map (1024 * ·))
  | none =>
    let r := reserveBlock s
    ({ r.1 with nor := { r.1.nor with xmssBlock := r.2, xmssLeaf := 1 } }, r.2.map (1024 * ·))

/-- The code of a slot. -/
def slotCode : Option Slot → Nat
  | some .cope => 0
  | some .drag => 1
  | none => 0xFF

/-- The first 256 bytes of a report (14 Table 137). -/
def reportHead (s : State) (nonce : List Byte) (exhausted : Bool) : List Byte :=
  let o := ownerNow s
  let img := s.boot.slot.bind (fun x => (candidate s x).map (fun m => (x, m)))
  let fw := (img.bind (fun y => (sectOf y.2 1).map (fun e => digest32 (sectBytes s y.1 e)))).getD (List.replicate 32 0)
  let own := (img.bind (fun y => (sectOf y.2 5).map (fun _ => ownerDigest s y.1 y.2))).getD (List.replicate 32 0)
  bytesOf 4 0x4C594154 ++ bytesOf 2 1 ++ bytesOf 2 0 ++ bytesOf 4 (if exhausted then 256 else 10152)
  ++ bytesOf 4 (if exhausted then 0 else 256) ++ sliceBytes nonce 0 32 ++ idPub s ++ bytesOf 4 0 ++ fw ++ own
  ++ (if o.claimed then digest32 o.pub else List.replicate 32 0) ++ bytesOf 4 s.boot.patternGen.toNat
  ++ bytesOf 1 (slotCode s.boot.slot) ++ bytesOf 1 s.boot.stage ++ bytesOf 1 s.boot.fettleReason.toNat
  ++ bytesOf 1 (bitsOf s.boot.grade.toNat 0 8) ++ bytesOf 4 o.epoch ++ bytesOf 4 s.boot.startSeq.toNat
  ++ bytesOf 8 (now s).toNat ++ bytesOf 4 Config.romVersion.toNat ++ bytesOf 1 s.aon.rstLastCause.toNat
  ++ bytesOf 1 (s.boot.fallback.toNat + 2 * s.boot.prevWatchdog.toNat + 4 * o.claimed.toNat + 8 * exhausted.toNat) ++ bytesOf 10 0

/-- The attestation seed (14 R436, R440). -/
def attestSeed (s : State) : List Byte :=
  shake256 96 (s.boot.pufRoot ++ ascii ['I', 'M', 'I', 'A', 'R', 'A', 'N', '-', 'A', 'T', 'T', 'E', 'S', 'T'])

/-- A report over a nonce: the state with its leaf used, and the bytes (14 R442). -/
def report (nonce : List Byte) (s : State) : State × List Byte :=
  let r := nextLeaf s
  match r.2 with
  | none => (r.1, reportHead r.1 nonce true)
  | some leaf =>
    let h := reportHead r.1 nonce false
    (r.1, h ++ bytesOf 5 leaf ++ sliceBytes (Config.xmssSign (attestSeed r.1) leaf h) 0 9888 ++ bytesOf 3 0)

/-- Attestation is served from S2 on and in Fettle mode (14 R443). -/
def attestServed (s : State) : Bool := decide (s.boot.mode = .service ∨ s.boot.mode = .fettle ∨ (s.boot.mode = .starting ∧ 2 ≤ s.boot.stage))

end Sys2Proof.Machine
end

