-- ==== Sys2Proof/Machine/Start.lean ====
section
/-! DEFINITION. Reset, start and Fettle mode (13), input loss and the hold-up bank at start (17 R486 to R492), and the flush of
11 Table 101. -/
namespace Sys2Proof.Machine

/-! ### The flush (11 R338, R339, Table 101) -/

/-- The flash address of the `i`-th unit that the flush writes: free positions and blocks of the reserve on every channel (11 R339;
log 7). -/
def reserveAddr (d i : Nat) : FlashAddr :=
  let chan := i % 128
  let sel := i / 128 % 2
  let p0 := Config.freeNat (d + 4 * chan) % 16
  let p1 := (p0 + 1 + Config.freeNat (d + 4 * chan + 1) % 15) % 16
  let block := Config.freeNat (d + 4 * chan + 2 + sel) % 2520
  BitVec.ofNat 37 (i / 1024 + i / 256 % 4 * 2 ^ 11 + block * 2 ^ 13 + (if sel = 0 then p0 else p1) * 2 ^ 25 + chan * 2 ^ 30)

/-- A unit is programmed to the reserve, in SLC mode. -/
def flushUnit (d : Nat) (e : Nat × Nat) (s : State) : State :=
  let a := reserveAddr d e.1
  modSb (sbKey s a) (fun x => { x with slc := true, st := .closed, reserve := true, closedAt := now s })
    { s with fl := { s.fl with tags := SMap.put none s.fl.tags a.toNat (some (firstTag s e.2)), wbuf := s.fl.wbuf.map (fun (b : BufUnit) =>
        if b.unit = e.2 then { b with progAt := some a, mapSeq := some (s.fl.seq + 1) } else b) } }

/-- The in-order blocks that a running WRITE has received enter the buffer (03 R92, 11 R329). -/
def applyWrites (s : State) : State :=
  (allHeld s).foldl (fun s' e => if e.2.op = 0x02 ∧ e.2.undecided = true then (applyStopped e.1 e.2 s').1 else s') s

/-- Units and pages of commands that have not committed are abandoned (11 R329). -/
def abandonEarly (s : State) : State :=
  { s with tier := { s.tier with pages := s.tier.pages.filter (fun e => e.2.pend.isNone) },
           fl := { s.fl with wbuf := s.fl.wbuf.filter (fun b => b.cmd.isNone) } }

/-- Steps 3 and 4 of 11 Table 101: buffered units go to the flush reserve, and staging is written with their MAP records. -/
def flushAll (s : State) : State :=
  let s0 := abandonEarly (applyWrites s)
  let us := ((s0.fl.wbuf.filter (fun b => b.progAt.isNone)).map (·.unit))
  let es := (List.range us.length).map (fun i => (i, us.getD i 0))
  let s1 := es.foldl (fun s' e => flushUnit (draw s0) e s') s0
  let s2 := if us.isEmpty then s1
    else es.foldl (fun s' e => setBacking e.2 true s')
      (commitEntry (es.map (fun e => Rec.map e.2 (reserveAddr (draw s0) e.1))) (drawn 512 s1))
  let s3 := journalFlush s2
  { s3 with fl := { s3.fl with wbuf := [], reserveReady := s3.fl.reserveReady && us.isEmpty } }

/-! ### The start-attempt word (13 R394, R396, R398) -/

/-- The second program of ATTEMPT: one outcome bit, REASON where given, STAGE and SLOT cleared to their values. -/
def outcomeWord (bit : Nat) (reason : Option Nat) (stage : Nat) (slot : Option Slot) : Nat :=
  let sl := (match slot with
    | none => 3
    | some .cope => 0
    | some .drag => 1)
  2 ^ 64 - 1 - 2 ^ bit - (255 - reason.getD 255) * 2 ^ 40 - (15 - stage) * 2 ^ 48 - (3 - sl) * 2 ^ 52

/-- The previous start's word takes PIN_ABORT where a PIN assertion was latched while it was unfinished (13 R396). -/
def markAbort (s : State) : State :=
  let s1 := fenced (fun x => match x.aon.pinAbort, newestWord x with
    | some p, some e => if outcomeBits e.2 = [] then
        norProgram (logAddr e.1 + 8) (bytesOf 8 (outcomeWord 36 none p.1 p.2)) x else x
    | _, _ => x) s
  { s1 with aon := { s1.aon with pinAbort := none } }

/-- The first program of ATTEMPT, on entry to S2: the next SEQ in the next usable block; without one the oldest sector is erased
first (13 R396, R398). -/
def consumeWord (s : State) : State :=
  let s0 := markAbort s
  let nw := newestWord s0
  let from_ := (nw.map (fun e => (e.1 + 1) % 256)).getD 0
  let seq := (nw.map (fun e => (e.2 % 2 ^ 32 + 1) % seqMod)).getD 0
  let oldest := (nw.map (fun e => (e.1 / 16 + 1) % 16)).getD 0
  let s1 := if (usableFrom s0 from_).isSome then s0 else fenced (fun x => markSector oldest (norErase (loggedBase + oldest) x)) s0
  match usableFrom s1 from_ with
  | none => s1
  | some b =>
    let a := logAddr b
    let s2 := norProgram (a + 8) (bytesOf 8 (2 ^ 64 - 1 - 2 ^ 32 - (2 ^ 32 - 1 - seq)) ++ bytesOf 8 s.boot.tbS1.toNat) s1
    let s3 := norProgram (a + 32) (bytesOf 1 s.aon.rstLastCause.toNat ++ bytesOf 1 (s.aon.s1Fail.toNat + 2 * s.aon.wdLatch.toNat)) s2
    { s3 with boot := { s3.boot with logBlock := some b, startSeq := BitVec.ofNat 32 seq, prevWatchdog := s.aon.wdLatch },
              aon := { s3.aon with s1Fail := false, wdLatch := false } }

/-- S2 consumes its word on entry (13 R396): an assertion of a reset source during S2 finds it consumed. -/
def enteredS2 (s : State) : State := if s.boot.mode = .starting ∧ s.boot.stage = 2 then consumeWord s else s

/-! ### Reset (13 R383, R384, Table 113) -/

/-- The NOR as a reset finds it (13 R390): a program in progress completes; a sector under erase is partly erased, each bit old or
erased (a free value, log 7). What waits is dropped. -/
def settleNor (s : State) : State :=
  match norHead s with
  | some (.program _ _ _) => norProgramComplete true s
  | some (.erasing k _) =>
    let a := norAddr s (k * 65536)
    drawn 1 { s with nor := { s.nor with mem := SMap.mapVals 0xFF (fun i (v : Byte) =>
      if a ≤ i ∧ i < a + 65536 then v ||| Config.freeByte (draw s) (i - a) else v) s.nor.mem } }
  | none => s

/-- A page after a reset: homed at its flash location, in no move (10 R287, R289). -/
def restPage (p : Page) : Page :=
  { p with home := (match p.home with
              | .t1 _ _ => flashHome p
              | h => h), state := .good, moving := none, rider := none }

/-- Every part but the always-on island, the NOR, the bank and the flash's contents is reset; ER_COUNTS counts since power-on (02
Table 19). -/
def resetRest (s : State) : State :=
  let n := settleNor s
  { pending := s.pending, outbox := s.outbox, freeCount := n.freeCount, aon := s.aon,
    boot := { mode := .inReset },
    link := { erCounts := if s.aon.porSeen then 0 else s.link.erCounts },
    ctx := { s.ctx with accepts := [] },
    tier := { pages := (s.tier.pages.filter (fun e => e.2.pend.isNone)).map (fun e => (e.1, restPage e.2)) },
    coll := SMap.mapVals {} (fun _ (x : Coll) => { x with held := false, again := x.again || x.round.isSome, round := none, scanEpoch := none }) s.coll,
    fl := { s.fl with map := [], wbuf := [], relocs := [], rewrites := [], origins := [], pendBytes := 0,
                      journal := s.fl.journal.filter (fun e => e.durable),
                      dies := SMap.mapVals {} (fun _ (d : Die) => { d with suspended := false }) s.fl.dies },
    nor := { mem := n.nor.mem, gone := n.nor.gone },
    gov := { cells := s.gov.cells, charged := s.gov.charged, powerLost := s.gov.powerLost, inputMv := s.gov.inputMv } }

/-- The start begins at the later of the two releases and not before a flush has ended (13 R384, R385): stage S0. -/
def startIfReady (s : State) : State :=
  if s.boot.mode = .inReset ∧ s.aon.porAsserted = false ∧ s.aon.pinAsserted = false ∧ s.boot.flushing = false then
    { s with boot := { s.boot with mode := .starting },
             aon := { s.aon with rstLastCause := if s.aon.porSeen then 1 else 2, stageStart := now s } }
  else s

/-- The device serves, in Fettle mode, or after watchdog expiry: a reset flushes first. -/
def mustFlush (s : State) : Bool := decide (s.boot.mode = .service ∨ s.boot.mode = .fettle ∨ s.boot.mode = .expired)

/-- Host traffic stops, the flush begins. -/
def beginFlush (s : State) : State := { s with boot := { s.boot with mode := .inReset, flushing := true } }

/-- The always-on island under POR: every latch reset, the POR-seen latch set, the timebase 0 (13 Table 113, R385). -/
def porAon (a : Aon) : Aon := { porSeen := true, porAsserted := true, pinAsserted := a.pinAsserted, addrSel := a.addrSel,
                                clkMode := a.clkMode, refclkUsed := a.refclkUsed }

/-- POR is asserted: a flush in progress goes on (13 R384); where data wait the flush runs first (11 R338, 12 R367); else the reset
is applied. -/
def porOn (s : State) : State :=
  let s1 := { s with aon := porAon s.aon }
  if s.boot.flushing then s1
  else if mustFlush s then beginFlush s1
  else resetRest { enteredS2 s with aon := porAon s.aon }

/-- The straps are sampled (17 R485, R491). -/
def sampleStraps (addrSel : BitVec 2) (clkMode refclk : Bool) (s : State) : State :=
  { s with aon := { s.aon with addrSel := addrSel, clkMode := clkMode, refclkUsed := !clkMode || refclk } }

/-- POR is released. -/
def porOff (addrSel : BitVec 2) (clkMode refclk : Bool) (s : State) : State :=
  if s.aon.porAsserted ∧ s.gov.powerLost = false then
    startIfReady (sampleStraps addrSel clkMode refclk { s with aon := { s.aon with porAsserted := false } })
  else s

/-- The PIN assertion is latched while the start's word is unfinished (13 R396). -/
def latchAbort (s : State) : State :=
  if s.boot.mode = .starting ∧ 2 ≤ s.boot.stage ∧ s.boot.stage ≤ 4 then
    { s with aon := { s.aon with pinAbort := some (s.boot.stage, s.boot.slot) } }
  else s

/-- PERST# is asserted; pulses below 10 µs are ignored (13 R384). -/
def pinOn (lowNs : Nat) (s : State) : State :=
  if lowNs < 10000 ∨ s.aon.pinAsserted = true then s
  else
    let s1 := { s with aon := { s.aon with pinAsserted := true, tbHeldLow := none } }
    if s.boot.flushing ∨ s.aon.porAsserted = true then s1
    else if mustFlush s then beginFlush s1
    else resetRest (latchAbort (enteredS2 s1))

/-- PERST# is released. -/
def pinOff (addrSel : BitVec 2) (clkMode refclk : Bool) (s : State) : State :=
  if s.aon.pinAsserted then
    startIfReady (sampleStraps addrSel clkMode refclk { s with aon := { s.aon with pinAsserted := false } })
  else s

/-- INPUT_LOSS_DECLARED (17 R486, R488, R490, R492): POR is asserted and the flush runs on the bank; FAULT# is released. -/
def inputLoss (mv ns : Nat) (s : State) : State :=
  if (mv < 38000 ∧ 5000 < ns) ∨ 62000 < mv then
    let s1 := porOn { s with gov := { s.gov with powerLost := true, inputMv := mv, measuring := false } }
    { s1 with boot := { s1.boot with faultPin := false } }
  else s

/-- INPUT_RESTORED: the flush done and the input good for 100 ms, POR is released; the bank has discharged. -/
def inputBack (minMv maxMv ns : Nat) (addrSel : BitVec 2) (clkMode refclk : Bool) (s : State) : State :=
  if s.gov.powerLost = true ∧ s.boot.flushing = false ∧ 40000 ≤ minMv ∧ maxMv ≤ 60000 ∧ 100000000 ≤ ns then
    porOff addrSel clkMode refclk { s with gov := { s.gov with powerLost := false, charged := false, inputMv := minMv } }
  else s

/-- FLUSH_COMPLETE: the reset reaches the remaining parts, and the start begins where both sources are released. -/
def flushEnds (s : State) : State :=
  if s.boot.flushing then startIfReady (resetRest (fenced flushAll s)) else s

/-! ### The start log's programs (13 R393 to R398) -/

/-- The stage durations in µs, as far as the start has come. -/
def stageUs (s : State) : List Nat :=
  let b := s.boot
  let ts := [b.tbS1, b.tbS2, b.tbS3, b.tbS4, b.tbS5]
  (List.range 4).map (fun i =>
    if b.stage < i + 1 then 0
    else ((if b.stage = i + 1 then now s else ts.getD (i + 1) 0) - ts.getD i 0).toNat / 1000)

/-- A detail entry before the start's outcome; an event that does not fit is counted (16 R480). -/
def addDetail (type : Nat) (payload : List Byte) (s : State) : State :=
  let e := logEntry type payload
  if 64 + s.boot.details.length + e.length ≤ 4096 then { s with boot := { s.boot with details := s.boot.details ++ e } }
  else if type = 5 then bump 0x60 5 1 s else s

/-- Events raised before the end of S2 become EVENT entries (16 R480, Table 119). -/
def logEarly (s : State) : State :=
  let s1 := s.boot.earlyEvents.foldl (fun s' e => addDetail 5 (bytesOf 8 e.1.toNat ++ e.2) s') s
  { s1 with boot := { s1.boot with earlyEvents := [] } }

/-- Steps 2 and 3 of 13 R393 at a start's outcome. -/
def programOutcome (bit : Nat) (reason : Option Nat) (s : State) : State :=
  match s.boot.logBlock with
  | none => s
  | some b =>
    let x := s.boot
    let a := logAddr b
    let s1 := norProgram (a + 24) (bytesOf 4 x.patternGen.toNat ++ bytesOf 4 x.rejectGen.toNat) s
    let s2 := norProgram (a + 34) (bytesOf 1 x.fallback.toNat ++ bytesOf 1 0 ++ (stageUs s).flatMap (bytesOf 4)
      ++ bytesOf 4 x.failDetail.toNat ++ bytesOf 8 0) s1
    let s3 := norProgram (a + 64) x.details s2
    let s4 := norProgram (a + 8) (bytesOf 8 (outcomeWord bit reason x.stage x.slot)) s3
    { s4 with boot := { s4.boot with logNext := 64 + x.details.length, details := [] } }

/-- The device keeps an erased sector ahead of the ring (13 R398). -/
def eraseAhead (s : State) : State :=
  match s.boot.logBlock with
  | some b => if b % 16 = 0 then { s with nor := { s.nor with ops := s.nor.ops ++ [.erasing (loggedBase + (b / 16 + 1) % 16) false] } } else s
  | none => s

/-! ### Fettle mode and halts (13 R388, R400, R401) -/

/-- Engine, core-control and flash islands are clock-stopped. -/
def quietIslands (l : List Island) : List Island := l.filter (fun i => decide (i = .alwaysOn ∨ i = .hub ∨ i = .link))

/-- The processors halt and FAULT# is asserted (13 Table 116). -/
def haltAll (s : State) : State :=
  { s with boot := { s.boot with mode := .halted, faultPin := true },
           integ := { s.integ with procs := SMap.mapVals {} (fun _ (p : Proc) => if p.st = .active then { p with st := .faulted } else p) s.integ.procs } }

/-- Fettle mode with a reason; `detail` is FAIL_DETAIL. A start's outcome is FAILED, or HELD for START_FAILURES and UNCLAIMED;
entered from service it ends held commands with FETTLE and writes no outcome (13 R400 to R402). -/
def enterFettle (reason detail : Nat) (s : State) : State :=
  let wasService := decide (s.boot.mode = .service)
  let s0 := { s with
    boot := { s.boot with mode := .fettle, fettleReason := BitVec.ofNat 8 reason, mailboxReady := true, memActive := false,
                          mediaReady := false, faultPin := decide (reason ≠ 6), wdRunning := true,
                          failDetail := BitVec.ofNat 32 detail },
    isl := { s.isl with released := quietIslands s.isl.released } }
  fenced (fun x => platform 61 reason <|
    if wasService then
      raise 0x0040 3 reason s.boot.stage 0 ((x.trs.map (·.1)).foldl (fun s' t => stopAll false stFettle t s') x)
    else
      raise 0x0040 3 reason s.boot.stage 0
        (eraseAhead (programOutcome (if reason = 2 ∨ reason = 6 then 35 else 34) (some reason) (logEarly x)))) s0

/-! ### S0 and S1 (13 R387, R389, R390, 14 R412, R436) -/

/-- STAGE_S0: the crystal is clock-good; S1 begins and clears the POR-seen latch. -/
def endS0 (s : State) : State :=
  if s.boot.mode = .starting ∧ s.boot.stage = 0 then
    { s with aon := { s.aon with crystalGood := true, porSeen := false, stageStart := now s },
             boot := { s.boot with stage := 1, tbS1 := now s },
             isl := { s.isl with released := [.alwaysOn] } }
  else s

/-- S1 fails: no word is consumed, S1_FAIL is latched (13 Table 116). -/
def failS1 (s : State) : State := haltAll { s with aon := { s.aon with s1Fail := true } }

/-- The fixed part of the boot record is intact (14 R412). -/
def bootRecordOk (s : State) : Bool :=
  decide (norRaw s 0 8 = ascii ['L', 'Y', 'M', 'B', 'O', 'O', 'T', '1'] ∧ numAt (norRaw s 8 4) 0 4 = 1
    ∧ (crc32 (norRaw s 0 0x1FFC)).toNat = natOf (norRaw s 0x1FFC 4))

/-- A PUF root matches PUF_CHECK (14 R436). -/
def rootOk (s : State) (root : List Byte) : Bool :=
  decide (root.length = 32) && decide (digest32 (ascii ['I', 'M', 'I', 'A', 'R', 'A', 'N', '-', 'P', 'U', 'F'] ++ root) = norRaw s 0x1040 32)

/-- The duties of 01 Table 7 in order, as codes 1 to 7. -/
def dutyCodes : List Nat := List.replicate 16 1 ++ List.replicate 8 2 ++ List.replicate 4 3 ++ [4, 5, 6, 7]

/-- Processors after the self-test: the 32 lowest-numbered that pass take the duties, the others are spares; missing places fall to
the lowest-numbered (12 R380, R381; log 29). -/
def assignProcs (failed : List Nat) : SMap Proc :=
  let ok := (List.range 36).filter (fun p => decide (p ∉ failed))
  let duty (i : Nat) : Nat := 2 ^ (dutyCodes.getD i 1 - 1)
  let extra := dedup ((List.range' ok.length (32 - ok.length)).map duty)
  (List.range 36).map (fun p =>
    if p ∈ failed then (p, { st := .failed, duties := 0 })
    else
      let i := (ok.takeWhile (fun q => decide (q ≠ p))).length
      if 32 ≤ i then (p, { st := .spare, duties := 0 })
      else (p, { st := .active, duties := BitVec.ofNat 8 (duty i) ||| (if i = 0 then BitVec.ofNat 8 (sumOf (extra.filter (· ≠ duty 0))) else 0) }))

/-- STAGE_S1: the self-check, the boot record, the PUF root from at most four readings, link training and Memory_Info_Valid. The
link trains to what `tr` says (02 Table 13). -/
def endS1 (procFail : List Nat) (puf : List (List Byte)) (tr : Training) (s : State) : State :=
  if s.boot.mode = .starting ∧ s.boot.stage = 1 then
    match (puf.take 4).find? (rootOk s) with
    | none => failS1 s
    | some root =>
      if (List.range 36).all (fun p => decide (p ∈ procFail)) ∨ bootRecordOk s = false then failS1 s
      else { s with
        boot := { s.boot with stage := 2, tbS2 := now s, memInfoValid := true, pufOk := true, pufRoot := root },
        aon := { s.aon with stageStart := now s },
        isl := { s.isl with released := dedup (s.isl.released ++ [.hub, .link]) },
        link := { trained tr s.link with up := true },
        integ := { s.integ with procs := assignProcs procFail } }
  else s

/-! ### S2 (13 R391, R392, R397) -/

/-- The newest earlier SUCCESS record: its slot and REJECT_GEN. -/
def lastGood (s : State) : Option (Option Slot × Nat) :=
  (newestSuccess s 256 (prevSeq s.boot.startSeq.toNat)).map (fun e =>
    ((match bitsOf e.2 52 2 with
      | 0 => some .cope
      | 1 => some .drag
      | _ => none), natOf (norRead s (logAddr e.1 + 28) 4)))

/-- The generation of a candidate. -/
def genOf (s : State) (x : Slot) : Option Nat := (candidate s x).map (·.gen)

/-- The preferred slot (13 R391). -/
def preferredSlot (s : State) : Option Slot :=
  match lastGood s with
  | some (some a, r) => (match genOf s a, genOf s (otherSlot a) with
    | some ga, some go => if ga < go ∧ (r = 0 ∨ r < go) then some (otherSlot a) else some a
    | some _, none => some a
    | none, some _ => some (otherSlot a)
    | none, none => none)
  | _ => (match genOf s .cope, genOf s .drag with
    | some c, some d => if c < d then some .drag else some .cope
    | some _, none => some .cope
    | none, some _ => some .drag
    | none, none => none)

/-- The candidates in the order they are tried (13 R392). -/
def tryOrder (s : State) (reversed : Bool) : List Slot :=
  match preferredSlot s with
  | none => []
  | some p => (if reversed then [otherSlot p, p] else [p, otherSlot p]).filter (fun x => (candidate s x).isSome)

/-- SLOT_CHECK of a slot, given the slots tried. -/
def slotCheck (s : State) (tried : List Slot) (x : Slot) : Nat :=
  if (candidate s x).isNone then 1 else if x ∈ tried then verifySlot s x else 6

/-- REJECT_GEN that a start to S5 carries: the preferred slot's generation where another was used; a rejection stays in force until a
newer generation is committed (13 R391, R392 with its example). -/
def rejectOf (s : State) : Nat :=
  match s.boot.slot, s.boot.preferred with
  | some x, some p =>
    if x ≠ p then (genOf s p).getD 0
    else (match lastGood s with
      | some (some a, r) => if a = x ∧ ((genOf s (otherSlot x)).getD 0 ≤ r) then r else 0
      | _ => 0)
  | _, _ => 0

/-- The payload of PROC_MAP (13 Table 119). -/
def procMap (s : State) : List Byte :=
  (List.range 36).map (fun p => let x := procOf s p
                                if x.st = .failed then (0xFF : Byte) else if x.duties = 0 then 0 else BitVec.ofNat 8 (firstDuty x.duties))
  ++ (List.range 36).map (fun p => (procOf s p).duties)

/-- STAGE_S2: the word, the count F, the slot, its verification, firmware and policy, and Mailbox Interface Ready. -/
def endS2 (s : State) : State :=
  if s.boot.mode = .starting ∧ s.boot.stage = 2 then
    let s0 := consumeWord s
    let f := (s0.boot.logBlock.map (fun b => countFailures s0 255 ((b + 255) % 256))).getD 0
    let s1 := addDetail 2 (procMap s0) { s0 with tele := { s0.tele with ringPos := ringFind s0, healthPos := (healthRead s0).2 } }
    if 3 ≤ f then enterFettle 2 0 s1
    else
      let order := tryOrder s1 (decide (f = 2))
      let used := order.find? (fun x => decide (verifySlot s1 x = 0))
      let tried := (match used with
        | some x => order.takeWhile (fun y => decide (y ≠ x)) ++ [x]
        | none => order)
      let c := slotCheck s1 tried .cope
      let d := slotCheck s1 tried .drag
      let s2 := addDetail 4 (bytesOf 4 c ++ bytesOf 4 d) { s1 with boot := { s1.boot with
        fallback := decide (f = 2), preferred := preferredSlot s1, slot := used,
        slotCheckCope := BitVec.ofNat 8 c, slotCheckDrag := BitVec.ofNat 8 d,
        patternGen := BitVec.ofNat 32 ((used.bind (genOf s1)).getD 0) } }
      match used with
      | none => enterFettle 1 0 s2
      | some x =>
        if ¬ (ownerNow s2).claimed then enterFettle 6 0 s2
        else
          let s3 := fenced (fun y => logEarly (loadPattern x y)) s2
          { s3 with boot := { s3.boot with stage := 3, tbS3 := now s, mailboxReady := true },
                    aon := { s3.aon with stageStart := now s } }
  else s

/-! ### S3 (07 R239, R240, 12 R367, R371, 00 R4, R5) -/

/-- A lane of the health records. -/
def applyLane (link dir lane : Nat) (s : State) : State :=
  let m := laneSet s link dir
  let m1 := if bitOf m lane then m else m + 2 ^ lane
  { s with integ := { s.integ with lanes := SMap.put 0 s.integ.lanes (2 * link + dir) m1 } }

/-- The health records are applied: remap entries, spare words and lanes, each in its list's order (12 R367, R368, R371). -/
def applyHealth (s : State) : State :=
  (healthRead s).1.foldl (fun s' e =>
    if e.1 = 1 then (match freeRemap s' e.2.1 with
      | some i => setRemap e.2.1 i e.2.2 s'
      | none => s')
    else if e.1 = 2 then (match freeWord s' e.2.1 with
      | some i => setWord e.2.1 i e.2.2 s'
      | none => s')
    else applyLane e.2.1 (e.2.2 / 256) (e.2.2 % 256) s') s

/-- The number of the first hub-cache SRAM, sixteen per way in the order of 12 Table 159 (log 29). -/
def cacheRam : Nat := 3904

/-- An SRAM whose spare words are all in use: one of the hub cache has its lines withdrawn from allocation (12 R370). -/
def ramSpent (ram : Nat) (s : State) : State :=
  if cacheRam ≤ ram ∧ ram < cacheRam + 384 then
    { s with tier := { s.tier with cacheOut := dedup (s.tier.cacheOut ++ [ram - cacheRam]) } }
  else s

/-- Lines, words, lanes and dies that the tests of S3 find. -/
def applyTests (r : S3Report) (s : State) : State :=
  let s1 := r.dram.foldl (fun s' e => if e.1 < 512 then hardDram e.1 e.2 .free s' else s') s
  let s2 := r.sram.foldl (fun s' e => match freeWord s' e.2.1 with
    | some i => raise 0x0010 0 e.1 i 0 (healthAppend 2 e.2.1 e.2.2 (setWord e.2.1 i e.2.2 s'))
    | none => ramSpent e.2.1 s') s1
  let s3 := r.lanes.foldl (fun s' e => repairLanes e.1 e.2.1 [e.2.2] s') s2
  r.dies.foldl (fun s' e => if e.1 < 128 ∧ e.2 < 17 then loseDie e.1 e.2 s' else s') s3

/-- The state after the health records and the tests of S3. -/
def tested (r : S3Report) (s : State) : State := fenced (fun x => applyTests r (applyHealth x)) s

/-- SRAM macros with a failing word that no spare word serves (12 R370), after the tests. -/
def spentRams (s : State) (r : S3Report) : List Nat :=
  (r.sram.filter (fun e => (List.range 4).all (fun i => decide (SMap.find 0 s.integ.sram (4 * e.2.1 + i) ≠ e.2.2 + 1)))).map (·.2.1)

/-- The engine, as 10 × core + engine, whose scratchpad, accumulator file or vector register file a macro belongs to (12 Table 159;
log 29). -/
def ramEngine (ram : Nat) : Option Nat :=
  if ram < 2560 then some (ram / 16) else if ram < 2720 then some (ram - 2560) else if ram < 2880 then some (ram - 2720) else none

/-- The core whose SRAM a macro belongs to. -/
def ramCore (ram : Nat) : Option Nat := if 2880 ≤ ram ∧ ram < 3904 then some ((ram - 2880) / 64) else none

/-- Memories that fail the fill: those reported, and cores with a spent SRAM macro (12 R367, R370). -/
def fillFails (s : State) (r : S3Report) : List FillFail := r.fill ++ (dedup ((spentRams s r).filterMap ramCore)).map FillFail.core

/-- An engine has a spent macro among those of numbers from `lo` on. -/
def engineSpent (s : State) (r : S3Report) (lo c e : Nat) : Bool :=
  (spentRams s r).any (fun m => decide (lo ≤ m) && ramEngine m == some (10 * c + e))

/-- Physical engines of a core that fail. -/
def engFails (s : State) (r : S3Report) (c : Nat) : List Nat :=
  (List.range 10).filter (fun e => r.engines.any (fun x => x.1 == c && x.2.1 == e) || decide (Island.engine c e ∈ s.isl.failed)
    || engineSpent s r 0 c e)

/-- A core's failing engines failed in more than their scratchpads (07 R240). -/
def clockOrArray (s : State) (r : S3Report) (c : Nat) : Bool :=
  r.engines.any (fun x => x.1 == c && decide (x.2.1 < 10) && decide (x.2.2 ≠ .scratchpad))
  || (List.range 10).any (fun e => decide (Island.engine c e ∈ s.isl.failed) || engineSpent s r 2560 c e)

/-- The engines of a core, the lowest-numbered passing ones in service. -/
def formCore (n : Nat) (fails : List Nat) : SMap Engine :=
  let ok := (List.range 10).filter (fun e => decide (e ∉ fails))
  (List.range 10).filterMap (fun e =>
    if e ∈ fails then none
    else
      let l := (ok.takeWhile (fun q => decide (q ≠ e))).length
      some (e, { pass := true, logical := if l < n then some l else none, stopped := decide (n ≤ l) }))

/-- The islands that S3 releases, but for those that failed. -/
def serviceIslands (s : State) : List Island :=
  ((List.range 16).map Island.core ++ (List.range 8).map Island.flash
    ++ (List.range 16).flatMap (fun c => (((SMap.find {} s.core.cores c).engines.filter (fun e => e.2.logical.isSome)).map
      (fun e => Island.engine c e.1)))).filter (fun i => decide (i ∉ s.isl.failed))

/-- The payload of ENGINE_MAP. -/
def engineMapOf (s : State) : List Byte :=
  (List.range 160).map (fun i =>
    match (SMap.find {} s.core.cores (i / 10)).engines.find? (fun e => e.2.logical == some (i % 10)) with
    | some e => BitVec.ofNat 8 e.1
    | none => 0xFF)

/-- GRADE as formed (00 Table 2). -/
def gradeWord (n : Nat) : BitVec 32 := BitVec.ofNat 32 ((if Config.markedL then 2 else 1) + n * 2 ^ 8 + 0x10 * 2 ^ 16)

/-- A failed memory's FAIL_DETAIL: the lowest-numbered stack, else the lowest-numbered core (13 Table 160). -/
def fillDetail (fs : List FillFail) : Nat :=
  let dramOnes := fs.filterMap (fun f => match f with
    | .stack n => some n
    | .core _ => none)
  let cores := fs.filterMap (fun f => match f with
    | .core n => some n
    | .stack _ => none)
  match dramOnes with
  | a :: l => 0x02000000 + l.foldl min a
  | [] => 0x01000000 + (cores.foldl min (cores.headD 0))

/-- STAGE_S3. -/
def endS3 (r : S3Report) (s : State) : State :=
  if s.boot.mode = .starting ∧ s.boot.stage = 3 then
    let s1 := tested r s
    if ¬ (fillFails s1 r).isEmpty then enterFettle 4 (fillDetail (fillFails s1 r)) s1
    else
      let fails (c : Nat) : List Nat := engFails s1 r c
      match (List.range 16).find? (fun c => decide (3 < (fails c).length)) with
      | some c => enterFettle (if clockOrArray s1 r c then 3 else 4) (0x01000000 + c) s1
      | none =>
        let n := if Config.markedL || (List.range 16).any (fun c => decide (2 < (fails c).length)) then 7 else 8
        let s2 := { s1 with core := { s1.core with cores := (List.range 16).map (fun c => (c, { engines := formCore n (fails c) })) } }
        let s3 := placeSlots <| addDetail 1 (engineMapOf s2) { s2 with boot := { s2.boot with engineMap := engineMapOf s2, grade := gradeWord n } }
        platform 60 4 <|
        { s3 with boot := { s3.boot with stage := 4, tbS4 := now s },
                  aon := { s3.aon with stageStart := now s },
                  isl := { s3.isl with released := dedup (s3.isl.released ++ serviceIslands s3) } }
  else s

/-! ### S4 (11 R340, 14 R422, R437, 17 R489) -/

/-- The map is the checkpoints' image with the durable journal replayed (11 Table 102). -/
def rebuildMap (s : State) : State :=
  { s with fl := { s.fl with map := (s.fl.journal.flatMap (·.recs)).foldl (applyRec (slcAddr s)) s.fl.base } }

/-- The last durable sequence. -/
def durableSeq (s : State) : Nat := (s.fl.journal.filter (·.durable)).foldl (fun m e => max m e.seq) 0

/-- A tagged page may be adopted (11 R341): an original data page of an open or reserve superblock, of a committed group or none, newer
than the page that the map names. For an unmapped unit it is newer than the last durable entry, so that no released unit returns (03 R98;
DESIGN CHOICE, log 90). -/
def adoptable (s : State) (a : FlashAddr) (t : Tag) : Bool :=
  let x := sbOf s (sbKey s a)
  let m := mapOf s t.unit
  !t.copy && decide (t.kind = 0) && decide (x.st = .openSlc ∨ x.st = .openQlc ∨ x.reserve = true)
  && (decide (t.group = 0) || s.fl.journal.any (fun e => e.seq == t.group))
  && (if m.st = 0 then decide (durableSeq s ≤ t.seq) else decide (((tagAt s m.addr).map (·.seq)).getD 0 < t.seq))

/-- The tag scan: the adoptable page with the highest SEQ of each unit is mapped, in one entry. -/
def adoptPages (s : State) : State :=
  let cands := s.fl.tags.filterMap (fun e => match e.2 with
    | some t => if adoptable s (BitVec.ofNat 37 e.1) t then some (BitVec.ofNat 37 e.1, t) else none
    | none => none)
  let best := cands.filter (fun (c : FlashAddr × Tag) => cands.all (fun (d : FlashAddr × Tag) => decide (d.2.unit ≠ c.2.unit ∨ d.2.seq ≤ c.2.seq)))
  if best.isEmpty then s else commitEntry (best.map (fun (c : FlashAddr × Tag) => Rec.map c.2.unit c.1)) s

/-- Pages of superseded epochs are freed, every page's last use is the start's (10 R304, 11 Table 102). -/
def settlePages (s : State) : State :=
  let ks := (s.tier.pages.filter (fun e => e.2.dead.isSome)).map (·.1)
  let s1 := if ks.isEmpty then s
    else commitEntry (ks.map (fun k => .unmap (slotUnit s k) 4)) (ks.foldl (fun s' k => deletePage k s') s)
  { s1 with tier := { s1.tier with pages := s1.tier.pages.map (fun e => (e.1, { e.2 with lastUse := nowMs s })) } }

/-- Units under a key that is gone hold what a fresh key makes of their ciphertext: free bytes (log 7, log 8). -/
def loseKeys (lost : List (Nat × Nat)) (s : State) : State :=
  let us := (s.fl.map.filter (fun (e : Nat × MapEntry) => decide (e.2.st = 1) && decide (keyOfUnit s e.1 ∈ lost))).map (·.1)
  if us.isEmpty then s
  else drawn 1 (us.foldl (fun s' u => putUnitBytes u 0 ((List.range 16384).map (fun i => Config.freeByte (draw s) (u * 16384 + i))) s') s)

/-- What was written under a released owner is unreadable and is freed (14 R435): no key of it is left. -/
def freeReleased (s : State) : State :=
  if s.fl.map.isEmpty ∧ s.ctx.recs.isEmpty ∧ s.coll.isEmpty ∧ s.fl.objects.isEmpty then s
  else journalFlush (unmapStored (dropObjects s.fl.objects s))

/-- The end of S4: other entries are zeroed, and missing keys created (14 R437). The pattern store's key is among those that every
S4 leaves, so without it the owner was released (14 R435; log 33). -/
def settleKeys (s : State) : State :=
  let objs := keyObjects s
  let kept := (keysNow s).filter (fun k => keyGood s k && decide ((k.kind, k.id) ∈ objs))
  let need := objs.filter (fun o => kept.all (fun k => !decide ((k.kind, k.id) = o)))
  let s0 := if kept.any (fun k => k.kind == 3) then s else freeReleased s
  if need.isEmpty ∧ kept.length = (keysNow s).length then s0
  else loseKeys need (writeOwner (ownerNow s) (kept ++ need.map (fun o => freshKey s o.1 o.2)) (drawn 1 s0))

/-- The bank has failed (17 R489). -/
def bankFailed (s : State) : Bool := decide (bankState s = 2)

/-- The end of S4 finds the bank reported and failed. -/
def bankCheck (s : State) : State := if s.boot.bankReported && bankFailed s then enterFettle 7 0 s else s

/-- STAGE_S4: the rebuild, and at its end the keys and the pattern store's objects. -/
def endS4 (readable : Bool) (s : State) : State :=
  if s.boot.mode = .starting ∧ s.boot.stage = 4 ∧ s.boot.mapRebuilt = false then
    if ¬ readable then enterFettle 5 0 s
    else
      let s2 := fenced (fun x => withdrawSlots (freeObjects (settleKeys (journalFlush (settlePages (adoptPages (rebuildMap x))))))) s
      bankCheck { s2 with boot := { s2.boot with mapRebuilt := true, mediaRef := s2.fl.hostTb } }
  else s

/-- A cell as measured: it fails below 900 µF or above 50 mΩ (17 R489). -/
def measured (m : Nat × Nat) : Cell := { cap := m.1, res := m.2, isolated := decide (m.1 < 900 ∨ 50 < m.2) }

/-- HOLDUP_BANK_CHARGED: the bank is charged and every cell tested; a failed bank ends S4 with HOLDUP. -/
def bankCharged (cells : List (Nat × Nat)) (s : State) : State :=
  if s.boot.mode = .starting then
    let s1 := { s with gov := { s.gov with charged := true, bankTested := true,
                                           cells := (List.range 9).map (fun i => measured (cells.getD i (0, 0))) },
                       boot := { s.boot with bankReported := true } }
    if s.boot.stage = 4 ∧ s.boot.mapRebuilt = true then bankCheck s1 else s1
  else s

/-! ### S5 (13 R387, R393, 03 R70) -/

/-- The bindings of TRS 0 to 15 that the owner policy tables give. -/
def bindPrivileged (s : State) : State :=
  (s.pol.trsBind.filter (fun b => decide (b.trs < 16))).foldl (fun s' b =>
    modTrs b.trs (fun p => { p with bind := { valid := true, priv := true, tenant := b.tenant, vector := b.vector, rids := b.rids } }) s') s

/-- STAGE_S5: service begins. -/
def endS5 (s : State) : State :=
  if s.boot.mode = .starting ∧ s.boot.stage = 4 ∧ s.boot.mapRebuilt = true ∧ s.boot.bankReported = true ∧ bankFailed s = false then
    let s1 := { s with boot := { s.boot with stage := 5, tbS5 := now s, rejectGen := BitVec.ofNat 32 (rejectOf s) },
                       aon := { s.aon with stageStart := now s } }
    let s2 := fenced (fun x => bindPrivileged (eraseAhead (programOutcome 33 none x))) s1
    platform 60 5 <|
    { s2 with boot := { s2.boot with mode := .service, memActive := true, mediaReady := true, wdRunning := true } }
  else s

/-! ### Timeouts and islands (13 R388, R389) -/

/-- STAGE_TIMEOUT: the boot ROM enters Fettle mode with the stage's reason; in S1, or where the restart fails, everything halts. -/
def stageTimeout (restarts : Bool) (s : State) : State :=
  if s.boot.mode = .starting then
    match s.boot.stage with
    | 0 => s
    | 1 => failS1 s
    | n =>
      let s1 := enteredS2 s
      if ¬ restarts then haltAll s1
      else enterFettle (if n = 2 then 1 else if n = 3 then 4 else if s.boot.mapRebuilt then 7 else 5) 0 s1
  else s

/-- An island may be released in the stage that requests it, or restarted in service. -/
def mayRelease (s : State) (i : Island) : Bool :=
  match i with
  | .alwaysOn => true
  | .hub | .link => decide (1 ≤ s.boot.stage)
  | .core n => decide (n < 16 ∧ 3 ≤ s.boot.stage)
  | .flash n => decide (n < 8 ∧ 3 ≤ s.boot.stage)
  | .engine c e => decide (3 ≤ s.boot.stage) && inService (getEngine s c e)

/-- ISLAND_RELEASE: clock-good held for 64 of its cycles and at least 2 µs; its timestamps are approximate until the next full
value (13 R389, 15 R450). -/
def islandRelease (i : Island) (cycles ns : Nat) (s : State) : State :=
  if 64 ≤ cycles ∧ 2000 ≤ ns ∧ i ∉ s.isl.released ∧ i ∉ s.isl.failed ∧ mayRelease s i = true
      ∧ (s.boot.mode = .starting ∨ s.boot.mode = .service) then
    let s1 := { s with isl := { s.isl with released := s.isl.released ++ [i],
                                           approx := if i = .alwaysOn then s.isl.approx else s.isl.approx ++ [i] },
                       aon := if i = .alwaysOn then { s.aon with crystalGood := true } else s.aon }
    match i with
    | .engine c e => fenced (modCore c (modEngine e (fun (g : Engine) => { g with stopped := false }))) s1
    | _ => s1
  else s

/-- ISLAND_CLOCK_GOOD_TIMEOUT (13 R389, Table 116): an engine island counts as a failing engine; hub and link fail S1; a core-control or
flash island is Fettle mode with ISLAND_CLOCK; S0 goes on waiting. -/
def islandTimeout (i : Island) (s : State) : State :=
  if i ∈ s.isl.released ∨ i ∈ s.isl.failed then s
  else
    let s1 := { s with isl := { s.isl with failed := s.isl.failed ++ [i] } }
    match i, s.boot.mode with
    | .engine c e, .service => if inService (getEngine s c e) then fenced (disableEngine c e) s1 else s
    | .engine _ _, .starting => s1
    | .hub, .starting => if s.boot.stage = 1 then failS1 s1 else s
    | .link, .starting => if s.boot.stage = 1 then failS1 s1 else s
    | .core n, .starting => if s.boot.stage = 3 ∧ n < 16 then enterFettle 3 (0x03000000 + n) s1 else s
    | .flash n, .starting => if s.boot.stage = 3 ∧ n < 8 then enterFettle 3 (0x04000000 + n) s1 else s
    | _, _ => s

/-! ### The rows -/

/-- POR_ASSERT. -/
def execPorAssert (s : State) : Result := .next (porOn s)

/-- POR_RELEASE. -/
def execPorRelease (addrSel : BitVec 2) (clkMode refclk : Bool) (s : State) : Result := .next (porOff addrSel clkMode refclk s)

/-- PERST_ASSERT. -/
def execPerstAssert (lowNs : Nat) (s : State) : Result := .next (pinOn lowNs s)

/-- PERST_RELEASE. -/
def execPerstRelease (addrSel : BitVec 2) (clkMode refclk : Bool) (s : State) : Result := .next (pinOff addrSel clkMode refclk s)

/-- INPUT_LOSS_DECLARED. -/
def execInputLossDeclared (mv ns : Nat) (s : State) : Result := .next (inputLoss mv ns s)

/-- INPUT_RESTORED. -/
def execInputRestored (minMv maxMv ns : Nat) (addrSel : BitVec 2) (clkMode refclk : Bool) (s : State) : Result :=
  .next (inputBack minMv maxMv ns addrSel clkMode refclk s)

/-- FLUSH_COMPLETE. -/
def execFlushComplete (s : State) : Result := .next (flushEnds s)

/-- ISLAND_RELEASE. -/
def execIslandRelease (i : Island) (cycles ns : Nat) (s : State) : Result := .next (islandRelease i cycles ns s)

/-- ISLAND_CLOCK_GOOD_TIMEOUT. -/
def execIslandClockGoodTimeout (i : Island) (s : State) : Result := .next (islandTimeout i s)

/-- STAGE_S0. -/
def execStageS0 (s : State) : Result := .next (endS0 s)

/-- STAGE_S1. -/
def execStageS1 (procFail : List Nat) (puf : List (List Byte)) (tr : Training) (s : State) : Result := .next (endS1 procFail puf tr s)

/-- STAGE_S2. -/
def execStageS2 (s : State) : Result := .next (endS2 s)

/-- STAGE_S3. -/
def execStageS3 (r : S3Report) (s : State) : Result := .next (endS3 r s)

/-- STAGE_S4. -/
def execStageS4 (readable : Bool) (s : State) : Result := .next (endS4 readable s)

/-- HOLDUP_BANK_CHARGED. -/
def execHoldupBankCharged (cells : List (Nat × Nat)) (s : State) : Result := .next (bankCharged cells s)

/-- STAGE_S5. -/
def execStageS5 (s : State) : Result := .next (endS5 s)

/-- STAGE_TIMEOUT. -/
def execStageTimeout (restarts : Bool) (s : State) : Result := .next (stageTimeout restarts s)

/-- WATCHDOG_EXPIRY. -/
def execWatchdogExpiry (duty : Nat) (s : State) : Result := .next (if s.boot.wdRunning && alive s then expire duty s else s)

end Sys2Proof.Machine
end

