-- ==== Sys2Proof/Machine/Governor.lean ====
section
/-! DEFINITION. The timebase's full value, the power governor, quench and thermal limits (15 R449 to R460), and the hold-up bank's
measurement in service (17 R489, R490, 13 R402). -/
namespace Sys2Proof.Machine

/-- TIMEBASE_FULL_VALUE: every replica takes the full value, and its timestamps are exact again (15 R449, R450). -/
def fullValue (s : State) : State :=
  if s.aon.crystalGood then { s with isl := { s.isl with approx := [], lastFull := now s } } else s

/-! ### Policy values (15 Table 142) -/

/-- DEVICE_CAP in mW. -/
def deviceCap (s : State) : Nat := polValue s 0x40 600 * 1000

/-- The cap of controllable subsystem `i`: 0 engines, 1 stack DRAM, 2 NAND. -/
def subCap (s : State) (i : Nat) : Nat :=
  match i with
  | 0 => polValue s 0x41 190 * 1000
  | 1 => polValue s 0x42 170 * 1000
  | _ => polValue s 0x43 110 * 1000

/-! ### Quench (15 R456 to R459) -/

/-- Every engine island in service takes s = 128 and no new program starts (15 R457). -/
def startQuench (cause : Nat) (s : State) : State :=
  if s.gov.quench then s
  else platform 63 2 (raise 0x0031 1 0 cause 0 (bump 0x80 0 1
    { s with gov := { s.gov with quench := true, cause := cause, stretch := 128, progStopped := true, overSamples := 0 } }))

/-- QUENCH_OVERCURRENT: the input current exceeds 1.2 × DEVICE_CAP ÷ V of the last sample (15 R456). -/
def overcurrent (ma : Nat) (s : State) : State :=
  if 12 * deviceCap s * 1000 < 10 * (ma * s.gov.inputMv) then
    startQuench 0 { s with gov := { s.gov with tripped := true } }
  else s

/-- QUENCH_EXCURSION: 200 consecutive samples above DEVICE_CAP. -/
def excursion (s : State) : State := if 200 ≤ s.gov.overSamples then startQuench 1 s else s

/-! ### Thermal limits (15 R460, Table 141) -/

/-- The points of a sensor in 0.1 °C with the bit of the response in `thermal`: 0 doubled refresh, 1 throttle, 2 critical. -/
def thermalPoints (s : State) (sensor : Nat) : List (Nat × Int) :=
  if sensor < 26 then [(1, polValue s 0x45 100 * 10), (2, 1100)]
  else if sensor < 42 then [(0, 850), (1, 950), (2, 1050)]
  else if sensor < 50 then [(1, polValue s 0x46 70 * 10), (2, 800)]
  else [(1, 850), (2, 950)]

/-- A response of a sensor is in force. -/
def inForce (s : State) (sensor bit : Nat) : Bool := bitOf (SMap.find 0 s.gov.thermal sensor) bit

/-- The mask after one reading: a response applies at its point and is withdrawn 5 °C below it. -/
def responseMask (t : Int) (old : Nat) (ps : List (Nat × Int)) : Nat :=
  sumOf (ps.map (fun p => if p.2 ≤ t ∨ (bitOf old p.1 = true ∧ p.2 - 50 < t) then 2 ^ p.1 else 0))

/-- One sensor's reading: each point crossed, upwards or downwards, writes a THERMAL event (log 31). -/
def readSensor (sensor : Nat) (t : Int) (s : State) : State :=
  let ps := thermalPoints s sensor
  let old := s.gov.temps.getD (sensor - 9) 0
  let s1 := ps.foldl (fun s' p => if decide (old < p.2) ≠ decide (t < p.2) then
      platform sensor t (raise 0x0032 (if p.1 = 2 then 2 else 1) sensor p.2.toNat t.toNat s') else s') s
  { s1 with gov := { s1.gov with
      thermal := SMap.put 0 s1.gov.thermal sensor (responseMask t (SMap.find 0 s1.gov.thermal sensor) ps),
      temps := s1.gov.temps.set (sensor - 9) t } }

/-- A sensor whose throttle response is in force is still at or above its throttle point: the response goes on falling. -/
def stillHot (s : State) (sensor : Nat) : Bool :=
  inForce s sensor 1 && (thermalPoints s sensor).any (fun p => decide (p.1 = 1 ∧ p.2 ≤ s.gov.temps.getD (sensor - 9) 0))

/-- A hub or core sensor is at its critical point. -/
def pkgCritical (s : State) : Bool := (List.range' 9 17).any (fun i => inForce s i 2)

/-- Any throttle or critical response is in force. -/
def anyThermal (s : State) : Bool := (List.range' 9 42).any (fun i => inForce s i 1 || inForce s i 2)

/-- Logical engines of a core in service. -/
def coreEngines (c : Core) : Nat := (c.engines.filter (fun e => inService e.2)).length

/-- Whether the governor keeps an engine stopped: at the last means, or by a critical core or hub. -/
def mustStop (s : State) (core : Nat) (c : Core) (e : Engine) : Bool :=
  inService e && (inForce s 9 2 || inForce s (10 + core) 2
    || decide (coreEngines c ≤ e.logical.getD 0 + s.gov.stoppedPerCore))

/-- Engines stop, with an engine-level save where they hold tiles, and restart (15 R447, R455, R460). -/
def applyStops (s : State) : State :=
  { s with core := { s.core with cores := SMap.mapVals {} (fun n (c : Core) => { c with
      engines := SMap.mapVals {} (fun _ (e : Engine) =>
        if mustStop s n c e then
          (if e.govStopped then e else { e with govStopped := true, preempt := !(running e).isEmpty })
        else if e.govStopped then { e with govStopped := false, preempt := false } else e) c.engines }) s.core.cores } }

/-! ### Samples (15 R453) -/

/-- Input power of a sample in mW. -/
def inputPower (g : GovSample) : Nat := g.inputMv * g.inputMa / 1000

/-- GOVERNOR_SAMPLE: the window's sums, the run of samples above DEVICE_CAP, the sensors with their responses; a critical hub or core
is a quench. Times of quench and thermal throttle are counted at 50 µs a sample. -/
def sample (g : GovSample) (s : State) : State :=
  let p := inputPower g
  let new := p :: (List.range 5).map (fun i => g.rails.getD i 0)
  let s1 := { s with gov := { s.gov with
    inputMv := g.inputMv, inputMa := g.inputMa, count := s.gov.count + 1,
    sums := (List.range 6).map (fun i => s.gov.sums.getD i 0 + new.getD i 0),
    overSamples := if deviceCap s < p then s.gov.overSamples + 1 else 0 } }
  let s2 := (List.range 42).foldl (fun s' i => readSensor (9 + i) (g.temps.getD i (s'.gov.temps.getD i 0)) s') s1
  let s3 := if s2.gov.quench then bump 0x80 1 50000 s2 else s2
  let s4 := if anyThermal s3 then bump 0x80 2 50000 s3 else s3
  applyStops (if pkgCritical s4 then startQuench 2 s4 else s4)

/-- In Fettle mode the sensors of input, rails, hub and NOR go on (13 R401, 16 R483). -/
def quietSample (g : GovSample) (s : State) : State :=
  let new := inputPower g :: (List.range 5).map (fun i => g.rails.getD i 0)
  let s1 := { s with gov := { s.gov with
    inputMv := g.inputMv, inputMa := g.inputMa, count := s.gov.count + 1,
    sums := (List.range 6).map (fun i => s.gov.sums.getD i 0 + new.getD i 0) } }
  readSensor 50 (g.temps.getD 41 (s.gov.temps.getD 41 0)) (readSensor 9 (g.temps.getD 0 (s.gov.temps.getD 0 0)) s1)

/-- Serving or in Fettle mode, each with its own effect. -/
def servingOr (f g : State → State) (s : State) : Result :=
  .next (if s.boot.mode = .service then fenced f s else if s.boot.mode = .fettle then fenced g s else s)

/-! ### Decisions (15 R454, R455) -/

/-- A subsystem's weight in a division: its mean of the window, or its own cap where it was throttled. -/
def weightIn (s : State) (m : List Nat) (i : Nat) : Nat :=
  if s.gov.throttled.getD i false then subCap s i else m.getD (match i with
    | 0 => 1
    | 1 => 2
    | _ => 4) 0

/-- The share of `total` that subsystem `i` has; where no subsystem drew power the share is not stated (a free value, log 7). -/
def shareOf (s : State) (m : List Nat) (total i : Nat) : Nat :=
  let w := weightIn s m 0 + weightIn s m 1 + weightIn s m 2
  if w = 0 then Config.freeNat (draw s + i) % (total + 1) else total * weightIn s m i / w

/-- The excess of the hub and of the module over their design limits. -/
def excessOf (m : List Nat) : Nat × Nat := (m.getD 3 0 - 90000, m.getD 5 0 - 40000)

/-- The sensors whose throttle response lowers a subsystem's allocation (15 Table 141). -/
def throttleSensors : Nat → List Nat
  | 0 => List.range' 9 17
  | 1 => List.range' 26 16
  | _ => []

/-- The allocation of a subsystem for the next window (15 R454). Under a thermal throttle it falls by 10% a window while a sensor is at
or above its throttle point, and does not rise until the response is withdrawn (15 R460, Table 141). -/
def allocOf (s : State) (m : List Nat) (i : Nat) : Nat :=
  let full := subCap s i
  let base := if deviceCap s = 600000 then full
    else min full (shareOf s m (deviceCap s - (m.getD 3 0 + m.getD 5 0)) i)
  let x := excessOf m
  let a := base - shareOf s m (x.1 + x.2) i
  let last := (match s.gov.alloc.getD i 0 with
    | 0 => full
    | v => v)
  if (throttleSensors i).any (stillHot s) then min a (last * 9 / 10)
  else if (throttleSensors i).any (fun k => inForce s k 1) then min a last
  else a

/-- The smallest stretch that brings power `p`, drawn at stretch `s0`, within an allocation; 128 where none does (15 R446, R455). -/
def stretchFor (p s0 alloc : Nat) : Nat :=
  ((List.range 129).find? (fun x => decide (p * (64 + s0) ≤ alloc * (64 + x)))).getD 128

/-- The engines' means in order: background tiles wait, s rises (and falls by at most 16), islands stop one by one on every core
(log 31). -/
def engineMeans (p alloc : Nat) (s : State) : State :=
  let g := s.gov
  if alloc < p ∧ g.bgTiles = false ∧ g.stretch = 0 then { s with gov := { g with bgTiles := true } }
  else
    let want := stretchFor p g.stretch alloc
    let st := max want (g.stretch - 16)
    let stopped := if want = 128 ∧ g.stretch = 128 ∧ alloc < p then g.stoppedPerCore + 1 else g.stoppedPerCore - 1
    applyStops { s with gov := { g with stretch := st, stoppedPerCore := min 8 stopped,
                                        bgTiles := g.bgTiles && decide (0 < st ∨ alloc < p) } }

/-- Stack DRAM: patrol and anneal reads pause, then issue gaps of a length the spec does not give (a free value, log 7). -/
def dramMeans (p alloc : Nat) (s : State) : State :=
  if alloc < p then
    if s.gov.bgDram then drawn 1 { s with gov := { s.gov with dramGaps := 1 + Config.freeNat (draw s) } }
    else { s with gov := { s.gov with bgDram := true } }
  else { s with gov := { s.gov with bgDram := false, dramGaps := 0 } }

/-- NAND: background work pauses, then the die limits fall in proportion (15 Table 140). -/
def nandMeans (p alloc : Nat) (s : State) : State :=
  if alloc < p then
    if s.gov.bgFlash then { s with gov := { s.gov with dieLimit := 512 * alloc / p, progLimit := 256 * alloc / p } }
    else { s with gov := { s.gov with bgFlash := true } }
  else { s with gov := { s.gov with bgFlash := false, dieLimit := 512, progLimit := 256 } }

/-- The programming-die limit of each flash island: halved per window under its throttle, down to 8; none at its critical point. -/
def islandLimits (s : State) : List Nat :=
  (List.range 8).map (fun n =>
    if inForce s (42 + n) 2 then 0
    else if stillHot s (42 + n) then max 8 (s.gov.islandProg.getD n 32 / 2)
    else if inForce s (42 + n) 1 then max 8 (s.gov.islandProg.getD n 32) else 32)

/-- Which subsystems are throttled, and whether a means beyond "First" is in force. -/
def throttles (g : Gov) : List Bool :=
  [g.bgTiles || decide (0 < g.stretch) || decide (0 < g.stoppedPerCore), g.bgDram || decide (0 < g.dramGaps),
   g.bgFlash || decide (g.dieLimit < 512)]

/-- A means beyond "First" is in force (15 R455). -/
def beyondFirst (g : Gov) : Bool := decide (0 < g.stretch ∨ 0 < g.stoppedPerCore ∨ 0 < g.dramGaps ∨ g.dieLimit < 512)

/-- The decision proper. -/
def decideMeans (m : List Nat) (s : State) : State :=
  let a := (List.range 3).map (allocOf s m)
  let x := excessOf m
  let s0 := if x.1 = 0 then s else raise 0x0030 0 2 x.1 0 s
  let s1 := if x.2 = 0 then s0 else raise 0x0030 0 4 x.2 0 s0
  let s2 := engineMeans (m.getD 1 0) (a.getD 0 0) (drawn 3 { s1 with gov := { s1.gov with alloc := a } })
  let s3 := nandMeans (m.getD 4 0) (a.getD 2 0) (dramMeans (m.getD 2 0) (a.getD 1 0) s2)
  let s4 := { s3 with gov := { s3.gov with throttled := throttles s3.gov, islandProg := islandLimits s3 } }
  let s5 := if beyondFirst s4.gov then bump 0x80 3 1 s4 else s4
  if (throttles s5.gov).any id = s.gov.throttled.any id then s5
  else platform 63 (if (throttles s5.gov).any id then 1 else 0) s5

/-- A quench ends: the event, programs resume, and s falls to 112 (15 R458). -/
def endQuench (s : State) : State :=
  platform 63 1 (raise 0x0031 1 1 s.gov.cause 0
    { s with gov := { s.gov with quench := false, progStopped := false, stretch := 112, throttled := [true, false, false] } })

/-- The means of a window that has ended, with the window's sums cleared. -/
def windowMeans (s : State) : State :=
  if s.gov.count < 20 then s
  else { s with gov := { s.gov with
    means := (List.range 6).map (fun i => s.gov.sums.getD i 0 / s.gov.count), count := 0, sums := [0, 0, 0, 0, 0, 0], tripped := false } }

/-- GOVERNOR_DECISION: at the end of a window of 20 samples. A trip in the window leaves the decision unmade; a quench ends where the
window averaged at most QUENCH_EXIT × DEVICE_CAP and no critical response holds it (15 R453, R458, R459). -/
def decision (s : State) : State :=
  if s.gov.count < 20 then s
  else
    let s1 := windowMeans s
    let m := s1.gov.means
    if s.gov.tripped then s1
    else if s.gov.quench then
      if m.getD 0 0 * 100 ≤ polValue s 0x44 90 * deviceCap s ∧ pkgCritical s = false then endQuench s1 else s1
    else decideMeans m s1

/-! ### The bank in service (17 R489, R490, 13 R402) -/

/-- The bank has failed in service: the flush runs with input power present, and Fettle mode follows with HOLDUP. The flush is not
observable apart from what it leaves (log 1). -/
def holdupFails (s : State) : State := enterFettle 7 0 (fenced flushAll s)

/-- HOLDUP_CELL_MEASUREMENT: the next cell in rotation is measured, a failing cell is isolated, a failed bank ends service. -/
def cellMeasured (cap res : Nat) (s : State) : State :=
  if s.gov.powerLost then s
  else
    let i := s.gov.nextCell
    let old := s.gov.cells.getD i {}
    let c := measured (cap, res)
    let s1 := { s with gov := { s.gov with cells := s.gov.cells.set i { c with isolated := c.isolated || old.isolated },
                                           nextCell := (i + 1) % 9 } }
    let s2 := if bankState s1 = bankState s then s1 else platform 64 (bankState s1) s1
    if bankFailed s2 then holdupFails s2 else s2

/-! ### The rows -/

/-- GOVERNOR_SAMPLE. -/
def execGovernorSample (g : GovSample) (s : State) : Result := servingOr (sample g) (quietSample g) s

/-- GOVERNOR_DECISION. -/
def execGovernorDecision (s : State) : Result := servingOr decision windowMeans s

/-- QUENCH_OVERCURRENT. -/
def execQuenchOvercurrent (ma : Nat) (s : State) : Result := whenServing (overcurrent ma) s

/-- QUENCH_EXCURSION. -/
def execQuenchExcursion (s : State) : Result := whenServing excursion s

/-- TIMEBASE_FULL_VALUE. -/
def execTimebaseFullValue (s : State) : Result := .next (fullValue s)

/-- HOLDUP_CELL_MEASUREMENT. -/
def execHoldupCellMeasurement (cap res : Nat) (s : State) : Result := .next (if s.boot.mode = .service then cellMeasured cap res s else s)

end Sys2Proof.Machine
end

