-- ==== Sys2Proof/Machine/Mailbox.lean ====
section
/-! DEFINITION. The primary mailbox (02 R55, 13 R399, R401, 14 R423 to R443, 16 R471, R479) and DOE (02 R48, 14 R443). Layouts that
CXL 3.1 and PCIe fix are PRESUMED (log 13). -/
namespace Sys2Proof.Machine

/-! ### Service -/

/-- The mailbox responds: ready, and not after watchdog expiry (02 R49, 13 R405). -/
def mailboxUp (s : State) : Bool := s.boot.mailboxReady && alive s

/-- A mailbox command, where the mailbox responds (log 2). -/
def onMailbox (f : State → State) (s : State) : Result := .next (if mailboxUp s then fenced f s else s)

/-- A mailbox command that Fettle mode does not offer (13 Table 121). -/
def notFettle (f : State → State) (s : State) : State := if s.boot.mode = .fettle then answer .unsupported [] s else f s

/-- The opcodes of 02 Table 18, in its order. -/
def mailboxOpcodes : List Nat :=
  [0x0100, 0x0101, 0x0102, 0x0103, 0x0300, 0x0301, 0x0400, 0x0401, 0x4000, 0x4400, 0xC001, 0xC002, 0xC010, 0xC011, 0xC012,
   0xC020, 0xC030, 0xC040, 0xC050]

/-- The opcodes that Fettle mode leaves out: Sanitize and COUNTERS_GLOBAL (13 Table 121). -/
def serviceOnly : List Nat := [0x4400, 0xC040]

/-- Whether a mailbox opcode is served in the present mode. -/
def opcodeServed (s : State) (op : Nat) : Bool :=
  decide (op ∈ mailboxOpcodes) && !(decide (s.boot.mode = .fettle) && decide (op ∈ serviceOnly))

/-! ### Events (16 R479) -/

/-- The records that one answer holds: a 64 KiB payload less its 32-byte header. -/
def recordsPerAnswer : Nat := 511

/-- Get Event Records. -/
def getRecords (log : Nat) (s : State) : State :=
  if 4 ≤ log then answer .invalidInput [] s
  else
    let q := s.tele.logs.getD log []
    let k := min q.length recordsPerAnswer
    let lostN := s.tele.overflow.getD log 0
    let ts := s.tele.overTimes.getD log (0, 0)
    answer .success (bytesOf 1 ((decide (0 < lostN)).toNat + 2 * (decide (k < q.length)).toNat) ++ [0] ++ bytesOf 2 (min lostN 65535)
      ++ bytesOf 8 ts.1.toNat ++ bytesOf 8 ts.2.toNat ++ bytesOf 2 k ++ bytesOf 10 0 ++ (q.take k).flatMap recordBytes) s

/-- A log without its first `n` records, its overflow report cleared. -/
def dropRecords (log n : Nat) (s : State) : State :=
  { s with tele := { s.tele with logs := s.tele.logs.set log ((s.tele.logs.getD log []).drop n),
                                 overflow := s.tele.overflow.set log 0, overTimes := s.tele.overTimes.set log (0, 0) } }

/-- Clear Event Records: all of a log that has overflowed, or its oldest records by their handles in order. -/
def clearRecords (log : Nat) (all : Bool) (handles : List (BitVec 16)) (s : State) : State :=
  if 4 ≤ log then answer .invalidInput [] s
  else
    let q := s.tele.logs.getD log []
    if all then
      if s.tele.overflow.getD log 0 = 0 then answer .invalidInput [] s else answer .success [] (dropRecords log q.length s)
    else if (q.take handles.length).map (·.handle) = handles then answer .success [] (dropRecords log handles.length s)
    else answer .invalidHandle [] s

/-- Get Event Interrupt Policy: message number 0 for every log. -/
def getPolicy (s : State) : State := answer .success (s.tele.intPolicy.map (fun b => b &&& 3)) s

/-- Set Event Interrupt Policy: No Interrupts or MSI/MSI-X. -/
def setPolicy (settings : List Byte) (s : State) : State :=
  if settings.length ≠ 4 then answer .invalidPayloadLength [] s
  else if settings.all (fun b => decide (b.toNat % 4 ≤ 1)) then
    answer .success [] { s with tele := { s.tele with intPolicy := settings.map (fun b => b &&& 3) } }
  else answer .invalidInput [] s

/-! ### The timebase (15 R448, R450, 11 R347) -/

/-- Islands that hold a replica: all released but the always-on. -/
def replicas (s : State) : List Island := s.isl.released.filter (fun i => decide (i ≠ .alwaysOn))

/-- Running intervals of the counter sets go on from the new value. -/
def rebase (v : BitVec 64) (p : Trs) : Trs := { p with runSince := p.runSince.map (fun _ => v) }

/-- Minutes by which a set moves the media clock on: none where the checkpoints hold no host-set value (11 R347). -/
def mediaStep (v : BitVec 64) (s : State) : Nat :=
  match s.boot.mediaRef with
  | some t0 => (v.toNat - t0.toNat) / 60000000000
  | none => 0

/-- The timebase is set: a held low half goes, the replicas are approximate until the next full value. -/
def setTimebase (v : BitVec 64) (s : State) : State :=
  { s with
    trs := SMap.mapVals {} (fun _ (p : Trs) => rebase v (settleElapsed (now s) p)) s.trs,
    isl := { s.isl with approx := replicas s },
    fl := { s.fl with mediaMinutes := s.fl.mediaMinutes + mediaStep v s },
    boot := { s.boot with mediaRef := none },
    aon := { s.aon with timebase := v, tbHeldLow := none, tbFromHost := true } }

/-! ### Logs and identity (02 R55) -/

/-- The identifier of the Command Effects Log (CXL 3.1; PRESUMED, log 13). -/
def celUuid : List Byte :=
  [0x0D, 0xA9, 0xC0, 0xB5, 0xBF, 0x41, 0x4B, 0x78, 0x8F, 0x79, 0x96, 0xB1, 0x62, 0x3B, 0x3F, 0x17]

/-- The Command Effects Log: an opcode and its effects for each row of Table 18. -/
def celBytes : List Byte := mailboxOpcodes.flatMap (fun op => bytesOf 2 op ++ bytesOf 2 (Config.commandEffect op).toNat)

/-- Get Supported Logs. -/
def supportedLogs : List Byte := bytesOf 2 1 ++ bytesOf 6 0 ++ celUuid ++ bytesOf 4 (4 * mailboxOpcodes.length)

/-- Get Log, of the Command Effects Log only. -/
def getLog (uuid : List Byte) (offset len : Nat) (s : State) : State :=
  if uuid = celUuid ∧ offset + len ≤ 4 * mailboxOpcodes.length then answer .success (sliceBytes celBytes offset len) s
  else answer .invalidInput [] s

/-- Identify Memory Device: the tundish as volatile capacity, no persistent capacity, logs of 1,024 records. -/
def identity : List Byte :=
  sliceBytes Config.fwRevision 0 16 ++ bytesOf 8 954 ++ bytesOf 8 954 ++ bytesOf 8 0 ++ bytesOf 8 0
  ++ bytesOf 2 1024 ++ bytesOf 2 1024 ++ bytesOf 2 1024 ++ bytesOf 2 1024 ++ bytesOf 4 0 ++ bytesOf 3 0 ++ bytesOf 2 0
  ++ [0, 0] ++ bytesOf 2 0

/-! ### Start log and counters (13 R399, 16 R471) -/

/-- The block whose word is consumed and carries a SEQ. -/
def consumedOf (s : State) (q : Nat) : Option Nat :=
  (List.range 256).find? (fun b => norListed s (norAddr s (logAddr b)) 16 && !bitOf (attemptOf s b) 32
    && decide (attemptOf s b % 2 ^ 32 = q))

/-- The SEQ of the start `n` starts earlier. -/
def seqBack (s : State) (n : Nat) : Nat := (s.boot.startSeq.toNat + seqMod - n) % seqMod

/-- START_LOG_READ. -/
def startLogRead (p : List Byte) (s : State) : State :=
  if p.length ≠ 4 then answer .invalidPayloadLength [] s
  else if natOf (p.drop 1) ≠ 0 then answer .invalidInput [] s
  else match (if s.boot.logBlock.isSome then consumedOf s (seqBack s (numAt p 0 1)) else none) with
    | none => answer .invalidInput [] s
    | some b => answer .success (norRead s (logAddr b) 4096) s

/-- COUNTERS_GLOBAL. -/
def readGlobals (p : List Byte) (s : State) : State :=
  if p.length ≠ 4 then answer .invalidPayloadLength [] s
  else match globalCounters s (numAt p 0 2) (numAt p 2 2) with
    | none => answer .invalidInput [] s
    | some b => answer .success b s

/-- ATTEST. -/
def attestOver (p : List Byte) (s : State) : State :=
  if p.length ≠ 32 then answer .invalidPayloadLength [] s
  else
    let r := report p s
    answer .success r.2 r.1

/-! ### DOE (02 R36, R48, 14 R443) -/

/-- Configuration requests are served: S1 has ended and no reset holds (13 Table 122). -/
def configUp (s : State) : Bool := portUp s && decide (2 ≤ s.boot.stage)

/-- A DOE object: its header and its data, in whole words. -/
def doeObject (vid type : Nat) (body : List Byte) : List Byte :=
  bytesOf 2 vid ++ bytesOf 1 type ++ bytesOf 1 0 ++ bytesOf 4 (2 + ceilDiv body.length 4) ++ body

/-- The data object types of Table 13: Discovery, CDAT table access, Imiaran attestation. -/
def doeTypes : List (Nat × Nat) := [(0x0001, 0), (0x1E98, 2), (Config.imiaranVid.toNat, 1)]

/-- DOE Discovery: the type at an index and the next index. -/
def discovery (index : Nat) : List Byte :=
  let e := doeTypes.getD index (0xFFFF, 0)
  doeObject 0x0001 0 (bytesOf 2 e.1 ++ bytesOf 1 e.2 ++ bytesOf 1 (if index + 1 < doeTypes.length then index + 1 else 0))

/-- A DSLBIS: data type and entry (02 Table 16). -/
def dslbis (kind entry : Nat) : List Byte :=
  bytesOf 1 1 ++ [0] ++ bytesOf 2 24 ++ [0] ++ [0] ++ bytesOf 1 kind ++ [0] ++ bytesOf 8 1000 ++ bytesOf 2 entry ++ bytesOf 6 0

/-- The structures of 02 Table 16: DSMAS, DSEMTS, DSLBIS for read and write latency and read and write bandwidth. -/
def cdatEntries : List (List Byte) :=
  [bytesOf 1 0 ++ [0] ++ bytesOf 2 24 ++ [0, 0] ++ bytesOf 2 0 ++ bytesOf 8 0 ++ bytesOf 8 tundishSize,
   bytesOf 1 4 ++ [0] ++ bytesOf 2 24 ++ [0, 2] ++ bytesOf 2 0 ++ bytesOf 8 0 ++ bytesOf 8 tundishSize,
   dslbis 1 350, dslbis 2 300, dslbis 4 184, dslbis 5 184]

/-- The CDAT header, with the check byte that makes the table's bytes sum to zero. -/
def cdatHeader : List Byte :=
  let body := cdatEntries.flatMap id
  let h := bytesOf 4 (16 + body.length) ++ [1]
  let t := sumOf ((h ++ body).map (·.toNat)) % 256
  h ++ bytesOf 1 ((256 - t) % 256) ++ bytesOf 6 0 ++ bytesOf 4 0

/-- The CDAT table: entry 0 is its header. -/
def cdatTable : List (List Byte) := cdatHeader :: cdatEntries

/-- CDAT table access: the entry and the handle of the next, 0xFFFF after the last. -/
def cdatAnswer (entry : Nat) : List Byte :=
  doeObject 0x1E98 2 ([0, 0] ++ bytesOf 2 (if entry + 1 < cdatTable.length then entry + 1 else 0xFFFF) ++ cdatTable.getD entry [])

/-- A DOE attestation request: 1 in bytes 0 to 3, then the nonce. -/
def doeAttest (p : List Byte) (s : State) : State :=
  if p.length = 36 ∧ numAt p 0 4 = 1 ∧ attestServed s = true then
    let r := report (p.drop 4) s
    emit (.doe (doeObject Config.imiaranVid.toNat 1 r.2)) r.1
  else s

/-! ### The rows -/

/-- DOE_DISCOVERY. -/
def execDoeDiscovery (index : Nat) (s : State) : Result :=
  .next (if configUp s then emit (.doe (discovery index)) s else s)

/-- CDAT_TABLE_ACCESS: a handle beyond the table gets no answer. -/
def execCdatTableAccess (entry : Nat) (s : State) : Result :=
  .next (if configUp s && decide (entry < 7) then emit (.doe (cdatAnswer entry)) s else s)

/-- DOE_ATTESTATION. -/
def execDoeAttestation (payload : List Byte) (s : State) : Result := .next (if configUp s then fenced (doeAttest payload) s else s)

/-- GET_EVENT_RECORDS. -/
def execGetEventRecords (log : Nat) (s : State) : Result := onMailbox (getRecords log) s

/-- CLEAR_EVENT_RECORDS. -/
def execClearEventRecords (log : Nat) (all : Bool) (handles : List (BitVec 16)) (s : State) : Result :=
  onMailbox (clearRecords log all handles) s

/-- GET_EVENT_INTERRUPT_POLICY. -/
def execGetEventInterruptPolicy (s : State) : Result := onMailbox getPolicy s

/-- SET_EVENT_INTERRUPT_POLICY. -/
def execSetEventInterruptPolicy (settings : List Byte) (s : State) : Result := onMailbox (setPolicy settings) s

/-- GET_TIMESTAMP. -/
def execGetTimestamp (s : State) : Result := onMailbox (fun x => answer .success (bytesOf 8 (now x).toNat) x) s

/-- SET_TIMESTAMP. -/
def execSetTimestamp (value : BitVec 64) (s : State) : Result :=
  .next (if mailboxUp s then answer .success [] (setTimebase value s) else s)

/-- GET_SUPPORTED_LOGS. -/
def execGetSupportedLogs (s : State) : Result := onMailbox (answer .success supportedLogs) s

/-- GET_LOG. -/
def execGetLog (uuid : List Byte) (offset len : Nat) (s : State) : Result := onMailbox (getLog uuid offset len) s

/-- IDENTIFY_MEMORY_DEVICE. -/
def execIdentifyMemoryDevice (s : State) : Result := onMailbox (answer .success identity) s

/-- SANITIZE. -/
def execSanitize (s : State) : Result := onMailbox sanitizeStart s

/-- SANITIZE_DRAINED. -/
def execSanitizeDrained (s : State) : Result := whenServing sanitizeDrained s

/-- CLAIM_OWNER. -/
def execClaimOwner (payload : List Byte) (s : State) : Result := onMailbox (claimOwner payload) s

/-- RELEASE_OWNER. -/
def execReleaseOwner (payload : List Byte) (s : State) : Result := onMailbox (releaseOwner payload) s

/-- PATTERN_STAGE_BEGIN. -/
def execPatternStageBegin (payload : List Byte) (s : State) : Result := onMailbox (stageBegin payload) s

/-- PATTERN_STAGE_DATA. -/
def execPatternStageData (payload : List Byte) (dma : DmaOutcome) (s : State) : Result := onMailbox (stageData payload dma) s

/-- PATTERN_STAGE_COMMIT. -/
def execPatternStageCommit (payload : List Byte) (s : State) : Result := onMailbox (stageCommit payload) s

/-- ATTEST. -/
def execAttest (payload : List Byte) (s : State) : Result := onMailbox (attestOver payload) s

/-- START_LOG_READ. -/
def execStartLogRead (payload : List Byte) (s : State) : Result := onMailbox (startLogRead payload) s

/-- COUNTERS_GLOBAL. -/
def execCountersGlobal (payload : List Byte) (s : State) : Result := onMailbox (notFettle (readGlobals payload)) s

/-- PATTERN_WINDOW: BAR4 is enabled (02 R41). -/
def execPatternWindow (s : State) : Result :=
  onMailbox (fun x => answer .success [] { x with nor := { x.nor with enabled := true } }) s

/-- UNSUPPORTED_MAILBOX_OPCODE: an opcode outside Table 18, or outside the Fettle-mode set in Fettle mode. -/
def execUnsupportedMailboxOpcode (opcode : BitVec 16) (payload : List Byte) (s : State) : Result :=
  onMailbox (fun x => if opcodeServed x opcode.toNat || decide (65536 < payload.length) then x else answer .unsupported [] x) s

end Sys2Proof.Machine
end

