-- ==== Sys2Proof/Machine/ConfigSpace.lean ====
section
/-! DEFINITION. Configuration space and the CXL component and device registers (02 R36 to R39, R43, R46, R49, R52, R57). The values are
the spec's; offsets, capability headers and access rules are those of PCIe 6.x and CXL 3.1, and where a capability stands is chosen
(PRESUMED, log 13). Registers are 32-bit words by offset; a word that no list holds reads zero in configuration space. -/
namespace Sys2Proof.Machine

/-! ### Configuration space -/

/-- The type bits of a 64-bit non-prefetchable memory BAR with its address (02 Table 14). -/
def barWords (off : Nat) (b : Option (BitVec 64)) : List (Nat × Nat) :=
  [(off, (b.getD 0).toNat % 2 ^ 32 + 4), (off + 4, (b.getD 0).toNat / 2 ^ 32)]

/-- The PCIe code of a rate: Current Link Speed. -/
def speedCode : Rate → Nat
  | .gt2_5 => 1
  | .gt5 => 2
  | .gt8 => 3
  | .gt16 => 4
  | .gt32 => 5
  | .gt64 | .er => 6

/-- The header, power management, MSI-X and PCI Express capabilities: identifiers (00 R3), BARs (02 Table 14), D0 and D3hot, 2,048 vectors
with table and PBA in BAR0 (02 Table 15), payload of 512 B, Completion Timeout ranges A and B with Disable (02 R52). -/
def headWords (s : State) : List (Nat × Nat) :=
  [(0x00, Config.imiaranVid.toNat + Config.lymDid.toNat * 2 ^ 16),
   (0x04, s.link.cfg.memEnable.toNat * 2 + s.link.cfg.busMaster.toNat * 4 + 0x100000),
   (0x08, 0x05021000)]
  ++ barWords 0x10 s.link.bar0 ++ barWords 0x18 s.link.bar2 ++ barWords 0x20 s.link.bar4
  ++ [(0x34, 0x40),
      (0x40, 0x00035001), (0x44, 8 + if s.link.cfg.d3hot then 3 else 0),
      (0x50, 0x11 + 0x70 * 2 ^ 8 + (2047 + s.link.cfg.msixFnMask.toNat * 2 ^ 14 + s.link.cfg.msixEnable.toNat * 2 ^ 15) * 2 ^ 16),
      (0x54, 0x40000), (0x58, 0x48000),
      (0x70, 0x00020010), (0x74, 2),
      (0x80, (speedCode s.link.rate + s.link.width * 16) * 2 ^ 16),
      (0x94, 0x13), (0x98, s.link.cfg.devCtl2.toNat)]

/-- AER: Uncorrectable and Correctable Error Status, with the default severity of Uncorrectable Internal Error (13 R405). -/
def aerWords (s : State) : List (Nat × Nat) :=
  [(0x100, 0x15020001), (0x104, s.link.cfg.aerUncorr.toNat), (0x10C, 0x00462030), (0x110, s.link.cfg.aerCorr.toNat), (0x150, 0x2001002E)]

/-- The CXL DVSEC of the device: io and mem, one range of 954 units whose flags and timeout code are those of 02 R49; range 2 is absent
(02 R43). -/
def cxlDvsecWords (s : State) : List (Nat × Nat) :=
  [(0x200, 0x26010023), (0x204, 0x03C21E98), (0x208, (2 + 4 + 16) * 2 ^ 16),
   (0x218, tundishSize / 2 ^ 32),
   (0x21C, tundishSize % 2 ^ 32 / 2 ^ 28 * 2 ^ 28 + 4 * 2 ^ 13 + s.boot.memActive.toNat * 2 + s.boot.memInfoValid.toNat),
   (0x220, 0), (0x224, 0), (0x228, 0), (0x22C, 0)]

/-- The Register Locator DVSEC: component registers (01h) at BAR0 + 0x1_0000, device registers (02h) at BAR0 + 0x2_0000 (02 R39). -/
def locatorWords : List (Nat × Nat) :=
  [(0x260, 0x30010023), (0x264, 0x01C01E98), (0x268, 0x0008), (0x26C, 0x00010100), (0x270, 0), (0x274, 0x00020200), (0x278, 0)]

/-- The word at an offset in a register list. -/
def regWord (ws : List (Nat × Nat)) (a : Nat) : Option Nat := (ws.find? (fun e => e.1 == a)).map (·.2)

/-- A byte of configuration space; the ER DVSEC stands at 0x300. -/
def cfgByte (s : State) (a : Nat) : Byte :=
  if 0x300 ≤ a ∧ a < 0x324 then (erDvsec s).getD (a - 0x300) 0
  else
    let ws := if a < 0x100 then headWords s else if a < 0x200 then aerWords s else if a < 0x260 then cxlDvsecWords s else locatorWords
    BitVec.ofNat 8 ((regWord ws (a / 4 * 4)).getD 0 / 2 ^ (8 * (a % 4)))

/-- A base address: bits below the BAR's size read zero; a write of one word sets that half. -/
def barValue (size : Nat) (high : Bool) (mask v : Nat) (old : Option (BitVec 64)) : Option (BitVec 64) :=
  let o := (old.getD 0).toNat
  let lo := o % 2 ^ 32
  let hi := o / 2 ^ 32
  let put (w : Nat) : Nat := (w &&& (2 ^ 32 - 1 - mask)) + v
  let n := if high then put hi * 2 ^ 32 + lo else hi * 2 ^ 32 + put lo
  some (BitVec.ofNat 64 (n / size * size))

/-- Bit `i` of a register after a write of `v` to the bits of `mask`. -/
def wrBit (mask v i : Nat) (old : Bool) : Bool := if bitOf mask i then bitOf v i else old

/-- The messages that PBA bits hold go once the function and their vectors may send (02 R54, R37). -/
def flushVectors (s : State) : State :=
  if msixOn s then
    (s.link.vec.map (·.1)).foldl (fun s' v =>
      if (vecOf s' v).pba && !(msixEntry s' v).mask then emit (.msix v) (setVec v { vecOf s' v with pba := false } s') else s') s
  else s

/-- A write of the bits of `mask` in the configuration word at `a`, `v` holding zeros elsewhere. A bit that returns power state D0 or
enables MSI-X lets held messages go. -/
def cfgWord (a mask v : Nat) (s : State) : State :=
  let l := s.link
  let c := l.cfg
  if a = 0x04 then flushVectors { s with link := { l with cfg := { c with
    memEnable := wrBit mask v 1 c.memEnable, busMaster := wrBit mask v 2 c.busMaster } } }
  else if a = 0x10 ∨ a = 0x14 then { s with link := { l with bar0 := barValue 0x80000 (a == 0x14) mask v l.bar0 } }
  else if a = 0x18 ∨ a = 0x1C then { s with link := { l with bar2 := barValue 0x1000000 (a == 0x1C) mask v l.bar2 } }
  else if a = 0x20 ∨ a = 0x24 then { s with link := { l with bar4 := barValue 0x10000000 (a == 0x24) mask v l.bar4 } }
  else if a = 0x44 then
    let st := (wrBit mask v 0 c.d3hot).toNat + (wrBit mask v 1 c.d3hot).toNat * 2
    flushVectors { s with link := { l with cfg := { c with d3hot := if st = 3 then true else if st = 0 then false else c.d3hot } } }
  else if a = 0x50 then flushVectors { s with link := { l with cfg := { c with
    msixFnMask := wrBit mask v 30 c.msixFnMask, msixEnable := wrBit mask v 31 c.msixEnable } } }
  else if a = 0x98 then { s with link := { l with cfg := { c with
    devCtl2 := BitVec.ofNat 16 ((c.devCtl2.toNat &&& (2 ^ 16 - 1 - mask % 2 ^ 16) ||| v % 2 ^ 16) &&& 0x1F) } } }
  else if a = 0x104 then { s with link := { l with cfg := { c with aerUncorr := c.aerUncorr &&& ~~~(BitVec.ofNat 32 v) } } }
  else if a = 0x110 then { s with link := { l with cfg := { c with aerCorr := c.aerCorr &&& ~~~(BitVec.ofNat 32 v) } } }
  else s

/-- A write in the ER DVSEC: ER_CTL, or ER_FAILED cleared by writing 1 (02 Table 19). -/
def dvsecWrite (off v : Nat) (s : State) : State :=
  if off = 0x10 then erCtlWrite (BitVec.ofNat 32 v) s
  else if off = 0x14 ∧ bitOf v 2 = true then { s with link := { s.link with erStatus := s.link.erStatus &&& 0xFFFFFFFB } }
  else s

/-- A configuration write of 1 to 8 bytes within its words; `target` is the ID that the request names, which the device takes as its own
requester ID. -/
def configWrite (off width v : Nat) (target : BitVec 16) (s : State) : State :=
  let s0 := { s with link := { s.link with cfg := { s.link.cfg with devId := target } } }
  if width = 8 ∧ off % 4 = 0 then cfgWord (off + 4) (2 ^ 32 - 1) (v / 2 ^ 32 % 2 ^ 32) (cfgWord off (2 ^ 32 - 1) (v % 2 ^ 32) s0)
  else if off % 4 + width ≤ 4 then
    if 0x300 ≤ off ∧ off < 0x324 then dvsecWrite (off - 0x300) v s0
    else
      let sh := 2 ^ (8 * (off % 4))
      cfgWord (off / 4 * 4) ((2 ^ (8 * width) - 1) * sh) (v % 2 ^ (8 * width) * sh) s0
  else s0

/-! ### Component registers (02 Table 15: BAR0 + 0x1_0000) -/

/-- The registers of one HDM decoder whose values the spec gives: size, committed, error, 1-way, no DPA skip (02 R43). The host's base
address is not among the operands of a commit. -/
def decoderWords (at' : Nat) (size : Option Nat) (err bi : Bool) : List (Nat × Nat) :=
  [(at' + 8, (size.getD 0) * 2 ^ 28 % 2 ^ 32), (at' + 12, (size.getD 0) * 2 ^ 28 / 2 ^ 32),
   (at' + 16, size.isSome.toNat * 0x600 + err.toNat * 0x800 + (size.isSome && bi).toNat * 0x2000), (at' + 20, 0), (at' + 24, 0)]

/-- The component registers whose values the spec gives: capability headers, RAS status, two decoders, BI Enable (02 Table 15, R46). -/
def componentWords (s : State) : List (Nat × Nat) :=
  [(0x11000, 0x03110001), (0x11004, 0x10020002), (0x11008, 0x20010005), (0x1100C, 0x3001000C), (0x11100, 0), (0x1110C, 0), (0x11200, 1)]
  ++ decoderWords 0x11210 s.link.dec0 s.link.commitErr0 s.link.biUsed
  ++ decoderWords 0x11230 s.link.dec1 s.link.commitErr1 s.link.biUsed
  ++ [(0x11300, 0), (0x11304, s.link.biEnable.toNat * 2)]

/-! ### Device registers (02 Table 15: BAR0 + 0x2_0000) -/

/-- Media Status: ready from S5, disabled in Fettle mode, not ready before (02 R49). -/
def mediaStatus (s : State) : Nat := if s.boot.mode = .fettle then 3 else if s.boot.mediaReady then 1 else 0

/-- Event Status: a bit for each log that holds a record. -/
def eventStatus (s : State) : Nat := sumOf ((List.range 4).map (fun i => (!(s.tele.logs.getD i []).isEmpty).toNat * 2 ^ i))

/-- The device registers whose values the spec gives: the capabilities array, event status, Media Status and Mailbox Interface Ready, the
mailbox's payload size of 64 KiB (02 Tables 13, 15, R49). -/
def deviceWords (s : State) : List (Nat × Nat) :=
  [(0x20000, 0x01010000), (0x20004, 3),
   (0x20010, 0x00010001), (0x20014, 0x80), (0x20018, 8),
   (0x20020, 0x00010002), (0x20024, 0x100), (0x20028, 0x10020),
   (0x20030, 0x00014000), (0x20034, 0x90), (0x20038, 8),
   (0x20080, eventStatus s), (0x20084, 0),
   (0x20090, mediaStatus s * 4 + s.boot.mailboxReady.toNat * 16), (0x20094, 0),
   (0x20100, 16)]

/-- A byte of the component or device registers; a word that the spec gives no value is free. -/
def cxlByte (s : State) (a : Nat) : Byte :=
  match regWord (if a < 0x20000 then componentWords s else deviceWords s) (a / 4 * 4) with
  | some w => BitVec.ofNat 8 (w / 2 ^ (8 * (a % 4)))
  | none => Config.freeByte (draw s) a

end Sys2Proof.Machine
end

