-- ==== Sys2Proof/WellFormed.lean ====
section
/-! DEFINITION. Well-formed commands: the addresses they name exist and the units they name are the device's. -/
namespace Sys2Proof

/-- The bytes of the tundish aperture (02 R43). -/
def tundishBytes : Nat := 954 * 2 ^ 28

/-- The bytes of each window a register write names, 0 for none: BAR0, BAR2, BAR4 (02 Table 14), 7 configuration space, 8 the ER
DVSEC (02 R57). -/
def windowBytes : Nat → Nat
  | 0 => 0x80000
  | 2 => 0x1000000
  | 4 => 0x10000000
  | 7 => 0x1000
  | 8 => 0x24
  | _ => 0

/-- The bytes of each window a register read names: BAR0, BAR4, 7 configuration space, 8 the ER DVSEC; a read of BAR2 is REFUSED_BAR2_ACCESS. -/
def readBytes : Nat → Nat
  | 0 => 0x80000
  | 4 => 0x10000000
  | 7 => 0x1000
  | 8 => 0x24
  | _ => 0

/-- An island of 15 Table 138. -/
def Island.ok : Island → Bool
  | .alwaysOn | .hub | .link => true
  | .flash n => decide (n < 8)
  | .core n => decide (n < 16)
  | .engine c e => decide (c < 16 ∧ e < 10)

/-- A place within the memories' sizes (07 Table 66, 04 R102). -/
def Place.ok : Place → Bool
  | .scratchpad a => decide (a < 2097152)
  | .sram a => decide (a < 33554432)
  | .scratch _ off | .tier _ off => decide (off < 65536)

/-- Registers, entries, rows and lanes that an engine has (07 Table 66). -/
def EngOp.ok : EngOp → Bool
  | .move src dst _ => src.ok && dst.ok
  | .await | .claim | .lastIssue => true
  | .reload a _ fmt => decide (a < 2097152 ∧ fmt < 16)
  | .issue a _ fmt entry width _ => decide (a < 2097152 ∧ fmt < 16 ∧ entry < 32)
      && (decide (fmt ≠ 0xD) || decide (width = 256 ∨ width = 512 ∨ width = 1024 ∨ width = 2048))
  | .preload entry _ _ _ _ => decide (entry < 32)
  | .readAcc reg entry | .writeAcc entry reg => decide (reg < 128 ∧ entry < 32)
  | .late reg entry _ _ _ sum => decide (reg < 128 ∧ entry < 32 ∧ sum < 128)
  | .groupScale acc entry _ _ _ sum => decide (acc < 32 ∧ entry < 32 ∧ sum < 128)
  | .inputSum reg a _ _ => decide (reg < 128 ∧ a < 2097152)
  | .load reg a bits n | .store reg a bits n => decide (reg < 128 ∧ a < 2097152 ∧ 1 ≤ bits ∧ bits ≤ 32 ∧ n ≤ 128)
  | .float _ _ fmt dst a b c => decide (fmt ≤ 2 ∧ dst < 128 ∧ a < 128 ∧ b < 128 ∧ c < 128)
  | .compare _ dst a b _ | .int _ _ dst a b => decide (dst < 128 ∧ a < 128 ∧ b < 128)
  | .approx _ dst a | .convert _ _ _ _ dst a => decide (dst < 128 ∧ a < 128)
  | .outFloat _ _ reg n dst | .outInt _ _ reg n dst => decide (reg < 128 ∧ n ≤ 128) && dst.ok
  | .outMx _ _ reg n dst scales => decide (reg < 128 ∧ n ≤ 128) && dst.ok && scales.ok

/-- The addresses that a command names exist: a TRS page, an offset in its window, a tundish address, an MSI-X entry. -/
def Instr.reaches : Instr → Bool
  | .porAssert | .porRelease _ _ _ | .perstAssert _ | .perstRelease _ _ _ | .inputLossDeclared _ _ | .inputRestored _ _ _ _ _ _ 
  | .flushComplete | .linkReset _ _ | .islandRelease _ _ _ | .islandClockGoodTimeout _ | .stageS0 | .stageS1 _ _ _ | .stageS2 
  | .stageS3 _ | .stageS4 _ | .holdupBankCharged _ | .stageS5 | .stageTimeout _ | .watchdogExpiry _ | .lockEntryFreed 
  | .acceptanceWaitEnd | .holdoffExpiry _ | .tbSetWrite _ _ _ | .hdmDecoderCommit _ _ _ _ _ _ | .bisnpResponse _ 
  | .frameFillComplete _ | .heatWindowClose | .warmFrameExpiry _ | .transientFramePlaced _ | .flatScanEnd _ | .annealRoundStart _ 
  | .annealRoundCommit _ | .epochPagesFreed _ _ | .batchComplete _ _ | .tileDispatch _ _ _ _ _ | .tileComplete _ _ _ _ _ 
  | .stationarySwap _ _ _ _ | .semaphoreAcquire _ _ _ _ | .semaphoreRelease _ _ _ _ | .semaphoreHoldTimeout _ _ _ _ 
  | .preemptionEscalation _ _ | .engineLevelSave _ _ | .engineIdleStop _ _ | .partitionFaultDetected _ _ _ _ 
  | .onlineCheckComplete _ _ _ | .coreControlFault _ | .engineKatTimer | .processorFault _ _ | .processorProgressTimeout _ _ 
  | .promotionCommit _ _ | .lowWaterEviction _ | .idleDemotion _ | .t2Fold | .collectionReload | .demotedDramFreed _ 
  | .journalFlushTimer | .nandProgramComplete _ | .nandProgramFail _ _ | .nandReadComplete _ _ _ _ | .nandEraseComplete _ _ _ _ 
  | .nandOperationTimeout _ _ | .suspendMinRunReached _ _ | .readServiceExpiry _ _ | .flushReserveRestored | .gcStart _ 
  | .slcFold | .checkpointCycle | .wearLevelCheck | .flashScanRead _ _ _ _ | .writeOriginWindowExpiry _ _ 
  | .dramCorrectableError _ _ _ _ | .sramCorrectableError _ _ _ _ | .bucketLeak | .uncorrectableError _ _ 
  | .dramPatrolRead _ _ _ _ _ | .sramPatrol _ | .laneRetrain _ _ _ | .governorSample _ | .governorDecision | .quenchOvercurrent _ 
  | .quenchExcursion | .timebaseFullValue | .holdupCellMeasurement _ _ | .erCtlWrite _ | .erOffer _ _ | .erAccept _ _ 
  | .erOfferTimeout | .erRecoverySpeed | .erLockAchieved _ | .erEqTimeout _ | .erErrorRateFallback _ _ 
  | .erMarkerLossFallback _ _ | .doeDiscovery _ | .cdatTableAccess _ | .doeAttestation _ | .getEventRecords _ 
  | .clearEventRecords _ _ _ | .getEventInterruptPolicy | .setEventInterruptPolicy _ | .getTimestamp | .setTimestamp _ 
  | .getSupportedLogs | .getLog _ _ _ | .identifyMemoryDevice | .sanitize | .sanitizeDrained | .claimOwner _ | .releaseOwner _ 
  | .patternStageBegin _ | .patternStageData _ _ | .patternStageCommit _ | .attest _ | .startLogRead _ | .countersGlobal _ 
  | .patternWindow | .pwKey _ | .pwProgram | .pwErase | .norProgramComplete _ | .norEraseComplete _ | .norEraseSuspend _ 
  | .norEraseResume _ _ | .setEndpointId _ | .entdaa _ | .setdasa _ _ | .getTid | .getPldmVersion _ | .getPldmTypes 
  | .getPldmCommands _ | .getPdrRepositoryInfo | .getPdr _ | .getSensorReading _ | .getStateSensorReadings _ 
  | .setEventReceiver _ | .unsupportedMailboxOpcode _ _ | .partnerErFallback => true
  | .goSubmitNop trs _ _ | .read trs _ _ | .write trs _ _ | .flush trs _ _ | .release trs _ _ | .bind trs _ _ | .unbind trs _ _ 
  | .park trs _ _ | .extend trs _ _ | .recallContext trs _ _ | .attend trs _ _ | .drop trs _ _ | .warmFrames trs _ _ 
  | .warmPromote trs _ _ | .search trs _ _ | .insert trs _ _ | .delete trs _ _ | .merge trs _ _ | .collectionCreate trs _ _ 
  | .collectionDestroy trs _ _ | .collectionDescribe trs _ _ | .filter trs _ _ | .embed trs _ _ | .chainFilterEmbedInsert trs _ _ 
  | .chainEmbedSearch trs _ _ | .counters trs _ _ | .digestRead trs _ _ | .next trs _ _ | .qreset trs _ _ | .qresetComplete trs 
  | .conflictCleared trs _ | .commandFinish trs _ | .dmaCompletionArrival trs _ _ _ | .completionTimeout trs _ 
  | .inactivityTimeout trs _ | .heatLayerComplete trs _ | .joinDeferralTimeout trs _ | .invalidOpcode trs _ _ => decide (trs < 4096)
  | .msixUnmask vector => decide (vector < 2048)
  | .tbNowRead bar off width => decide (off + width ≤ readBytes bar)
  | .registerWrite bar off width _ _ => decide (off + width ≤ windowBytes bar)
  | .cxlMemWrite dpa bytes _ => decide (dpa + bytes.length ≤ tundishBytes)
  | .cxlMemRead dpa len => decide (dpa + len ≤ tundishBytes)
  | .stepDoorbell dpa _ | .stageDoorbell dpa _ => decide (dpa < tundishBytes)
  | .refusedBar2Access trs off width _ => decide (trs < 4096 ∧ off + width ≤ 4096)

/-- The units that a command names are the device's: cores, engines, partitions, semaphores, processors, channels, stacks, logs. -/
def Instr.unitsOk : Instr → Bool
  | .porAssert | .porRelease _ _ _ | .perstAssert _ | .perstRelease _ _ _ | .inputLossDeclared _ _ | .inputRestored _ _ _ _ _ _ 
  | .flushComplete | .linkReset _ _ | .stageS0 | .stageS1 _ _ _ | .stageS2 | .stageS3 _ | .stageS4 _ | .holdupBankCharged _ 
  | .stageS5 | .stageTimeout _ | .watchdogExpiry _ | .goSubmitNop _ _ _ | .read _ _ _ | .write _ _ _ | .flush _ _ _ 
  | .release _ _ _ | .bind _ _ _ | .unbind _ _ _ | .park _ _ _ | .extend _ _ _ | .recallContext _ _ _ | .attend _ _ _ | .drop _ _ _ 
  | .warmFrames _ _ _ | .warmPromote _ _ _ | .search _ _ _ | .insert _ _ _ | .delete _ _ _ | .merge _ _ _ 
  | .collectionCreate _ _ _ | .collectionDestroy _ _ _ | .collectionDescribe _ _ _ | .filter _ _ _ | .embed _ _ _ 
  | .chainFilterEmbedInsert _ _ _ | .chainEmbedSearch _ _ _ | .counters _ _ _ | .digestRead _ _ _ | .next _ _ _ | .qreset _ _ _ 
  | .qresetComplete _ | .lockEntryFreed | .conflictCleared _ _ | .acceptanceWaitEnd | .commandFinish _ _ 
  | .dmaCompletionArrival _ _ _ _ | .completionTimeout _ _ | .inactivityTimeout _ _ | .tbNowRead _ _ _ | .registerWrite _ _ _ _ _ 
  | .cxlMemWrite _ _ _ | .cxlMemRead _ _ | .bisnpResponse _ | .stepDoorbell _ _ | .stageDoorbell _ _ | .frameFillComplete _ 
  | .heatWindowClose | .heatLayerComplete _ _ | .joinDeferralTimeout _ _ | .warmFrameExpiry _ | .transientFramePlaced _ 
  | .flatScanEnd _ | .annealRoundStart _ | .annealRoundCommit _ | .epochPagesFreed _ _ | .batchComplete _ _ 
  | .engineKatTimer | .promotionCommit _ _ | .idleDemotion _ | .t2Fold | .collectionReload | .demotedDramFreed _ 
  | .journalFlushTimer | .nandProgramComplete _ | .nandProgramFail _ _ | .nandReadComplete _ _ _ _ | .flushReserveRestored 
  | .slcFold | .checkpointCycle | .wearLevelCheck | .flashScanRead _ _ _ _ | .writeOriginWindowExpiry _ _ | .bucketLeak 
  | .sramPatrol _ | .governorDecision | .quenchOvercurrent _ | .quenchExcursion | .timebaseFullValue | .holdupCellMeasurement _ _ 
  | .erCtlWrite _ | .erOffer _ _ | .erAccept _ _ | .erOfferTimeout | .erRecoverySpeed | .erEqTimeout _ | .doeDiscovery _ 
  | .cdatTableAccess _ | .doeAttestation _ | .getEventInterruptPolicy | .setEventInterruptPolicy _ | .getTimestamp 
  | .setTimestamp _ | .getSupportedLogs | .getLog _ _ _ | .identifyMemoryDevice | .sanitize | .sanitizeDrained | .claimOwner _ 
  | .releaseOwner _ | .patternStageBegin _ | .patternStageData _ _ | .patternStageCommit _ | .attest _ | .startLogRead _ 
  | .countersGlobal _ | .patternWindow | .pwKey _ | .pwProgram | .pwErase | .norProgramComplete _ | .norEraseComplete _ 
  | .norEraseSuspend _ | .norEraseResume _ _ | .setEndpointId _ | .entdaa _ | .setdasa _ _ | .getTid | .getPldmVersion _ 
  | .getPldmTypes | .getPldmCommands _ | .getPdrRepositoryInfo | .getPdr _ | .getSensorReading _ | .getStateSensorReadings _ 
  | .setEventReceiver _ | .invalidOpcode _ _ _ | .unsupportedMailboxOpcode _ _ | .refusedBar2Access _ _ _ _ | .partnerErFallback => true
  | .islandRelease i _ _ | .islandClockGoodTimeout i => i.ok
  | .holdoffExpiry vector | .msixUnmask vector => decide (vector < 2048)
  | .tbSetWrite off width _ => decide (0x20 ≤ off ∧ off + width ≤ 0x28)
  | .hdmDecoderCommit dec _ _ _ _ _ => decide (dec < 2)
  | .tileDispatch core eng part _ ops | .tileComplete core eng part ops _ | .stationarySwap core eng part ops => decide (core < 16 ∧ eng < 10 ∧ part < 4) && ops.all EngOp.ok
  | .partitionFaultDetected core eng part _ => decide (core < 16 ∧ eng < 10 ∧ part < 4)
  | .semaphoreAcquire core eng part sem | .semaphoreRelease core eng part sem | .semaphoreHoldTimeout core eng part sem => decide (core < 16 ∧ eng < 10 ∧ part < 4 ∧ sem < 32)
  | .preemptionEscalation core eng | .engineLevelSave core eng | .engineIdleStop core eng | .onlineCheckComplete core eng _ => decide (core < 16 ∧ eng < 10)
  | .coreControlFault core => decide (core < 16)
  | .processorFault p _ | .processorProgressTimeout p _ => decide (p < 36)
  | .lowWaterEviction stack => decide (stack < 16)
  | .nandEraseComplete island _ _ _ | .gcStart island => decide (island < 8)
  | .nandOperationTimeout chan pos | .suspendMinRunReached chan pos | .readServiceExpiry chan pos => decide (chan < 128 ∧ pos < 17)
  | .dramCorrectableError chan _ _ _ | .dramPatrolRead chan _ _ _ _ => decide (chan < 512)
  | .sramCorrectableError region _ _ _ | .uncorrectableError region _ => decide (region < 741)
  | .laneRetrain link _ _ => decide (link < 16)
  | .governorSample g => decide (g.rails.length = 5 ∧ g.temps.length = 42)
  | .erLockAchieved markers => decide (markers.length ≤ 8)
  | .erErrorRateFallback lane _ | .erMarkerLossFallback lane _ => decide (lane < 8)
  | .getEventRecords log | .clearEventRecords log _ _ => decide (log < 4)

/-- A command is well-formed. -/
def Instr.wf (i : Instr) : Bool := i.reaches && i.unitsOk

end Sys2Proof
end

