-- ==== Sys2Proof/Machine/Ports.lean ====
section
/-! DEFINITION. The CXL port's windows (02 R37 to R54): link events, BAR0, BAR2, BAR4 and configuration writes, the HDM decoders, the
tundish through CXL.mem, back-invalidate and the vectors. -/
namespace Sys2Proof.Machine

/-! ### Link events (02 R37, R41, R62) -/

/-- The link's registers after a hot reset, link-down or link-disable: configuration space, BARs, decoders, the MSI-X table and
pending counts, and the ER controls are reset; VEC_COAL, the ER counts and the AER status (sticky in PCIe, log 13) stay. ER_FAILED and
FAIL_CAUSE stay too, for which the spec has no word (DESIGN CHOICE, log 88). -/
def resetLink (l : Link) : Link :=
  { l with bar0 := none, bar2 := none, bar4 := none, dec0 := none, dec1 := none, biEnable := false, biUsed := false,
           commitErr0 := false, commitErr1 := false,
           cfg := { aerUncorr := l.cfg.aerUncorr, aerCorr := l.cfg.aerCorr },
           msix := [], erCtl := 4, erOfferSent := false, erAcceptSent := false, erAcceptRecv := false,
           erDead := false, erTxPrecode := false,
           erStatus := l.erStatus &&& 0xF4,
           vec := SMap.mapVals {} (fun _ (x : Vec) => { x with pend := 0, timer := none, pba := false }) l.vec }

/-- Every command ends with HOST_ACCESS, without completions; after watchdog expiry the pages stand as they were (13 R405). -/
def endAll (s : State) : State :=
  if s.boot.mode = .service then fenced (fun x => (x.trs.map (·.1)).foldl (fun s' t => stopAll true stHostAccess t s') x) s else s

/-- LINK_RESET, and the training that follows it. -/
def linkReset (tr : Training) (s : State) : State :=
  let s1 := endAll { s with link := { s.link with up := false } }
  { s1 with
    link := { trained tr (resetLink s1.link) with up := s.link.up },
    isl := if s.link.rate = .er then (erRetrained s1).isl else s1.isl,
    tun := {},
    tier := { s1.tier with frames := [] },
    heat := { s1.heat with windowOpen := false },
    aon := { s1.aon with tbHeldLow := none },
    nor := { s1.nor with enabled := false, armed := false, keyHalf := false } }

/-! ### BAR0 (02 Table 15) -/

/-- BAR0 answers: configuration is served and the BAR decodes; after watchdog expiry too (13 R405). -/
def bar0Up (s : State) : Bool := configUp s && decodes s s.link.bar0

/-- The registers from GRADE to TB_SET; TB_SET is write-only. -/
def bar0Head (s : State) : List Byte :=
  bytesOf 4 s.boot.grade.toNat ++ bytesOf 4 s.boot.patternGen.toNat ++ bytesOf 4 s.aon.rstLastCause.toNat
  ++ bytesOf 4 s.boot.stage ++ bytesOf 4 s.boot.fettleReason.toNat ++ bytesOf 4 0 ++ bytesOf 8 (now s).toNat ++ bytesOf 8 0

/-- One MSI-X table entry of 16 bytes. -/
def msixBytes (m : MsixEntry) : List Byte := bytesOf 8 m.addr.toNat ++ bytesOf 4 m.data.toNat ++ bytesOf 4 m.mask.toNat

/-- A byte of BAR0 outside the component and device registers; what Table 15 does not list reads zero. -/
def bar0Byte (s : State) (a : Nat) : Byte :=
  if a < 0x28 then (bar0Head s).getD a 0
  else if 0x100 ≤ a ∧ a < 0x104 then (bytesOf 4 (pwinState s)).getD (a - 0x100) 0
  else if 0x2000 ≤ a ∧ a < 0x4000 then (bytesOf 4 (vecOf s ((a - 0x2000) / 4)).coal.toNat).getD (a % 4) 0
  else if 0x40000 ≤ a ∧ a < 0x48000 then (msixBytes (msixEntry s ((a - 0x40000) / 16))).getD (a % 16) 0
  else if 0x48000 ≤ a ∧ a < 0x48100 then
    BitVec.ofNat 8 (sumOf ((List.range 8).map (fun i => (vecOf s ((a - 0x48000) * 8 + i)).pba.toNat * 2 ^ i)))
  else 0

/-- A read of BAR0. Component and device registers to which the spec gives no value read free values (log 13). -/
def bar0Read (off width : Nat) (s : State) : State :=
  if 0x10000 ≤ off ∧ off < 0x40000 then
    emit (.completion ((List.range width).map (fun i => cxlByte s (off + i))) false false) (drawn 1 s)
  else emit (.completion ((List.range width).map (fun i => bar0Byte s (off + i))) false false) s

/-- A read at TB_NOW: a 32-bit read of the low word captures the whole value, one of the high word shows the last capture (15
R448). -/
def tbNowRead (off width : Nat) (s : State) : State :=
  if off = 0x18 ∧ width = 4 then bar0Read off width { s with aon := { s.aon with tbCapture := now s } }
  else if off = 0x1C ∧ width = 4 then emit (.completion (bytesOf 4 (s.aon.tbCapture.toNat / 2 ^ 32)) false false) s
  else bar0Read off width s

/-- A write at TB_SET (15 R448). -/
def tbSet (off width : Nat) (v : BitVec 64) (s : State) : State :=
  if off = 0x20 ∧ width = 8 then setTimebase v s
  else if off = 0x20 ∧ width = 4 then { s with aon := { s.aon with tbHeldLow := some (v.setWidth 32) } }
  else if off = 0x24 ∧ width = 4 then setTimebase (v.setWidth 32 ++ s.aon.tbHeldLow.getD 0) s
  else s

/-! ### Vectors (02 R53, R54, Table 17) -/

/-- A write to VEC_COAL[n]: reserved bits stay zero; it takes effect at the next pending completion. -/
def coalWrite (n : Nat) (v : BitVec 32) (s : State) : State := setVec n { vecOf s n with coal := v &&& 0x01FFFFFF } s

/-- Vector `n` takes an MSI-X entry; unmasking it sends the message that its PBA bit holds. -/
def setMsix (n : Nat) (m : MsixEntry) (s : State) : State :=
  let s1 := { s with link := { s.link with msix := SMap.put {} s.link.msix n m } }
  if (vecOf s n).pba && !m.mask && msixOn s then emit (.msix n) (setVec n { vecOf s n with pba := false } s1) else s1

/-- A 32-bit write of word `w` of an MSI-X entry. -/
def msixWrite (n w : Nat) (v : BitVec 32) (s : State) : State :=
  let m := msixEntry s n
  match w with
  | 0 => setMsix n { m with addr := m.addr.extractLsb' 32 32 ++ v } s
  | 1 => setMsix n { m with addr := v ++ m.addr.extractLsb' 0 32 } s
  | 2 => setMsix n { m with data := v } s
  | _ => setMsix n { m with mask := v.getLsbD 0 } s

/-- The hold-off timer of a vector expires: one message covers what is pending. -/
def holdoff (v : Nat) (s : State) : State :=
  let x := vecOf s v
  if x.timer.isSome then
    if 0 < x.pend then signal v (setVec v { x with pend := 0, timer := none } s) else setVec v { x with timer := none } s
  else s

/-- A write of BAR0: read-only and unlisted offsets, component and device registers without a row of their own, take nothing. -/
def bar0Write (off width : Nat) (v : BitVec 512) (s : State) : State :=
  if 0x20 ≤ off ∧ off < 0x28 then tbSet off width (v.setWidth 64) s
  else if 0x2000 ≤ off ∧ off < 0x4000 ∧ off % 4 = 0 ∧ width = 4 then coalWrite ((off - 0x2000) / 4) (v.setWidth 32) s
  else if 0x40000 ≤ off ∧ off < 0x48000 ∧ off % 4 = 0 ∧ width = 4 then
    msixWrite ((off - 0x40000) / 16) (off / 4 % 4) (v.setWidth 32) s
  else if 0x40000 ≤ off ∧ off < 0x48000 ∧ off % 8 = 0 ∧ width = 8 then
    msixWrite ((off - 0x40000) / 16) (off / 4 % 4 + 1) (v.extractLsb' 32 32)
      (msixWrite ((off - 0x40000) / 16) (off / 4 % 4) (v.setWidth 32) s)
  else s

/-! ### BAR2 (02 R42, 03 R66, R68, R72) -/

/-- A write at an offset of a TRS page: COMMAND, GO, NEXT, QRESET; every other offset ignores it. -/
def pageWrite (t o width : Nat) (v : BitVec 512) (s : State) : State :=
  if o + width ≤ 0x40 then modTrs t (fun p => { p with command := setDescBits p.command (8 * o) (8 * width) v.toNat }) s
  else if o = 0x40 ∧ width = 4 then (if v.getLsbD 0 then goArrived t s else s)
  else if o = 0x4C ∧ width = 4 then (if v.getLsbD 0 then nextReport t s else s)
  else if o = 0x70 ∧ width = 4 then (if v.getLsbD 0 then qreset t s else s)
  else s

/-- A write of BAR2 from a requester. -/
def bar2Write (t o width : Nat) (v : BitVec 512) (rid : BitVec 16) (s : State) : State :=
  if bar2Writable s then (if admits s t rid then pageWrite t o width v s else refuseWrite s) else s

/-- A read of BAR2: Unsupported Request for a requester that the binding does not list (02 R42), else the page's bytes, with Relaxed
Ordering clear (03 R84). -/
def bar2Read (t o width : Nat) (rid : BitVec 16) (s : State) : State :=
  if configUp s && decodes s s.link.bar2 then
    if admits s t rid then emit (.completion (trsRead (getTrs s t) t o width) false false) s else refuseRead s
  else s

/-! ### Configuration space and the other windows -/

/-- A write of BAR4 reaches the window while the BAR is programmed. -/
def bar4Write (off width v : Nat) (s : State) : State :=
  if configUp s && decodes s s.link.bar4 then windowWrite off width v s else s

/-- A write to a register by window: BAR0, BAR2, BAR4; 7 stands for configuration space, where the ID is the target
of the request, 8 for the ER DVSEC. -/
def registerWrite (bar off width : Nat) (v : BitVec 512) (rid : BitVec 16) (s : State) : State :=
  match bar with
  | 0 => if bar0Up s then bar0Write off width v s else s
  | 2 => fenced (bar2Write (off / 4096) (off % 4096) width v rid) s
  | 4 => fenced (bar4Write off width v.toNat) s
  | 7 => if configUp s then configWrite off width v.toNat rid s else s
  | 8 => if configUp s then dvsecWrite off v.toNat s else s
  | _ => s

/-! ### HDM decoders (02 R43, R46) -/

/-- The rules that a commit keeps: its base is where the DPA of the decoder begins, 1-way, no skip, at most 954 units in all. A
commit of decoder 0 that would move the base of a committed decoder 1 breaks them (DEDUCED, log 89). -/
def decoderOk (s : State) (dec base units ways skip : Nat) : Bool :=
  decide (ways = 1 ∧ skip = 0 ∧ 1 ≤ units) && (match dec with
    | 0 => decide (base = 0 ∧ units + s.link.dec1.getD 0 ≤ 954 ∧ (s.link.dec1.isSome = true → s.link.dec0 = some units))
    | _ => s.link.dec0.isSome && decide (base = s.link.dec0.getD 0 * 2 ^ 28 ∧ s.link.dec0.getD 0 + units ≤ 954))

/-- HDM_DECODER_COMMIT: `base` is the DPA that the decoder is to begin at, `units` its size in 256 MiB. -/
def decoderCommit (dec base units ways skip : Nat) (biEnable : Bool) (s : State) : State :=
  let l := { s.link with biEnable := biEnable }
  let ok := decoderOk s dec base units ways skip
  if dec = 0 then
    { s with link := if ok then { l with dec0 := some units, biUsed := biEnable, commitErr0 := false } else { l with commitErr0 := true } }
  else if dec = 1 then
    { s with link := if ok then { l with dec1 := some units, commitErr1 := false } else { l with commitErr1 := true } }
  else s

/-! ### CXL.mem (02 R45, R47, 13 Table 121) -/

/-- CXL.mem runs from 8 GT/s on. -/
def memRate (s : State) : Bool := s.link.up && !decide (s.link.rate = .gt2_5 ∨ s.link.rate = .gt5)

/-- The committed decoders reach a range. -/
def decoded (s : State) (dpa n : Nat) : Bool :=
  memRate s && decide (dpa + n ≤ (s.link.dec0.getD 0 + s.link.dec1.getD 0) * 2 ^ 28)

/-- A host write: late input is dropped; else stored; with poison the lines are poisoned; a doorbell's word is taken. In Fettle mode it is dropped. -/
def memWrite (dpa : Nat) (bytes : List Byte) (poison : Bool) (s : State) : State :=
  if s.boot.memActive && decoded s dpa bytes.length then
    if lateInput s dpa bytes.length then dropLate s
    else
    let s1 := hostStore dpa bytes s
    if poison then (linesOf dpa bytes.length).foldl (fun s' l => setPoison l true s') s1
    else if 4 ≤ bytes.length ∧ s.boot.mode = .service then
      let v := BitVec.ofNat 32 (natOf (bytes.take 4))
      ringStageAt dpa v (ringStepAt dpa v s1)
    else s1
  else s

/-- A host read: the data, poisoned where a line is; in Fettle mode free data with poison. -/
def memRead (dpa len : Nat) (s : State) : State :=
  if decoded s dpa len then
    if s.boot.memActive then bump 0x40 2 len (emit (.readData (tunRead s dpa len) (poisonedAt s dpa len)) s)
    else if s.boot.mode = .fettle then
      emit (.readData ((List.range len).map (fun i => Config.freeByte (draw s) (dpa + i))) true) (drawn 1 s)
    else s
  else s

/-- BISNP_RESPONSE: the lines of the snoop at `base` are free. -/
def snoopDone (base : Nat) (s : State) : State :=
  { s with tun := { s.tun with snoops := s.tun.snoops.filter (fun r => r.1 != base) } }

/-! ### The rows -/

/-- LINK_RESET: the three events have one effect. -/
def execLinkReset (e : LinkEvent) (tr : Training) (s : State) : Result :=
  match e with
  | .hotReset => .next (if configUp s then linkReset tr s else s)
  | .linkDown => .next (if configUp s then linkReset tr s else s)
  | .linkDisable => .next (if configUp s then linkReset tr s else s)

/-- HOLDOFF_EXPIRY. -/
def execHoldoffExpiry (vector : Nat) (s : State) : Result := .next (fenced (holdoff vector) s)

/-- MSIX_UNMASK. -/
def execMsixUnmask (vector : Nat) (s : State) : Result :=
  if vector < 2048 then
    .next (if bar0Up s then fenced (setMsix vector { msixEntry s vector with mask := false }) s else s)
  else .fault .noSuchAddress

/-- TB_SET_WRITE. -/
def execTbSetWrite (off width : Nat) (value : BitVec 64) (s : State) : Result :=
  .next (if bar0Up s then tbSet off width value s else s)

/-- A read of BAR4: the NOR byte for byte while the window is enabled, else zeros (02 R41, 14 R429). -/
def bar4Read (off width : Nat) (s : State) : State :=
  emit (.completion (if windowOpen s then norRaw s off width else List.replicate width 0) false false) s

/-- A read of the ER DVSEC (02 Table 19). At ER the symbols that the receiver has corrected since the last such read are a free
number (log 87). -/
def dvsecRead (off width : Nat) (s : State) : State :=
  let n := Config.freeNat (draw s)
  let s1 := if erActive s then
      bump 0x20 1 n (drawn 1 { s with link := { s.link with erFecCorr := satAdd s.link.erFecCorr n } })
    else s
  emit (.completion ((List.range width).map (fun i => (erDvsec s1).getD (off + i) 0)) false false) s1

/-- A read of configuration space. -/
def configRead (off width : Nat) (s : State) : State :=
  if 0x300 ≤ off ∧ off < 0x324 then dvsecRead (off - 0x300) width s
  else emit (.completion ((List.range width).map (fun i => cfgByte s (off + i))) false false) s

/-- A read by window: BAR0, BAR4; 7 stands for configuration space, 8 for the ER DVSEC. -/
def registerRead (bar off width : Nat) (s : State) : State :=
  match bar with
  | 0 => if bar0Up s then tbNowRead off width s else s
  | 4 => if configUp s && decodes s s.link.bar4 then bar4Read off width s else s
  | 7 => if configUp s then configRead off width s else s
  | 8 => if configUp s then dvsecRead off width s else s
  | _ => s

/-- TB_NOW_READ: any offset of BAR0, of BAR4, of configuration space or of the ER DVSEC (log 6). -/
def execTbNowRead (bar off width : Nat) (s : State) : Result :=
  if off + width ≤ readBytes bar then .next (registerRead bar off width s) else .fault .noSuchAddress

/-- REGISTER_WRITE. -/
def execRegisterWrite (bar off width : Nat) (value : BitVec 512) (rid : BitVec 16) (s : State) : Result :=
  if off + width ≤ windowBytes bar then .next (registerWrite bar off width value rid s) else .fault .noSuchAddress

/-- HDM_DECODER_COMMIT. -/
def execHdmDecoderCommit (dec base units ways skip : Nat) (biEnable : Bool) (s : State) : Result :=
  .next (if bar0Up s then decoderCommit dec base units ways skip biEnable s else s)

/-- CXL_MEM_WRITE. -/
def execCxlMemWrite (dpa : Nat) (bytes : List Byte) (poison : Bool) (s : State) : Result :=
  if dpa + bytes.length ≤ tundishSize then .next (fenced (memWrite dpa bytes poison) s) else .fault .noSuchAddress

/-- CXL_MEM_READ. -/
def execCxlMemRead (dpa len : Nat) (s : State) : Result :=
  if dpa + len ≤ tundishSize then .next (fenced (memRead dpa len) s) else .fault .noSuchAddress

/-- BISNP_RESPONSE. -/
def execBisnpResponse (base : Nat) (s : State) : Result := .next (fenced (snoopDone base) s)

/-- REFUSED_BAR2_ACCESS: a read of a TRS page. -/
def execRefusedBar2Access (trs off width : Nat) (rid : BitVec 16) (s : State) : Result :=
  if trs < 4096 ∧ off + width ≤ 4096 then .next (fenced (bar2Read trs off width rid) s) else .fault .noSuchAddress

/-- PW_KEY. -/
def execPwKey (value : BitVec 32) (s : State) : Result := .next (fenced (bar4Write 0x00 4 value.toNat) s)

/-- PW_PROGRAM: PW_CMD 0x01. -/
def execPwProgram (s : State) : Result := .next (fenced (bar4Write 0x10 4 1) s)

/-- PW_ERASE: PW_CMD 0x02. -/
def execPwErase (s : State) : Result := .next (fenced (bar4Write 0x10 4 2) s)

end Sys2Proof.Machine
end

