-- ==== Sys2Proof/Machine/Sideband.lean ====
section
/-! DEFINITION. The I3C sideband (16 R482, R483, 17 R493): addresses, MCTP, PLDM and the sensors of 16 Table 151. PLDM layouts and
codes that DMTF fixes are PRESUMED (log 13). -/
namespace Sys2Proof.Machine

/-! ### The target (13 Table 114, 17 R493) -/

/-- The target answers: from the end of S2 and in Fettle mode. -/
def targetUp (s : State) : Bool :=
  decide (s.boot.mode = .service ∨ s.boot.mode = .fettle ∨ (s.boot.mode = .starting ∧ 3 ≤ s.boot.stage))

/-- A row of the sideband: after watchdog expiry the target does not acknowledge its address; in reset its pins are high-impedance. -/
def onTarget (f : State → State) (s : State) : Result :=
  .next (if targetUp s then fenced f s else if s.boot.mode = .expired then emit (.i3cAck false) s else s)

/-- The static address 0x68 + ADDR_SEL. -/
def staticAddress (s : State) : BitVec 7 := BitVec.ofNat 7 (0x68 + s.aon.addrSel.toNat)

/-- The target takes a dynamic address where it holds none. -/
def takeAddress (a : BitVec 7) (s : State) : State :=
  if s.tele.dynAddr.isNone then emit (.i3cAck true) { s with tele := { s.tele with dynAddr := some a } } else s

/-- A row over MCTP: it reaches the target at its dynamic address. -/
def onMctp (f : State → State) (s : State) : Result := onTarget (fun x => if x.tele.dynAddr.isSome then f x else x) s

/-- A PLDM answer: completion code and data. -/
def pldm (code : Byte) (data : List Byte) (s : State) : State := emit (.pldm (code :: data)) s

/-! ### Base type (16 R482) -/

/-- The types that the device supports: Base, and Platform Monitoring and Control. -/
def pldmTypes : List Nat := [0, 2]

/-- The commands of each type. -/
def pldmCommands : Nat → List Nat
  | 0 => [0x02, 0x03, 0x04, 0x05]
  | _ => [0x04, 0x0A, 0x11, 0x21, 0x50, 0x51]

/-- A bit set of `n` bytes. -/
def bitSet (n : Nat) (l : List Nat) : List Byte := bytesOf n (sumOf ((dedup l).map (fun i => 2 ^ i)))

/-- GetPLDMVersion of a type. -/
def pldmVersion (type : Nat) (s : State) : State :=
  if type ∈ pldmTypes then
    let v := bytesOf 4 (Config.pldmVersion type).toNat
    pldm 0 (bytesOf 4 0 ++ [5] ++ v ++ bytesOf 4 (crc32 v).toNat) s
  else pldm 0x83 [] s

/-- GetPLDMCommands of a type. -/
def pldmCommandSet (type : Nat) (s : State) : State :=
  if type ∈ pldmTypes then pldm 0 (bitSet 32 (pldmCommands type)) s else pldm 0x83 [] s

/-! ### Sensors (16 Table 151) -/

/-- Numeric sensors. -/
def numericIds : List Nat := List.range' 1 51

/-- State sensors. -/
def stateIds : List Nat := [60, 61, 62, 63, 64]

/-- The reading of a numeric sensor: millivolts, milliamperes, milliwatts, tenths of a degree, microjoules. -/
def numericValue (s : State) (id : Nat) : Int :=
  if id = 1 then s.gov.inputMv
  else if id = 2 then s.gov.inputMa
  else if id = 3 then s.gov.means.getD 0 0
  else if id < 9 then s.gov.means.getD (id - 3) 0
  else if id < 51 then s.gov.temps.getD (id - 9) 0
  else bankEnergy s

/-- The base unit and the power of ten of a numeric sensor. -/
def unitOf (id : Nat) : Nat × Int :=
  if id = 1 then (5, -3) else if id = 2 then (6, -3) else if id < 9 then (7, -3) else if id < 51 then (2, -1) else (8, -6)

/-- The governor's state: 0 normal, 1 throttled, 2 quenched. -/
def governorState (s : State) : Nat := if s.gov.quench then 2 else if s.gov.throttled.any id then 1 else 0

/-- The reading of a state sensor. -/
def stateValue (s : State) (id : Nat) : Nat :=
  match id with
  | 60 => s.boot.stage
  | 61 => s.boot.fettleReason.toNat
  | 62 => s.fl.stage
  | 63 => governorState s
  | _ => bankState s

/-- In Fettle mode the sensors of cores, stacks and flash are unavailable (16 R483). -/
def sensorAvailable (s : State) (id : Nat) : Bool :=
  !(decide (s.boot.mode = .fettle) && decide ((10 ≤ id ∧ id ≤ 49) ∨ id = 62))

/-- The throttle and critical points of a temperature sensor (15 Table 141). -/
def pointsOf (s : State) (id : Nat) : List Int :=
  if 9 ≤ id ∧ id ≤ 50 then ((thermalPoints s id).filter (fun p => decide (1 ≤ p.1))).map (·.2) else []

/-- A signed 32-bit reading. -/
def int32 (v : Int) : List Byte := bytesOf 4 (v % 4294967296).toNat

/-- Present state of a numeric sensor: normal, above its warning or its critical threshold. -/
def presentState (s : State) (id : Nat) : Byte :=
  match pointsOf s id with
  | [w, c] => if c ≤ numericValue s id then 9 else if w ≤ numericValue s id then 8 else 1
  | _ => 1

/-- Bytes of sensor `id` that the spec does not give: `n` of them from place `i` on (log 7). -/
def freePdr (id i n : Nat) : List Byte := (List.range n).map (fun k => Config.pdrByte id (i + k))

/-- GetSensorReading. -/
def sensorReading (id : Nat) (s : State) : State :=
  if id ∈ numericIds then
    if sensorAvailable s id then
      pldm 0 ([5, 0] ++ freePdr id 0 1 ++ [presentState s id] ++ freePdr id 1 2 ++ int32 (numericValue s id)) s
    else pldm 0 ([5, 2] ++ freePdr id 0 1 ++ [0] ++ freePdr id 1 2 ++ int32 0) s
  else pldm 0x80 [] s

/-- GetStateSensorReadings. -/
def stateReadings (id : Nat) (s : State) : State :=
  if id ∈ stateIds then
    if sensorAvailable s id then pldm 0 ([1, 0] ++ bytesOf 1 (stateValue s id) ++ freePdr id 1 2) s
    else pldm 0 ([1, 2, 0] ++ freePdr id 1 2) s
  else pldm 0x80 [] s

/-! ### PDRs (16 R483) -/

/-- The record handles, one PDR for each sensor in the order of Table 151. -/
def pdrSensors : List Nat := numericIds ++ stateIds

/-- The body of a numeric sensor's PDR. -/
def numericPdr (s : State) (id : Nat) : List Byte :=
  let ps := pointsOf s id
  freePdr id 0 2 ++ bytesOf 2 id ++ freePdr id 2 8 ++ bytesOf 1 (unitOf id).1 ++ bytesOf 1 ((unitOf id).2 % 256).toNat
  ++ freePdr id 10 7 ++ [1, 5] ++ freePdr id 17 16 ++ [if ps.isEmpty then 0 else 3] ++ freePdr id 33 31
  ++ int32 (ps.getD 0 0) ++ freePdr id 64 4 ++ int32 (ps.getD 1 0) ++ freePdr id 68 12

/-- The body of a state sensor's PDR. -/
def statePdr (id : Nat) : List Byte := freePdr id 0 2 ++ bytesOf 2 id ++ freePdr id 2 8 ++ [1] ++ freePdr id 10 4

/-- The PDR of a sensor: the common header and its body. -/
def pdrOf (s : State) (handle id : Nat) : List Byte :=
  let body := if id ∈ numericIds then numericPdr s id else statePdr id
  bytesOf 4 handle ++ [1] ++ [if id ∈ numericIds then 2 else 4] ++ bytesOf 2 0 ++ bytesOf 2 body.length ++ body

/-- GetPDR: handle 0 names the first record; the answer carries the next record's handle, 0 after the last. -/
def getPdr (handle : Nat) (s : State) : State :=
  let h := if handle = 0 then 1 else handle
  match pdrSensors[h - 1]? with
  | none => pldm 0x82 [] s
  | some id =>
    let d := pdrOf s h id
    pldm 0 (bytesOf 4 (if h < pdrSensors.length then h + 1 else 0) ++ bytesOf 4 0 ++ [5] ++ bytesOf 2 d.length ++ d) s

/-- GetPDRRepositoryInfo. -/
def repositoryInfo (s : State) : List Byte :=
  let sizes := (List.range pdrSensors.length).map (fun i => (pdrOf s (i + 1) (pdrSensors.getD i 0)).length)
  [0] ++ freePdr 0 0 26 ++ bytesOf 4 pdrSensors.length ++ bytesOf 4 (sumOf sizes) ++ bytesOf 4 (sizes.foldl max 0) ++ freePdr 0 26 1

/-! ### The rows -/

/-- SET_ENDPOINT_ID. -/
def execSetEndpointId (eid : Byte) (s : State) : Result :=
  onMctp (fun x => emit (.pldm [0, 0, eid, 0]) { x with tele := { x.tele with eid := some eid } }) s

/-- ENTDAA. -/
def execEntdaa (addr : BitVec 7) (s : State) : Result := onTarget (takeAddress addr) s

/-- SETDASA: at the target's static address. -/
def execSetdasa (staticAddr addr : BitVec 7) (s : State) : Result :=
  onTarget (fun x => if staticAddr = staticAddress x then takeAddress addr x else x) s

/-- GET_TID. -/
def execGetTid (s : State) : Result := onMctp (pldm 0 [Config.pldmTid]) s

/-- GET_PLDM_VERSION. -/
def execGetPldmVersion (type : Byte) (s : State) : Result := onMctp (pldmVersion type.toNat) s

/-- GET_PLDM_TYPES. -/
def execGetPldmTypes (s : State) : Result := onMctp (pldm 0 (bitSet 8 pldmTypes)) s

/-- GET_PLDM_COMMANDS. -/
def execGetPldmCommands (type : Byte) (s : State) : Result := onMctp (pldmCommandSet type.toNat) s

/-- GET_PDR_REPOSITORY_INFO. -/
def execGetPdrRepositoryInfo (s : State) : Result := onMctp (fun x => pldm 0 (repositoryInfo x) x) s

/-- GET_PDR. -/
def execGetPdr (handle : Nat) (s : State) : Result := onMctp (getPdr handle) s

/-- GET_SENSOR_READING. -/
def execGetSensorReading (id : Nat) (s : State) : Result := onMctp (sensorReading id) s

/-- GET_STATE_SENSOR_READINGS. -/
def execGetStateSensorReadings (id : Nat) (s : State) : Result := onMctp (stateReadings id) s

/-- SET_EVENT_RECEIVER. -/
def execSetEventReceiver (eid : Byte) (s : State) : Result :=
  onMctp (fun x => pldm 0 [] { x with tele := { x.tele with receiver := some eid } }) s

end Sys2Proof.Machine
end

