-- ==== Sys2Proof/Machine/Dispatch.lean ====
section
/-! DEFINITION. The dispatch of commands: one arm a row of spec/opcode_table.json, in its order. -/
namespace Sys2Proof.Machine

def exec (i : Instr) (s : State) : Host.Outcome State Fault Refusal :=
  match i with
  | .porAssert => Sys2Proof.Machine.execPorAssert s
  | .porRelease addrSel clkMode refclk => Sys2Proof.Machine.execPorRelease addrSel clkMode refclk s
  | .perstAssert lowNs => Sys2Proof.Machine.execPerstAssert lowNs s
  | .perstRelease addrSel clkMode refclk => Sys2Proof.Machine.execPerstRelease addrSel clkMode refclk s
  | .inputLossDeclared mv ns => Sys2Proof.Machine.execInputLossDeclared mv ns s
  | .inputRestored minMv maxMv ns addrSel clkMode refclk => Sys2Proof.Machine.execInputRestored minMv maxMv ns addrSel clkMode refclk s
  | .flushComplete => Sys2Proof.Machine.execFlushComplete s
  | .linkReset e tr => Sys2Proof.Machine.execLinkReset e tr s
  | .islandRelease xi cycles ns => Sys2Proof.Machine.execIslandRelease xi cycles ns s
  | .islandClockGoodTimeout xi => Sys2Proof.Machine.execIslandClockGoodTimeout xi s
  | .stageS0 => Sys2Proof.Machine.execStageS0 s
  | .stageS1 procFail puf tr => Sys2Proof.Machine.execStageS1 procFail puf tr s
  | .stageS2 => Sys2Proof.Machine.execStageS2 s
  | .stageS3 r => Sys2Proof.Machine.execStageS3 r s
  | .stageS4 readable => Sys2Proof.Machine.execStageS4 readable s
  | .holdupBankCharged cells => Sys2Proof.Machine.execHoldupBankCharged cells s
  | .stageS5 => Sys2Proof.Machine.execStageS5 s
  | .stageTimeout restarts => Sys2Proof.Machine.execStageTimeout restarts s
  | .watchdogExpiry duty => Sys2Proof.Machine.execWatchdogExpiry duty s
  | .goSubmitNop trs rid desc => Sys2Proof.Machine.execGoSubmitNop trs rid desc s
  | .read trs rid desc => Sys2Proof.Machine.execRead trs rid desc s
  | .write trs rid desc => Sys2Proof.Machine.execWrite trs rid desc s
  | .flush trs rid desc => Sys2Proof.Machine.execFlush trs rid desc s
  | .release trs rid desc => Sys2Proof.Machine.execRelease trs rid desc s
  | .bind trs rid desc => Sys2Proof.Machine.execBind trs rid desc s
  | .unbind trs rid desc => Sys2Proof.Machine.execUnbind trs rid desc s
  | .park trs rid desc => Sys2Proof.Machine.execPark trs rid desc s
  | .extend trs rid desc => Sys2Proof.Machine.execExtend trs rid desc s
  | .recallContext trs rid desc => Sys2Proof.Machine.execRecallContext trs rid desc s
  | .attend trs rid desc => Sys2Proof.Machine.execAttend trs rid desc s
  | .drop trs rid desc => Sys2Proof.Machine.execDrop trs rid desc s
  | .warmFrames trs rid desc => Sys2Proof.Machine.execWarmFrames trs rid desc s
  | .warmPromote trs rid desc => Sys2Proof.Machine.execWarmPromote trs rid desc s
  | .search trs rid desc => Sys2Proof.Machine.execSearch trs rid desc s
  | .insert trs rid desc => Sys2Proof.Machine.execInsert trs rid desc s
  | .delete trs rid desc => Sys2Proof.Machine.execDelete trs rid desc s
  | .merge trs rid desc => Sys2Proof.Machine.execMerge trs rid desc s
  | .collectionCreate trs rid desc => Sys2Proof.Machine.execCollectionCreate trs rid desc s
  | .collectionDestroy trs rid desc => Sys2Proof.Machine.execCollectionDestroy trs rid desc s
  | .collectionDescribe trs rid desc => Sys2Proof.Machine.execCollectionDescribe trs rid desc s
  | .filter trs rid desc => Sys2Proof.Machine.execFilter trs rid desc s
  | .embed trs rid desc => Sys2Proof.Machine.execEmbed trs rid desc s
  | .chainFilterEmbedInsert trs rid desc => Sys2Proof.Machine.execChainFilterEmbedInsert trs rid desc s
  | .chainEmbedSearch trs rid desc => Sys2Proof.Machine.execChainEmbedSearch trs rid desc s
  | .counters trs rid desc => Sys2Proof.Machine.execCounters trs rid desc s
  | .digestRead trs rid desc => Sys2Proof.Machine.execDigestRead trs rid desc s
  | .next trs rid value => Sys2Proof.Machine.execNext trs rid value s
  | .qreset trs rid value => Sys2Proof.Machine.execQreset trs rid value s
  | .qresetComplete trs => Sys2Proof.Machine.execQresetComplete trs s
  | .lockEntryFreed => Sys2Proof.Machine.execLockEntryFreed s
  | .conflictCleared trs id => Sys2Proof.Machine.execConflictCleared trs id s
  | .acceptanceWaitEnd => Sys2Proof.Machine.execAcceptanceWaitEnd s
  | .commandFinish trs id => Sys2Proof.Machine.execCommandFinish trs id s
  | .dmaCompletionArrival trs id addr outcome => Sys2Proof.Machine.execDmaCompletionArrival trs id addr outcome s
  | .completionTimeout trs id => Sys2Proof.Machine.execCompletionTimeout trs id s
  | .inactivityTimeout trs id => Sys2Proof.Machine.execInactivityTimeout trs id s
  | .holdoffExpiry vector => Sys2Proof.Machine.execHoldoffExpiry vector s
  | .msixUnmask vector => Sys2Proof.Machine.execMsixUnmask vector s
  | .tbSetWrite off width value => Sys2Proof.Machine.execTbSetWrite off width value s
  | .tbNowRead bar off width => Sys2Proof.Machine.execTbNowRead bar off width s
  | .registerWrite bar off width value rid => Sys2Proof.Machine.execRegisterWrite bar off width value rid s
  | .hdmDecoderCommit dec base units ways skip biEnable => Sys2Proof.Machine.execHdmDecoderCommit dec base units ways skip biEnable s
  | .cxlMemWrite dpa bytes poison => Sys2Proof.Machine.execCxlMemWrite dpa bytes poison s
  | .cxlMemRead dpa len => Sys2Proof.Machine.execCxlMemRead dpa len s
  | .bisnpResponse base => Sys2Proof.Machine.execBisnpResponse base s
  | .stepDoorbell dpa value => Sys2Proof.Machine.execStepDoorbell dpa value s
  | .stageDoorbell dpa value => Sys2Proof.Machine.execStageDoorbell dpa value s
  | .frameFillComplete frame => Sys2Proof.Machine.execFrameFillComplete frame s
  | .heatWindowClose => Sys2Proof.Machine.execHeatWindowClose s
  | .heatLayerComplete trs id => Sys2Proof.Machine.execHeatLayerComplete trs id s
  | .joinDeferralTimeout trs id => Sys2Proof.Machine.execJoinDeferralTimeout trs id s
  | .warmFrameExpiry frame => Sys2Proof.Machine.execWarmFrameExpiry frame s
  | .transientFramePlaced frame => Sys2Proof.Machine.execTransientFramePlaced frame s
  | .flatScanEnd cid => Sys2Proof.Machine.execFlatScanEnd cid s
  | .annealRoundStart cid => Sys2Proof.Machine.execAnnealRoundStart cid s
  | .annealRoundCommit cid => Sys2Proof.Machine.execAnnealRoundCommit cid s
  | .epochPagesFreed cid epoch => Sys2Proof.Machine.execEpochPagesFreed cid epoch s
  | .batchComplete batch ok => Sys2Proof.Machine.execBatchComplete batch ok s
  | .tileDispatch core eng part lines ops => Sys2Proof.Machine.execTileDispatch core eng part lines ops s
  | .tileComplete core eng part ops failed => Sys2Proof.Machine.execTileComplete core eng part ops failed s
  | .stationarySwap core eng part ops => Sys2Proof.Machine.execStationarySwap core eng part ops s
  | .semaphoreAcquire core eng part sem => Sys2Proof.Machine.execSemaphoreAcquire core eng part sem s
  | .semaphoreRelease core eng part sem => Sys2Proof.Machine.execSemaphoreRelease core eng part sem s
  | .semaphoreHoldTimeout core eng part sem => Sys2Proof.Machine.execSemaphoreHoldTimeout core eng part sem s
  | .preemptionEscalation core eng => Sys2Proof.Machine.execPreemptionEscalation core eng s
  | .engineLevelSave core eng => Sys2Proof.Machine.execEngineLevelSave core eng s
  | .engineIdleStop core eng => Sys2Proof.Machine.execEngineIdleStop core eng s
  | .partitionFaultDetected core eng part place => Sys2Proof.Machine.execPartitionFaultDetected core eng part place s
  | .onlineCheckComplete core eng failed => Sys2Proof.Machine.execOnlineCheckComplete core eng failed s
  | .coreControlFault core => Sys2Proof.Machine.execCoreControlFault core s
  | .engineKatTimer => Sys2Proof.Machine.execEngineKatTimer s
  | .processorFault p dutyReadable => Sys2Proof.Machine.execProcessorFault p dutyReadable s
  | .processorProgressTimeout p dutyReadable => Sys2Proof.Machine.execProcessorProgressTimeout p dutyReadable s
  | .promotionCommit page verified => Sys2Proof.Machine.execPromotionCommit page verified s
  | .lowWaterEviction stack => Sys2Proof.Machine.execLowWaterEviction stack s
  | .idleDemotion page => Sys2Proof.Machine.execIdleDemotion page s
  | .t2Fold => Sys2Proof.Machine.execT2Fold s
  | .collectionReload => Sys2Proof.Machine.execCollectionReload s
  | .demotedDramFreed page => Sys2Proof.Machine.execDemotedDramFreed page s
  | .journalFlushTimer => Sys2Proof.Machine.execJournalFlushTimer s
  | .nandProgramComplete units => Sys2Proof.Machine.execNandProgramComplete units s
  | .nandProgramFail addr lost => Sys2Proof.Machine.execNandProgramFail addr lost s
  | .nandReadComplete unit addr outcome checkOk => Sys2Proof.Machine.execNandReadComplete unit addr outcome checkOk s
  | .nandEraseComplete island pos block failed => Sys2Proof.Machine.execNandEraseComplete island pos block failed s
  | .nandOperationTimeout chan pos => Sys2Proof.Machine.execNandOperationTimeout chan pos s
  | .suspendMinRunReached chan pos => Sys2Proof.Machine.execSuspendMinRunReached chan pos s
  | .readServiceExpiry chan pos => Sys2Proof.Machine.execReadServiceExpiry chan pos s
  | .flushReserveRestored => Sys2Proof.Machine.execFlushReserveRestored s
  | .gcStart island => Sys2Proof.Machine.execGcStart island s
  | .slcFold => Sys2Proof.Machine.execSlcFold s
  | .checkpointCycle => Sys2Proof.Machine.execCheckpointCycle s
  | .wearLevelCheck => Sys2Proof.Machine.execWearLevelCheck s
  | .flashScanRead addr outcome bits checkOk => Sys2Proof.Machine.execFlashScanRead addr outcome bits checkOk s
  | .writeOriginWindowExpiry trs seq => Sys2Proof.Machine.execWriteOriginWindowExpiry trs seq s
  | .dramCorrectableError chan segment hard place => Sys2Proof.Machine.execDramCorrectableError chan segment hard place s
  | .sramCorrectableError region ram word hard => Sys2Proof.Machine.execSramCorrectableError region ram word hard s
  | .bucketLeak => Sys2Proof.Machine.execBucketLeak s
  | .uncorrectableError region place => Sys2Proof.Machine.execUncorrectableError region place s
  | .dramPatrolRead chan segment error hard place => Sys2Proof.Machine.execDramPatrolRead chan segment error hard place s
  | .sramPatrol found => Sys2Proof.Machine.execSramPatrol found s
  | .laneRetrain link outFailed inFailed => Sys2Proof.Machine.execLaneRetrain link outFailed inFailed s
  | .governorSample g => Sys2Proof.Machine.execGovernorSample g s
  | .governorDecision => Sys2Proof.Machine.execGovernorDecision s
  | .quenchOvercurrent ma => Sys2Proof.Machine.execQuenchOvercurrent ma s
  | .quenchExcursion => Sys2Proof.Machine.execQuenchExcursion s
  | .timebaseFullValue => Sys2Proof.Machine.execTimebaseFullValue s
  | .holdupCellMeasurement cap res => Sys2Proof.Machine.execHoldupCellMeasurement cap res s
  | .erCtlWrite value => Sys2Proof.Machine.execErCtlWrite value s
  | .erOffer version precode => Sys2Proof.Machine.execErOffer version precode s
  | .erAccept version precode => Sys2Proof.Machine.execErAccept version precode s
  | .erOfferTimeout => Sys2Proof.Machine.execErOfferTimeout s
  | .erRecoverySpeed => Sys2Proof.Machine.execErRecoverySpeed s
  | .erLockAchieved markers => Sys2Proof.Machine.execErLockAchieved markers s
  | .erEqTimeout lockFailed => Sys2Proof.Machine.execErEqTimeout lockFailed s
  | .erErrorRateFallback lane count => Sys2Proof.Machine.execErErrorRateFallback lane count s
  | .erMarkerLossFallback lane misses => Sys2Proof.Machine.execErMarkerLossFallback lane misses s
  | .doeDiscovery index => Sys2Proof.Machine.execDoeDiscovery index s
  | .cdatTableAccess entry => Sys2Proof.Machine.execCdatTableAccess entry s
  | .doeAttestation payload => Sys2Proof.Machine.execDoeAttestation payload s
  | .getEventRecords log => Sys2Proof.Machine.execGetEventRecords log s
  | .clearEventRecords log all handles => Sys2Proof.Machine.execClearEventRecords log all handles s
  | .getEventInterruptPolicy => Sys2Proof.Machine.execGetEventInterruptPolicy s
  | .setEventInterruptPolicy settings => Sys2Proof.Machine.execSetEventInterruptPolicy settings s
  | .getTimestamp => Sys2Proof.Machine.execGetTimestamp s
  | .setTimestamp value => Sys2Proof.Machine.execSetTimestamp value s
  | .getSupportedLogs => Sys2Proof.Machine.execGetSupportedLogs s
  | .getLog uuid offset len => Sys2Proof.Machine.execGetLog uuid offset len s
  | .identifyMemoryDevice => Sys2Proof.Machine.execIdentifyMemoryDevice s
  | .sanitize => Sys2Proof.Machine.execSanitize s
  | .sanitizeDrained => Sys2Proof.Machine.execSanitizeDrained s
  | .claimOwner payload => Sys2Proof.Machine.execClaimOwner payload s
  | .releaseOwner payload => Sys2Proof.Machine.execReleaseOwner payload s
  | .patternStageBegin payload => Sys2Proof.Machine.execPatternStageBegin payload s
  | .patternStageData payload dma => Sys2Proof.Machine.execPatternStageData payload dma s
  | .patternStageCommit payload => Sys2Proof.Machine.execPatternStageCommit payload s
  | .attest payload => Sys2Proof.Machine.execAttest payload s
  | .startLogRead payload => Sys2Proof.Machine.execStartLogRead payload s
  | .countersGlobal payload => Sys2Proof.Machine.execCountersGlobal payload s
  | .patternWindow => Sys2Proof.Machine.execPatternWindow s
  | .pwKey value => Sys2Proof.Machine.execPwKey value s
  | .pwProgram => Sys2Proof.Machine.execPwProgram s
  | .pwErase => Sys2Proof.Machine.execPwErase s
  | .norProgramComplete ok => Sys2Proof.Machine.execNorProgramComplete ok s
  | .norEraseComplete ok => Sys2Proof.Machine.execNorEraseComplete ok s
  | .norEraseSuspend runNs => Sys2Proof.Machine.execNorEraseSuspend runNs s
  | .norEraseResume readPending suspendedNs => Sys2Proof.Machine.execNorEraseResume readPending suspendedNs s
  | .setEndpointId eid => Sys2Proof.Machine.execSetEndpointId eid s
  | .entdaa addr => Sys2Proof.Machine.execEntdaa addr s
  | .setdasa staticAddr addr => Sys2Proof.Machine.execSetdasa staticAddr addr s
  | .getTid => Sys2Proof.Machine.execGetTid s
  | .getPldmVersion type => Sys2Proof.Machine.execGetPldmVersion type s
  | .getPldmTypes => Sys2Proof.Machine.execGetPldmTypes s
  | .getPldmCommands type => Sys2Proof.Machine.execGetPldmCommands type s
  | .getPdrRepositoryInfo => Sys2Proof.Machine.execGetPdrRepositoryInfo s
  | .getPdr handle => Sys2Proof.Machine.execGetPdr handle s
  | .getSensorReading id => Sys2Proof.Machine.execGetSensorReading id s
  | .getStateSensorReadings id => Sys2Proof.Machine.execGetStateSensorReadings id s
  | .setEventReceiver eid => Sys2Proof.Machine.execSetEventReceiver eid s
  | .invalidOpcode trs rid desc => Sys2Proof.Machine.execInvalidOpcode trs rid desc s
  | .unsupportedMailboxOpcode opcode payload => Sys2Proof.Machine.execUnsupportedMailboxOpcode opcode payload s
  | .refusedBar2Access trs off width rid => Sys2Proof.Machine.execRefusedBar2Access trs off width rid s
  | .partnerErFallback => Sys2Proof.Machine.execPartnerErFallback s

end Sys2Proof.Machine
end

