-- ==== Sys2Proof/Safety.lean ====
section
/-! DEFINITION. What a safe state of the block is, in the terms that claims use: the standing rules of the port, the registers and the
start that hold between any two commands, and when a step stops. -/
namespace Sys2Proof.Machine

/-- The port's standing: the committed decoders fit the aperture and decoder 1 follows decoder 0 (02 R43), ER_CTL holds its three
fields (02 Table 20), and each BAR lies at a multiple of its size (02 Table 14). -/
structure PortLawful (l : Link) : Prop where
  aperture : l.dec0.getD 0 + l.dec1.getD 0 ≤ 954
  order : l.dec1.isSome = true → l.dec0.isSome = true
  erReserved : l.erCtl &&& 7 = l.erCtl
  bar0 : ∀ a, l.bar0 = some a → a.toNat % 0x80000 = 0
  bar2 : ∀ a, l.bar2 = some a → a.toNat % 0x1000000 = 0
  bar4 : ∀ a, l.bar4 = some a → a.toNat % 0x10000000 = 0

/-- The start's standing: START_STATE names a stage (02 Table 15), service is stage S5 with Memory_Active set (02 R49, 13 R387), Fettle
mode has a reason, no Memory_Active and a ready mailbox (02 R49, 13 R400, Table 121), and FETTLE_REASON is 0 in a start and in service
(02 Table 15), as it is where a reset holds with no flush running (13 Table 113). -/
structure StartLawful (b : Boot) : Prop where
  stage : b.stage ≤ 5
  service : b.mode = .service → b.stage = 5 ∧ b.memActive = true ∧ b.mediaReady = true
  fettle : b.mode = .fettle → 1 ≤ b.fettleReason.toNat ∧ b.fettleReason.toNat ≤ 7 ∧ b.memActive = false ∧ b.mediaReady = false
    ∧ b.mailboxReady = true
  reason : b.mode = .starting ∨ b.mode = .service ∨ b.mode = .halted → b.fettleReason = 0
  starting : b.mode = .starting → b.memActive = false
  atRest : b.mode = .inReset → b.flushing = false → b.memActive = false ∧ b.fettleReason = 0

/-- The standing rules: port, start, and a reset cause that is POWER_ON or PIN (13 R385). -/
structure Lawful (s : State) : Prop where
  port : PortLawful s.link
  start : StartLawful s.boot
  cause : s.aon.rstLastCause = 1 ∨ s.aon.rstLastCause = 2

/-- The block goes on: a step answers a next state. -/
def Goes (s : State) : Prop := ∃ t, step s = .next t

end Sys2Proof.Machine
end

