-- ==== Sys2Proof/Certificates/Slice0/Obligations.lean ====
section
/-! DEFINITION. The statements for the provers: what the rules of spec/ say that each command does, its frame, and the standing rules of
the block. A frame reads `t = the state before with the named parts of t`: everything else is as it was. -/

namespace Sys2Proof

/-- The rows that can change what the device does as a whole: resets, stages, failed islands, expiry, a failed bank. -/
def Instr.movesMode : Instr → Bool
  | .porAssert | .porRelease _ _ _ | .perstAssert _ | .perstRelease _ _ _ | .inputLossDeclared _ _ | .inputRestored _ _ _ _ _ _
  | .flushComplete | .islandClockGoodTimeout _ | .stageS1 _ _ _ | .stageS2 | .stageS3 _ | .stageS4 _ | .holdupBankCharged _ | .stageS5
  | .stageTimeout _ | .watchdogExpiry _ | .processorFault _ _ | .processorProgressTimeout _ _ | .uncorrectableError _ _
  | .holdupCellMeasurement _ _ => true
  | _ => false

namespace Machine

/-- The always-on island while POR holds: the latches and the timebase at 0, the POR-seen latch set, the straps as sampled (13 Table 113,
R385). -/
def powerOnIsland (a : Aon) : Aon :=
  { timebase := 0, tbCapture := 0, tbHeldLow := none, rstLastCause := 1, porSeen := true, porAsserted := true,
    pinAsserted := a.pinAsserted, s1Fail := false, wdLatch := false, pinAbort := none, stageStart := 0, addrSel := a.addrSel,
    clkMode := a.clkMode, refclkUsed := a.refclkUsed, crystalGood := false, tbFromHost := false }

/-- What a reset leaves: everything at its reset value but the always-on island, the bank, the flash's contents and the objects in it
(13 Table 113). -/
def AfterReset (s t : State) : Prop :=
  t.boot = { mode := .inReset } ∧ t.isl = {} ∧ t.tun = {} ∧ t.trs = [] ∧ t.cmd = {} ∧ t.pol = {} ∧ t.heat = {} ∧ t.core = {}
  ∧ t.integ = {} ∧ t.tele = {} ∧ t.link = { erCounts := if t.aon.porSeen then 0 else s.link.erCounts }
  ∧ t.gov.cells = s.gov.cells ∧ t.gov.powerLost = s.gov.powerLost
  ∧ t.fl.data = s.fl.data ∧ t.fl.base = s.fl.base ∧ t.fl.sbs = s.fl.sbs ∧ t.fl.blocks = s.fl.blocks ∧ t.fl.wbuf = []
  ∧ t.ctx.recs = s.ctx.recs ∧ t.pending = s.pending ∧ t.outbox = s.outbox

/-- The device starts and runs stage `n`. -/
def Starting (n : Nat) (s : State) : Prop := s.boot.mode = .starting ∧ s.boot.stage = n

/-- The processors have halted with FAULT# asserted, and S1_FAIL is latched (13 Table 116). -/
def HaltedInS1 (s t : State) : Prop :=
  t.boot = { s.boot with mode := .halted, faultPin := true } ∧ t.aon = { s.aon with s1Fail := true } ∧ t.nor = s.nor ∧ t.link = s.link

/-- Fettle mode with a reason (13 R400, Table 121, 02 R49). -/
def InFettle (reason : Nat) (t : State) : Prop :=
  t.boot.mode = .fettle ∧ t.boot.fettleReason = BitVec.ofNat 8 reason ∧ t.boot.mailboxReady = true ∧ t.boot.memActive = false
  ∧ t.boot.mediaReady = false ∧ t.boot.wdRunning = true ∧ (∀ i ∈ t.isl.released, i = .alwaysOn ∨ i = .hub ∨ i = .link)

/-- The state of S2 once the start's word is consumed and the start log and health records are found. -/
def stageTwo (s : State) : State :=
  addDetail 2 (procMap (consumeWord s)) { consumeWord s with tele := { (consumeWord s).tele with
    ringPos := ringFind (consumeWord s), healthPos := (healthRead (consumeWord s)).2 } }

/-- A clock-good timeout of island `i` has an effect: the stage that waits for it, or an engine that serves (13 Table 116). -/
def timeoutCounts (s : State) : Island → Bool
  | .alwaysOn => false
  | .hub | .link => decide (s.boot.mode = .starting ∧ s.boot.stage = 1)
  | .core n => decide (s.boot.mode = .starting ∧ s.boot.stage = 3 ∧ n < 16)
  | .flash n => decide (s.boot.mode = .starting ∧ s.boot.stage = 3 ∧ n < 8)
  | .engine c e => decide (s.boot.mode = .starting) || (decide (s.boot.mode = .service) && inService (getEngine s c e))

/-- The count F of failed starts in a row (13 R397). -/
def failuresInRow (s : State) : Nat :=
  ((consumeWord s).boot.logBlock.map (fun b => countFailures (consumeWord s) 255 ((b + 255) % 256))).getD 0

/-- The slot that S2 uses: the first that verifies, in the order of 13 R391 and R392. -/
def slotUsed (s : State) : Option Slot :=
  (tryOrder (stageTwo s) (decide (failuresInRow s = 2))).find? (fun x => decide (verifySlot (stageTwo s) x = 0))

/-- Engines of each core that S3 forms: seven in an L, or where a core has lost three, else eight (00 R4, R5, 07 R239). -/
def enginesACore (s : State) (r : S3Report) : Nat :=
  if Config.markedL || (List.range 16).any (fun c => decide (2 < (engFails (tested r s) r c).length)) then 7 else 8

end Machine
end Sys2Proof

open Sys2Proof Sys2Proof.Machine
namespace Sys2Proof

/-- The first of two or three rows of one opcode carries selectors 0 and those out of range (log 6). -/
def firstSelector (d : Desc) (b last : Nat) : Desc :=
  if 1 ≤ Machine.fld d b 1 ∧ Machine.fld d b 1 ≤ last then Machine.setDescByte d b 0 else d

/-- The page, requester and descriptor of a row that submits a command, with the row's opcode (03 Table 28) and selector. -/
def Instr.command : Instr → Option (Nat × BitVec 16 × Desc)
  | .goSubmitNop t r d => some (t, r, Machine.setDescByte d 0 0x00)
  | .read t r d => some (t, r, Machine.setDescByte d 0 0x01)
  | .write t r d => some (t, r, Machine.setDescByte d 0 0x02)
  | .flush t r d => some (t, r, Machine.setDescByte d 0 0x03)
  | .release t r d => some (t, r, Machine.setDescByte d 0 0x04)
  | .park t r d => some (t, r, Machine.setDescByte d 0 0x10)
  | .extend t r d => some (t, r, Machine.setDescByte d 0 0x11)
  | .recallContext t r d => some (t, r, Machine.setDescByte d 0 0x12)
  | .attend t r d => some (t, r, Machine.setDescByte d 0 0x13)
  | .drop t r d => some (t, r, Machine.setDescByte d 0 0x14)
  | .warmFrames t r d => some (t, r, Machine.setDescByte (firstSelector d 12 1) 0 0x15)
  | .warmPromote t r d => some (t, r, Machine.setDescByte (Machine.setDescByte d 12 1) 0 0x15)
  | .search t r d => some (t, r, Machine.setDescByte d 0 0x20)
  | .insert t r d => some (t, r, Machine.setDescByte d 0 0x21)
  | .delete t r d => some (t, r, Machine.setDescByte d 0 0x22)
  | .merge t r d => some (t, r, Machine.setDescByte d 0 0x23)
  | .collectionCreate t r d => some (t, r, Machine.setDescByte (firstSelector d 8 2) 0 0x24)
  | .collectionDestroy t r d => some (t, r, Machine.setDescByte (Machine.setDescByte d 8 1) 0 0x24)
  | .collectionDescribe t r d => some (t, r, Machine.setDescByte (Machine.setDescByte d 8 2) 0 0x24)
  | .filter t r d => some (t, r, Machine.setDescByte d 0 0x30)
  | .embed t r d => some (t, r, Machine.setDescByte d 0 0x31)
  | .chainFilterEmbedInsert t r d => some (t, r, Machine.setDescByte (firstSelector d 8 1) 0 0x32)
  | .chainEmbedSearch t r d => some (t, r, Machine.setDescByte (Machine.setDescByte d 8 1) 0 0x32)
  | .counters t r d => some (t, r, Machine.setDescByte d 0 0x40)
  | .digestRead t r d => some (t, r, Machine.setDescByte d 0 0x41)
  | .bind t r d => some (t, r, Machine.setDescByte (firstSelector d 8 1) 0 0x50)
  | .unbind t r d => some (t, r, Machine.setDescByte (Machine.setDescByte d 8 1) 0 0x50)
  | .invalidOpcode t r d => some (t, r, if Machine.fld d 0 1 ∈ Machine.opcodes then Machine.setDescByte d 0 0xFF else d)
  | _ => none

namespace Machine

/-- A page whose command `d` has just been submitted with nothing held: GO-arrival number, PENDING, BUSY 0 (03 R72). -/
def arrived (s : State) (p : Nat) (d : Desc) : State :=
  setTrs p { getTrs s p with command := d, busy := false, held := [{ id := s.cmd.goCount, desc := d }] }
    { s with cmd := { s.cmd with goCount := s.cmd.goCount + 1 } }

/-- The same command accepted and RUNNING: acceptance number, reservation and range-lock entry taken, CURRENT copied to LAST and cleared
by the start event (03 R76, R77, R85, 16 R466). -/
def begun (s : State) (p : Nat) (d : Desc) : State :=
  let x := getColl s (objOf d)
  let q := settleElapsed (now s) (getTrs s p)
  let quiet := decide (fld d 0 1 = 0x40 ∨ fld d 0 1 = 0x41)
  setTrs p { q with
      command := d, busy := false, runSince := if quiet then q.runSince else some (now s),
      lastSet := if quiet then q.lastSet else q.current, current := if quiet then q.current else {},
      sampleSeq := if quiet then q.sampleSeq else q.sampleSeq + 1,
      held := [{ id := s.cmd.goCount, desc := d, phase := .running, acceptNo := s.cmd.acceptCount + 1, resv := resvOf (arrived s p d) p d,
                 search := if fld d 0 1 = 0x20 ∨ fld d 0 1 = 0x32 ∧ fld d 8 1 = 1
                           then some { coll := objOf d, epoch := x.epochNo, commitSeq := x.commitSeq } else none,
                 mergeSeq := x.commitSeq }] }
    { s with
      cmd := { s.cmd with goCount := s.cmd.goCount + 1, acceptCount := s.cmd.acceptCount + 1,
                          locks := (match lockOf s d with
                            | some l => [{ trs := p, id := s.cmd.goCount, acceptNo := s.cmd.acceptCount + 1, excl := l.1, ranges := l.2 }]
                            | none => []) },
      ctx := { s.ctx with accepts := if fld d 0 1 = 0x13 then s.ctx.accepts ++ [(handleIdx (objOf d), now s)] else s.ctx.accepts } }

/-- A page that admits the requester in service, with nothing held on it and no range locked anywhere. -/
def OpenPage (s : State) (p : Nat) (rid : BitVec 16) : Prop :=
  p < 4096 ∧ s.boot.mode = .service ∧ decodes s s.link.bar2 = true ∧ admits s p rid = true ∧ (getTrs s p).held = []
  ∧ (getTrs s p).resetting = false ∧ s.cmd.locks = [] ∧ (allHeld s).all (fun e => !e.2.waitLock) = true

/-- The page is open and the command passes every check of 03 Table 27 and starts at once. -/
def Starts (s : State) (p : Nat) (rid : BitVec 16) (d : Desc) : Prop :=
  OpenPage s p rid ∧ earlyFail (arrived s p d) p d = none ∧ waitsAtSeven s d = false ∧ resourceFail (arrived s p d) p d = none
  ∧ objectGone s d = none ∧ startFail (begun s p d) d = none

/-- The flash without the buffered units that a command had not committed: its ending abandons them (11 R329). -/
def withoutEarly (id : Nat) (f : Flash) : Flash := { f with wbuf := f.wbuf.filter (fun b => b.cmd != some id) }

/-- The tundish with one more placed region (02 R44); late input to lines that stood there before is known no longer. -/
def placed (r : Region) (u : Tundish) : Tundish :=
  { u with regions := u.regions ++ [r], dead := u.dead.filter (fun x => !overlap r.base r.len x.1 x.2) }

/-- A command's ending is decided: COMMAND_FINISH reports it. -/
def Decided (t : State) (p id : Nat) (st : Byte) (res : Nat) : Prop :=
  (heldOf t p id).bind (fun h => h.ending) = some ⟨st, BitVec.ofNat 64 res⟩

/-- A command's report as DONE or ERROR (03 R76). -/
def Reported (t : State) (p id : Nat) (st : Byte) (res : BitVec 64) : Prop :=
  ∃ h, heldOf t p id = some h ∧ h.phase = endPhase st ∧ h.status = st ∧ h.result = res ∧ h.ending = none ∧ h.resv = none

/-- The reads of `n` bytes at a bus address: none crosses a 4,096-byte boundary (02 Table 13). -/
def fetch (a n : Nat) : List (Nat × Nat) := dmaReads a n

/-- The command `c` of page `p` runs and has just issued the reads `rs`; the cores are as given; everything else is as at its start. -/
def Fetches (r : Result) (s : State) (p : Nat) (c : Desc) (rs : List (Nat × Nat)) (k : Cores) : Prop :=
  r = .next { begun s p c with
    core := k,
    outbox := s.outbox ++ hostReads s rs,
    trs := SMap.modify {} (begun s p c).trs p (fun g => { g with held := g.held.map (fun h => { h with reads := rs }) }) }

/-- The reads of the check values of a PARK or EXTEND with PCHK = 1. -/
def checkReads (x : Shape) (c : Desc) : List (Nat × Nat) :=
  if bitOf (fld c 1 1) 1 then fetch (fld c 48 8) (8 * (checkUnits x (srcFmt c) (fld c 24 8) (fld c 16 4)).length) else []

/-- Layers of a RECALL from its `i`-th on that can be read before the first that cannot, and the status met, OK for none. -/
def layersReadable (s : State) (x : Ctx) (c : Desc) : Nat → Nat → Nat × Byte
  | 0, i => (i, stOk)
  | n + 1, i =>
    match firstBadPage s (bitOf (fld c 1 1) 1) (layerOwners x.shape (handleIdx (objOf c)) (fld c 8 2 + i) (fld c 16 4) (fld c 20 4)) with
    | none => layersReadable s x c n (i + 1)
    | some b => (i, b.2)

/-- What the device writes for the `i`-th layer of a RECALL to host memory: data, check values with PCHK = 1, progress record (04 R118,
R120). -/
def recalledLayer (s : State) (x : Ctx) (c : Desc) (i : Nat) : List Out :=
  let us := layerData s x.shape (handleIdx (objOf c)) (fld c 8 2 + i) c
  let bytes := us.flatten
  hostWrites s (fld c 32 8 + i * (if fld c 12 1 = 0xF then bytes.length else fld c 24 8)) bytes true
  ++ (if bitOf (fld c 1 1) 1 then
        hostWrites s (fld c 48 8 + 8 * us.length * i) (us.flatMap (fun u => bytesOf 8 (crc64 u).toNat)) true else [])
  ++ hostWrites s (fld c 56 8) (progressRecord (fld c 32 8) (i + 1) c) false

/-- A page belongs to a collection. -/
def ownedByColl (cid : Nat) (o : Owner) : Bool :=
  match o with
  | .coll c _ _ => c == cid
  | _ => false

/-- The link has fallen back from ER to 64 GT/s with a cause: reported in ER_STATUS, one more fallback counted (02 R60, R61). -/
def FellBack (s t : State) (cause : Nat) : Prop :=
  t.link.rate = .gt64 ∧ t.link.recovery = false ∧ erActive t = false ∧ erAgreed t = false ∧ erFailed t = true ∧ erCause t = cause
  ∧ t.link.erDead = true ∧ t.link.erCounts.toNat % 2 ^ 16 = s.link.erCounts.toNat % 2 ^ 16
  ∧ t.link.erCounts.toNat / 2 ^ 16 = (s.link.erCounts.toNat / 2 ^ 16 + 1) % 2 ^ 16 ∧ Island.link ∈ t.isl.approx
  ∧ s.outbox ++ [.recoverySpeed false] <+: t.outbox ∧ t.trs = s.trs ∧ t.fl = s.fl ∧ t.tun = s.tun

/-- Every page but one is as it was. -/
def OtherPages (s t : State) (p : Nat) : Prop := ∀ q, q ≠ p → getTrs t q = getTrs s q

end Machine
end Sys2Proof

/-! ### The block as a whole -/

/-- A step runs the command at the front of the queue on the queue's rest; with an empty queue one crystal cycle of 40 ns
passes for the timebase and the engines' counters (log 1). -/
def Obligations.StepRunsFrontCommand : Prop :=
  (∀ (c : Instr) (rest : List Instr) (s : State), s.pending = c :: rest → step s = exec c { s with pending := rest })
  ∧ (∀ s : State, s.pending = [] → s.aon.crystalGood = true → s.aon.porAsserted = false →
      ∃ t, step s = .next t
        ∧ t = { s with aon := { s.aon with timebase := s.aon.timebase + 40 }, trs := t.trs, core := { s.core with cores := t.core.cores } }
        ∧ (∀ p, getTrs t p = { getTrs s p with current := { (getTrs s p).current with engCycles := (getTrs t p).current.engCycles } })
        ∧ (s.boot.mode ≠ .service → s.boot.mode ≠ .starting → t.trs = s.trs ∧ t.core = s.core)
        ∧ (∀ c e, (s.boot.mode = .service ∨ s.boot.mode = .starting) → SMap.wf {} s.core.cores = true →
            SMap.wf {} (getCore s c).engines = true → getEngine s c e ≠ {} →
            getEngine t c e = clocked s.gov.stretch (getEngine s c e)))
  ∧ (∀ s : State, s.pending = [] → (s.aon.crystalGood = false ∨ s.aon.porAsserted = true) → step s = .next s)

/-- Every command whose addresses exist goes on and leaves the queue alone; every other stops with noSuchAddress (02 R38, R43).
Model choice it rests on: log 84. -/
def Obligations.CommandsGoOnExactlyWhereAddressesExist : Prop :=
  ∀ (i : Instr) (s : State),
    (i.reaches = true → ∃ t, exec i s = .next t ∧ t.pending = s.pending)
    ∧ (i.reaches = false → exec i s = .fault .noSuchAddress)

/-- Reset leaves the block lawful, with stage S0 running, nothing queued, and every memory in canonical form.
Model choices it rests on: log 4, log 5, log 14. -/
def Obligations.ResetIsLawful : Prop :=
  Lawful State.reset ∧ State.reset.boot.mode = .starting ∧ State.reset.boot.stage = 0 ∧ State.reset.pending = []
  ∧ State.reset.aon.rstLastCause = 1 ∧ State.reset.aon.timebase = 0
  ∧ Mem.wf 0 State.reset.tun.mem = true ∧ Mem.wf 0 State.reset.fl.data = true ∧ Mem.wf 0xFF State.reset.nor.mem = true
  ∧ SMap.wf false State.reset.tun.poison = true ∧ SMap.wf ({} : Trs) State.reset.trs = true

/-- The standing rules of the port, the start and the reset cause survive every step. -/
def Obligations.LawfulKeptByEveryStep : Prop :=
  ∀ s t : State, Lawful s → step s = .next t → Lawful t

/-- Only resets, the start, an expiry and a failed bank change what the device does as a whole, and only along the arcs of chapter 13: a reset
from anywhere, reset to starting, starting to service, Fettle mode or halt, service to Fettle mode or expiry, Fettle mode to expiry.
Model choice it rests on: log 36. -/
def Obligations.ModeChangesOnlyAlongItsArcs : Prop :=
  ∀ (i : Instr) (s t : State), exec i s = .next t → t.boot.mode ≠ s.boot.mode →
    i.movesMode = true
    ∧ (t.boot.mode = .inReset
       ∨ (s.boot.mode = .inReset ∧ t.boot.mode = .starting)
       ∨ (s.boot.mode = .starting ∧ (t.boot.mode = .service ∨ t.boot.mode = .fettle ∨ t.boot.mode = .halted ∨ t.boot.mode = .expired))
       ∨ (s.boot.mode = .service ∧ (t.boot.mode = .fettle ∨ t.boot.mode = .expired))
       ∨ (s.boot.mode = .fettle ∧ t.boot.mode = .expired))

/-- The timebase moves only under POR (to 0) or by a set: no other command touches it (15 R448).
Model choice it rests on: log 1. -/
def Obligations.TimebaseChangesOnlyByResetOrSet : Prop :=
  ∀ (i : Instr) (s t : State), exec i s = .next t → t.aon.timebase ≠ s.aon.timebase →
    ((i = .porAssert ∨ ∃ mv ns, i = .inputLossDeclared mv ns) ∧ t.aon.timebase = 0)
    ∨ (∃ v, i = .setTimestamp v ∧ t.aon.timebase = v)
    ∨ (∃ off w v, i = .tbSetWrite off w v ∧ t.aon.tbFromHost = true)
    ∨ (∃ off w v r, i = .registerWrite 0 off w v r ∧ t.aon.tbFromHost = true)

/-! ### Reset (13 R383 to R385, Table 113) -/

/-- POR: the always-on island is reset with the POR-seen latch set; where data wait the flush runs first, else the reset is applied and only
what Table 113 keeps is kept. PERST#: a low below 10 µs is ignored; a longer one resets as POR does but for the always-on island, and
latches an unfinished start word's abort; its release starts the device unless POR still holds. Input loss (below 38 V for more than 5 µs,
or above 62 V) asserts POR and starts the flush with FAULT# released; the flush's end empties the write buffer and applies the reset; the
input good between 40 V and 60 V for 100 ms after it releases POR.
Model choices it rests on: log 7, log 36, log 81. -/
def Obligations.ResetsAndInputLossTakeHold : Prop :=
  (
  (∀ s : State, s.boot.flushing = false → (s.boot.mode = .service ∨ s.boot.mode = .fettle ∨ s.boot.mode = .expired) →
    exec .porAssert s = .next { s with aon := powerOnIsland s.aon, boot := { s.boot with mode := .inReset, flushing := true } })
  ∧ (∀ s : State, s.boot.flushing = true → exec .porAssert s = .next { s with aon := powerOnIsland s.aon })
  ∧ (∀ s : State, s.boot.flushing = false → (s.boot.mode = .inReset ∨ s.boot.mode = .starting ∨ s.boot.mode = .halted) →
    ∃ t, exec .porAssert s = .next t ∧ t.aon = powerOnIsland s.aon ∧ AfterReset s t)
  ∧ (∀ (s : State) (sel : BitVec 2) (clk ref : Bool), s.aon.porAsserted = true → s.gov.powerLost = false → s.aon.pinAsserted = false →
      s.boot.mode = .inReset → s.boot.flushing = false →
    exec (.porRelease sel clk ref) s = .next { s with
      boot := { s.boot with mode := .starting },
      aon := { s.aon with porAsserted := false, addrSel := sel, clkMode := clk, refclkUsed := !clk || ref, stageStart := s.aon.timebase,
                          rstLastCause := if s.aon.porSeen then 1 else 2 } })
  )
  ∧ (
  (∀ (s : State) (ns : Nat), ns < 10000 → exec (.perstAssert ns) s = .next s)
  ∧ (∀ (s : State) (ns : Nat), 10000 ≤ ns → s.aon.pinAsserted = false → s.aon.porAsserted = false → s.boot.flushing = false →
      (s.boot.mode = .service ∨ s.boot.mode = .fettle ∨ s.boot.mode = .expired) →
    exec (.perstAssert ns) s = .next { s with aon := { s.aon with pinAsserted := true, tbHeldLow := none },
                                              boot := { s.boot with mode := .inReset, flushing := true } })
  ∧ (∀ (s : State) (ns : Nat), 10000 ≤ ns → s.aon.pinAsserted = false → s.aon.porAsserted = false → s.boot.flushing = false →
      (s.boot.mode = .inReset ∨ s.boot.mode = .starting ∨ s.boot.mode = .halted) →
    ∃ t, exec (.perstAssert ns) s = .next t ∧ AfterReset s t
      ∧ t.aon = { (enteredS2 s).aon with pinAsserted := true, tbHeldLow := none,
                                         pinAbort := if s.boot.mode = .starting ∧ 2 ≤ s.boot.stage ∧ s.boot.stage ≤ 4
                                                    then some (s.boot.stage, s.boot.slot) else s.aon.pinAbort })
  ∧ (∀ (s : State) (sel : BitVec 2) (clk ref : Bool), s.aon.pinAsserted = true → s.aon.porAsserted = false →
      s.boot.mode = .inReset → s.boot.flushing = false →
    exec (.perstRelease sel clk ref) s = .next { s with
      boot := { s.boot with mode := .starting },
      aon := { s.aon with pinAsserted := false, addrSel := sel, clkMode := clk, refclkUsed := !clk || ref, stageStart := s.aon.timebase,
                          rstLastCause := if s.aon.porSeen then 1 else 2 } })
  ∧ (∀ (s : State) (sel : BitVec 2) (clk ref : Bool), s.aon.pinAsserted = true → s.aon.porAsserted = true →
    exec (.perstRelease sel clk ref) s = .next { s with
      aon := { s.aon with pinAsserted := false, addrSel := sel, clkMode := clk, refclkUsed := !clk || ref } })
  )
  ∧ (
  (∀ (s : State) (mv ns : Nat), ((mv < 38000 ∧ 5000 < ns) ∨ 62000 < mv) → s.boot.mode = .service → s.boot.flushing = false →
    exec (.inputLossDeclared mv ns) s = .next { s with
      aon := powerOnIsland s.aon,
      boot := { s.boot with mode := .inReset, flushing := true, faultPin := false },
      gov := { s.gov with powerLost := true, inputMv := mv, measuring := false } })
  ∧ (∀ (s : State) (mv ns : Nat), 38000 ≤ mv → mv ≤ 62000 → exec (.inputLossDeclared mv ns) s = .next s)
  ∧ (∀ s : State, s.boot.flushing = true → (s.aon.porAsserted = true ∨ s.aon.pinAsserted = true) →
    ∃ t, exec .flushComplete s = .next t ∧ t.boot = { mode := .inReset } ∧ t.aon = s.aon ∧ t.fl.wbuf = [] ∧ t.trs = [] ∧ t.tun = {}
      ∧ (∀ e ∈ t.fl.journal, e.durable = true))
  ∧ (∀ s : State, s.boot.flushing = true → s.aon.porAsserted = false → s.aon.pinAsserted = false →
    ∃ t, exec .flushComplete s = .next t ∧ t.boot = { mode := .starting } ∧ t.fl.wbuf = [])
  ∧ (∀ (s : State) (lo hi ns : Nat) (sel : BitVec 2) (clk ref : Bool), s.gov.powerLost = true → s.boot.flushing = false →
      s.boot.mode = .inReset → s.aon.porAsserted = true → s.aon.pinAsserted = false → 40000 ≤ lo → hi ≤ 60000 → 100000000 ≤ ns →
    exec (.inputRestored lo hi ns sel clk ref) s = .next { s with
      gov := { s.gov with powerLost := false, charged := false, inputMv := lo },
      boot := { s.boot with mode := .starting },
      aon := { s.aon with porAsserted := false, addrSel := sel, clkMode := clk, refclkUsed := !clk || ref, stageStart := s.aon.timebase,
                          rstLastCause := if s.aon.porSeen then 1 else 2 } })
  ∧ (∀ (s : State) (lo hi ns : Nat) (sel : BitVec 2) (clk ref : Bool), (lo < 40000 ∨ 60000 < hi ∨ ns < 100000000) →
    exec (.inputRestored lo hi ns sel clk ref) s = .next s)
  )

/-- A hot reset, a link-down and a link-disable, with the training that follows: the BARs, both decoders and their commit errors, BI Enable,
the MSI-X table and all of configuration space but the AER status are reset, ER_CTL is 4, the tundish, its frames and the vectors' pending
counts and bits go, the heat window closes, the held half of TB_SET goes, and the pattern window is disarmed. The link trains at the rate
and width given, at 64 GT/s at most; the ER counts, the mode and whether the link is up stay. While configuration is not served nothing
happens (02 R36, R37, R41, R54, R62).
Model choices it rests on: log 2, log 12, log 13, log 23, log 71. -/
def Obligations.LinkResetClearsPortAndTundish : Prop :=
  ∀ (e : LinkEvent) (tr : Training) (s : State),
    (configUp s = true →
      ∃ t, exec (.linkReset e tr) s = .next t
        ∧ t.link.bar0 = none ∧ t.link.bar2 = none ∧ t.link.bar4 = none ∧ t.link.dec0 = none ∧ t.link.dec1 = none
        ∧ t.link.biEnable = false ∧ t.link.biUsed = false ∧ t.link.commitErr0 = false ∧ t.link.commitErr1 = false
        ∧ t.link.msix = [] ∧ t.link.erCtl = 4
        ∧ t.link.cfg = { aerUncorr := t.link.cfg.aerUncorr, aerCorr := t.link.cfg.aerCorr }
        ∧ t.link.rate = (if tr.rate = .er then .gt64 else tr.rate) ∧ t.link.width = trainedWidth tr.lanes
        ∧ t.link.up = s.link.up ∧ t.link.erCounts = s.link.erCounts
        ∧ (∀ v, (vecOf t v).pend = 0 ∧ (vecOf t v).timer = none ∧ (vecOf t v).pba = false)
        ∧ t.tun = {} ∧ t.tier.frames = [] ∧ t.heat.windowOpen = false
        ∧ t.aon = { s.aon with tbHeldLow := none } ∧ t.boot.mode = s.boot.mode
        ∧ t.nor.enabled = false ∧ t.nor.armed = false ∧ t.nor.keyHalf = false)
    ∧ (configUp s = false → exec (.linkReset e tr) s = .next s)

/-- An island is released once clock-good has held for 64 of its cycles and 2 µs in a stage that requests it, or in service; its timestamps
are then approximate, the always-on island's crystal is good, and an engine runs. What misses a condition changes nothing. An island
without clock-good in the stage that waits for it fails: hub and link halt S1, a core-control or flash island is Fettle mode with
ISLAND_CLOCK, an engine island of a start is noted as failed, and one that serves is disabled; elsewhere the row changes nothing.
Model choice it rests on: log 42. -/
def Obligations.IslandsReleaseOrFail : Prop :=
  (∀ (s : State) (i : Island) (c ns : Nat), 64 ≤ c → 2000 ≤ ns → i ∉ s.isl.released → i ∉ s.isl.failed → mayRelease s i = true →
      (s.boot.mode = .starting ∨ s.boot.mode = .service) →
    (i = .alwaysOn → exec (.islandRelease i c ns) s
      = .next { s with isl := { s.isl with released := s.isl.released ++ [i] }, aon := { s.aon with crystalGood := true } })
    ∧ (i ≠ .alwaysOn → (∀ x e, i ≠ .engine x e) → exec (.islandRelease i c ns) s
      = .next { s with isl := { s.isl with released := s.isl.released ++ [i], approx := s.isl.approx ++ [i] } })
    ∧ (∀ x e, i = .engine x e → ∃ t, exec (.islandRelease i c ns) s = .next t ∧ t = { s with isl := t.isl, core := t.core }
        ∧ t.isl = { s.isl with released := s.isl.released ++ [i], approx := s.isl.approx ++ [i] } ∧ (getEngine t x e).stopped = false))
  ∧ (∀ (s : State) (i : Island) (c ns : Nat), (c < 64 ∨ ns < 2000 ∨ i ∈ s.isl.released ∨ i ∈ s.isl.failed ∨ mayRelease s i = false
        ∨ (s.boot.mode ≠ .starting ∧ s.boot.mode ≠ .service)) →
    exec (.islandRelease i c ns) s = .next s)
  ∧ (∀ (s : State) (i : Island), i ∉ s.isl.released → i ∉ s.isl.failed → timeoutCounts s i = true →
    ((i = .hub ∨ i = .link) →
      ∃ t, exec (.islandClockGoodTimeout i) s = .next t ∧ HaltedInS1 s t ∧ t.isl.failed = s.isl.failed ++ [i])
    ∧ (∀ n, i = .core n →
      ∃ t, exec (.islandClockGoodTimeout i) s = .next t ∧ InFettle 3 t ∧ t.boot.failDetail = BitVec.ofNat 32 (0x03000000 + n))
    ∧ (∀ n, i = .flash n →
      ∃ t, exec (.islandClockGoodTimeout i) s = .next t ∧ InFettle 3 t ∧ t.boot.failDetail = BitVec.ofNat 32 (0x04000000 + n))
    ∧ (∀ c e, i = .engine c e → s.boot.mode = .starting →
      exec (.islandClockGoodTimeout i) s = .next { s with isl := { s.isl with failed := s.isl.failed ++ [i] } })
    ∧ (∀ c e, i = .engine c e → s.boot.mode = .service →
      ∃ t, exec (.islandClockGoodTimeout i) s = .next t ∧ (getEngine t c e).disabled = true ∧ t.isl.failed = s.isl.failed ++ [i]))
  ∧ (∀ (s : State) (i : Island), (i ∈ s.isl.released ∨ i ∈ s.isl.failed ∨ timeoutCounts s i = false) →
    exec (.islandClockGoodTimeout i) s = .next s)

/-- S2 uses the first slot that verifies: three failed starts in a row are START_FAILURES, no slot is SIGNATURE, no owner is UNCLAIMED, and
otherwise S3 begins with Mailbox Interface Ready. S3: a failed memory, or a core SRAM macro without a spare word, is MEMORY_FILL; a core with more than three failing engines is Fettle
mode with ISLAND_CLOCK or MEMORY_FILL; otherwise the engines are formed, eight a core or seven where a core has lost three, GRADE is
loaded and S4 begins.
Model choices it rests on: log 29, log 37, log 69, log 81. -/
def Obligations.SlotIsChosenAndEnginesAreFormed : Prop :=
  (
  ∀ s : State, Starting 2 s →
    ∃ t, exec .stageS2 s = .next t ∧
      (if 3 ≤ failuresInRow s then InFettle 2 t
       else match slotUsed s with
         | none => InFettle 1 t
         | some x =>
           if (ownerNow (stageTwo s)).claimed = true then
             t.boot.mode = .starting ∧ t.boot.stage = 3 ∧ t.boot.mailboxReady = true ∧ t.boot.tbS3 = s.aon.timebase
             ∧ t.boot.slot = some x ∧ t.boot.fallback = decide (failuresInRow s = 2) ∧ t.boot.memActive = s.boot.memActive
             ∧ t.aon.stageStart = s.aon.timebase
           else InFettle 6 t)
  )
  ∧ (
  (∀ (s : State) (r : S3Report), Starting 3 s → fillFails (tested r s) r ≠ [] →
    ∃ t, exec (.stageS3 r) s = .next t ∧ InFettle 4 t ∧ t.boot.failDetail = BitVec.ofNat 32 (fillDetail (fillFails (tested r s) r)))
  ∧ (∀ (s : State) (r : S3Report), Starting 3 s → fillFails (tested r s) r = [] →
      (∃ c, c < 16 ∧ 3 < (engFails (tested r s) r c).length) →
    ∃ t reason, exec (.stageS3 r) s = .next t ∧ InFettle reason t ∧ (reason = 3 ∨ reason = 4))
  ∧ (∀ (s : State) (r : S3Report), Starting 3 s → fillFails (tested r s) r = [] → (∀ c, c < 16 → (engFails (tested r s) r c).length ≤ 3) →
    ∃ t, exec (.stageS3 r) s = .next t ∧ t.boot.mode = .starting ∧ t.boot.stage = 4 ∧ t.boot.tbS4 = s.aon.timebase
      ∧ t.aon = { s.aon with stageStart := s.aon.timebase }
      ∧ t.boot.grade = gradeWord (enginesACore s r)
      ∧ (∀ c, c < 16 → (getCore t c).engines = formCore (enginesACore s r) (engFails (tested r s) r c)))
  )

/-- S4 rebuilds the map or is MAP_REBUILD; the bank's report is kept with each cell's verdict, and a failed bank is HOLDUP; S5 opens service
with Memory_Active, Media Status ready, the watchdog and the bindings of TRS 0 to 15.
Model choices it rests on: log 33, log 40. -/
def Obligations.LastStagesOpenService : Prop :=
  (∀ s : State, Starting 4 s → s.boot.mapRebuilt = false → ∃ t, exec (.stageS4 false) s = .next t ∧ InFettle 5 t)
  ∧ (∀ s : State, Starting 4 s → s.boot.mapRebuilt = false → s.boot.bankReported = false →
    ∃ t, exec (.stageS4 true) s = .next t ∧ t.boot.mode = .starting ∧ t.boot.stage = 4 ∧ t.boot.mapRebuilt = true
      ∧ t.aon = s.aon ∧ t.isl = s.isl)
  ∧ (∀ (s : State) (cells : List (Nat × Nat)), s.boot.mode = .starting → ¬(s.boot.stage = 4 ∧ s.boot.mapRebuilt = true) →
    exec (.holdupBankCharged cells) s = .next { s with
      gov := { s.gov with charged := true, bankTested := true,
                          cells := (List.range 9).map (fun i => (⟨(cells.getD i (0, 0)).1, (cells.getD i (0, 0)).2,
                            decide ((cells.getD i (0, 0)).1 < 900 ∨ 50 < (cells.getD i (0, 0)).2)⟩ : Cell)) },
      boot := { s.boot with bankReported := true } })
  ∧ (∀ (s : State) (cells : List (Nat × Nat)), Starting 4 s → s.boot.mapRebuilt = true → (∀ c ∈ cells, c.1 < 900 ∨ 50 < c.2) →
    ∃ t, exec (.holdupBankCharged cells) s = .next t ∧ InFettle 7 t)
  ∧ (∀ s : State, Starting 4 s → s.boot.mapRebuilt = true → s.boot.bankReported = true → bankFailed s = false →
    ∃ t, exec .stageS5 s = .next t ∧ t.boot.mode = .service ∧ t.boot.stage = 5 ∧ t.boot.memActive = true ∧ t.boot.mediaReady = true
      ∧ t.boot.wdRunning = true ∧ t.boot.tbS5 = s.aon.timebase ∧ t.pol = s.pol ∧ t.fl = s.fl
      ∧ (∀ b ∈ s.pol.trsBind, b.trs < 16 → (∀ b' ∈ s.pol.trsBind, b'.trs = b.trs → b' = b) →
          (getTrs t b.trs).bind = { valid := true, priv := true, tenant := b.tenant, vector := b.vector, rids := b.rids }))

/-- S0 ends with the crystal good and the POR-seen latch cleared; S1 needs a PUF root that matches within four readings, a processor that
passes and an intact boot record, and then trains the link and sets Memory_Info_Valid; otherwise everything halts and the NOR stays.
A stage that outlasts its limit: S0 goes on waiting, S1 halts, S2 to S4 enter Fettle mode with the stage's reason where the restart at the
Fettle entry works, and halt where it does not. The watchdog's expiry never resets: the processors halt, FAULT# and the fatal AER error
report it, and the next start sees the latch.
Model choice it rests on: log 12. -/
def Obligations.FirstStagesLimitsAndWatchdog : Prop :=
  (
  (∀ s : State, Starting 0 s →
    exec .stageS0 s = .next { s with
      aon := { s.aon with crystalGood := true, porSeen := false, stageStart := s.aon.timebase },
      boot := { s.boot with stage := 1, tbS1 := s.aon.timebase },
      isl := { s.isl with released := [.alwaysOn] } })
  ∧ (∀ (s : State) (bad : List Nat) (puf : List (List Byte)) (tr : Training), Starting 1 s →
    ∃ t, exec (.stageS1 bad puf tr) s = .next t ∧
      (match (puf.take 4).find? (rootOk s) with
       | none => HaltedInS1 s t
       | some root =>
         if (List.range 36).all (fun p => decide (p ∈ bad)) = true ∨ bootRecordOk s = false then HaltedInS1 s t
         else t.boot = { s.boot with stage := 2, tbS2 := s.aon.timebase, memInfoValid := true, pufOk := true, pufRoot := root }
           ∧ t.link = { trained tr s.link with up := true } ∧ Island.hub ∈ t.isl.released ∧ Island.link ∈ t.isl.released
           ∧ t = { s with boot := t.boot, link := t.link, isl := t.isl, integ := t.integ, aon := { s.aon with stageStart := s.aon.timebase } }))
  )
  ∧ (
  (∀ (s : State) (r : Bool), Starting 0 s → exec (.stageTimeout r) s = .next s)
  ∧ (∀ (s : State) (r : Bool), Starting 1 s → ∃ t, exec (.stageTimeout r) s = .next t ∧ HaltedInS1 s t)
  ∧ (∀ s : State, Starting 2 s → ∃ t, exec (.stageTimeout true) s = .next t ∧ InFettle 1 t)
  ∧ (∀ s : State, Starting 3 s → ∃ t, exec (.stageTimeout true) s = .next t ∧ InFettle 4 t)
  ∧ (∀ s : State, Starting 4 s → ∃ t, exec (.stageTimeout true) s = .next t ∧ InFettle (if s.boot.mapRebuilt then 7 else 5) t)
  ∧ (∀ (s : State) (n : Nat), Starting n s → 2 ≤ n → ∃ t, exec (.stageTimeout false) s = .next t ∧ t.boot.mode = .halted ∧ t.boot.faultPin = true)
  ∧ (∀ (s : State) (d : Nat), s.boot.wdRunning = true → (s.boot.mode = .service ∨ s.boot.mode = .fettle) →
    ∃ t, exec (.watchdogExpiry d) s = .next t
      ∧ t.boot = { s.boot with mode := .expired, faultPin := true, wdRunning := false, logNext := t.boot.logNext }
      ∧ t.aon = { s.aon with wdLatch := true } ∧ t.link = aerLog 0x400000 0 s.link
      ∧ t.outbox = s.outbox ++ [.aerFatalInternal] ∧ t.trs = s.trs ∧ t.tun = s.tun ∧ t.fl = s.fl ∧ t.pol = s.pol
      ∧ (∀ p, (procOf t p).st ≠ .active))
  )

/-! ### Command intake (03 R66 to R93) -/

/-- What a submission meets before acceptance, in the order of Table 27: a BAR2 that does not decode takes nothing; a requester that the
binding does not list is refused, logged and counted; a page with 32 held commands, or one being reset, keeps COMMAND and sets BUSY; a
failing early check reports its status and byte; a wait at step 7 and a full lock table leave the command PENDING; a failing resource
reports its status.
Model choices it rests on: log 2, log 18, log 43. -/
def Obligations.ChecksRunInOrder : Prop :=
  ∀ (i : Instr) (s : State) (p : Nat) (rid : BitVec 16) (c : Desc), i.command = some (p, rid, c) → p < 4096 →
    (decodes s s.link.bar2 = false → exec i s = .next s)
    ∧ (decodes s s.link.bar2 = true → s.boot.mode = .service → admits s p rid = false →
        exec i s = .next { s with link := aerLog 0x100000 0x2000 s.link,
                                  tele := { s.tele with counters := SMap.modify 0 s.tele.counters (0x60 * 65536 + 2) (· + 1) } })
    ∧ (decodes s s.link.bar2 = true → s.boot.mode = .service → admits s p rid = true →
        (32 ≤ (getTrs s p).held.length ∨ (getTrs s p).resetting = true) →
        exec i s = .next (setTrs p { getTrs s p with command := c, busy := true } s))
    ∧ (∀ f, OpenPage s p rid → earlyFail (arrived s p c) p c = some f →
        ∃ t h, exec i s = .next t ∧ Reported t p s.cmd.goCount f.1 0 ∧ heldOf t p s.cmd.goCount = some h ∧ h.byte = f.2.getD 0
          ∧ h.byteValid = f.2.isSome ∧ t.cmd = { s.cmd with goCount := s.cmd.goCount + 1 } ∧ OtherPages s t p)
    ∧ (OpenPage s p rid → earlyFail (arrived s p c) p c = none → waitsAtSeven s c = true →
        exec i s = .next (setTrs p { getTrs s p with command := c, busy := false,
                                                     held := [{ id := s.cmd.goCount, desc := c, waitRes := true }] }
          { s with cmd := { s.cmd with goCount := s.cmd.goCount + 1 } }))
    ∧ (∀ st, OpenPage s p rid → earlyFail (arrived s p c) p c = none → waitsAtSeven s c = false →
        resourceFail (arrived s p c) p c = some st →
        ∃ t, exec i s = .next t ∧ Reported t p s.cmd.goCount st 0 ∧ t.cmd = { s.cmd with goCount := s.cmd.goCount + 1 }
          ∧ OtherPages s t p)
    ∧ (decodes s s.link.bar2 = true → s.boot.mode = .service → admits s p rid = true → (getTrs s p).held = [] →
        (getTrs s p).resetting = false → earlyFail (arrived s p c) p c = none → waitsAtSeven s c = false →
        resourceFail (arrived s p c) p c = none → (lockOf s c).isSome = true → 1024 ≤ s.cmd.locks.length →
        ∃ t, exec i s = .next t ∧ t.trs = (setTrs p { getTrs s p with
            command := c, busy := false, held := [{ id := s.cmd.goCount, desc := c, waitLock := true }] } s).trs
          ∧ counted 0x60 4 t = counted 0x60 4 s + 1 ∧ t.cmd = { s.cmd with goCount := s.cmd.goCount + 1 })

/-- A command that passes every check and that no earlier command blocks is accepted, takes its number, reservation and range lock, makes the
start event, and runs its first action. -/
def Obligations.AcceptedCommandStarts : Prop :=
  ∀ (i : Instr) (s : State) (p : Nat) (rid : BitVec 16) (c : Desc), i.command = some (p, rid, c) → Starts s p rid c →
    exec i s = .next (fenced (fun x => startBody p s.cmd.goCount (s.cmd.acceptCount + 1) c (begun x p c)) s)

/-- NOP is DONE with status OK and RESULT 0; a descriptor outside Table 28 ends with INVALID_OPCODE; in Fettle mode every command ends with
FETTLE. None of them touches stored data, the tundish, contexts or collections.
Model choices it rests on: log 6, log 15. -/
def Obligations.NopInvalidAndFettleEnd : Prop :=
  (∀ (s : State) (p : Nat) (rid : BitVec 16) (d c : Desc), c = setDescByte d 0 0 → Starts s p rid c →
    ∃ t, exec (.goSubmitNop p rid d) s = .next t ∧ Reported t p s.cmd.goCount 0x00 0 ∧ OtherPages s t p ∧ t.fl = withoutEarly s.cmd.goCount s.fl ∧ t.tun = s.tun
      ∧ t.ctx = s.ctx ∧ t.coll = s.coll ∧ t.nor = s.nor
      ∧ t.cmd = { s.cmd with goCount := s.cmd.goCount + 1, acceptCount := s.cmd.acceptCount + 1 })
  ∧ (∀ (s : State) (p : Nat) (rid : BitVec 16) (d : Desc), OpenPage s p rid →
    ∃ t, exec (.invalidOpcode p rid d) s = .next t ∧ Reported t p s.cmd.goCount 0x02 0 ∧ OtherPages s t p
      ∧ t.fl = withoutEarly s.cmd.goCount s.fl ∧ t.tun = s.tun
      ∧ t.ctx = s.ctx ∧ t.coll = s.coll ∧ t.nor = s.nor ∧ t.cmd = { s.cmd with goCount := s.cmd.goCount + 1 })
  ∧ (∀ (i : Instr) (s : State) (p : Nat) (rid : BitVec 16) (c : Desc), i.command = some (p, rid, c) → p < 4096 →
      s.boot.mode = .fettle → decodes s s.link.bar2 = true → admits s p rid = true → (getTrs s p).held = [] →
      (getTrs s p).resetting = false →
    ∃ t, exec i s = .next t ∧ Reported t p s.cmd.goCount 0x0E 0 ∧ OtherPages s t p ∧ t.fl = withoutEarly s.cmd.goCount s.fl
      ∧ t.tun = s.tun ∧ t.ctx = s.ctx ∧ t.coll = s.coll)

/-! ### Storage commands (03 R95 to R98, 11 R321, 12 R364) -/

/-- READ delivers the leading blocks that read as intact, with PCHK = 1 their check values, and its ending is decided with the first failing
block's status and the count. Stored data do not change. RELEASE, where the write buffer has room for its end units: every released block
reads as zeros, what lies in no touched unit keeps its bytes, RESULT is the number of blocks; without the room it waits.
Model choice it rests on: log 15. -/
def Obligations.ReadAndReleaseServeTheirBlocks : Prop :=
  (
  ∀ (s : State) (p : Nat) (rid : BitVec 16) (d c : Desc) (k : Nat) (st : Byte), c = setDescByte d 0 0x01 → Starts s p rid c →
    readPrefix s (bitOf (fld c 1 1) 1) (objOf c) (fld c 8 8) (fld c 16 4) = (k, st) →
    ∃ t rest, exec (.read p rid d) s = .next t ∧ Decided t p s.cmd.goCount st k
      ∧ t.outbox = s.outbox
          ++ hostWrites s (fld c 24 8) ((List.range' (fld c 8 8) k).flatMap (blockBytes s (objOf c))) true
          ++ (if bitOf (fld c 1 1) 1 = true then hostWrites s (fld c 40 8)
                ((List.range' (fld c 8 8) k).flatMap (fun b => bytesOf 8 (deliveredCheck s (objOf c) b).toNat)) true
              else [])
          ++ rest
      ∧ (st ≠ stCheckMismatch → rest = [])
      ∧ t.fl = s.fl ∧ t.tun = s.tun ∧ t.ctx = s.ctx ∧ t.coll = s.coll ∧ t.tier.pages = s.tier.pages ∧ OtherPages s t p
  )
  ∧ (
  ∀ (s : State) (p : Nat) (rid : BitVec 16) (d c : Desc), c = setDescByte d 0 0x04 → Starts s p rid c →
    (releaseRoom s c = false → exec (.release p rid d) s = .next (begun s p c))
    ∧ (releaseRoom s c = true →
    ∃ t, exec (.release p rid d) s = .next t ∧ Decided t p s.cmd.goCount 0x00 (fld c 16 4)
      ∧ (∀ k, fld c 8 8 ≤ k → k < fld c 8 8 + fld c 16 4 → blockBytes t (objOf c) k = List.replicate 4096 0)
      ∧ (∀ a, (a < blockUnit s (objOf c) (fld c 8 8) * 16384
            ∨ (blockUnit s (objOf c) (fld c 8 8 + fld c 16 4 - 1) + 1) * 16384 ≤ a) →
          SMap.find 0 t.fl.data a = SMap.find 0 s.fl.data a)
      ∧ (∀ k, k < fld c 8 8 ∨ fld c 8 8 + fld c 16 4 ≤ k → unitStatus s (blockUnit s (objOf c) k) = stOk →
          blockBytes t (objOf c) k = blockBytes s (objOf c) k)
      ∧ t.tun = s.tun ∧ t.ctx = s.ctx ∧ t.coll = s.coll ∧ t.tier.pages = s.tier.pages ∧ t.outbox = s.outbox ∧ OtherPages s t p)
  )

/-- BIND gives its target page the binding of the descriptor, with no pending deferred error and zero counters; UNBIND leaves the target
without binding, held commands, deferred errors or write-origin windows, and, where none of its commands is an ATTEND, decides OK with
the number of commands it ended and changes no third page. -/
def Obligations.BindAndUnbindSetTheTarget : Prop :=
  (∀ (s : State) (p : Nat) (rid : BitVec 16) (d c : Desc), c = setDescByte (firstSelector d 8 1) 0 0x50 → Starts s p rid c →
    ∃ t, exec (.bind p rid d) s = .next t ∧ Decided t p s.cmd.goCount 0x00 0
      ∧ getTrs t (objOf c) = { getTrs s (objOf c) with
          bind := { valid := true, priv := false, tenant := fld c 9 1, vector := fld c 10 2, rids := bindRids c },
          defer := [], deferOver := [], lastSet := {}, current := {}, sampleSeq := 0 }
      ∧ (∀ q, q ≠ p → q ≠ objOf c → getTrs t q = getTrs s q) ∧ t = { begun s p c with trs := t.trs })
  ∧ (∀ (s : State) (p : Nat) (rid : BitVec 16) (d c : Desc), c = setDescByte (setDescByte d 8 1) 0 0x50 → Starts s p rid c →
    ∃ t, exec (.unbind p rid d) s = .next t ∧ (getTrs t (objOf c)).held = [] ∧ (getTrs t (objOf c)).bind = {}
      ∧ (getTrs t (objOf c)).defer = [] ∧ (getTrs t (objOf c)).deferOver = [] ∧ (getTrs t (objOf c)).resetting = false
      ∧ (getTrs t (objOf c)).busy = false ∧ (∀ o ∈ t.fl.origins, o.trs ≠ objOf c)
      ∧ ((∀ h ∈ (getTrs s (objOf c)).held, h.op ≠ 0x13) →
          Decided t p s.cmd.goCount 0x00 ((getTrs s (objOf c)).held.filter (fun h => h.undecided)).length
          ∧ (∀ q, q ≠ p → q ≠ objOf c → getTrs t q = getTrs s q)))

/-! ### Parked contexts (04 R114 to R122) -/

/-- FLUSH starts without touching anything; WRITE, INSERT and DELETE start by reading their input from the host, in reads that cross no
4,096-byte boundary, and change nothing else. SEARCH, FILTER, EMBED and both CHAINs start by reading what they need first, and place the
jobs of their slot's work on the cores that R20 gives it. PARK and EXTEND with STAGE = 0 read their source, and with PCHK = 1 their check values.
Model choice it rests on: log 10. -/
def Obligations.CommandsFetchTheirInput : Prop :=
  (
  (∀ (s : State) (p : Nat) (rid : BitVec 16) (d c : Desc), c = setDescByte d 0 0x03 → Starts s p rid c →
    exec (.flush p rid d) s = .next (begun s p c))
  ∧ (∀ (s : State) (p : Nat) (rid : BitVec 16) (d c : Desc), c = setDescByte d 0 0x02 → Starts s p rid c →
    Fetches (exec (.write p rid d) s) s p c (fetch (fld c 24 8) (fld c 16 4 * 4096)
      ++ if bitOf (fld c 1 1) 1 then fetch (fld c 40 8) (fld c 16 4 * 8) else []) s.core)
  ∧ (∀ (s : State) (p : Nat) (rid : BitVec 16) (d c : Desc), c = setDescByte d 0 0x21 → Starts s p rid c →
    Fetches (exec (.insert p rid d) s) s p c
      (fetch (fld c 24 8) (fld c 8 4 * recordBytesOf (getColl s (objOf c)).width)) s.core)
  ∧ (∀ (s : State) (p : Nat) (rid : BitVec 16) (d c : Desc), c = setDescByte d 0 0x22 → Starts s p rid c →
    Fetches (exec (.delete p rid d) s) s p c (fetch (fld c 24 8) (8 * fld c 8 4)) s.core)
  ∧ (∀ a n, ∀ r ∈ fetch a n, r.1 / 4096 = (r.1 + r.2 - 1) / 4096 ∧ 0 < r.2)
  )
  ∧ (
  (∀ (s : State) (p : Nat) (rid : BitVec 16) (d c : Desc), c = setDescByte d 0 0x20 → Starts s p rid c →
    Fetches (exec (.search p rid d) s) s p c
      (fetch (fld c 24 8) (fld c 10 1 * (codeBits (getColl s (objOf c)).width / 8)))
      (placeJobs (collCores s (objOf c)) 2 p s.cmd.goCount (tenantOf s p) 1 (kindSlot s 3) s).core)
  ∧ (∀ (s : State) (p : Nat) (rid : BitVec 16) (d c : Desc), c = setDescByte d 0 0x30 → Starts s p rid c →
    Fetches (exec (.filter p rid d) s) s p c (fetch (fld c 32 8) 64 ++ fetch (fld c 40 8) 16)
      (placeJobs allCores 3 p s.cmd.goCount (tenantOf s p) 1 (kindSlot s 4) s).core)
  ∧ (∀ (s : State) (p : Nat) (rid : BitVec 16) (d c : Desc), c = setDescByte d 0 0x31 → Starts s p rid c →
    Fetches (exec (.embed p rid d) s) s p c (fetch (fld c 32 8) (if bitOf (fld c 1 1) 2 then 24 else 64))
      (placeJobs allCores 3 p s.cmd.goCount (tenantOf s p) (fld c 40 4) (embedSlot s c) s).core)
  ∧ (∀ (s : State) (p : Nat) (rid : BitVec 16) (d c : Desc), c = setDescByte (firstSelector d 8 1) 0 0x32 → Starts s p rid c →
    Fetches (exec (.chainFilterEmbedInsert p rid d) s) s p c (fetch (fld c 16 8) 128)
      (placeJobs allCores 3 p s.cmd.goCount (tenantOf s p) 1 (kindSlot s 4) s).core)
  ∧ (∀ (s : State) (p : Nat) (rid : BitVec 16) (d c : Desc), c = setDescByte (setDescByte d 8 1) 0 0x32 → Starts s p rid c →
    Fetches (exec (.chainEmbedSearch p rid d) s) s p c (fetch (fld c 16 8) 128)
      (placeJobs (collCores s (objOf c)) 2 p s.cmd.goCount (tenantOf s p) 1 (kindSlot s 3) s).core)
  )
  ∧ (
  (∀ (s : State) (p : Nat) (rid : BitVec 16) (d c : Desc), c = setDescByte d 0 0x10 → isStaged c = false → Starts s p rid c →
    Fetches (exec (.park p rid d) s) s p c (fetch (fld c 32 8) (srcLen (parkShape c) c) ++ checkReads (parkShape c) c) s.core)
  ∧ (∀ (s : State) (p : Nat) (rid : BitVec 16) (d c : Desc) (x : Ctx), c = setDescByte d 0 0x11 → isStaged c = false →
      Starts s p rid c → ctxOf s (objOf c) = some x →
    Fetches (exec (.extend p rid d) s) s p c (fetch (fld c 32 8) (srcLen x.shape c) ++ checkReads x.shape c) s.core)
  )

/-- PARK and EXTEND with STAGE = 1 place a staging region, number it and write its header; where no place fits they end with CAPACITY.
Model choice it rests on: log 12. -/
def Obligations.ParkAndExtendStageTheirSource : Prop :=
  ∀ (i : Instr) (s : State) (p : Nat) (rid : BitVec 16) (c : Desc),
    i.command = some (p, rid, c) → (fld c 0 1 = 0x10 ∨ fld c 0 1 = 0x11) → isStaged c = true → Starts s p rid c →
    (tunPlace s (64 + fld c 40 8) = none → ∃ t, exec i s = .next t ∧ Decided t p s.cmd.goCount 0x07 0
      ∧ t = { begun s p c with trs := t.trs } ∧ OtherPages s t p)
    ∧ (∀ base, tunPlace s (64 + fld c 40 8) = some base →
      ∃ t h, exec i s = .next t ∧ heldOf t p s.cmd.goCount = some h ∧ h.phase = .running ∧ h.ending = none
        ∧ h.stage = some { base := base, len := 64 + fld c 40 8, seq := nextSeq s.cmd.seq }
        ∧ t.tun = placed ⟨base, 64 + fld c 40 8, .stage, p, s.cmd.goCount⟩ s.tun
        ∧ t.cmd.seq = nextSeq s.cmd.seq ∧ t.freeCount = s.freeCount + 1
        ∧ t.outbox = s.outbox ++ hostWrites s (fld c 32 8) (stageHeader base (nextSeq s.cmd.seq)) false
            ++ hostReads s (checkReads (sourceShape s c) c)
        ∧ h.reads = checkReads (sourceShape s c) c
        ∧ OtherPages s t p
        ∧ t = { begun s p c with trs := t.trs, tun := t.tun, cmd := { (begun s p c).cmd with seq := t.cmd.seq },
                                 freeCount := t.freeCount, outbox := t.outbox, tele := t.tele })

/-- RECALL to host memory: the progress record with no layer done, then for each layer up to the first that cannot be read its data, its check
values and its progress record; the ending holds the layers complete. Where its reads find no room for transient frames, it waits. RECALL
with TUNDISH = 1 places its lines in the tundish, snoops them where back-invalidate is in use and then waits, and names them in its first
progress record; without a place it ends with CAPACITY.
Model choices it rests on: log 12, log 26, log 51. -/
def Obligations.RecallDeliversLayersOrPlacesLines : Prop :=
  (
  ∀ (s : State) (p : Nat) (rid : BitVec 16) (d c : Desc) (x : Ctx),
    c = setDescByte d 0 0x12 → Starts s p rid c → ctxOf s (objOf c) = some x → bitOf (fld c 1 1) 2 = false →
    (frameWait p s.cmd.goCount ((recallOwners x.shape (handleIdx (objOf c)) c).filterMap (slotOfOwner s)) (begun s p c) = none →
      ∃ t rest, exec (.recallContext p rid d) s = .next t
        ∧ Decided t p s.cmd.goCount (layersReadable s x c (fld c 10 2) 0).2 (layersReadable s x c (fld c 10 2) 0).1
        ∧ t.outbox = s.outbox ++ hostWrites s (fld c 56 8) (progressRecord (fld c 32 8) 0 c) false
            ++ (List.range (layersReadable s x c (fld c 10 2) 0).1).flatMap (recalledLayer s x c) ++ rest
        ∧ ((layersReadable s x c (fld c 10 2) 0).2 ≠ stCheckMismatch → rest = [])
        ∧ t.tun = s.tun ∧ t.fl = s.fl ∧ t.ctx = s.ctx ∧ t.coll = s.coll ∧ OtherPages s t p)
    ∧ (∀ u, frameWait p s.cmd.goCount ((recallOwners x.shape (handleIdx (objOf c)) c).filterMap (slotOfOwner s)) (begun s p c) = some u →
      ∃ t h, exec (.recallContext p rid d) s = .next t ∧ heldOf t p s.cmd.goCount = some h ∧ h.phase = .running ∧ h.ending = none
        ∧ t.tier = u.tier ∧ t.outbox = s.outbox ++ hostWrites s (fld c 56 8) (progressRecord (fld c 32 8) 0 c) false)
  )
  ∧ (
  ∀ (s : State) (p : Nat) (rid : BitVec 16) (d c : Desc),
    c = setDescByte d 0 0x12 → Starts s p rid c → bitOf (fld c 1 1) 2 = true →
    (tunPlace s (fld c 40 8) = none → ∃ t, exec (.recallContext p rid d) s = .next t ∧ Decided t p s.cmd.goCount 0x07 0
      ∧ t = { begun s p c with trs := t.trs } ∧ OtherPages s t p)
    ∧ (∀ base, tunPlace s (fld c 40 8) = some base →
      ∃ t h rest, exec (.recallContext p rid d) s = .next t ∧ heldOf t p s.cmd.goCount = some h
        ∧ h.exposed = some (base, fld c 40 8)
        ∧ t.tun.regions = s.tun.regions ++ [⟨base, fld c 40 8, .recalled, p, s.cmd.goCount⟩]
        ∧ t.outbox = s.outbox ++ (if s.link.biUsed = true then [.biSnp base (fld c 40 8)] else [])
            ++ hostWrites s (fld c 56 8) (progressRecord base 0 c) false ++ rest
        ∧ (s.link.biUsed = true → rest = [] ∧ h.ending = none ∧ t.tun.snoops = s.tun.snoops ++ [(base, fld c 40 8)]
            ∧ t.tun.mem = s.tun.mem)
        ∧ t.fl = s.fl ∧ t.ctx = s.ctx ∧ t.coll = s.coll ∧ OtherPages s t p)
  )

/-- ATTEND opens a step: its slot is placed, its header tells the host the slot and STEP_SEQ, and its layers wait for doorbells; without a
place for the slot it ends with CAPACITY.
Model choice it rests on: log 12. -/
def Obligations.AttendOpensAStep : Prop :=
  ∀ (s : State) (p : Nat) (rid : BitVec 16) (d c : Desc) (x : Ctx) (q : Step),
    c = setDescByte d 0 0x13 → Starts s p rid c → ctxOf s (objOf c) = some x → q = newStep c x (nextSeq s.cmd.seq) →
    (tunPlace s (64 + 2 * q.ds) = none →
      ∃ t, exec (.attend p rid d) s = .next t ∧ Reported t p s.cmd.goCount 0x07 0 ∧ t.tun = s.tun)
    ∧ (∀ base, tunPlace s (64 + 2 * q.ds) = some base →
      ∃ t h r, exec (.attend p rid d) s = .next t ∧ heldOf t p s.cmd.goCount = some h ∧ h.phase = .running ∧ h.ending = none
        ∧ h.step = some r ∧ r = { q with slot := some base, member := r.member, deferred := r.deferred, work := r.work }
        ∧ t.cmd.seq = nextSeq s.cmd.seq
        ∧ t.tun = placed ⟨base, 64 + 2 * q.ds, .slot, p, s.cmd.goCount⟩ s.tun
        ∧ t.outbox = s.outbox ++ hostWrites s q.resAddr (stepHeader c q base) false
        ∧ t.fl = s.fl ∧ t.coll = s.coll ∧ t.ctx.recs = s.ctx.recs)

/-- DROP frees every page of its context, advances the generation of its index and decides OK with the number of pages. WARM over one readable
page that is not in T1: ACTION 0 frames it, where it has no WARM or riser frame and a frame finds room, ACTION 1 starts its promotion where a home does,
unless a step member's range, a promotion or a fold has it; a page in T1, or with such a frame, is only touched.
Model choice it rests on: log 63. -/
def Obligations.DropFreesAndWarmPlacesPages : Prop :=
  (
  ∀ (s : State) (p : Nat) (rid : BitVec 16) (d c : Desc) (idx : Nat),
    c = setDescByte d 0 0x14 → Starts s p rid c → idx = handleIdx (objOf c) →
    ∃ t, exec (.drop p rid d) s = .next t ∧ Decided t p s.cmd.goCount 0x00 (ctxSlots s idx).length
      ∧ ctxOf t (objOf c) = none
      ∧ SMap.find {} t.ctx.recs idx = { live := false, gen := (SMap.find {} s.ctx.recs idx).gen + 1, dropNo := some s.ctx.dropCount }
      ∧ (∀ j, j ≠ idx → SMap.find {} t.ctx.recs j = SMap.find {} s.ctx.recs j)
      ∧ t.tier.pages = s.tier.pages.filter (fun e => decide (e.1 ∉ ctxSlots s idx))
      ∧ t.tun = s.tun ∧ t.coll = s.coll ∧ t.outbox = s.outbox ∧ OtherPages s t p
  )
  ∧ (
  ∀ (i : Instr) (s : State) (p : Nat) (rid : BitVec 16) (d c : Desc) (x : Ctx) (o : Owner) (k : Nat) (g : Page),
    i.command = some (p, rid, c) → (i = .warmFrames p rid d ∨ i = .warmPromote p rid d) → Starts s p rid c →
    ctxOf s (objOf c) = some x →
    warmOwners x.shape (handleIdx (objOf c)) c = [o] → slotOfOwner s o = some k → pageAt s k = some g → pageStatus s k = stOk →
    ∃ t h, exec i s = .next t ∧ heldOf t p s.cmd.goCount = some h ∧ h.phase = .running ∧ h.ending = none
      ∧ t.tun = s.tun ∧ t.fl = s.fl ∧ t.ctx = s.ctx ∧ t.coll = s.coll ∧ t.outbox = s.outbox ∧ OtherPages s t p
      ∧ (g.inT1 = true → t.tier = (touchPage k s).tier)
      ∧ (g.inT1 = false → heldFrame s k = true → i = .warmFrames p rid d → t.tier = (touchPage k s).tier)
      ∧ (g.inT1 = false → heldFrame s k = false → i = .warmFrames p rid d → ∀ u ch,
          placeFrame (stripeStack g.owner) g.tenant 1 (readPage p k (begun s p c)) = (u, some ch) →
          t.tier = { u.tier with frames := u.tier.frames ++ [{ fid := u.tier.nextFrame, page := k, kind := .warm,
                                                               stack := stripeStack g.owner, chan := ch, tenant := g.tenant }],
                                 nextFrame := u.tier.nextFrame + 1 })
      ∧ (g.inT1 = false → i = .warmPromote p rid d → inMemberRange (begun s p c) o = false → g.moving = none → inFold s k = false → ∀ u ch,
          placeHome (stripeStack g.owner) g.tenant (readPage p k (begun s p c)) = (u, some ch) →
          t.tier = (modPage k (fun y => { y with moving := some (stripeStack g.owner, ch) }) u).tier)
  )

/-! ### Collections (05 R168 to R170) -/

/-- MERGE with no work left ends at once with OK and the epoch; with work left and no round running a foreground round starts, or, where none
fits, anneal is held and it ends with CAPACITY; while a round runs it waits. COLLECTION: CREATE makes an empty live collection of the
descriptor's parameters; DESTROY leaves none of its pages and codes and counts the pages; DESCRIBE writes the state record and counts the
live codes.
Model choices it rests on: log 11, log 61. -/
def Obligations.CollectionsAreMadeMergedAndDestroyed : Prop :=
  (
  ∀ (s : State) (p : Nat) (rid : BitVec 16) (d c : Desc) (x : Coll),
    c = setDescByte d 0 0x23 → Starts s p rid c → x = getColl s (objOf c) →
    (mergeLeft x x.commitSeq = false →
      ∃ t, exec (.merge p rid d) s = .next t ∧ Decided t p s.cmd.goCount 0x00 x.epoch ∧ t.fl = s.fl ∧ t.tier = s.tier ∧ t.tun = s.tun)
    ∧ (mergeLeft x x.commitSeq = true → x.round.isSome = true →
      ∃ t h, exec (.merge p rid d) s = .next t ∧ heldOf t p s.cmd.goCount = some h ∧ h.phase = .running ∧ h.ending = none
        ∧ t.coll = s.coll ∧ t.fl = s.fl ∧ t.tier = s.tier)
    ∧ (mergeLeft x x.commitSeq = true → x.round = none →
      ∃ t, exec (.merge p rid d) s = .next t ∧ t.fl = s.fl ∧ t.tier = s.tier
        ∧ ((∃ h r, heldOf t p s.cmd.goCount = some h ∧ h.ending = none ∧ getColl t (objOf c) = { x with held := false, again := false, round := some r }
              ∧ r.foreground = true ∧ r.insSeq = x.commitSeq)
           ∨ (getColl t (objOf c) = { x with held := true } ∧ Decided t p s.cmd.goCount 0x07 x.epoch)))
  )
  ∧ (
  (∀ (s : State) (p : Nat) (rid : BitVec 16) (d c : Desc), c = setDescByte (firstSelector d 8 2) 0 0x24 → Starts s p rid c →
    ∃ t, exec (.collectionCreate p rid d) s = .next t ∧ Decided t p s.cmd.goCount 0x00 0
      ∧ getColl t (objOf c) = { live := true, width := fld c 9 1, kind := fld c 10 1 % 2, residency := fld c 10 1 / 2,
                                degree := fld c 11 1, buildCand := fld c 12 2, tenant := ownTenant s p (fld c 14 1) }
      ∧ (∀ j, j ≠ objOf c → getColl t j = getColl s j) ∧ t.tun = s.tun ∧ t.ctx = s.ctx ∧ t.outbox = s.outbox ∧ OtherPages s t p)
  ∧ (∀ (s : State) (p : Nat) (rid : BitVec 16) (d c : Desc), c = setDescByte (setDescByte d 8 1) 0 0x24 → Starts s p rid c →
    ∃ t, exec (.collectionDestroy p rid d) s = .next t
      ∧ Decided t p s.cmd.goCount 0x00 ((s.tier.pages.filter (fun e => ownedByColl (objOf c) e.2.owner)).filter (fun e =>
          ((pageAt s e.1).map (fun x => x.pend.isNone)).getD false)).length
      ∧ getColl t (objOf c) = {} ∧ (∀ e ∈ t.tier.pages, ownedByColl (objOf c) e.2.owner = false)
      ∧ (∀ j, j ≠ objOf c → getColl t j = getColl s j) ∧ t.tun = s.tun ∧ t.ctx = s.ctx ∧ t.outbox = s.outbox ∧ OtherPages s t p)
  ∧ (∀ (s : State) (p : Nat) (rid : BitVec 16) (d c : Desc) (x : Coll), c = setDescByte (setDescByte d 8 2) 0 0x24 → Starts s p rid c →
      collOf s (objOf c) = some x →
    ∃ t, exec (.collectionDescribe p rid d) s = .next t
      ∧ Decided t p s.cmd.goCount 0x00 ((x.index x.epochNo).length + sideLen x - tombLen x)
      ∧ t.outbox = s.outbox ++ hostWrites s (fld c 16 8) (collRecord s (objOf c) x) true
      ∧ t.fl = s.fl ∧ t.tier = s.tier ∧ t.coll = s.coll ∧ t.tun = s.tun ∧ t.ctx = s.ctx ∧ OtherPages s t p)
  )

/-! ### Counters read by commands (16 R469, R476) -/

/-! ### Retiring and resetting a page (03 R75, R93) -/

/-- 03 R75: a write of NEXT with bit 0 = 1 retires the head report when HEAD is DONE or ERROR, and the next held command becomes the head; in
every other state (nothing held, the head not ended) and with bit 0 = 0 the write has no effect; reading a report retires nothing. -/
def Obligations.NextRetiresTheEndedHead : Prop :=
  (∀ (s : State) (p : Nat) (rid : BitVec 16) (v : BitVec 32) (h : Held), p < 4096 → bar2Writable s = true →
      admits s p rid = true → v.getLsbD 0 = true → (getTrs s p).held.head? = some h →
    (h.ended = true → ∃ t, exec (.next p rid v) s = .next t
      ∧ getTrs t p = { getTrs s p with held := (getTrs s p).held.drop 1, busy := false } ∧ OtherPages s t p
      ∧ (∀ r ∈ t.tun.regions, ¬(r.trs = p ∧ r.id = h.id ∧ (r.kind = .slot ∨ r.kind = .recalled)))
      ∧ t = { s with trs := t.trs, tun := { s.tun with regions := t.tun.regions, dead := t.tun.dead, snoops := t.tun.snoops },
                      outbox := t.outbox })
    ∧ (h.ended = false → exec (.next p rid v) s = .next s))
  ∧ (∀ (s : State) (p : Nat) (rid : BitVec 16) (v : BitVec 32), p < 4096 → bar2Writable s = true →
      admits s p rid = true → (v.getLsbD 0 = false ∨ (getTrs s p).held = []) → exec (.next p rid v) s = .next s)
  ∧ (∀ (s : State) (p o w : Nat) (rid : BitVec 16), p < 4096 → o + w ≤ 4096 →
      ∃ t, exec (.refusedBar2Access p o w rid) s = .next t ∧ t.trs = s.trs)

/-- COUNTERS and DIGEST_READ write their header and values to the descriptor's address and decide OK, or SHORT where not all fit; they make no
start event. QRESET decides QUEUE_RESET for every undecided command; QRESET_COMPLETE reports every decided ending and clears RESETTING and
BUSY; an unadmitted requester of NEXT or QRESET changes no page and is logged and counted, and a value without bit 0 does nothing.
Model choices it rests on: log 2, log 102. -/
def Obligations.CountersAreDeliveredAndPagesReset : Prop :=
  (
  (∀ (s : State) (p : Nat) (rid : BitVec 16) (d c : Desc), c = setDescByte d 0 0x40 → Starts s p rid c →
    ∃ t, exec (.counters p rid d) s = .next t ∧ OtherPages s t p ∧ (getTrs t p).sampleSeq = (getTrs s p).sampleSeq
      ∧ (getTrs t p).lastSet = (getTrs s p).lastSet ∧ t.fl = s.fl ∧ t.tier = s.tier ∧ t.tun = s.tun
      ∧ (fld c 8 1 = 0 → Decided t p s.cmd.goCount 0x00 16
          ∧ t.outbox = s.outbox ++ hostWrites s (fld c 16 8) (counterHeader s (getTrs s p).sampleSeq.toNat 0 0 0 0 16
              ++ ctrBytes (getTrs s p).sampleSeq (getTrs s p).lastSet
              ++ ctrBytes (getTrs s p).sampleSeq (settleElapsed (now s) (getTrs s p)).current) true)
      ∧ (fld c 8 1 = 1 → ∀ n k, n = (kindInstances (fld c 10 2)).getD 0 - fld c 12 4 → k = min n ((fld c 24 8 - 64) / 8) →
          Decided t p s.cmd.goCount (if k = n then 0x00 else 0x01) k
          ∧ t.outbox = s.outbox ++ hostWrites s (fld c 16 8) (counterHeader s 0 (fld c 10 2) 1 (n + fld c 12 4) (fld c 12 4) k
              ++ (List.range' (fld c 12 4) k).flatMap (fun i => bytesOf 8 (counterValue (begun s p c) (fld c 10 2) i))) true)
      ∧ (fld c 8 1 = 2 → Decided t p s.cmd.goCount 0x00 8
          ∧ t.outbox = s.outbox ++ hostWrites s (fld c 16 8) (counterHeader s 0 0 2 8 0 8
              ++ (List.range 8).flatMap (fun i => bytesOf 8 (counterValue (begun s p c) (0x50 + i) (objOf c)))) true))
  ∧ (∀ (s : State) (p : Nat) (rid : BitVec 16) (d c : Desc) (ws : List Watch) (k : Nat), c = setDescByte d 0 0x41 →
      Starts s p rid c →
      ws = (if fld c 8 1 = 0 then (s.tele.watchLast.filter (fun e => e.1 == p)).map (·.2)
            else s.tele.watchCum.filter (fun w => w.tenant == objOf c)) →
      k = min ws.length ((fld c 24 8 - 64) / 96) →
    ∃ t, exec (.digestRead p rid d) s = .next t ∧ OtherPages s t p ∧ (getTrs t p).sampleSeq = (getTrs s p).sampleSeq
      ∧ t.fl = s.fl ∧ t.tier = s.tier ∧ t.tun = s.tun
      ∧ Decided t p s.cmd.goCount (if k = ws.length then 0x00 else 0x01) k
      ∧ t.outbox = s.outbox ++ hostWrites s (fld c 16 8)
          (counterHeader s (if fld c 8 1 = 0 then (getTrs s p).sampleSeq.toNat else 0) 0 (fld c 8 1) ws.length 0 k
            ++ (ws.take k).flatMap (watchBytes s)) true)
  )
  ∧ (
  (∀ (s : State) (p : Nat) (rid : BitVec 16) (v : BitVec 32), p < 4096 → s.boot.mode = .service → decodes s s.link.bar2 = true →
      admits s p rid = true → v.getLsbD 0 = true → (getTrs s p).resetting = false →
    ∃ t, exec (.qreset p rid v) s = .next t ∧ (getTrs t p).resetting = true ∧ OtherPages s t p
      ∧ (∀ id h, heldOf s p id = some h → h.undecided = true → ∃ res, Decided t p id 0x0D res)
      ∧ (getTrs t p).held.length = (getTrs s p).held.length ∧ t.tun = s.tun ∧ t.ctx = s.ctx ∧ t.coll = s.coll ∧ t.outbox = s.outbox)
  ∧ (∀ (s : State) (p : Nat), p < 4096 → s.boot.mode = .service → (getTrs s p).resetting = true →
    ∃ t, exec (.qresetComplete p) s = .next t ∧ (getTrs t p).resetting = false ∧ (getTrs t p).busy = false
      ∧ (∀ id h e, heldOf s p id = some h → h.ending = some e → h.ended = false →
          ∃ g, heldOf t p id = some g ∧ g.ended = true ∧ g.status = e.status)
      ∧ (getTrs t p).held.length = (getTrs s p).held.length ∧ t.ctx = s.ctx)
  ∧ (∀ (i : Instr) (s : State) (p : Nat) (rid : BitVec 16) (v : BitVec 32), (i = .next p rid v ∨ i = .qreset p rid v) → p < 4096 →
      s.boot.mode = .service → decodes s s.link.bar2 = true →
    (admits s p rid = true → v.getLsbD 0 = false → exec i s = .next s)
    ∧ (admits s p rid = false → ∃ t, exec i s = .next t ∧ t.trs = s.trs ∧ t.link = aerLog 0x100000 0x2000 s.link
        ∧ counted 0x60 2 t = counted 0x60 2 s + 1))
  )

/-! ### Waiting commands (03 R77, R85, R86) -/

/-- A freed lock entry accepts the waiting commands in order: one that an earlier range still blocks is ACCEPTED with its number and entry;
when nothing waits, or the table is full, nothing changes. CONFLICT_CLEARED: an accepted command that no earlier entry blocks ends without
a start event where its object is gone; else it makes its start event and runs its first action, or ends where it cannot start (of SEARCH
with its RESULT, of ATTEND as a step or with CAPACITY; FILTER, EMBED and CHAIN are not stated); one still blocked stays.
ACCEPTANCE_WAIT_END: a command
that waited at step 7 goes on with its checks: still waiting, failing a resource, or accepted. -/
def Obligations.WaitersAreAcceptedAndStart : Prop :=
  (
  (∀ s : State, s.boot.mode = .service → (pendingBy (fun h => h.waitLock) s = [] ∨ 1024 ≤ s.cmd.locks.length) →
    exec .lockEntryFreed s = .next s)
  ∧ (∀ (s : State) (p id : Nat) (h : Held) (l : Bool × List LockRange), s.boot.mode = .service → s.cmd.locks.length < 1024 →
      pendingBy (fun h => h.waitLock) s = [(p, id)] → heldOf s p id = some h → h.id = id → lockOf s h.desc = some l → h.op ≠ 0x13 →
      (∀ m ∈ s.cmd.locks, m.id ≠ id) →
      (s.cmd.locks.any (fun m => decide (m.acceptNo < s.cmd.acceptCount + 1) && locksConflict m ⟨p, id, s.cmd.acceptCount + 1, l.1, l.2⟩))
        = true →
    ∃ t g, exec .lockEntryFreed s = .next t ∧ heldOf t p id = some g ∧ g.phase = .accepted ∧ g.acceptNo = s.cmd.acceptCount + 1
      ∧ g.waitLock = false ∧ g.waitRes = false ∧ g.desc = h.desc ∧ g.resv = resvOf s p h.desc
      ∧ t = { s with trs := t.trs, cmd := { s.cmd with acceptCount := s.cmd.acceptCount + 1,
                                                       locks := s.cmd.locks ++ [⟨p, id, s.cmd.acceptCount + 1, l.1, l.2⟩] } }
      ∧ OtherPages s t p)
  )
  ∧ (
  (∀ (s : State) (p id : Nat) (h : Held), p < 4096 → s.boot.mode = .service → heldOf s p id = some h → h.phase = .accepted →
      h.ending = none → h.step = none →
    (blocked s h = true → exec (.conflictCleared p id) s = .next s)
    ∧ (∀ st, blocked s h = false → objectGone s h.desc = some st →
        ∃ t, exec (.conflictCleared p id) s = .next t ∧ Reported t p id st 0 ∧ (getTrs t p).sampleSeq = (getTrs s p).sampleSeq
          ∧ (getTrs t p).lastSet = (getTrs s p).lastSet)
    ∧ (blocked s h = false → objectGone s h.desc = none → startFail (startEvent p id s) h.desc = none → h.op = 0x03 →
        exec (.conflictCleared p id) s = .next (startEvent p id s))
    ∧ (blocked s h = false → objectGone s h.desc = none → startFail (startEvent p id s) h.desc = none →
        exec (.conflictCleared p id) s = .next (fenced (fun x => startBody p id h.acceptNo h.desc (startEvent p id x)) s))
    ∧ (∀ st, blocked s h = false → objectGone s h.desc = none → startFail (startEvent p id s) h.desc = some st →
        (h.op ∉ [0x13, 0x20, 0x30, 0x31, 0x32] → ∃ t, exec (.conflictCleared p id) s = .next t ∧ Reported t p id st 0)
        ∧ (h.op = 0x20 → ∃ t st' res, exec (.conflictCleared p id) s = .next t ∧ Reported t p id st' res)
        ∧ (h.op = 0x13 → ∃ t st', exec (.conflictCleared p id) s = .next t ∧ Reported t p id st' 0 ∧ (st' = st ∨ st' = 0x07))))
  ∧ (∀ (s : State) (p id : Nat) (h : Held), heldOf s p id = some h →
      heldOf (startEvent p id s) p id = some { h with phase := .running } ∧ OtherPages s (startEvent p id s) p
      ∧ ((h.op ≠ 0x40 ∧ h.op ≠ 0x41) → (getTrs (startEvent p id s) p).lastSet = (settleElapsed (now s) (getTrs s p)).current
          ∧ (getTrs (startEvent p id s) p).current = {} ∧ (getTrs (startEvent p id s) p).sampleSeq = (getTrs s p).sampleSeq + 1))
  )
  ∧ (
  ∀ (s : State) (p id : Nat) (h : Held), s.boot.mode = .service → pendingBy (fun h => h.waitRes) s = [(p, id)] →
    heldOf s p id = some h →
    (waitsAtSeven s h.desc = true →
      ∃ t g, exec .acceptanceWaitEnd s = .next t ∧ heldOf t p id = some g ∧ g = { h with waitRes := true } ∧ t.cmd = s.cmd
        ∧ OtherPages s t p)
    ∧ (∀ st, waitsAtSeven s h.desc = false → resourceFail s p h.desc = some st →
      ∃ t, exec .acceptanceWaitEnd s = .next t ∧ Reported t p id st 0)
    ∧ (waitsAtSeven s h.desc = false → resourceFail s p h.desc = none → (lockOf s h.desc).isSome = true →
        1024 ≤ s.cmd.locks.length →
      ∃ t g, exec .acceptanceWaitEnd s = .next t ∧ heldOf t p id = some g ∧ g = { h with waitRes := false, waitLock := true }
        ∧ t.cmd = s.cmd ∧ OtherPages s t p ∧ counted 0x60 4 t = counted 0x60 4 s + 1)
    ∧ (waitsAtSeven s h.desc = false → resourceFail s p h.desc = none → lockOf s h.desc = none →
      exec .acceptanceWaitEnd s = .next (fenced (accept p id) s))
  )

/-! ### Finishing (03 R76, R81 to R93) -/

/-- COMMAND_FINISH reports a decided ending (of every command but an ATTEND that has run): DONE or ERROR with its status and RESULT, its lock
entry and reservation gone, the first pending deferred error carried; a command whose work is not done waits. WRITE without FUA finishes
from the write buffer once every block is in and fits it: each block of the volume holds the bytes that came from the host, other blocks
of readable units keep theirs, RESULT is the number of blocks.
Model choices it rests on: log 15, log 44. -/
def Obligations.DecidedEndingsAndWritesFinish : Prop :=
  (
  (∀ (s : State) (p id : Nat) (h : Held) (e : Ending), p < 4096 → s.boot.mode = .service → heldOf s p id = some h →
      h.ending = some e → h.ended = false → (h.op ≠ 0x13 ∨ h.step = none) →
    ∃ t g, exec (.commandFinish p id) s = .next t ∧ Reported t p id e.status e.result ∧ heldOf t p id = some g
      ∧ g.deferred = (getTrs s p).defer.head?.map (fun x => deferredWord x
          (!((getTrs s p).defer.filter (fun y => y.no != x.no)).isEmpty) (!(getTrs s p).deferOver.isEmpty))
      ∧ t.cmd.locks = s.cmd.locks.filter (fun l => l.id != id) ∧ t.cmd.acceptCount = s.cmd.acceptCount
      ∧ t.fl = withoutEarly id s.fl ∧ t.ctx = s.ctx ∧ t.coll = s.coll ∧ t.tun.mem = s.tun.mem ∧ t.nor = s.nor ∧ OtherPages s t p)
  ∧ (∀ (s : State) (p id : Nat), p < 4096 → s.boot.mode = .service → heldOf s p id = none →
    exec (.commandFinish p id) s = .next s)
  ∧ (∀ (s : State) (p id : Nat) (h : Held), p < 4096 → s.boot.mode = .service → heldOf s p id = some h → h.ending = none →
      (h.phase ≠ .running ∨ h.op = 0x03 ∧ flushReady s h = false ∨ (h.op = 0x10 ∨ h.op = 0x21 ∨ h.op = 0x22) ∧ h.reads ≠ []) →
    exec (.commandFinish p id) s = .next s)
  )
  ∧ (
  ∀ (s : State) (p id : Nat) (h : Held), p < 4096 → s.boot.mode = .service → heldOf s p id = some h → h.op = 0x02 → h.phase = .running →
    h.ending = none → h.applied = false → h.reads = [] → isFua h = false → 0 < fld h.desc 16 4 →
    bufferRoom s (unitsTouched (fld h.desc 8 8) (fld h.desc 16 4)) = true →
    ∃ t, exec (.commandFinish p id) s = .next t ∧ Reported t p id 0x00 (BitVec.ofNat 64 (fld h.desc 16 4))
      ∧ (∀ i, i < fld h.desc 16 4 →
          blockBytes t (objOf h.desc) (fld h.desc 8 8 + i) = rxBytes h (fld h.desc 24 8 + i * 4096) 4096)
      ∧ (∀ a, (a < blockUnit s (objOf h.desc) (fld h.desc 8 8) * 16384
            ∨ (blockUnit s (objOf h.desc) (fld h.desc 8 8 + fld h.desc 16 4 - 1) + 1) * 16384 ≤ a) →
          SMap.find 0 t.fl.data a = SMap.find 0 s.fl.data a)
      ∧ (∀ k, (k < fld h.desc 8 8 ∨ fld h.desc 8 8 + fld h.desc 16 4 ≤ k) → unitStatus s (blockUnit s (objOf h.desc) k) = stOk →
          blockBytes t (objOf h.desc) k = blockBytes s (objOf h.desc) k)
      ∧ (∀ i, i < fld h.desc 16 4 → inBuffer t (blockUnit s (objOf h.desc) (fld h.desc 8 8 + i)) = true)
      ∧ t.fl.map = s.fl.map ∧ t.fl.journal = s.fl.journal ∧ t.tun = s.tun ∧ t.ctx = s.ctx ∧ t.coll = s.coll
  )

/-- FLUSH finishes when every earlier write of its scope has finished and passed program: every committed journal entry is then durable, and
it ends with OK, or with the first outstanding deferred error of its volume. INSERT and DELETE commit once their input is in: INSERT
appends its records with consecutive ordinals, one step of the commit sequence, and answers the first ordinal; DELETE tombstones the named
codes and answers how many.
Model choices it rests on: log 47, log 52. -/
def Obligations.FlushAndCollectionChangesCommit : Prop :=
  (
  ∀ (s : State) (p id : Nat) (h : Held), p < 4096 → s.boot.mode = .service → heldOf s p id = some h → h.op = 0x03 → h.phase = .running →
    h.ending = none → flushReady s h = true →
    ∃ t, exec (.commandFinish p id) s = .next t
      ∧ Reported t p id ((flushError s h).elim 0x00 (fun e => e.2.code)) 0
      ∧ (0 < s.fl.pendBytes → (∀ e ∈ t.fl.journal, e.durable = true) ∧ (∀ b ∈ t.fl.wbuf, b.mapSeq = none))
      ∧ t.fl.journal.length = s.fl.journal.length ∧ t.fl.pendBytes = 0 ∧ t.fl.data = s.fl.data ∧ t.fl.map = s.fl.map ∧ t.tun = s.tun ∧ t.ctx = s.ctx ∧ t.coll = s.coll
  )
  ∧ (
  (∀ (s : State) (p id : Nat) (h : Held) (x : Coll) (n : Nat), p < 4096 → s.boot.mode = .service → heldOf s p id = some h → h.op = 0x21 →
      h.phase = .running → h.ending = none → h.reads = [] → x = getColl s (objOf h.desc) → n = fld h.desc 8 4 →
      bufferRoom s (4 * (n / sidePer x.width + 2)) = true →
    ∃ t, exec (.commandFinish p id) s = .next t ∧ Reported t p id 0x00 (BitVec.ofNat 64 (x.nextOrd % 2 ^ 48))
      ∧ (getColl t (objOf h.desc)).commitSeq = (x.commitSeq + 1) % 2 ^ 64 ∧ (getColl t (objOf h.desc)).nextOrd = x.nextOrd + n
      ∧ (∃ cs, (getColl t (objOf h.desc)).codes = x.codes ++ cs ∧ cs.map (fun k => k.ord) = List.range' x.nextOrd n
          ∧ cs.map (fun k => (k.bits, k.cid, k.attr))
              = parseRecords x.width n (fun off k => rxBytes h (fld h.desc 24 8 + off) k)
          ∧ ∀ k ∈ cs, k.insSeq = x.commitSeq + 1 ∧ k.folded = none ∧ k.tombSeq = none ∧ k.removed = none)
      ∧ (∀ j, j ≠ objOf h.desc → getColl t j = getColl s j) ∧ t.ctx = s.ctx ∧ t.tun.mem = s.tun.mem)
  ∧ (∀ (s : State) (p id : Nat) (h : Held) (x : Coll) (n : Nat) (named : List Nat), p < 4096 → s.boot.mode = .service →
      heldOf s p id = some h → h.op = 0x22 → h.phase = .running → h.ending = none → h.reads = [] → x = getColl s (objOf h.desc) →
      n = fld h.desc 8 4 → bufferRoom s (4 * (n / 4096 + 2)) = true →
      named = deleteTargets x ((List.range n).map (fun i => numAt (rxBytes h (fld h.desc 24 8) (8 * n)) (8 * i) 8)) →
    ∃ t, exec (.commandFinish p id) s = .next t ∧ Reported t p id 0x00 (BitVec.ofNat 64 named.length)
      ∧ getColl t (objOf h.desc) = { x with commitSeq := (x.commitSeq + 1) % 2 ^ 64,
                                            codes := x.codes.map (fun k =>
                                              if k.ord ∈ named then { k with tombSeq := some (x.commitSeq + 1) } else k) }
      ∧ (∀ j, j ≠ objOf h.desc → getColl t j = getColl s j) ∧ t.ctx = s.ctx ∧ t.tun.mem = s.tun.mem)
  )

/-! ### Host data and timers (02 R52, 03 R91, R92) -/

/-- DMA_COMPLETION_ARRIVAL: data of an outstanding read enter a WRITE, INSERT, DELETE, PARK or EXTEND, of which the last two may decide
CHECK_MISMATCH; a failure decides HOST_ACCESS, and poison POISONED (a SEARCH then reports at once; FILTER, EMBED and CHAIN are not stated); a
completion that no outstanding read awaits is dropped and counted. A DMA read that times out decides HOST_ACCESS and counts, unless the
host has disabled the timeout; a RUNNING command that has waited too long for its host decides INPUT_STALLED. A WRITE keeps its leading
blocks. Nothing happens to a command that waits for nothing.
Model choices it rests on: log 64, log 97. -/
def Obligations.HostDataAndTimersReachTheirCommand : Prop :=
  (
  (∀ (s : State) (p id a n : Nat) (bytes : List Byte) (h : Held), p < 4096 → s.boot.mode = .service → heldOf s p id = some h →
      h.undecided = true → h.reads.find? (fun r => r.1 == a) = some (a, n) → h.op ∈ [0x02, 0x10, 0x11, 0x21, 0x22] →
    ∃ t g, exec (.dmaCompletionArrival p id a (.data bytes)) s = .next t ∧ heldOf t p id = some g
      ∧ g = { h with reads := h.reads.filter (fun r => r.1 != a), rx := SMap.putList 0 h.rx a (sliceBytes bytes 0 n),
                     rxAt := h.rxAt ++ [(a, n)], ending := g.ending }
      ∧ (g.ending = none ∨ (h.op ∈ [0x10, 0x11] ∧ bitOf (fld h.desc 1 1) 1 = true ∧ g.ending = some ⟨stCheckMismatch, 0⟩))
      ∧ (getTrs t p).current.hostRd = (getTrs s p).current.hostRd + BitVec.ofNat 64 n ∧ OtherPages s t p
      ∧ counted 0x40 0 t = counted 0x40 0 s + BitVec.ofNat 64 n ∧ t = { s with trs := t.trs, tele := t.tele })
  ∧ (∀ (s : State) (p id a n : Nat) (o : DmaOutcome) (h : Held), p < 4096 → s.boot.mode = .service → heldOf s p id = some h →
      h.undecided = true → h.reads.find? (fun r => r.1 == a) = some (a, n) → (∀ l, o ≠ .data l) →
    ((o ≠ .poisoned ∨ h.op ∉ [0x20, 0x30, 0x31, 0x32]) →
      ∃ t g res, exec (.dmaCompletionArrival p id a o) s = .next t ∧ Decided t p id (if o = .poisoned then 0x0B else 0x0F) res
        ∧ heldOf t p id = some g ∧ g.reads = [] ∧ (h.op ≠ 0x02 → h.op ≠ 0x15 → res = 0) ∧ OtherPages s t p
        ∧ t.tun = s.tun ∧ t.ctx = s.ctx ∧ t.coll = s.coll ∧ t.outbox = s.outbox)
    ∧ (o = .poisoned → h.op = 0x20 → ∃ t st res, exec (.dmaCompletionArrival p id a o) s = .next t ∧ Reported t p id st res))
  ∧ (∀ (s : State) (p id a : Nat) (o : DmaOutcome), p < 4096 → s.boot.mode = .service → heldOf s p id = none →
    ∃ t n, exec (.dmaCompletionArrival p id a o) s = .next t ∧ n = (if id ∈ s.cmd.stalled then 0 else 1)
      ∧ counted 0x60 n t = counted 0x60 n s + 1 ∧ t = { s with tele := t.tele })
  ∧ (∀ (s : State) (p id a : Nat) (o : DmaOutcome) (h : Held), p < 4096 → s.boot.mode = .service → heldOf s p id = some h →
      (h.undecided = false ∨ h.reads.find? (fun r => r.1 == a) = none) →
    ∃ t n, exec (.dmaCompletionArrival p id a o) s = .next t
      ∧ n = (if h.status = 0x06 ∨ h.ending.map (fun e => e.status) = some 0x06 then 0 else 1)
      ∧ counted 0x60 n t = counted 0x60 n s + 1 ∧ t = { s with tele := t.tele })
  )
  ∧ (
  (∀ (s : State) (p id : Nat) (h : Held), p < 4096 → s.boot.mode = .service → heldOf s p id = some h → h.undecided = true →
      h.reads ≠ [] → timeoutDisabled s = false →
    ∃ t g res, exec (.completionTimeout p id) s = .next t ∧ Decided t p id 0x0F res ∧ heldOf t p id = some g ∧ g.reads = []
      ∧ counted 0x20 3 t = counted 0x20 3 s + 1
      ∧ (h.op = 0x02 → h.applied = false → h.phase = .running → res = writtenPrefix h 0 (fld h.desc 16 4))
      ∧ OtherPages s t p ∧ t.tun = s.tun ∧ t.ctx = s.ctx ∧ t.coll = s.coll ∧ t.outbox = s.outbox)
  ∧ (∀ (s : State) (p id : Nat), p < 4096 → s.boot.mode = .service → timeoutDisabled s = true →
    exec (.completionTimeout p id) s = .next s)
  ∧ (∀ (s : State) (p id : Nat) (h : Held), p < 4096 → s.boot.mode = .service → heldOf s p id = some h → h.undecided = true →
      h.phase = .running → waitsForHost h = true →
    ∃ t g res, exec (.inactivityTimeout p id) s = .next t ∧ Decided t p id 0x06 res ∧ heldOf t p id = some g ∧ g.reads = []
      ∧ (h.op = 0x02 → h.applied = false → res = writtenPrefix h 0 (fld h.desc 16 4))
      ∧ OtherPages s t p ∧ t.tun = s.tun ∧ t.ctx = s.ctx ∧ t.coll = s.coll ∧ t.outbox = s.outbox)
  ∧ (∀ (s : State) (p id : Nat) (h : Held), p < 4096 → s.boot.mode = .service → heldOf s p id = some h → waitsForHost h = false →
    exec (.inactivityTimeout p id) s = .next s ∧ (h.reads = [] → exec (.completionTimeout p id) s = .next s))
  )

/-! ### Completions and vectors (02 R53, R54) -/

/-- With MSI-X on, a completion on a vector: its message goes when COUNT_M1 + 1 are pending, when HOLDOFF is 0, or for an error under
ERR_BYPASS, and clears the count; otherwise it is pending under the running hold-off timer. HOLDOFF_EXPIRY sends one message for all that
is pending and clears count and timer; a masked vector keeps its message as its PBA bit, and MSIX_UNMASK clears the mask and sends it. -/
def Obligations.VectorsSendOneMessageForAllPending : Prop :=
  (
  ∀ (v : Nat) (err : Bool) (s : State) (x : Vec), x = vecOf s v → msixOn s = true →
    ((x.coal.toNat % 2 ^ 8 + 1 ≤ x.pend + 1 ∨ x.coal.toNat / 2 ^ 8 % 2 ^ 16 = 0 ∨ (err = true ∧ x.coal.toNat.testBit 24 = true)) →
      (vecOf (addCompletion v err s) v).pend = 0 ∧ (vecOf (addCompletion v err s) v).timer = none
      ∧ ((msixEntry s v).mask = false → (addCompletion v err s).outbox = s.outbox ++ [.msix v])
      ∧ ((msixEntry s v).mask = true → (vecOf (addCompletion v err s) v).pba = true ∧ (addCompletion v err s).outbox = s.outbox))
    ∧ (¬(x.coal.toNat % 2 ^ 8 + 1 ≤ x.pend + 1 ∨ x.coal.toNat / 2 ^ 8 % 2 ^ 16 = 0 ∨ (err = true ∧ x.coal.toNat.testBit 24 = true)) →
      vecOf (addCompletion v err s) v = { x with pend := x.pend + 1, timer := some (x.timer.getD (x.coal.toNat / 2 ^ 8 % 2 ^ 16)) }
      ∧ (addCompletion v err s).outbox = s.outbox)
    ∧ (∀ w, w ≠ v → vecOf (addCompletion v err s) w = vecOf s w)
  )
  ∧ (
  (∀ (v : Nat) (s : State) (x : Vec), x = vecOf s v → x.timer.isSome = true → 0 < x.pend → (msixEntry s v).mask = false → msixOn s = true →
    exec (.holdoffExpiry v) s = .next { s with outbox := s.outbox ++ [.msix v],
                                               link := { s.link with vec := SMap.put {} s.link.vec v { x with pend := 0, timer := none } } })
  ∧ (∀ (v : Nat) (s : State) (x : Vec), x = vecOf s v → x.timer.isSome = true → 0 < x.pend → (msixEntry s v).mask = true →
    ∃ t, exec (.holdoffExpiry v) s = .next t ∧ vecOf t v = { x with pend := 0, timer := none, pba := true }
      ∧ t = { s with link := { s.link with vec := t.link.vec } })
  ∧ (∀ (v : Nat) (s : State), (vecOf s v).timer = none → exec (.holdoffExpiry v) s = .next s)
  ∧ (∀ (v : Nat) (s : State), v < 2048 → bar0Up s = true → msixOn s = true →
    ∃ t, exec (.msixUnmask v) s = .next t ∧ msixEntry t v = { msixEntry s v with mask := false } ∧ (vecOf t v).pba = false
      ∧ t.outbox = s.outbox ++ (if (vecOf s v).pba = true then [.msix v] else [])
      ∧ t = { s with link := { s.link with msix := t.link.msix, vec := t.link.vec }, outbox := t.outbox })
  ∧ (∀ (v : Nat) (s : State), v < 2048 → bar0Up s = false → exec (.msixUnmask v) s = .next s)
  )

/-! ### Registers and windows (02 R37 to R54, 15 R448) -/

/-- Register writes by window: VEC_COAL keeps its defined bits, the head of BAR0 up to TB_NOW takes nothing, COMMAND of an admitted page takes
the written bytes and no other page changes, GO with bit 0 submits what COMMAND holds, a refused requester changes no page, is logged and
counted, an 8-byte write of BAR2's words sets its address at its size and the device's requester ID, and the ER DVSEC takes ER_CTL. A BAR2
read of a requester that the binding does not list is answered with Unsupported Request and counted; a listed one reads the page; reads of
configuration space below the ER DVSEC answer its bytes. While BAR0 does not decode its writes change nothing.
Model choices it rests on: log 2, log 6, log 13. -/
def Obligations.WindowsWriteAndReadRegisters : Prop :=
  (
  (∀ (s : State) (n : Nat) (v : BitVec 512) (rid : BitVec 16), n < 2048 → bar0Up s = true →
    exec (.registerWrite 0 (0x2000 + 4 * n) 4 v rid) s = .next { s with
      link := { s.link with vec := SMap.put {} s.link.vec n { vecOf s n with coal := v.setWidth 32 &&& 0x01FFFFFF } } })
  ∧ (∀ (s : State) (off w : Nat) (v : BitVec 512) (rid : BitVec 16), off + w ≤ 0x80000 → (off < 0x20 ∨ bar0Up s = false) →
    exec (.registerWrite 0 off w v rid) s = .next s)
  ∧ (∀ (s : State) (p o w : Nat) (v : BitVec 512) (rid : BitVec 16), p < 4096 → o + w ≤ 0x40 → s.boot.mode = .service →
      decodes s s.link.bar2 = true → admits s p rid = true →
    exec (.registerWrite 2 (p * 4096 + o) w v rid) s
      = .next (setTrs p { getTrs s p with command := setDescBits (getTrs s p).command (8 * o) (8 * w) v.toNat } s))
  ∧ (∀ (s : State) (p : Nat) (v : BitVec 512) (rid : BitVec 16), p < 4096 → s.boot.mode = .service → decodes s s.link.bar2 = true →
      admits s p rid = true → v.getLsbD 0 = true →
    exec (.registerWrite 2 (p * 4096 + 0x40) 4 v rid) s = .next (fenced (goArrived p) s))
  ∧ (∀ (s : State) (p o w : Nat) (v : BitVec 512) (rid : BitVec 16), p < 4096 → o + w ≤ 4096 → 0 < w → s.boot.mode = .service →
      decodes s s.link.bar2 = true → admits s p rid = false →
    ∃ t, exec (.registerWrite 2 (p * 4096 + o) w v rid) s = .next t ∧ t.trs = s.trs ∧ t.link = aerLog 0x100000 0x2000 s.link
      ∧ counted 0x60 2 t = counted 0x60 2 s + 1)
  ∧ (∀ (s : State) (v : BitVec 512) (rid : BitVec 16), configUp s = true →
    exec (.registerWrite 7 0x18 8 v rid) s = .next { s with
      link := { s.link with bar2 := some (BitVec.ofNat 64 (v.toNat % 2 ^ 64 / 0x1000000 * 0x1000000)),
                            cfg := { s.link.cfg with devId := rid } } })
  ∧ (∀ (s : State) (v : BitVec 512) (rid : BitVec 16), configUp s = true → v.toNat % 2 = 0 →
    exec (.registerWrite 8 0x10 4 v rid) s = .next { s with link := { s.link with erCtl := BitVec.ofNat 32 v.toNat &&& 7 } })
  )
  ∧ (
  (∀ (s : State) (p o w : Nat) (rid : BitVec 16), p < 4096 → o + w ≤ 4096 → configUp s = true → decodes s s.link.bar2 = true →
    (admits s p rid = false →
      exec (.refusedBar2Access p o w rid) s = .next { s with
        outbox := s.outbox ++ [.ur],
        tele := { s.tele with counters := SMap.modify 0 s.tele.counters (0x60 * 65536 + 2) (· + 1) } })
    ∧ (admits s p rid = true →
      exec (.refusedBar2Access p o w rid) s
        = .next { s with outbox := s.outbox ++ [.completion (trsRead (getTrs s p) p o w) false false] }))
  ∧ (∀ (s : State) (off w : Nat), configUp s = true → off + w ≤ 0x300 →
    exec (.tbNowRead 7 off w) s
      = .next { s with outbox := s.outbox ++ [.completion ((List.range w).map (fun i => cfgByte s (off + i))) false false] })
  )

/-- TB_SET sets the whole timebase with an 8-byte write, or with a high half that completes the low half held before it; TB_NOW reads it, a
4-byte read of the low half capturing the value whose high half the next read returns. HDM_DECODER_COMMIT: decoder 0 commits one-way without
skip from DPA 0, decoder 1 from decoder 0's end, each of at least one unit and at most 954 units in all, and decoder 0 keeps its size
while decoder 1 is committed; any other setting reports Error Not Committed and leaves the decoders, and no other decoder takes anything.
While BAR0 does not decode none of these rows changes anything.
Model choices it rests on: log 6, log 13, log 89. -/
def Obligations.TimebaseAndDecodersAreSet : Prop :=
  (
  ∀ s : State, bar0Up s = true →
    (∀ v, ∃ t, exec (.tbSetWrite 0x20 8 v) s = .next t ∧ t.aon = { s.aon with timebase := v, tbHeldLow := none, tbFromHost := true }
      ∧ t.isl = { s.isl with approx := s.isl.released.filter (fun i => decide (i ≠ .alwaysOn)) }
      ∧ t = { s with aon := t.aon, isl := t.isl, trs := t.trs, boot := { s.boot with mediaRef := none },
                     fl := { s.fl with mediaMinutes := t.fl.mediaMinutes } })
    ∧ (∀ v, exec (.tbSetWrite 0x20 4 v) s = .next { s with aon := { s.aon with tbHeldLow := some (v.setWidth 32) } })
    ∧ (∀ v, ∃ t, exec (.tbSetWrite 0x24 4 v) s = .next t
      ∧ t.aon = { s.aon with timebase := v.setWidth 32 ++ s.aon.tbHeldLow.getD 0, tbHeldLow := none, tbFromHost := true })
    ∧ (∀ off w v, (off, w) ∉ [(0x20, 8), (0x20, 4), (0x24, 4)] → exec (.tbSetWrite off w v) s = .next s)
    ∧ exec (.tbNowRead 0 0x18 8) s = .next { s with outbox := s.outbox ++ [.completion (bytesOf 8 (now s).toNat) false false] }
    ∧ exec (.tbNowRead 0 0x18 4) s = .next { s with aon := { s.aon with tbCapture := now s },
                                                    outbox := s.outbox ++ [.completion (bytesOf 4 (now s).toNat) false false] }
    ∧ exec (.tbNowRead 0 0x1C 4) s
        = .next { s with outbox := s.outbox ++ [.completion (bytesOf 4 (s.aon.tbCapture.toNat / 2 ^ 32)) false false] }
  )
  ∧ (
  ∀ (s : State) (base units ways skip : Nat) (bi : Bool), bar0Up s = true →
    ((base = 0 ∧ ways = 1 ∧ skip = 0 ∧ 1 ≤ units ∧ units + s.link.dec1.getD 0 ≤ 954 ∧ (s.link.dec1.isSome = true → s.link.dec0 = some units)) →
      exec (.hdmDecoderCommit 0 base units ways skip bi) s = .next { s with
        link := { s.link with dec0 := some units, biEnable := bi, biUsed := bi, commitErr0 := false } })
    ∧ (¬(base = 0 ∧ ways = 1 ∧ skip = 0 ∧ 1 ≤ units ∧ units + s.link.dec1.getD 0 ≤ 954
          ∧ (s.link.dec1.isSome = true → s.link.dec0 = some units)) →
      exec (.hdmDecoderCommit 0 base units ways skip bi) s = .next { s with link := { s.link with biEnable := bi, commitErr0 := true } })
    ∧ ((∃ n, s.link.dec0 = some n ∧ base = n * 2 ^ 28 ∧ ways = 1 ∧ skip = 0 ∧ 1 ≤ units ∧ n + units ≤ 954) →
      exec (.hdmDecoderCommit 1 base units ways skip bi) s = .next { s with
        link := { s.link with dec1 := some units, biEnable := bi, commitErr1 := false } })
    ∧ (¬(∃ n, s.link.dec0 = some n ∧ base = n * 2 ^ 28 ∧ ways = 1 ∧ skip = 0 ∧ 1 ≤ units ∧ n + units ≤ 954) →
      exec (.hdmDecoderCommit 1 base units ways skip bi) s = .next { s with link := { s.link with biEnable := bi, commitErr1 := true } })
    ∧ (∀ d, 2 ≤ d → exec (.hdmDecoderCommit d base units ways skip bi) s = .next s)
  )
  ∧ (∀ s : State, bar0Up s = false →
    (∀ off w v, exec (.tbSetWrite off w v) s = .next s) ∧ (∀ off w, off + w ≤ 0x80000 → exec (.tbNowRead 0 off w) s = .next s)
    ∧ (∀ d base units ways skip bi, exec (.hdmDecoderCommit d base units ways skip bi) s = .next s))

/-- CXL.mem: a host write that the committed decoders reach and no placed region begins at is stored byte for byte and counted; one with poison
is stored and poisons its lines; late input of a stalled command is dropped and counted. A read returns the bytes and the poison, and is
counted. Without Memory_Active, or beyond the decoders, a write changes nothing; in Fettle mode a read is answered with poison. The answer
to a back-invalidate frees its lines.
Model choices it rests on: log 7, log 32, log 80. -/
def Obligations.MemoryWindowStoresAndReads : Prop :=
  (∀ (s : State) (a : Nat) (bytes : List Byte), a + bytes.length ≤ tundishSize → s.boot.memActive = true →
      decoded s a bytes.length = true → lateInput s a bytes.length = false → s.tun.regions.all (fun r => decide (r.base ≠ a)) = true →
    ∃ t, exec (.cxlMemWrite a bytes false) s = .next t ∧ tunRead t a bytes.length = bytes
      ∧ (∀ b, (b < a ∨ a + bytes.length ≤ b) → SMap.find 0 t.tun.mem b = SMap.find 0 s.tun.mem b)
      ∧ counted 0x40 3 t = counted 0x40 3 s + BitVec.ofNat 64 bytes.length
      ∧ t = { s with tun := { s.tun with mem := t.tun.mem, poison := t.tun.poison }, tele := t.tele })
  ∧ (∀ (s : State) (a : Nat) (bytes : List Byte), a + bytes.length ≤ tundishSize → s.boot.memActive = true →
      decoded s a bytes.length = true → lateInput s a bytes.length = false →
    ∃ t, exec (.cxlMemWrite a bytes true) s = .next t ∧ tunRead t a bytes.length = bytes
      ∧ (∀ l ∈ linesOf a bytes.length, SMap.find false t.tun.poison l = true)
      ∧ (∀ b, (b < a ∨ a + bytes.length ≤ b) → SMap.find 0 t.tun.mem b = SMap.find 0 s.tun.mem b)
      ∧ t = { s with tun := { s.tun with mem := t.tun.mem, poison := t.tun.poison }, tele := t.tele })
  ∧ (∀ (s : State) (a : Nat) (bytes : List Byte) (x : Bool), a + bytes.length ≤ tundishSize → s.boot.memActive = true →
      decoded s a bytes.length = true → lateInput s a bytes.length = true →
    ∃ t, exec (.cxlMemWrite a bytes x) s = .next t ∧ counted 0x60 0 t = counted 0x60 0 s + 1 ∧ t = { s with tele := t.tele })
  ∧ (∀ (s : State) (a : Nat) (bytes : List Byte) (x : Bool), a + bytes.length ≤ tundishSize →
      (s.boot.memActive = false ∨ decoded s a bytes.length = false) →
    exec (.cxlMemWrite a bytes x) s = .next s)
  ∧ (∀ (s : State) (a n : Nat), a + n ≤ tundishSize → decoded s a n = true → s.boot.memActive = true →
    ∃ t, exec (.cxlMemRead a n) s = .next t ∧ t.outbox = s.outbox ++ [.readData (tunRead s a n) (poisonedAt s a n)]
      ∧ counted 0x40 2 t = counted 0x40 2 s + BitVec.ofNat 64 n ∧ t = { s with outbox := t.outbox, tele := t.tele })
  ∧ (∀ (s : State) (a n : Nat), a + n ≤ tundishSize → decoded s a n = true → s.boot.memActive = false → s.boot.mode = .fettle →
    ∃ t l, exec (.cxlMemRead a n) s = .next t ∧ t.outbox = s.outbox ++ [.readData l true] ∧ l.length = n
      ∧ t = { s with outbox := t.outbox, freeCount := t.freeCount })
  ∧ (∀ (s : State) (b : Nat),
    exec (.bisnpResponse b) s = .next { s with tun := { s.tun with snoops := s.tun.snoops.filter (fun r => r.1 != b) } })

/-! ### Extended Rate (02 R56 to R62) -/

/-- The ER handshake: setting ER_ARM at 64 GT/s sends ER_OFFER; a received offer of version 1 is answered with ER_ACCEPT, one of another
version fails with VERSION; sent and received ER_ACCEPT are the agreement; 1 ms without it fails with NO_PARTNER. Entry to ER: an agreed
port at 64 GT/s follows the partner into Recovery, and three markers on each configured lane bring the link up at ER, with ER_ACTIVE,
cleared FEC counts and one entry counted. Leaving ER: failed equalisation or lock, a missing lane, too many uncorrectable codewords under
AUTO_DOWNGRADE and lost markers bring the link back to 64 GT/s with ER_FAILED, the cause and one fallback counted; the partner's own
return is no failure.
Model choices it rests on: log 2, log 19, log 20, log 21, log 23. -/
def Obligations.ExtendedRateAgreesEntersAndFallsBack : Prop :=
  (
  (∀ (s : State) (v : BitVec 32), portUp s = true → erArmed s = false → v.getLsbD 0 = true → at64 s = true →
    exec (.erCtlWrite v) s = .next { s with
      link := { s.link with erCtl := v &&& 7, erDead := false, erAcceptSent := false, erAcceptRecv := false, erOfferSent := true },
      outbox := s.outbox ++ [handshake 1 1 (v.getLsbD 1)] })
  ∧ (∀ (s : State) (pc : Bool), portUp s = true → erArmed s = true → s.link.erDead = false →
    ∃ t, exec (.erOffer 1 pc) s = .next t ∧ t.outbox = s.outbox ++ [handshake 2 1 (erPrecodeReq s)] ∧ t.link.erAcceptSent = true
      ∧ t.link.erTxPrecode = pc ∧ erAgreed t = (erAgreed s || s.link.erAcceptRecv)
      ∧ t = { s with outbox := t.outbox, link := { s.link with erAcceptSent := true, erTxPrecode := pc, erStatus := t.link.erStatus } })
  ∧ (∀ (s : State) (pc : Bool), portUp s = true → erArmed s = true → s.link.erDead = false → s.link.erOfferSent = true →
      erAgreed s = false →
    ∃ t, exec (.erAccept 1 pc) s = .next t ∧ t.link.erAcceptRecv = true ∧ t.link.erTxPrecode = pc
      ∧ erAgreed t = s.link.erAcceptSent
      ∧ t = { s with link := { s.link with erAcceptRecv := true, erTxPrecode := pc, erStatus := t.link.erStatus } })
  ∧ (∀ (i : Instr) (s : State) (v : BitVec 8) (pc : Bool), portUp s = true → erArmed s = true → s.link.erDead = false → v ≠ 1 →
      (i = .erOffer v pc ∨ (i = .erAccept v pc ∧ s.link.erOfferSent = true ∧ erAgreed s = false)) →
    ∃ t, exec i s = .next t ∧ t.link.erDead = true ∧ erFailed t = true ∧ erCause t = 2 ∧ erAgreed t = false
      ∧ t.link.erCounts = s.link.erCounts ∧ t.outbox = s.outbox ∧ t.link.rate = s.link.rate)
  ∧ (∀ s : State, portUp s = true → erArmed s = true → s.link.erDead = false → s.link.erOfferSent = true → erAgreed s = false →
    ∃ t, exec .erOfferTimeout s = .next t ∧ t.link.erDead = true ∧ erFailed t = true ∧ erCause t = 1
      ∧ t.link.erCounts = s.link.erCounts ∧ t.outbox = s.outbox ∧ t.link.rate = s.link.rate)
  ∧ (∀ (i : Instr) (s : State) (v : BitVec 8) (pc : Bool), (i = .erOffer v pc ∨ i = .erAccept v pc ∨ i = .erOfferTimeout) →
      (erArmed s = false ∨ s.link.erDead = true) →
    exec i s = .next s)
  )
  ∧ (
  (∀ s : State, portUp s = true → at64 s = true → erAgreed s = true →
    exec .erRecoverySpeed s = .next { s with link := { s.link with recovery := true }, outbox := s.outbox ++ [.recoverySpeed true] })
  ∧ (∀ (s : State) (ms : List Nat), portUp s = true → s.link.recovery = true → erAgreed s = true → s.link.width ≤ ms.length →
      (∀ m ∈ ms, 3 ≤ m) →
    ∃ t, exec (.erLockAchieved ms) s = .next t ∧ t.link.rate = .er ∧ t.link.recovery = false ∧ erActive t = true ∧ erAgreed t = true
      ∧ erFailed t = erFailed s ∧ erPrecode t = erPrecodeReq s ∧ t.link.erFecCorr = 0 ∧ t.link.erFecUncorr = 0
      ∧ t.link.erCounts.toNat % 2 ^ 16 = (s.link.erCounts.toNat % 2 ^ 16 + 1) % 2 ^ 16
      ∧ t.link.erCounts.toNat / 2 ^ 16 = s.link.erCounts.toNat / 2 ^ 16 ∧ Island.link ∈ t.isl.approx
      ∧ t = { s with link := t.link, isl := t.isl })
  ∧ (∀ s : State, portUp s = true → (at64 s = false ∨ erAgreed s = false) → exec .erRecoverySpeed s = .next s)
  )
  ∧ (
  (∀ (s : State) (lock : Bool), portUp s = true → s.link.recovery = true → erAgreed s = true →
    ∃ t, exec (.erEqTimeout lock) s = .next t ∧ FellBack s t (if lock then 4 else 3) ∧ t.link.erCtl = s.link.erCtl)
  ∧ (∀ (s : State) (ms : List Nat), portUp s = true → s.link.recovery = true → erAgreed s = true → ms.length < s.link.width →
    ∃ t, exec (.erLockAchieved ms) s = .next t ∧ FellBack s t 6 ∧ t.link.erCtl = s.link.erCtl)
  ∧ (∀ (s : State) (lane n : Nat), portUp s = true → erActive s = true → erAutoDowngrade s = true → 8 < n →
    ∃ t, exec (.erErrorRateFallback lane n) s = .next t ∧ FellBack s t 5 ∧ erArmed t = false
      ∧ t.link.erFecUncorr.toNat = min (s.link.erFecUncorr.toNat + n) (2 ^ 32 - 1))
  ∧ (∀ (s : State) (lane n : Nat), portUp s = true → erActive s = true → (erAutoDowngrade s = false ∨ n ≤ 8) →
    ∃ t, exec (.erErrorRateFallback lane n) s = .next t ∧ t.link.rate = s.link.rate ∧ t.link.erStatus = s.link.erStatus
      ∧ t.link.erFecUncorr.toNat = min (s.link.erFecUncorr.toNat + n) (2 ^ 32 - 1)
      ∧ t = { s with link := { s.link with erFecUncorr := t.link.erFecUncorr }, tele := t.tele })
  ∧ (∀ (s : State) (lane n : Nat), portUp s = true → erActive s = true →
    (4 ≤ n → ∃ t, exec (.erMarkerLossFallback lane n) s = .next t ∧ FellBack s t 4 ∧ t.link.erCtl = s.link.erCtl)
    ∧ (n < 4 → exec (.erMarkerLossFallback lane n) s = .next s))
  ∧ (∀ s : State, portUp s = true → (erActive s = true ∨ (s.link.recovery = true ∧ erAgreed s = true)) →
    ∃ t, exec .partnerErFallback s = .next t ∧ t.link.rate = .gt64 ∧ t.link.recovery = false ∧ erActive t = false
      ∧ erFailed t = erFailed s ∧ erAgreed t = erAgreed s ∧ t.link.erCounts = s.link.erCounts ∧ t.outbox = s.outbox
      ∧ t.link.erCtl = s.link.erCtl ∧ Island.link ∈ t.isl.approx)
  )

/-! ### Steps, heats and frames (04 R127 to R138, 10 R293) -/

namespace Sys2Proof.Machine

/-- The commands that write the word `v` in a step's doorbell at `a`: STEP_DOORBELL, or a CXL.mem write of it. -/
def RingsStep (s : State) (a : Nat) (v : BitVec 32) (i : Instr) : Prop :=
  i = .stepDoorbell a v
  ∨ (i = .cxlMemWrite a (bytesOf 4 v.toNat) false ∧ s.boot.memActive = true ∧ decoded s a 4 = true ∧ bellRegion s .stage a = none)

/-- The commands that write the word `v` in a staging region's doorbell at `a`. -/
def RingsStage (s : State) (a : Nat) (v : BitVec 32) (i : Instr) : Prop :=
  i = .stageDoorbell a v
  ∨ (i = .cxlMemWrite a (bytesOf 4 v.toNat) false ∧ s.boot.memActive = true ∧ decoded s a 4 = true ∧ bellRegion s .slot a = none)

/-- A step after a doorbell at the present instant: the interval between its doorbells is brought up to date (04 R139). -/
def rung (s : State) (p : Step) : Step := { p with lastBell := some (now s), delta := nextDelta p (now s) }

/-- The doorbell's word stands in the tundish, and nothing has changed but page `q` and the heat window. -/
def BellStored (s t : State) (a : Nat) (v : BitVec 32) (q : Nat) : Prop :=
  tunRead t a 4 = bytesOf 4 v.toNat ∧ OtherPages s t q
  ∧ (∀ b, (b < a ∨ a + 4 ≤ b) → SMap.find 0 t.tun.mem b = SMap.find 0 s.tun.mem b)
  ∧ t = { s with trs := t.trs, tele := t.tele, heat := { s.heat with windowOpen := t.heat.windowOpen },
                 tun := { s.tun with mem := t.tun.mem, poison := t.tun.poison } }

/-- What the ending of step `id` of page `q` changes beside the page: of the flash and the tier pages only what the command had made and
not committed goes. -/
def EndsStep (s t : State) (q id : Nat) : Prop :=
  OtherPages s t q ∧ t.fl = withoutEarly id s.fl ∧ t.ctx = s.ctx ∧ t.coll = s.coll ∧ t.pol = s.pol ∧ t.tun.regions = s.tun.regions
  ∧ t.aon = s.aon ∧ t.boot = s.boot ∧ t.tier.pages = s.tier.pages.filter (fun e => e.2.pend != some id) ∧ t.nor = s.nor ∧ t.gov = s.gov

/-- The head records of layer `l` of the step `p`: each from the drop and the stored pages, with its own open order of additions (04 R129 to
R131). -/
def headRecords (s : State) (q id l : Nat) (p : Step) (drop : List Byte) : List (List Byte × Bool) :=
  (List.range p.heads).map (fun h => headRecord s p (idxOf s q id) l (draw s + h) drop h)

end Sys2Proof.Machine

/-- A doorbell asks for the step's next layer and may open the heat window, bit 31 closes the step, another layer marks it; a step with
nothing requested or placed ends at once, with OK, SHORT or INVALID_FIELD. The doorbell of a staging region with its STAGE_SEQ marks the
source as staged, after which a unit that fails its check decides the ending CHECK_MISMATCH (PCHK = 1); any other word is only stored. -/
def Obligations.DoorbellsAskCloseAndStage : Prop :=
  (
  ∀ (i : Instr) (s : State) (a : Nat) (v : BitVec 32) (r : Region) (p : Step),
    s.boot.mode = .service → a + 4 ≤ tundishSize → lateInput s a 4 = false → RingsStep s a v i → bellRegion s .slot a = some r →
    openStep s r.trs r.id = some p → p.closing = false → p.badBell = false →
    (bitOf v.toNat 31 = false → bitsOf v.toNat 0 8 = p.nextLayer → p.nextLayer < p.endLayer →
      ∃ t, exec i s = .next t
        ∧ openStep t r.trs r.id = some { rung s p with requested := p.requested ++ [p.nextLayer], nextLayer := p.nextLayer + 1 }
        ∧ t.heat.windowOpen = (s.heat.windowOpen || anyReady t) ∧ BellStored s t a v r.trs)
    ∧ (bitOf v.toNat 31 = true → (p.requested ≠ [] ∨ p.placed ≠ []) →
      ∃ t, exec i s = .next t ∧ openStep t r.trs r.id = some { rung s p with closing := true } ∧ t.heat = s.heat
        ∧ BellStored s t a v r.trs)
    ∧ (bitOf v.toNat 31 = false → (bitsOf v.toNat 0 8 ≠ p.nextLayer ∨ p.endLayer ≤ p.nextLayer) →
      (p.requested ≠ [] ∨ p.placed ≠ []) →
      ∃ t, exec i s = .next t ∧ openStep t r.trs r.id = some { rung s p with badBell := true } ∧ t.heat = s.heat
        ∧ BellStored s t a v r.trs)
    ∧ (bitOf v.toNat 31 = true → p.requested = [] → p.placed = [] → s.heat.windowOpen = true →
      ∃ t, exec i s = .next t ∧ EndsStep s t r.trs r.id
        ∧ Reported t r.trs r.id (if p.doneLayers = p.nlayer then 0x00 else 0x01) (BitVec.ofNat 64 p.doneLayers))
    ∧ (bitOf v.toNat 31 = false → (bitsOf v.toNat 0 8 ≠ p.nextLayer ∨ p.endLayer ≤ p.nextLayer) →
      p.requested = [] → p.placed = [] → s.heat.windowOpen = true →
      ∃ t, exec i s = .next t ∧ Reported t r.trs r.id 0x03 (BitVec.ofNat 64 p.doneLayers) ∧ EndsStep s t r.trs r.id
        ∧ s.outbox ++ hostWrites s (p.blockAt (p.layer0 + p.doneLayers) + p.ls - 64)
            (completionLine (p.layer0 + p.doneLayers) 0x03 false p.seq) false <+: t.outbox)
  )
  ∧ (
  ∀ (i : Instr) (s : State) (a : Nat) (v : BitVec 32) (r : Region) (h : Held) (x : StageRec),
    s.boot.mode = .service → a + 4 ≤ tundishSize → lateInput s a 4 = false → RingsStage s a v i → bellRegion s .stage a = some r →
    heldOf s r.trs r.id = some h → h.undecided = true → h.stage = some x →
    ∃ t, exec i s = .next t ∧ BellStored s t a v r.trs ∧ t.heat = s.heat
      ∧ ∃ g, heldOf t r.trs r.id
            = some { (if x.seq = v then { h with stage := some { x with rung := true } } else h) with ending := g }
          ∧ (g = none ∨ (bitOf (fld h.desc 1 1) 1 = true ∧ g = some ⟨0x11, 0⟩))
  )

/-- A heat window closes into a heat of each member's ready layer, whose drop the device reads; the last layer of a step delivers its head
records and completion line and ends the step; a join deferred past its limit ends with CAPACITY. A frame that has been filled serves its
page and may make a layer ready, a WARM frame whose hold has passed goes, and a waiting frame takes a place where its stack has room.
Model choices it rests on: log 9, log 53, log 54. -/
def Obligations.HeatsAndFramesServeSteps : Prop :=
  (
  (∀ s : State, s.boot.mode = .service → s.heat.windowOpen = true → s.heat.leaving = [] → runningSteps s = [] →
    exec .heatWindowClose s = .next { s with heat := { s.heat with windowOpen := false } })
  ∧ (∀ s : State, s.heat.windowOpen = false → exec .heatWindowClose s = .next s)
  ∧ (∀ (s : State) (q id l : Nat) (p : Step), s.boot.mode = .service → s.heat.windowOpen = true → s.heat.leaving = [] →
      runningSteps s = [(q, id, p)] → openStep s q id = some p → p.member = true →
      (∀ m, p.layer0 + p.doneLayers ≤ m → m < p.endLayer →
        (p.owners (idxOf s q id) m).all (fun o => (missing s q id o).isNone) = true) →
      readyLayer s (idxOf s q id) p = some l → layerStatus s (idxOf s q id) p l = 0x00 →
    ∃ t, exec .heatWindowClose s = .next t
      ∧ openStep t q id = some { p with requested := p.requested.drop 1, placed := p.placed ++ [(l, tunRead s (p.dropAt l) p.ds)] }
      ∧ t.heat = { s.heat with windowOpen := anyReady t, running := s.heat.running ++ [(q, id, l)] } ∧ OtherPages s t q
      ∧ t = { s with trs := t.trs, heat := t.heat, core := t.core })
  ∧ (∀ (s : State) (q id l : Nat) (dr : List Byte) (p : Step), s.boot.mode = .service → q < 4096 →
      s.heat.windowOpen = true → openStep s q id = some p → p.placed.head? = some (l, dr) → p.doneLayers + 1 = p.nlayer →
    ∃ t, exec (.heatLayerComplete q id) s = .next t ∧ Reported t q id 0x00 (BitVec.ofNat 64 p.nlayer)
      ∧ s.outbox ++ hostWrites s (p.blockAt l) ((headRecords s q id l p dr).flatMap (·.1)) true
          ++ hostWrites s (p.blockAt l + p.ls - 64) (completionLine l 0x00 ((headRecords s q id l p dr).any (·.2)) p.seq) false <+: t.outbox
      ∧ (∀ e ∈ t.heat.running, ¬ (e.1 = q ∧ e.2.1 = id)) ∧ t.freeCount = s.freeCount + p.heads
      ∧ OtherPages s t q ∧ t.tun = s.tun ∧ t.fl = withoutEarly id s.fl ∧ t.ctx = s.ctx ∧ t.coll = s.coll ∧ t.boot = s.boot ∧ t.aon = s.aon)
  ∧ (∀ (s : State) (q id : Nat) (p : Step), s.boot.mode = .service → q < 4096 → s.heat.windowOpen = true →
      openStep s q id = some p →
    (p.deferred = true → ∃ t, exec (.joinDeferralTimeout q id) s = .next t ∧ EndsStep s t q id
      ∧ Reported t q id 0x07 (BitVec.ofNat 64 p.doneLayers)
      ∧ s.outbox ++ hostWrites s (p.blockAt (p.layer0 + p.doneLayers) + p.ls - 64)
          (completionLine (p.layer0 + p.doneLayers) 0x07 false p.seq) false <+: t.outbox)
    ∧ (p.deferred = false → exec (.joinDeferralTimeout q id) s = .next s))
  )
  ∧ (
  ∀ (s : State) (n : Nat), s.boot.mode = .service →
    (∃ t, exec (.frameFillComplete n) s = .next t ∧ t.heat = { s.heat with windowOpen := s.heat.windowOpen || anyReady t }
      ∧ t = { s with heat := t.heat, tier := { s.tier with
          frames := s.tier.frames.map (fun f => if f.fid = n ∧ f.placed then { f with filled := true } else f) } })
    ∧ exec (.warmFrameExpiry n) s
        = .next { s with tier := { s.tier with frames := s.tier.frames.filter (fun f => !(f.fid == n && f.kind == .warm)) } }
    ∧ (∀ (f : Frame) (tp : TenantPol) (c : Nat), s.tier.frames.find? (fun f => f.fid == n && !f.placed) = some f →
        tenantPol s f.tenant = some tp → frameUse s f.tenant + 1 ≤ tp.framemax → bestChan s f.stack f.tenant = some c →
        1 ≤ chanFree s f.stack c →
      exec (.transientFramePlaced n) s = .next { s with tier := { s.tier with
        frames := s.tier.frames.map (fun g => if g.fid = n then { g with placed := true, chan := c } else g) } })
  )

/-! ### Tier pages (10 R288 to R308) -/

namespace Sys2Proof.Machine

/-- A page has gone back to its flash home: no flash is written, its DRAM location stays while a reader uses it (10 Table 84, R291). -/
def Demoted (s t : State) (k : Nat) (p : Page) : Prop :=
  pageAt t k = some { p with home := flashHome p, state := .good } ∧ (∀ j, j ≠ k → pageAt t j = pageAt s j)
  ∧ (hasReader s p.owner = false → t.tier.dramPending = s.tier.dramPending)
  ∧ (hasReader s p.owner = true →
      ∀ st ch, p.home = .t1 st ch → t.tier.dramPending = s.tier.dramPending ++ [(k, st, ch)])
  ∧ t = { s with tier := { s.tier with pages := t.tier.pages, dramPending := t.tier.dramPending },
                 tele := { s.tele with counters := t.tele.counters } }

/-- Pages of a tenant that are on their way into T1. -/
def onTheWay (s : State) (tenant : Nat) : Nat := (s.tier.pages.filter (fun e => e.2.tenant == tenant && e.2.moving.isSome)).length

/-- A page lies in the range of a member, of another one than that whose riser promotes it (04 R137). -/
def heldElsewhere (s : State) (p : Page) : Bool :=
  match p.rider with
  | none => inMemberRange s p.owner
  | some r => otherMember s r.1 r.2 p.owner

/-- A relocation that has just read its source units out of superblock `sb` (11 Table 99). -/
def relocOf (s : State) (sb : Nat) (pr : Purpose) (pg : Option Nat) (us : List Nat) : Reloc :=
  { sb := sb, purpose := pr, page := pg, units := us.map (fun u => { unit := u, src := (mapOf s u).addr }) }

end Sys2Proof.Machine

/-- A promotion commits when its page was read and verified: the page becomes T1-homed and its WARM and transient frames go; a failed check
leaves it flash-homed, with an event; a page in the range of another member than the one whose riser called it is given up. A collection page that
must be T1-homed starts its promotion where a stack accepts it. Pages return to flash: the oldest candidate of a stack below LOW_WATER, an
idle page, and T2 pages in folds above 90% of the T2 size; a demoted page's DRAM location is freed once no command reads it.
Model choice it rests on: log 63. -/
def Obligations.PagesPromoteAndReturn : Prop :=
  (
  (∀ (s : State) (k st ch : Nat) (p : Page), s.boot.mode = .service → pageAt s k = some p → p.moving = some (st, ch) →
      unitsStatus s (slotUnit s k) = 0x00 →
    (pageMismatch s k = false → heldElsewhere s p = false →
      ∃ t, exec (.promotionCommit k true) s = .next t
        ∧ pageAt t k = some { p with home := .t1 st ch, moving := none, rider := none } ∧ (∀ j, j ≠ k → pageAt t j = pageAt s j)
        ∧ (∀ f ∈ t.tier.frames, f ∈ s.tier.frames ∧ (f.page = k → ∃ a b l, f.kind = .riser a b l))
        ∧ t = { s with tier := { s.tier with pages := t.tier.pages, frames := t.tier.frames },
                       heat := { s.heat with windowOpen := t.heat.windowOpen } })
    ∧ (∀ v, (v = false ∨ pageMismatch s k = true) →
        ∃ t, exec (.promotionCommit k v) s = .next t ∧ pageAt t k = some { p with moving := none, rider := none }
        ∧ (∀ j, j ≠ k → pageAt t j = pageAt s j) ∧ t.tier.frames = s.tier.frames ∧ t.trs = s.trs
        ∧ t.fl = { s.fl with mismatch := t.fl.mismatch } ∧ (∀ u, u ∈ t.fl.mismatch ↔ u ∈ s.fl.mismatch ∨ u = slotUnit s k)
        ∧ t.tele.eventSeq = s.tele.eventSeq + 1)
    ∧ (pageMismatch s k = false → heldElsewhere s p = true →
        ∃ t, exec (.promotionCommit k true) s = .next t ∧ pageAt t k = some { p with moving := none, rider := none }
        ∧ (∀ j, j ≠ k → pageAt t j = pageAt s j)
        ∧ t = { s with tier := { s.tier with pages := t.tier.pages }, heat := { s.heat with windowOpen := t.heat.windowOpen } }))
  ∧ (∀ s : State, reloads s = [] → exec .collectionReload s = .next s)
  ∧ (∀ (s : State) (k ch : Nat) (p : Page) (tp : TenantPol), s.boot.mode = .service → reloads s = [(k, p)] → pageAt s k = some p →
      pageStatus s k = 0x00 → tenantPol s p.tenant = some tp → t1Use s p.tenant + onTheWay s p.tenant < tp.t1max →
      bestChan s (stripeStack p.owner) p.tenant = some ch → 1 ≤ chanFree s (stripeStack p.owner) ch →
    ∃ t, exec .collectionReload s = .next t
      ∧ pageAt t k = some { p with moving := some (stripeStack p.owner, ch), lastUse := now s - now s % 1000000 }
      ∧ (∀ j, j ≠ k → pageAt t j = pageAt s j)
      ∧ t = { s with tier := { s.tier with pages := t.tier.pages }, tele := { s.tele with counters := t.tele.counters } })
  )
  ∧ (
  (∀ (s : State) (st : Nat), s.boot.mode = .service →
    (aboveWater st s = true → exec (.lowWaterEviction st) s = .next s)
    ∧ (∀ (k : Nat) (p : Page), aboveWater st s = false →
        oldest (s.tier.pages.filter (fun e => evictable s st (List.range 32) e.2 && !unbacked s e.1)) = some (k, p) → pageAt s k = some p →
        aboveWater st (demotePage k true s) = true →
      ∃ t, exec (.lowWaterEviction st) s = .next t ∧ Demoted s t k p ∧ counted 0x54 p.tenant t = counted 0x54 p.tenant s + 1))
  ∧ (∀ (s : State) (k : Nat) (p : Page), s.boot.mode = .service → pageAt s k = some p → p.inT1 = true → p.moving = none →
      keptT1 s p.owner = false → inMemberRange s p.owner = false → unbacked s k = false →
    (polValue s 0x0B 600 * 1000000000 ≤ (now s - p.lastUse).toNat →
      ∃ t, exec (.idleDemotion k) s = .next t ∧ Demoted s t k p ∧ t.tele = s.tele)
    ∧ ((now s - p.lastUse).toNat < polValue s 0x0B 600 * 1000000000 → exec (.idleDemotion k) s = .next s))
  ∧ (∀ s : State, s.boot.mode = .service → s.gov.bgFlash = false →
    (10 * (s.tier.pages.filter (fun e => e.2.home == .t2)).length ≤ 9 * t2Pages s → exec .t2Fold s = .next s)
    ∧ (∀ (k : Nat) (p : Page), 9 * t2Pages s + 10 * (s.tier.pages.filter (fun e => e.2.home == .t2 && inFold s e.1)).length
          < 10 * (s.tier.pages.filter (fun e => e.2.home == .t2)).length → flashStopped s = false →
        s.tier.pages.filter (foldsNow s) = [(k, p)] →
      ∃ t, exec .t2Fold s = .next t
        ∧ t.fl = { s.fl with relocs := s.fl.relocs ++ [relocOf s (sbKey s (mapOf s (slotUnit s k)).addr) .fold (some k)
            ((List.range 4).map (slotUnit s k + ·))] }
        ∧ t = { s with fl := t.fl, tele := { s.tele with counters := t.tele.counters } }))
  ∧ (∀ (s : State) (k : Nat) (p : Page), s.boot.mode = .service → pageAt s k = some p →
    (hasReader s p.owner = false → exec (.demotedDramFreed k) s
      = .next { s with tier := { s.tier with dramPending := s.tier.dramPending.filter (fun e => e.1 != k) } })
    ∧ (hasReader s p.owner = true → exec (.demotedDramFreed k) s = .next s))
  )

/-! ### Scans and anneal rounds (05 R151 to R166) -/

namespace Sys2Proof.Machine

/-- Slots of the pages of a superseded epoch that no search reads (05 R151). -/
def freedSlots (s : State) (cid ep : Nat) : List Nat :=
  s.tier.pages.filterMap (fun e => match e.2.owner, e.2.dead with
    | .coll c _ _, some d => if c = cid ∧ e.2.born ≤ ep ∧ ep < d ∧ epochFree s cid e.2.born d = true then some e.1 else none
    | _, _ => none)

/-- A background anneal round of `n` side-list codes (05 R155). -/
def newRound (s : State) (x : Coll) (n : Nat) : Round :=
  { insSeq := x.commitSeq, count := n, charged := 0, foreground := false, free := draw s }

/-- A row starts a background round of `n` codes, charged with the pages it writes new, and places its work on the cores (05 R155). -/
def StartsRound (o : Result) (s : State) (cid : Nat) (x : Coll) (n : Nat) : Prop :=
  ∃ t, o = .next t
    ∧ getColl t cid = { x with held := false, again := false, round := some { newRound s x n with
        charged := (roundPagesNew s cid (annealed s cid (newRound s x n))).length } }
    ∧ (∀ c, c ≠ cid → getColl t c = getColl s c)
    ∧ t = { s with coll := t.coll, core := t.core, freeCount := s.freeCount + 1 }

/-- The journal entry that a round's pages belong to: the one it has, else the next (11 R329). -/
def roundGroup (s : State) (r : Round) : Nat := if r.group = 0 then s.fl.seq + 1 else r.group

end Sys2Proof.Machine

/-- A FLAT scan ends: a query on board takes its hits and the search that has all of them reports; the next scan starts only where queries
wait. An anneal round starts at a threshold or where a reset ended one: whole where it fits, else of 65,536 codes, and it is held where no size
fits. With its pages in the buffer it commits one epoch in one journal entry; while the buffer takes none it waits. The pages of a superseded
epoch are freed once no search reads them.
Model choices it rests on: log 11, log 59, log 60, log 61. -/
def Obligations.ScansEndAndAnnealRoundsCommit : Prop :=
  (
  ∀ (s : State) (cid ep : Nat), s.boot.mode = .service → (getColl s cid).scanEpoch = some ep →
    (openSearches s cid = [] →
      exec (.flatScanEnd cid) s = .next (setColl cid { getColl s cid with scanEpoch := none } s))
    ∧ (∀ (q id : Nat) (h : Held) (r : SearchRec) (x y : Query) (w : Pass), openSearches s cid = [(q, id, r)] → heldOf s q id = some h →
        h.op = 0x20 → h.undecided = true → h.search = some r → r.coll = cid → r.queries = [x] → x.onBoard = true → x.hits = none →
        (getColl s cid).kind = 0 → (∀ e ∈ s.tier.pages, ownedByColl cid e.2.owner = false) →
        w = runPass s h.desc r x (fun _ => true) → y = afterPass h.desc { x with spent := [], seen := [] } w → y.hits.isSome = true →
      ∃ t, exec (.flatScanEnd cid) s = .next t
        ∧ t.outbox = s.outbox ++ hostWrites s (fld h.desc 32 8)
            (queryHeader r (fld h.desc 8 2) y w.hits.length ++ w.hits.flatMap hitBytes) true
        ∧ (worse r.lost (worse w.lost 0x00) = 0x00 →
            Decided t q id (if w.hits.length < fld h.desc 8 2 then 0x01 else 0x00)
              (w.hits.length % 2 ^ 32 + (if w.hits.length < fld h.desc 8 2 then 1 else 0) * 2 ^ 32))
        ∧ (getColl t cid).scanEpoch = none ∧ OtherPages s t q ∧ t.fl = s.fl ∧ t.tier = s.tier)
  )
  ∧ (
  (∀ (s : State) (cid : Nat) (x : Coll), s.boot.mode = .service → collOf s cid = some x → x = getColl s cid →
    (x.round = none → (annealDue s x = true ∨ x.again = true) →
      (roundFits s cid (newRound s x (sideLen x)) = true → StartsRound (exec (.annealRoundStart cid) s) s cid x (sideLen x))
      ∧ (roundFits s cid (newRound s x (sideLen x)) = false →
          (65536 < sideLen x → roundFits s cid (newRound s x 65536) = true →
            StartsRound (exec (.annealRoundStart cid) s) s cid x 65536)
          ∧ ((sideLen x ≤ 65536 ∨ roundFits s cid (newRound s x 65536) = false) →
            exec (.annealRoundStart cid) s = .next (setColl cid { x with held := true } s))))
    ∧ ((x.round ≠ none ∨ (annealDue s x = false ∧ x.again = false)) → exec (.annealRoundStart cid) s = .next s))
  ∧ (∀ (s : State) (cid : Nat) (r : Round), s.boot.mode = .service → (getColl s cid).round = some r → openMerges s cid = [] →
    ((roundPagesNew s cid (annealed s cid r)).all (roundPageIn s cid) = true →
      ∃ t, exec (.annealRoundCommit cid) s = .next t ∧ getColl t cid = annealed s cid r
      ∧ (getColl t cid).epochNo = (getColl s cid).epochNo + 1 ∧ (getColl t cid).round = none
      ∧ (∀ c, c ≠ cid → getColl t c = getColl s c)
      ∧ (∃ e ∈ t.fl.journal, e.seq = roundGroup s r ∧ .object 3 cid ∈ e.recs)
      ∧ (∀ q, q ≠ 0 → getTrs t q = getTrs s q) ∧ t.cmd = s.cmd ∧ t.outbox = s.outbox ∧ t.ctx = s.ctx)
    ∧ ((roundPagesNew s cid (annealed s cid r)).all (roundPageIn s cid) = false → bufferFree s < 4 →
      ∃ t, exec (.annealRoundCommit cid) s = .next t
      ∧ getColl t cid = { getColl s cid with round := some { r with group := roundGroup s r } }
      ∧ (∀ c, c ≠ cid → getColl t c = getColl s c)
      ∧ t = { s with coll := t.coll, fl := { s.fl with seq := max s.fl.seq (roundGroup s r) } }))
  ∧ (∀ (s : State) (cid ep : Nat), s.boot.mode = .service →
    (freedSlots s cid ep = [] → exec (.epochPagesFreed cid ep) s = .next s)
    ∧ (freedSlots s cid ep ≠ [] → ∃ t, exec (.epochPagesFreed cid ep) s = .next t
        ∧ t.tier.pages = s.tier.pages.filter (fun e => decide (e.1 ∉ freedSlots s cid ep))
        ∧ (∃ e ∈ t.fl.journal, e.seq = s.fl.seq + 1
            ∧ e.recs = (freedSlots s cid ep).map (fun k => .unmap (slotUnit s k) 4))
        ∧ (∀ c, c ≠ cid → getColl t c = getColl s c) ∧ t.trs = s.trs ∧ t.outbox = s.outbox ∧ t.ctx = s.ctx))
  )

/-! ### Cores and engines (07 R204 to R239, 01 R28, R29, 09 R279 to R283) -/

namespace Sys2Proof.Machine

/-- `s` with what raising events changes taken from `t`: telemetry, messages, pending bits of vectors, the start's own event list. -/
def withEvents (s t : State) : State :=
  { s with tele := t.tele, outbox := t.outbox, link := { s.link with vec := t.link.vec },
           boot := { s.boot with earlyEvents := t.boot.earlyEvents } }

/-- Every engine but one is as it was. -/
def OtherEngines (s t : State) (c e : Nat) : Prop := ∀ d f, ¬ (d = c ∧ f = e) → getEngine t d f = getEngine s d f

/-- Every core but one is as it was. -/
def OtherCores (s t : State) (c : Nat) : Prop := ∀ d, d ≠ c → getCore t d = getCore s d

/-- Nothing but the cores' tables has changed. -/
def CoresOnly (s t : State) : Prop := t = { s with core := { s.core with cores := t.core.cores } }

/-- What the operations of a tile on core `c` may change: that core, the stack DRAM counts of pages, and, where a claim of scratch makes room,
frames and tier pages. -/
def Worked (s t : State) (c : Nat) : Prop :=
  OtherCores s t c
  ∧ (∀ q, getTrs t q = { getTrs s q with current := { (getTrs s q).current with dram := (getTrs t q).current.dram } })
  ∧ t = { s with core := { s.core with cores := t.core.cores }, trs := t.trs, tier := t.tier,
                 tele := { s.tele with counters := t.tele.counters } }

/-- The command of a job: held, not ended, not an ATTEND. -/
def Serving (s : State) (j : Job) : Prop := ∃ h, heldOf s j.trs j.id = some h ∧ h.ended = false ∧ h.op ≠ 0x13

/-- An engine that has left service until the next start (01 R29). -/
def Disabled (s t : State) (c e : Nat) : Prop :=
  getEngine t c e = { getEngine s c e with disabled := true, stopped := true, checking := false, preempt := false }

/-- Every output line that a tile declared on its engine's scratchpad and in its job's SRAM is poisoned (07 R220, R223). -/
def LinesPoisoned (t : State) (c e : Nat) (g : Part) (x : Tile) (j : Job) : Prop :=
  (∀ k, (0, k) ∈ x.lines → SMap.find false (getEngine t c e).bad (g.base / 64 + k) = true)
  ∧ (∀ k, (1, k) ∈ x.lines → SMap.find false (getCore t c).badSram (j.base / 64 + k) = true)

/-- Work saved by an engine-level switch goes first on an idle engine, unless a ready tile of a higher class fits (07 R226, R231). -/
def savedFirst (s : State) (c e p : Nat) : Option Saved :=
  if (running (getEngine s c e)).isEmpty then
    (bestSaved (getCore s c)).filter (fun v => ((nextTile s (getCore s c) e (getEngine s c e) p).map
      (fun x => decide (savedClass v ≤ x.cls))).getD true)
  else none

/-- A partition right after its swap, with no reload waiting (07 R211). -/
def swapped (g : Part) : Part := { g with working := g.shadow, shadowReady := false, token := false, passRunning := true }

/-- The tile of a partition after its last operations, its transfers complete and every accumulator write made. -/
def Closed (s : State) (c e p : Nat) (ops : List EngOp) (u : State) (g : Part) (x : Tile) : Prop :=
  u = closeTile ⟨c, e, p⟩ ops s ∧ (getEngine u c e).parts[p]? = some g ∧ g.tile = some x ∧ (partAt s ⟨c, e, p⟩).tile = some x

/-- The counts of a tensor's conversions in a batch (09 R278). -/
def countsOf (b : Batch) (tensor : Nat) : BatchCount := (b.counts.find? (fun c => c.tensor == tensor)).getD { tensor := tensor }

/-- The batch that a command's work goes on with after `b`, under the multipliers `m` (09 R280, R283). -/
def batchAfter (s : State) (b : Batch) (x : FnSlot) (m : List (Nat × BitVec 32)) : Batch :=
  { no := s.core.nextBatch, slot := x.slot, trs := b.trs, id := b.id, tenant := b.tenant, cls := b.cls, cores := b.cores,
    left := b.left - 4096, mults := m }

/-- Engines of a core whose known-answer test is to be made ready (12 R361). -/
def katDue (c : Core) : List Nat :=
  (c.engines.filter (fun e => inService e.2 && !c.ready.any (fun x => decide (x.kat = some e.1)))).map Prod.fst

end Sys2Proof.Machine

/-- The scheduler restores saved work on an idle engine unless a tile of a higher class fits, else seats the next tile; its operations change
only its core, DRAM counts and room made for scratch. A completed tile leaves its partition: it releases what it made, or runs again on the
group path after a clamped addition, or ends its command with POISONED or SEMAPHORE_TIMEOUT; a failed known-answer test disables the engine.
A swap needs the token and the reload; an issue of an integer mode adds each row's products to its accumulator entry.
Model choices it rests on: log 9, log 10, log 28, log 98. -/
def Obligations.TilesAreDispatchedSwappedAndCompleted : Prop :=
  (∀ (s : State) (c e p : Nat) (g : Part) (ls : List (Nat × Nat)), s.boot.mode = .service → canRun (getEngine s c e) = true →
      (getEngine s c e).parts[p]? = some g → g.tile = none →
    (∀ v, savedFirst s c e p = some v → ∀ ops,
      ∃ t, exec (.tileDispatch c e p ls ops) s = .next t ∧ CoresOnly s t ∧ OtherEngines s t c e ∧ OtherCores s t c
        ∧ getEngine t c e = { restoreBytes v (getEngine s c e) with stopped := false, parts := v.parts }
        ∧ (getCore t c).saves = (getCore s c).saves.filter (fun w => w != v) ∧ (getCore t c).ready = (getCore s c).ready)
    ∧ (∀ x, savedFirst s c e p = none → nextTile s (getCore s c) e (getEngine s c e) p = some x →
      (∃ t, exec (.tileDispatch c e p ls []) s = .next t ∧ CoresOnly s t ∧ OtherEngines s t c e ∧ OtherCores s t c
        ∧ getEngine t c e = { getEngine s c e with
            parts := (getEngine s c e).parts.modify p (seatTile x ls ((liveRoom (getEngine s c e) x).getD 0)), stopped := false }
        ∧ (getCore t c).ready = (getCore s c).ready.filter (fun y => y != x)
        ∧ (getCore t c).jobs = (placeFirst x.job (getCore s c)).jobs)
      ∧ (∀ ops, ∃ t, exec (.tileDispatch c e p ls ops) s = .next t ∧ Worked s t c))
    ∧ (savedFirst s c e p = none → nextTile s (getCore s c) e (getEngine s c e) p = none →
        ∀ ops, exec (.tileDispatch c e p ls ops) s = .next s))
  ∧ (∀ (s u : State) (c e p : Nat) (ops : List EngOp) (fails : List CheckTest) (g : Part) (x : Tile), s.boot.mode = .service →
      Closed s c e p ops u g x →
    (∀ j, x.kat = none → jobOf (getCore u c) x.job = some j →
      (g.poisoned = false → heldSems (getCore u c) x = [] → (g.flagged = false ∨ x.groupPath = true) →
        ∃ t, exec (.tileComplete c e p ops fails) s = .next t ∧ OtherCores s t c
          ∧ (getEngine t c e).parts[p]? = some (clearPart g)
          ∧ t = { u with core := { u.core with cores := t.core.cores, batches := t.core.batches },
                         tele := { u.tele with watchRun := t.tele.watchRun, watchCum := t.tele.watchCum } }
          ∧ (g.outs = [] → t.core.batches = u.core.batches ∧ t.tele = u.tele)
          ∧ ((∃ y ∈ (getCore u c).ready, y.job = x.job) → jobOf (getCore t c) x.job = some j))
      ∧ (g.poisoned = false → heldSems (getCore u c) x = [] → g.flagged = true → x.groupPath = false →
        ∃ t, exec (.tileComplete c e p ops fails) s = .next t ∧ OtherCores s t c
          ∧ (getEngine t c e).parts[p]? = some (clearPart g)
          ∧ (getCore t c).ready = (getCore u c).ready ++ [{ x with groupPath := true, lines := [] }]
          ∧ t.core.batches = u.core.batches.map (fun b => if b.no = j.batch then { b with rerun := true } else b)
          ∧ counted 0x70 (3 * j.slot + 2) t = counted 0x70 (3 * j.slot + 2) u + 1 ∧ t.trs = u.trs ∧ t.outbox = s.outbox)
      ∧ (g.poisoned = true → ∀ h, heldOf s j.trs j.id = some h → h.undecided = true →
        ∃ t, exec (.tileComplete c e p ops fails) s = .next t ∧ LinesPoisoned t c e g x j
          ∧ (∀ r, h.op = 0x20 → h.search = some r → r.loaded = true →
              Reported t j.trs j.id (worse r.lost 0x0B) (BitVec.ofNat 64 (searchResult h.desc r)))
          ∧ (∀ q, h.op = 0x13 → h.step = some q → s.heat.windowOpen = true →
              Reported t j.trs j.id 0x0B (BitVec.ofNat 64 q.doneLayers)))
      ∧ (g.poisoned = false → heldSems (getCore u c) x ≠ [] → Serving s j →
        ∃ t, exec (.tileComplete c e p ops fails) s = .next t ∧ Reported t j.trs j.id 0x12 0
          ∧ counted 0x70 (3 * j.slot) t = counted 0x70 (3 * j.slot) u + 1 ∧ t.tun = s.tun))
    ∧ (x.kat ≠ none → running (getEngine s c e) = [x] →
      (fails = [] → ∃ t, exec (.tileComplete c e p ops fails) s = .next t ∧ Worked s t c
          ∧ (getEngine t c e).parts[p]? = some (clearPart g))
      ∧ (fails ≠ [] → ∃ t, exec (.tileComplete c e p ops fails) s = .next t ∧ (getEngine t c e).disabled = true
          ∧ (getEngine t c e).stopped = true ∧ t.tele.eventSeq = s.tele.eventSeq + 2)))
  ∧ (∀ (s : State) (c e p : Nat) (g : Part), s.boot.mode = .service → (getEngine s c e).parts[p]? = some g →
    (canSwap g = false → ∀ ops, exec (.stationarySwap c e p ops) s = .next s)
    ∧ (canSwap g = true → ∀ ops, ∃ t, exec (.stationarySwap c e p ops) s = .next t ∧ Worked s t c)
    ∧ (canSwap g = true → g.queued = [] →
      ∃ t, exec (.stationarySwap c e p []) s = .next t ∧ CoresOnly s t ∧ OtherEngines s t c e ∧ OtherCores s t c
        ∧ (getEngine t c e).parts[p]? = some (swapped g))
    ∧ (∀ (x : Tile) (m : ArrayMode) (a k f n v w : Nat) (sat : Bool) (xs : List Nat), canSwap g = true → g.queued = [] → g.writes = [] →
        g.tile = some x → modeOf f = some m → shapeTakes x.shape m = true → m ≠ .binary → isIntFmt g.shadow.fmt = true → isMx f = false →
        formatsPair g.shadow.fmt f = true → n < entriesOf x.shape → v < vregsOf x.shape →
        a + ceilDiv (fmtBits f * inputsOf x.shape m) 8 ≤ x.live → k ≤ x.live →
        xs = unpackElems (fmtBits f) (inputsOf x.shape m)
          (SMap.getList 0 (getEngine s c e).scratchpad (g.base + a) (ceilDiv (fmtBits f * inputsOf x.shape m) 8)) →
      ∃ t, exec (.stationarySwap c e p [.issue a k f n w sat, .lastIssue, .readAcc v n]) s = .next t
        ∧ ∀ r, r < rowsOf x.shape →
          SMap.find 0 (partAt t ⟨c, e, p⟩).vregs (v * 128 + r)
            = BitVec.ofInt 32 (accAdd sat (SMap.find 0 g.accum (r * 32 + n)).toInt (intTerm x.shape m g.shadow xs f r)).1))

/-- A semaphore goes to the first request, queues the others in arrival order and passes to the oldest at its release; a hold beyond the limit
ends the holder's command with SEMAPHORE_TIMEOUT. -/
def Obligations.SemaphoresGrantInOrder : Prop :=
  ∀ (s : State) (c e p m n : Nat) (y : Tile) (x : Sem), s.boot.mode = .service → semOf s ⟨c, e, p⟩ m = some (n, y) →
      SMap.find {} (getCore s c).sems n = x →
    (∃ t, exec (.semaphoreAcquire c e p m) s = .next t ∧ CoresOnly s t ∧ OtherCores s t c
      ∧ getCore t c = { getCore s c with sems := (getCore t c).sems } ∧ (∀ k, k ≠ n → SMap.find {} (getCore t c).sems k = SMap.find {} (getCore s c).sems k)
      ∧ (x.holder = none → SMap.find {} (getCore t c).sems n = { x with holder := some (y.job, y.index) })
      ∧ (x.holder ≠ none → SMap.find {} (getCore t c).sems n = { x with queue := x.queue ++ [(y.job, y.index)] }))
    ∧ (∃ t, exec (.semaphoreRelease c e p m) s = .next t ∧ CoresOnly s t ∧ OtherCores s t c
      ∧ getCore t c = { getCore s c with sems := (getCore t c).sems } ∧ (∀ k, k ≠ n → SMap.find {} (getCore t c).sems k = SMap.find {} (getCore s c).sems k)
      ∧ (x.holder = some (y.job, y.index) → SMap.find {} (getCore t c).sems n = { holder := x.queue.head?, queue := x.queue.drop 1 })
      ∧ (x.holder ≠ some (y.job, y.index) → SMap.find {} (getCore t c).sems n = x))
    ∧ (∀ j, x.holder = some (y.job, y.index) → jobOf (getCore s c) y.job = some j → Serving s j →
      ∃ t, exec (.semaphoreHoldTimeout c e p m) s = .next t ∧ Reported t j.trs j.id 0x12 0 ∧ OtherPages s t j.trs
        ∧ t.fl = withoutEarly j.id s.fl ∧ t.tun = s.tun)
    ∧ (x.holder ≠ some (y.job, y.index) → exec (.semaphoreHoldTimeout c e p m) s = .next s)

/-- Pre-emption: an engine that a higher class waits for is marked; its partitions are saved together, every transfer complete and every write
made, once no semaphore is held; an engine without a tile stops. -/
def Obligations.EnginesArePreemptedSavedAndStopped : Prop :=
  ∀ (s : State) (c e : Nat), s.boot.mode = .service →
    (outranked (getCore s c) (getEngine s c e) = true → (getEngine s c e).preempt = false →
      ∃ t, exec (.preemptionEscalation c e) s = .next t ∧ getEngine t c e = { getEngine s c e with preempt := true }
        ∧ OtherEngines s t c e ∧ OtherCores s t c
        ∧ t = { s with core := { s.core with cores := t.core.cores }, tele := { s.tele with counters := t.tele.counters } })
    ∧ ((outranked (getCore s c) (getEngine s c e) = false ∨ (getEngine s c e).preempt = true) →
      exec (.preemptionEscalation c e) s = .next s)
    ∧ (holdsSem (getCore s c) e = true → ∃ t, exec (.engineLevelSave c e) s = .next t ∧ CoresOnly s t ∧ OtherEngines s t c e
      ∧ OtherCores s t c ∧ getEngine t c e = { getEngine s c e with preempt := true })
    ∧ (holdsSem (getCore s c) e = false → ∀ g, g = getEngine (drainEngine c e s) c e →
      ∃ t, exec (.engineLevelSave c e) s = .next t ∧ Worked s t c ∧ OtherEngines s t c e
        ∧ getEngine t c e = { g with preempt := false, parts := (g.parts.map settleAll).map clearPart }
        ∧ (getCore t c).saves = (getCore s c).saves ++ (if running g = [] then []
            else [⟨e, g.parts.map settleAll, liveBytes g, liveBad g⟩])
        ∧ (getCore t c).ready = (getCore s c).ready ∧ (getCore t c).jobs = (getCore s c).jobs)
    ∧ (running (getEngine s c e) = [] → ∃ t, exec (.engineIdleStop c e) s = .next t ∧ CoresOnly s t ∧ OtherEngines s t c e
      ∧ OtherCores s t c ∧ getEngine t c e = { getEngine s c e with stopped := true })
    ∧ (running (getEngine s c e) ≠ [] → exec (.engineIdleStop c e) s = .next s)

/-- Faults of engines: the first fault of an engine in service puts it under check, a second within 24 h or a failed check takes it out of
service, a passed check returns it; the command of a tile in a faulty partition ends with PARTITION_FAULT and its output lines are poisoned; a
fault of a core's control ends every job and clears the core; the timer makes every engine's known-answer test ready.
Model choice it rests on: log 98. -/
def Obligations.EngineFaultsAreCheckedAndContained : Prop :=
  (∀ (s : State) (c e p : Nat), s.boot.mode = .service →
    (inService (getEngine s c e) = true → running (getEngine s c e) = [] →
      ((getEngine s c e).faultAt = none →
        ∃ t, exec (.partitionFaultDetected c e p .partition) s = .next t ∧ CoresOnly s t ∧ OtherEngines s t c e ∧ OtherCores s t c
          ∧ getEngine t c e = { getEngine s c e with checking := true, faultParts := 2 ^ p, faultAt := some (now s) })
      ∧ (∀ (t0 : BitVec 64) (pl : FaultPlace), (getEngine s c e).faultAt = some t0 → (now s - t0).toNat < 86400000000000 →
        ∃ t, exec (.partitionFaultDetected c e p pl) s = .next t ∧ Disabled s t c e ∧ OtherEngines s t c e
          ∧ t.tele.eventSeq = s.tele.eventSeq + (if (getEngine s c e).checking = true then 3 else 2)
          ∧ t = { withEvents s t with core := t.core }))
    ∧ (inService (getEngine s c e) = false → ∀ pl, exec (.partitionFaultDetected c e p pl) s = .next s)
    ∧ (∀ (g : Part) (x : Tile) (j : Job), inService (getEngine s c e) = true → (getEngine s c e).faultAt = none →
        (getEngine s c e).parts[p]? = some g → p < 4 → g.tile = some x → jobOf (getCore s c) x.job = some j → Serving s j →
      ∃ t, exec (.partitionFaultDetected c e p .partition) s = .next t ∧ Reported t j.trs j.id 0x0C 0 ∧ OtherPages s t j.trs
        ∧ (getEngine t c e).checking = true ∧ LinesPoisoned t c e g x j))
  ∧ (∀ (s : State) (c e : Nat), s.boot.mode = .service → (getEngine s c e).checking = true → running (getEngine s c e) = [] →
    (∃ t, exec (.onlineCheckComplete c e []) s = .next t
      ∧ getEngine t c e = { getEngine s c e with checking := false } ∧ OtherEngines s t c e
      ∧ t.tele.eventSeq = s.tele.eventSeq + 1 ∧ t = { withEvents s t with core := t.core })
    ∧ (∀ fails, fails ≠ [] → ∃ t, exec (.onlineCheckComplete c e fails) s = .next t ∧ Disabled s t c e ∧ OtherEngines s t c e
      ∧ t.tele.eventSeq = s.tele.eventSeq + 2 ∧ t = { withEvents s t with core := t.core }))
  ∧ (∀ (s : State) (c : Nat), s.boot.mode = .service →
    ∃ t, exec (.coreControlFault c) s = .next t ∧ (getCore t c).jobs = [] ∧ (getCore t c).ready = [] ∧ (getCore t c).sems = []
      ∧ (getCore t c).saves = [] ∧ (∀ e, (getEngine t c e).parts = [{}, {}, {}, {}])
      ∧ (∀ j, (getCore s c).jobs = [j] → Serving s j → Reported t j.trs j.id 0x0C 0 ∧ OtherPages s t j.trs))
  ∧ (∀ s : State, s.boot.mode = .service → SMap.wf {} s.core.cores = true →
    ∃ t, exec .engineKatTimer s = .next t ∧ CoresOnly s t
      ∧ ∀ c, getCore t c = { getCore s c with ready := (getCore s c).ready ++ (katDue (getCore s c)).map katTile })

/-- A batch whose tiles have all completed updates each tensor that it adapts from the counts of that tensor's own conversions, where it ended
with OK and was not run again, and its command's next batch takes the multipliers then in force; one with a tile left waits.
Model choices it rests on: log 10, log 62. -/
def Obligations.BatchesAdaptTheirTensors : Prop :=
  ∀ (s : State) (no : Nat) (ok : Bool), s.boot.mode = .service →
    ((s.core.batches.find? (fun b => b.no == no) = none ∨ batchRuns s no = true) → exec (.batchComplete no ok) s = .next s)
    ∧ (∀ b, s.core.batches.find? (fun b => b.no == no) = some b → batchRuns s no = false → (b.mults.map (·.1)).Nodup →
      ∃ t, exec (.batchComplete no ok) s = .next t
        ∧ (∀ m ∈ b.mults, SMap.find {} t.core.adapt (adaptKey b.slot m.1 b.tenant)
            = (if ok = true ∧ b.rerun = false then adaptUpdate (clipHi s b.slot) (countsOf b m.1).n (countsOf b m.1).clipped (countsOf b m.1).use
                 (SMap.find {} s.core.adapt (adaptKey b.slot m.1 b.tenant))
               else SMap.find {} s.core.adapt (adaptKey b.slot m.1 b.tenant)))
        ∧ (∀ k, (∀ m ∈ b.mults, k ≠ adaptKey b.slot m.1 b.tenant) → SMap.find {} t.core.adapt k = SMap.find {} s.core.adapt k)
        ∧ t = { s with core := t.core, tele := { s.tele with watchCum := t.tele.watchCum } }
        ∧ (b.left = 0 → t.core.batches = s.core.batches.filter (fun x => x.no != no) ∧ t.core.cores = s.core.cores)
        ∧ (∀ x h, 0 < b.left → slotOf s b.slot = some x → heldOf s b.trs b.id = some h → h.undecided = true →
            t.core.batches = s.core.batches.filter (fun y => y.no != no) ++ [batchAfter s b x (multsNow t x b.tenant)]))

/-! ### Flash at work (11 R322 to R357, 12 R375) -/

namespace Sys2Proof.Machine

/-- A committed entry of the journal with the next sequence number. -/
def Entered (s t : State) (rs : List Rec) : Prop := ∃ e ∈ t.fl.journal, e.seq = s.fl.seq + 1 ∧ e.recs = rs

/-- Bytes of the journal (11 R325). -/
def journalBytes (s : State) : Nat := sumOf (s.fl.journal.map (fun e => entrySize e.recs))

/-- Contents, contexts, collections, the tundish, the NOR and the cores are as they were. -/
def DataKept (s t : State) : Prop :=
  t.fl.data = s.fl.data ∧ t.ctx = s.ctx ∧ t.coll = s.coll ∧ t.tun = s.tun ∧ t.nor = s.nor ∧ t.core = s.core

end Sys2Proof.Machine

/-- A buffered unit whose program passes is mapped at its page in one journal entry; a failed program makes the units it lost UNREADABLE,
moves the others and retires the block once no map entry names it.
Model choices it rests on: log 12, log 39, log 99. -/
def Obligations.ProgramsMapUnitsOrRetireBlocks : Prop :=
  (∀ (s : State) (u : Nat) (a : FlashAddr), s.boot.mode = .service → canProgram s a = true → spreads s u a = true →
      relocWaiting s u = none → tailUnit s u = false →
      (∀ b ∈ s.fl.wbuf, b.unit = u → b.progAt = none ∧ b.mapSeq = none ∧ b.cmd = none) → inBuffer s u = true →
      sbFits s (sbKey s a) (destOf s u) = true →
    ∃ t, exec (.nandProgramComplete [(u, a)]) s = .next t ∧ (mapOf t u).addr = a ∧ (mapOf t u).st = 1
      ∧ (∀ w, w ≠ u → mapOf t w = mapOf s w) ∧ Entered s t [.map u a]
      ∧ counted 0x31 (faChan a) t = counted 0x31 (faChan a) s + 1 ∧ DataKept s t ∧ t.trs = s.trs)
  ∧ (∀ (s : State) (a : FlashAddr) (lost : List Nat) (u : Nat), s.boot.mode = .service → u ∈ unitsOfBlock s (blockKey a) → u ∈ lost →
    ∃ t, exec (.nandProgramFail a lost) s = .next t ∧ (mapOf t u).st = 3 ∧ DataKept s t)
  ∧ (∀ (s : State) (a : FlashAddr), s.boot.mode = .service →
    (unitsOfBlock s (blockKey a) = [] → (SMap.find {} s.fl.blocks (blockKey a)).retired = none →
      ∃ t, exec (.nandProgramFail a []) s = .next t ∧ (SMap.find {} t.fl.blocks (blockKey a)).retired = some 1
        ∧ Entered s t [.retire (blockKey a) 1] ∧ t.fl.map = s.fl.map ∧ DataKept s t
        ∧ t.fl.spareBytes = s.fl.spareBytes - (if countsSpare s (blockKey a) = true then 25165824 else 0))
    ∧ (unitsOfBlock s (blockKey a) ≠ [] → s.fl.relocs = [] → flashStopped s = false →
      ∃ t, exec (.nandProgramFail a []) s = .next t
        ∧ t.fl.relocs = [relocOf s (sbKey s a) .gc none (unitsOfBlock s (blockKey a))]
        ∧ (SMap.find {} t.fl.blocks (blockKey a)).doomed = some ((SMap.find {} s.fl.blocks (blockKey a)).doomed.getD 1)
        ∧ t.fl.map = s.fl.map ∧ DataKept s t ∧ t.trs = s.trs))

/-- Reads: a decoded unit counts in its block and in FLASH_RETRY, one that no stage decodes becomes UNREADABLE in a journal entry; the scan
refreshes its calibration entry; reads suspend and resume the operation of a die.
Model choice it rests on: log 7. -/
def Obligations.FlashReadsCountAndFail : Prop :=
  (∀ (s : State) (u k : Nat) (a : FlashAddr) (ok : Bool), s.boot.mode = .service → relocRead s u a = none → (mapOf s u).st = 1 →
      (mapOf s u).addr = a →
    (k < 5 → (SMap.find {} s.fl.blocks (blockKey a)).reads + 1 < readLimit (slcAddr s a) →
      ∃ t, exec (.nandReadComplete u a (.hard k) ok) s = .next t
        ∧ SMap.find {} t.fl.blocks (blockKey a) = { SMap.find {} s.fl.blocks (blockKey a) with
            reads := (SMap.find {} s.fl.blocks (blockKey a)).reads + 1, lastStep := k }
        ∧ counted 0x33 (faChan a) t = counted 0x33 (faChan a) s + BitVec.ofNat 64 k
        ∧ (∀ v, v ∈ t.fl.mismatch ↔ v ∈ s.fl.mismatch ∨ (v = u ∧ ok = false ∧ ((slotOfUnit s u).bind (pageAt s)).isSome = true))
        ∧ t = { s with fl := { s.fl with blocks := t.fl.blocks, dies := t.fl.dies, mismatch := t.fl.mismatch }, tele := { s.tele with counters := t.tele.counters } })
    ∧ (∃ t, exec (.nandReadComplete u a .failed ok) s = .next t ∧ (mapOf t u).st = 3 ∧ Entered s t [.state u 1 3] ∧ DataKept s t
        ∧ counted 0x33 (faChan a) t = counted 0x33 (faChan a) s + 9))
  ∧ (∀ (s : State) (a : FlashAddr) (k bits : Nat), s.boot.mode = .service → s.gov.bgFlash = false →
      (SMap.find {} s.fl.blocks (blockKey a)).retired = none → canErase s (sbKey s a) = false → (sbOf s (sbKey s a)).st ≠ .free →
      scanRefresh (.hard k) bits = false → (SMap.find {} s.fl.blocks (blockKey a)).reads + 1 < readLimit (slcAddr s a) →
    ∃ t, exec (.flashScanRead a (.hard k) bits true) s = .next t ∧ t.freeCount = s.freeCount + 1
      ∧ (∀ c, c ≠ calibKey s a → SMap.find 0 t.fl.calib c = SMap.find 0 s.fl.calib c)
      ∧ (SMap.find {} t.fl.blocks (blockKey a)).reads = (SMap.find {} s.fl.blocks (blockKey a)).reads + 1
      ∧ counted 0x30 (faChan a) t = counted 0x30 (faChan a) s + 1
      ∧ t = { s with freeCount := t.freeCount, fl := { s.fl with blocks := t.fl.blocks, calib := t.fl.calib },
                     tele := { s.tele with counters := t.tele.counters } })
  ∧ (∀ (s : State) (a : FlashAddr) (o : ReadOutcome) (bits : Nat) (ok : Bool), s.gov.bgFlash = true →
    exec (.flashScanRead a o bits ok) s = .next s)
  ∧ (∀ (s : State) (c p : Nat), s.boot.mode = .service →
    (c < 128 → p < 17 → s.boot.flushing = false → ∃ t, exec (.suspendMinRunReached c p) s = .next t
      ∧ dieOf t (c * 17 + p) = { dieOf s (c * 17 + p) with suspended := !(dieOf s (c * 17 + p)).lost }
      ∧ (∀ k, k ≠ c * 17 + p → dieOf t k = dieOf s k) ∧ t = { s with fl := { s.fl with dies := t.fl.dies } })
    ∧ (s.boot.flushing = true → exec (.suspendMinRunReached c p) s = .next s)
    ∧ (∃ t, exec (.readServiceExpiry c p) s = .next t ∧ dieOf t (c * 17 + p) = { dieOf s (c * 17 + p) with suspended := false }
      ∧ (∀ k, k ≠ c * 17 + p → dieOf t k = dieOf s k) ∧ t = { s with fl := { s.fl with dies := t.fl.dies } }))

/-- An erased superblock is free again and its blocks wear; a die that fails three operations in a row is lost, its units with it, and its
channel's spare takes its place; the journal's timer makes every entry durable, and at 6 GiB of journal writes a checkpoint; the flush reserve
is restored.
Model choice it rests on: log 76. -/
def Obligations.ErasesDieLossAndJournal : Prop :=
  (∀ (s : State) (i p b : Nat), s.boot.mode = .service → i < 8 → p < 16 → b < 2520 →
    (canErase s ((i * 17 + p) * 2520 + b) = true →
      ∃ t, exec (.nandEraseComplete i p b []) s = .next t ∧ sbOf t ((i * 17 + p) * 2520 + b) = {}
        ∧ (∀ m ∈ members i, (SMap.find {} s.fl.blocks (memberKey s p b m)).retired = none →
            (SMap.find {} t.fl.blocks (memberKey s p b m)).reads = 0
            ∧ (SMap.find {} t.fl.blocks (memberKey s p b m)).wear20 = (SMap.find {} s.fl.blocks (memberKey s p b m)).wear20
                + (if (sbOf s ((i * 17 + p) * 2520 + b)).slc = true then 1 else 20))
        ∧ t.fl.map = s.fl.map ∧ DataKept s t ∧ t.trs = s.trs)
    ∧ (canErase s ((i * 17 + p) * 2520 + b) = false → exec (.nandEraseComplete i p b []) s = .next s))
  ∧ (∀ (s : State) (c p : Nat), s.boot.mode = .service → c < 128 → p < 17 → (dieOf s (c * 17 + p)).lost = false →
    ((dieOf s (c * 17 + p)).fails < 2 → ∃ t, exec (.nandOperationTimeout c p) s = .next t
      ∧ dieOf t (c * 17 + p) = { dieOf s (c * 17 + p) with fails := (dieOf s (c * 17 + p)).fails + 1 }
      ∧ (∀ k, k ≠ c * 17 + p → dieOf t k = dieOf s k) ∧ t = { s with fl := { s.fl with dies := t.fl.dies } })
    ∧ (2 ≤ (dieOf s (c * 17 + p)).fails → ∃ t, exec (.nandOperationTimeout c p) s = .next t
      ∧ (dieOf t (c * 17 + p)).lost = true
      ∧ (∀ u, (mapOf s u).st = 1 → dieKey (mapOf s u).addr = c * 17 + p → (mapOf t u).st = 2)
      ∧ (p < 16 → (dieOf s (c * 17 + 16)).serves = none → (dieOf s (c * 17 + 16)).lost = false →
          (dieOf t (c * 17 + 16)).serves = some p ∧ t.fl.spareBytes = s.fl.spareBytes)
      ∧ (p < 16 → (dieOf s (c * 17 + 16)).serves ≠ none → t.fl.spareBytes = s.fl.spareBytes - 250000000000)
      ∧ DataKept s t))
  ∧ (∀ s : State, s.boot.mode = .service →
    (s.fl.pendBytes = 0 → s.fl.rewrites = [] → journalBytes s < 6442450944 → exec .journalFlushTimer s = .next s)
    ∧ (s.fl.pendBytes ≠ 0 → journalBytes s < 6442450944 →
      ∃ t, exec .journalFlushTimer s = .next t ∧ t.fl.pendBytes = 0 ∧ (∀ e ∈ t.fl.journal, e.durable = true)
        ∧ t.fl.journal.map (·.recs) = s.fl.journal.map (·.recs) ∧ (∀ b ∈ t.fl.wbuf, b.mapSeq = none)
        ∧ t = { s with tele := { s.tele with counters := t.tele.counters }, fl := { s.fl with
            journal := t.fl.journal, pendBytes := 0, journalTag := t.fl.journalTag, wbuf := t.fl.wbuf, relocs := t.fl.relocs,
            rewrites := t.fl.rewrites, mismatch := t.fl.mismatch } })
    ∧ (6442450944 ≤ journalBytes s → ∃ t, exec .journalFlushTimer s = .next t ∧ t.fl.base = s.fl.map ∧ t.fl.pendBytes = 0 ∧ DataKept s t))
  ∧ (∀ s : State, s.boot.mode = .service →
    ∃ t, exec .flushReserveRestored s = .next t ∧ t.fl.reserveReady = true
      ∧ (SMap.wf {} s.fl.sbs = true → ∀ k, sbOf t k = { sbOf s k with reserve := false }) ∧ t = { s with fl := { s.fl with reserveReady := true, sbs := t.fl.sbs } })

/-- Background work: garbage collection below 3% of free superblocks, the fold of staged data above half the SLC buffer, wear levelling of
cold blocks, checkpoints of the changed map segments with the journal from the oldest entry still needed, and the end of a write-origin window.
Model choice it rests on: log 38. -/
def Obligations.BackgroundWorkMovesAndCheckpoints : Prop :=
  (∀ (s : State) (i : Nat), s.boot.mode = .service →
    (3 * islandSbs ≤ freePool s i * 100 → exec (.gcStart i) s = .next s)
    ∧ (∀ v : Nat × Superblock, i < 8 → freePool s i * 100 < 3 * islandSbs → victims s i = [v] → flashStopped s = false →
        (sbUnits s v.1).all (fun u => !relocating s u) = true →
      ∃ t, exec (.gcStart i) s = .next t ∧ t.fl = { s.fl with relocs := s.fl.relocs ++ [relocOf s v.1 .gc none (sbUnits s v.1)] }
        ∧ t = { s with fl := t.fl, tele := { s.tele with counters := t.tele.counters } }))
  ∧ (∀ s : State, s.boot.mode = .service →
    ((2 * slcUse s ≤ slcSize s ∨ s.gov.bgFlash = true) → exec .slcFold s = .next s)
    ∧ (∀ (k : Nat) (x : Superblock), slcSize s < 2 * slcUse s → s.gov.bgFlash = false → flashStopped s = false → s.fl.relocs = [] →
        s.fl.sbs = [(k, x)] → x.slc = true → x.st = .closed → (sbUnits s k).filter (foldable s) ≠ [] →
      ∃ t, exec .slcFold s = .next t
        ∧ t.fl = { s.fl with relocs := [relocOf s k .fold none ((sbUnits s k).filter (foldable s))] }
        ∧ t = { s with fl := t.fl, tele := { s.tele with counters := t.tele.counters } }))
  ∧ (∀ s : State, s.boot.mode = .service →
    (s.gov.bgFlash = true → exec .wearLevelCheck s = .next s)
    ∧ (∀ (u : Nat) (e : MapEntry), s.gov.bgFlash = false → flashStopped s = false → s.fl.relocs = [] → s.fl.map = [(u, e)] → e.st = 1 →
      (coldBlock s (blockKey e.addr) = true → ∃ t, exec .wearLevelCheck s = .next t
        ∧ t.fl = { s.fl with relocs := [relocOf s (sbKey s (blockAddr (blockKey e.addr))) .wear none [u]] }
        ∧ t = { s with fl := t.fl, tele := { s.tele with counters := t.tele.counters } })
      ∧ (coldBlock s (blockKey e.addr) = false → exec .wearLevelCheck s = .next s)))
  ∧ (∀ s : State, s.boot.mode = .service →
    ∃ t, exec .checkpointCycle s = .next t ∧ t.fl.map = s.fl.map ∧ t.fl.base = s.fl.map ∧ t.fl.pendBytes = 0
      ∧ t.fl.seq = s.fl.seq + 1
      ∧ (∀ g ∈ changedSegments s, SMap.find [] t.fl.ckpt g = (t.fl.seq :: SMap.find [] s.fl.ckpt g).take 2)
      ∧ (∀ e ∈ t.fl.journal, e.durable = true) ∧ (∀ e ∈ t.fl.journal.head?, entryNeeded t.fl.ckpt e = true)
      ∧ (∀ e ∈ s.fl.journal, entryNeeded t.fl.ckpt e = true → { e with durable := true } ∈ t.fl.journal)
      ∧ t.fl.mediaMinutes = s.fl.mediaMinutes + polValue s 0x0D 600 / 60
      ∧ t.fl.hostTb = (if s.aon.tbFromHost = true then some (now s) else none) ∧ DataKept s t ∧ t.trs = s.trs)
  ∧ (∀ (s : State) (q acc : Nat), s.boot.mode = .service →
    (s.fl.wbuf.any (fun b => decide (acc ∈ b.accs)) = false → exec (.writeOriginWindowExpiry q acc) s
      = .next { s with fl := { s.fl with origins := s.fl.origins.filter (fun o => !(o.trs == q && o.acc == acc)) } })
    ∧ (s.fl.wbuf.any (fun b => decide (acc ∈ b.accs)) = true → exec (.writeOriginWindowExpiry q acc) s = .next s))

/-! ### Integrity (12) -/

namespace Sys2Proof.Machine

/-- One correctable error entered in a region: CE and its bucket rise by 1 (12 R368, R372). -/
def CeCounted (s t : State) (region : Nat) : Prop :=
  counted 0x10 region t = counted 0x10 region s + 1
  ∧ SMap.find 0 t.integ.buckets region = SMap.find 0 s.integ.buckets region + 1
  ∧ (∀ r, r ≠ region → SMap.find 0 t.integ.buckets r = SMap.find 0 s.integ.buckets r)

/-- Nothing but counters and buckets has changed. -/
def CountsOnly (s t : State) : Prop :=
  t = { s with tele := { s.tele with counters := t.tele.counters }, integ := { s.integ with buckets := t.integ.buckets } }

/-- The rows that find a correctable error of a stack channel: the access itself, and the patrol. -/
def FindsDram (s : State) (chan seg : Nat) (hard : Bool) (place : DramPlace) (i : Instr) : Prop :=
  i = .dramCorrectableError chan seg hard place ∨ (i = .dramPatrolRead chan seg true hard place ∧ s.gov.bgDram = false)

/-- The rows that find a correctable error of an SRAM word: the access itself, and the patrol of its regions. -/
def FindsSram (region ram word : Nat) (hard : Bool) (i : Instr) : Prop :=
  i = .sramCorrectableError region ram word hard ∨ (i = .sramPatrol [(region, ram, word, hard)] ∧ 672 ≤ region ∧ region < 725)

/-- A command that filters or embeds the records of a region, and goes on past a block that it cannot read (06 R190). -/
def readsRegion (h : Held) : Bool :=
  decide (h.op = 0x30 ∨ (h.op = 0x31 ∧ bitOf (fld h.desc 1 1) 2 = false) ∨ (h.op = 0x32 ∧ fld h.desc 8 1 = 0))

/-- An uncorrectable error is counted in its region and reported. -/
def UeCounted (s t : State) (region : Nat) : Prop :=
  counted 0x11 region t = counted 0x11 region s + 1 ∧ t.tele.eventSeq = s.tele.eventSeq + 1

end Sys2Proof.Machine

/-- Correctable errors are counted, fill their region's bucket, and at more than 64 raise CE_RATE and empty it; a hard fault takes a remap
entry or a spare word, without a remap entry its pool page is withdrawn; buckets leak by 1; a retrained link counts its retries and takes
its failed lanes out.
Model choice it rests on: log 29. -/
def Obligations.CorrectableErrorsAreCountedAndRepaired : Prop :=
  (∀ (i : Instr) (s : State) (chan seg : Nat) (hard : Bool) (place : DramPlace), alive s = true → chan < 512 →
      FindsDram s chan seg hard place i →
    (hard = false → SMap.find 0 s.integ.buckets chan < 64 → ∃ t, exec i s = .next t ∧ CeCounted s t chan ∧ CountsOnly s t)
    ∧ (hard = false → SMap.find 0 s.integ.buckets chan = 64 → ∃ t, exec i s = .next t ∧ SMap.find 0 t.integ.buckets chan = 0
        ∧ counted 0x10 chan t = counted 0x10 chan s + 1 ∧ t.tele.eventSeq = s.tele.eventSeq + 1
        ∧ t = { withEvents s t with integ := { s.integ with buckets := t.integ.buckets } })
    ∧ (∀ e, hard = true → SMap.find 0 s.integ.buckets chan < 64 → freeRemap s chan = some e →
        ∃ t, exec i s = .next t ∧ CeCounted s t chan ∧ SMap.find 0 t.integ.remap (16 * chan + e) = seg + 1
          ∧ (∀ k, k ≠ 16 * chan + e → SMap.find 0 t.integ.remap k = SMap.find 0 s.integ.remap k)
          ∧ t.tele.healthPos = s.tele.healthPos + 1 ∧ t.tele.eventSeq = s.tele.eventSeq + 1
          ∧ t = { withEvents s t with integ := t.integ, nor := { s.nor with ops := t.nor.ops } })
    ∧ (hard = true → SMap.find 0 s.integ.buckets chan < 64 → freeRemap s chan = none →
        (place = .reserved → ∃ t, exec i s = .next t ∧ CeCounted s t chan ∧ CountsOnly s t)
        ∧ (place ≠ .reserved → ∃ t, exec i s = .next t ∧ CeCounted s t chan ∧ t.tele.eventSeq = s.tele.eventSeq + 1
            ∧ SMap.find 0 t.tier.withdrawn chan = SMap.find 0 s.tier.withdrawn chan + 1 ∧ t.fl = s.fl ∧ t.ctx = s.ctx
            ∧ t.coll = s.coll ∧ t.tun = s.tun)))
  ∧ (∀ (s : State) (chan seg : Nat) (hard : Bool) (place : DramPlace), exec (.dramPatrolRead chan seg false hard place) s = .next s)
  ∧ (∀ (i : Instr) (s : State) (region ram word : Nat) (hard : Bool), alive s = true → region < 741 → ram < 4496 →
      FindsSram region ram word hard i → SMap.find 0 s.integ.buckets region < 64 →
    ((hard = false ∨ freeWord s ram = none) → ∃ t, exec i s = .next t ∧ CeCounted s t region ∧ CountsOnly s t)
    ∧ (∀ e, hard = true → freeWord s ram = some e → ∃ t, exec i s = .next t ∧ CeCounted s t region
        ∧ SMap.find 0 t.integ.sram (4 * ram + e) = word + 1
        ∧ (∀ k, k ≠ 4 * ram + e → SMap.find 0 t.integ.sram k = SMap.find 0 s.integ.sram k)
        ∧ t.tele.healthPos = s.tele.healthPos + 1 ∧ t.tele.eventSeq = s.tele.eventSeq + 1
        ∧ t = { withEvents s t with integ := t.integ, nor := { s.nor with ops := t.nor.ops } }))
  ∧ (∀ s : State, alive s = true → SMap.wf 0 s.integ.buckets = true →
    ∃ t, exec .bucketLeak s = .next t ∧ (∀ r, SMap.find 0 t.integ.buckets r = SMap.find 0 s.integ.buckets r - 1)
      ∧ t = { s with integ := { s.integ with buckets := t.integ.buckets } })
  ∧ (∀ (s : State) (link : Nat), alive s = true → link < 16 →
    (∃ t n, exec (.laneRetrain link [] []) s = .next t ∧ 1001 ≤ n ∧ t.freeCount = s.freeCount + 1
      ∧ counted 0x20 (4 + link) t = counted 0x20 (4 + link) s + BitVec.ofNat 64 n ∧ (∀ k d, laneSet t k d = laneSet s k d))
    ∧ (∀ l, bitOf (laneSet s link 0) l = false → popCount 256 (laneSet s link 0 + 2 ^ l) ≤ 4 →
      ∃ t, exec (.laneRetrain link [l] []) s = .next t ∧ laneSet t link 0 = laneSet s link 0 + 2 ^ l
        ∧ laneSet t link 1 = laneSet s link 1 ∧ t.tele.healthPos = s.tele.healthPos + 1 ∧ t.tele.eventSeq = s.tele.eventSeq))

/-- An uncorrectable error is contained where it lies (12 Table 112): the T1 home, frame, buffered unit, tundish line, cache line or flash
unit that holds it takes its state, a scratchpad line is marked; the command whose working memory it is ends with POISONED, but a record region
leaves the block unread (06 R190). -/
def Obligations.UncorrectableErrorsAreContained : Prop :=
  ∀ (s : State) (r : Nat), s.boot.mode = .service → r < 741 →
    (∀ k l, unitsStatus s (slotUnit s k) = 0x00 →
      ∃ t, exec (.uncorrectableError r (.home k l true)) s = .next t ∧ UeCounted s t r ∧ t = withEvents s t)
    ∧ (∀ k l p b, pageAt s k = some p → (b = false ∨ unitsStatus s (slotUnit s k) ≠ 0x00) →
        ∃ t, exec (.uncorrectableError r (.home k l b)) s = .next t ∧ UeCounted s t r
        ∧ pageAt t k = some { p with state := .poisoned } ∧ (∀ j, j ≠ k → pageAt t j = pageAt s j) ∧ t.fl = s.fl ∧ t.trs = s.trs)
    ∧ (∀ n, ∃ t, exec (.uncorrectableError r (.frame n none)) s = .next t ∧ UeCounted s t r
        ∧ t = { withEvents s t with tier := { s.tier with
            frames := s.tier.frames.map (fun f => if f.fid = n then { f with filled := false } else f) } })
    ∧ (∀ u, inBuffer s u = true → ∃ t, exec (.uncorrectableError r (.writeBuffer u)) s = .next t ∧ inBuffer t u = false
        ∧ (mapOf t u).st = 3 ∧ Entered s t [.state u 1 3] ∧ counted 0x11 r t = counted 0x11 r s + 1 ∧ t.fl.data = s.fl.data)
    ∧ (∃ t, exec (.uncorrectableError r .journalStaging) s = .next t ∧ UeCounted s t r ∧ t = withEvents s t)
    ∧ (∀ g, ∃ t, exec (.uncorrectableError r (.mapShard g)) s = .next t ∧ UeCounted s t r
        ∧ t = { withEvents s t with fl := { s.fl with mapRebuilds := s.fl.mapRebuilds + 1 } })
    ∧ (∀ q id h b, heldOf s q id = some h → h.undecided = true → readsRegion h = false →
      ∃ t, exec (.uncorrectableError r (.working q id b)) s = .next t ∧ counted 0x11 r t = counted 0x11 r s + 1
        ∧ (h.op ∉ [0x02, 0x13, 0x15, 0x20, 0x30, 0x31, 0x32] →
            Reported t q id 0x0B 0 ∧ OtherPages s t q ∧ t.fl = withoutEarly id s.fl ∧ t.tele.eventSeq = s.tele.eventSeq + 1)
        ∧ (∀ x, h.op = 0x20 → h.search = some x → x.loaded = true →
            Reported t q id (worse x.lost 0x0B) (BitVec.ofNat 64 (searchResult h.desc x)) ∧ OtherPages s t q)
        ∧ (∀ p, h.op = 0x13 → h.step = some p → s.heat.windowOpen = true →
            Reported t q id 0x0B (BitVec.ofNat 64 p.doneLayers) ∧ OtherPages s t q))
    ∧ (∀ q id h b, heldOf s q id = some h → readsRegion h = true →
      ∃ t, exec (.uncorrectableError r (.working q id (some b))) s = .next t ∧ UeCounted s t r
        ∧ heldOf t q id = some { h with badBlocks := dedup (h.badBlocks ++ [b]) } ∧ OtherPages s t q
        ∧ t = { withEvents s t with trs := t.trs })
    ∧ (∀ c e l, ∃ t, exec (.uncorrectableError r (.scratchpadLine c e l)) s = .next t ∧ UeCounted s t r
        ∧ SMap.find false (getEngine t c e).bad l = true ∧ OtherEngines s t c e
        ∧ t = { withEvents s t with core := { s.core with cores := t.core.cores } })
    ∧ (∀ l, ∃ t, exec (.uncorrectableError r (.tundish l)) s = .next t ∧ UeCounted s t r ∧ SMap.find false t.tun.poison l = true
        ∧ (∀ m, m ≠ l → SMap.find false t.tun.poison m = SMap.find false s.tun.poison m)
        ∧ t = { withEvents s t with tun := { s.tun with poison := t.tun.poison } })
    ∧ (∀ k, ∃ t, exec (.uncorrectableError r (.hubCache k)) s = .next t ∧ UeCounted s t r
        ∧ t = { withEvents s t with tier := { s.tier with cache := s.tier.cache.filter (fun c => decide (c.key < k ∨ k + 1 ≤ c.key)) } })
    ∧ (∀ u, (mapOf s u).st = 1 → ∃ t, exec (.uncorrectableError r (.flash u)) s = .next t ∧ (mapOf t u).st = 3
        ∧ Entered s t [.state u 1 3]
        ∧ (∀ v, v ≠ u → mapOf t v = mapOf s v) ∧ t.fl.data = s.fl.data)

namespace Sys2Proof.Machine

/-- The rows that fault a processor: its own fault, and 100 ms without progress (12 R378). -/
def FaultsProc (p : Nat) (readable : Bool) (i : Instr) : Prop :=
  i = .processorFault p readable ∨ i = .processorProgressTimeout p readable

end Sys2Proof.Machine

/-- A faulted processor's duties go to the lowest-numbered spare, else to the lowest-numbered processor in service; unreadable duty state
under the watchdog halts the device as the watchdog's expiry does.
Model choice it rests on: log 29. -/
def Obligations.ProcessorsHandOverTheirDuties : Prop :=
  ∀ (i : Instr) (s : State) (p : Nat) (readable : Bool), alive s = true → FaultsProc p readable i →
    ((procOf s p).st = .spare → ∃ t, exec i s = .next t ∧ procOf t p = { st := .faulted } ∧ (∀ q, q ≠ p → procOf t q = procOf s q)
      ∧ t = { s with integ := { s.integ with procs := t.integ.procs } })
    ∧ (∀ q, (procOf s p).st = .active → readable = true → lowestProc s .spare = some q →
      ∃ t, exec i s = .next t ∧ procOf t p = { st := .faulted } ∧ procOf t q = { st := .active, duties := (procOf s p).duties }
        ∧ (∀ r, r ≠ p → r ≠ q → procOf t r = procOf s r) ∧ t.tele.eventSeq = s.tele.eventSeq + 1
        ∧ t = { withEvents s t with integ := { s.integ with procs := t.integ.procs } })
    ∧ (∀ q, (procOf s p).st = .active → readable = true → lowestProc s .spare = none → q ≠ p → q < 36 → (procOf s q).st = .active →
        (∀ r, r < q → r ≠ p → (procOf s r).st ≠ .active) →
      ∃ t, exec i s = .next t ∧ procOf t p = { st := .faulted }
        ∧ procOf t q = { st := .active, duties := (procOf s q).duties ||| (procOf s p).duties }
        ∧ t.tele.eventSeq = s.tele.eventSeq + 1 ∧ t.boot.mode = s.boot.mode)
    ∧ ((procOf s p).st = .active → readable = false → s.boot.wdRunning = true →
      ∃ t, exec i s = .next t ∧ t.boot.mode = .expired ∧ t.boot.faultPin = true ∧ t.boot.wdRunning = false ∧ t.aon.wdLatch = true
        ∧ t.link = aerLog 0x400000 0 s.link ∧ t.outbox = s.outbox ++ [.aerFatalInternal] ∧ t.trs = s.trs ∧ t.fl = s.fl ∧ t.tun = s.tun
        ∧ t.ctx = s.ctx ∧ t.coll = s.coll)
    ∧ ((procOf s p).st ≠ .spare → (procOf s p).st ≠ .active → exec i s = .next s)

/-! ### Governor, quench, thermal, time, bank (15 R447 to R460, 17 R489, R490) -/

namespace Sys2Proof.Machine

/-- A quench has begun: every engine island runs at s = 128 and no new program starts (15 R457). -/
def Quenched (s t : State) (cause : Nat) : Prop :=
  t.gov.quench = true ∧ t.gov.cause = cause ∧ t.gov.stretch = 128 ∧ t.gov.progStopped = true
  ∧ counted 0x80 0 t = counted 0x80 0 s + 1 ∧ t.tele.eventSeq = s.tele.eventSeq + 1
  ∧ t = { withEvents s t with gov := { s.gov with quench := true, cause := cause, stretch := 128, progStopped := true,
                                                  overSamples := 0, tripped := t.gov.tripped } }

/-- The means of the window that ends: each sum over the number of samples. -/
def meansNow (s : State) : List Nat := (List.range 6).map (fun i => s.gov.sums.getD i 0 / s.gov.count)

end Sys2Proof.Machine

/-- The governor's samples: power and temperature readings, the run of samples above DEVICE_CAP, and a quench at a critical core or hub; an
overcurrent and 200 samples above DEVICE_CAP are quenches too.
Model choice it rests on: log 31. -/
def Obligations.SamplesAndQuench : Prop :=
  (∀ (s : State) (g : GovSample), s.boot.mode = .service → s.gov.temps.length = 42 →
    ∃ t, exec (.governorSample g) s = .next t ∧ t.gov.inputMv = g.inputMv ∧ t.gov.inputMa = g.inputMa ∧ t.gov.count = s.gov.count + 1
      ∧ t.gov.sums.getD 0 0 = s.gov.sums.getD 0 0 + g.inputMv * g.inputMa / 1000
      ∧ (∀ i, i < 5 → t.gov.sums.getD (i + 1) 0 = s.gov.sums.getD (i + 1) 0 + g.rails.getD i 0)
      ∧ t.gov.temps = (List.range 42).map (fun i => g.temps.getD i (s.gov.temps.getD i 0))
      ∧ ((s.gov.quench = true ∨ t.gov.quench = false) → t.gov.overSamples
          = (if deviceCap s < g.inputMv * g.inputMa / 1000 then s.gov.overSamples + 1 else 0))
      ∧ (∀ i, i < 17 → 1100 ≤ g.temps.getD i (s.gov.temps.getD i 0) → t.gov.quench = true
          ∧ (s.gov.quench = false → t.gov.stretch = 128 ∧ t.gov.cause = 2 ∧ t.gov.progStopped = true))
      ∧ t = { withEvents s t with gov := t.gov, core := t.core })
  ∧ (∀ (s : State) (ma : Nat), s.boot.mode = .service →
    (12 * deviceCap s * 1000 < 10 * (ma * s.gov.inputMv) → s.gov.quench = false →
      ∃ t, exec (.quenchOvercurrent ma) s = .next t ∧ Quenched s t 0 ∧ t.gov.tripped = true)
    ∧ (10 * (ma * s.gov.inputMv) ≤ 12 * deviceCap s * 1000 → exec (.quenchOvercurrent ma) s = .next s))
  ∧ (∀ s : State, s.boot.mode = .service →
    (200 ≤ s.gov.overSamples → s.gov.quench = false → ∃ t, exec .quenchExcursion s = .next t ∧ Quenched s t 1
      ∧ t.gov.tripped = s.gov.tripped)
    ∧ (s.gov.overSamples < 200 → exec .quenchExcursion s = .next s))

/-- A decision ends a window of at least 20 samples: its means; no decision in a tripped window; the end of a quench at QUENCH_EXIT without a
critical response; and the first means against each subsystem above its allocation. Every replica takes the timebase's full value.
Model choice it rests on: log 31. -/
def Obligations.DecisionsEndWindows : Prop :=
  (∀ s : State, s.boot.mode = .service →
    (s.gov.count < 20 → exec .governorDecision s = .next s)
    ∧ (20 ≤ s.gov.count → s.gov.tripped = true → exec .governorDecision s = .next { s with gov := { s.gov with
        means := meansNow s, count := 0, sums := [0, 0, 0, 0, 0, 0], tripped := false } })
    ∧ (20 ≤ s.gov.count → s.gov.tripped = false → s.gov.quench = true → pkgCritical s = false →
        (meansNow s).getD 0 0 * 100 ≤ polValue s 0x44 90 * deviceCap s →
      ∃ t, exec .governorDecision s = .next t ∧ t.gov.quench = false ∧ t.gov.progStopped = false ∧ t.gov.stretch = 112
        ∧ t.gov.means = meansNow s ∧ t.gov.count = 0 ∧ t.tele.eventSeq = s.tele.eventSeq + 1
        ∧ t = { withEvents s t with gov := t.gov })
    ∧ (20 ≤ s.gov.count → s.gov.tripped = false → s.gov.quench = false → deviceCap s = 600000 → s.gov.thermal = [] →
        (meansNow s).getD 3 0 ≤ 90000 → (meansNow s).getD 5 0 ≤ 40000 →
      ∃ t, exec .governorDecision s = .next t ∧ t.gov.means = meansNow s ∧ t.gov.count = 0 ∧ t.gov.quench = false
        ∧ t.gov.alloc = [subCap s 0, subCap s 1, subCap s 2]
        ∧ (subCap s 0 < (meansNow s).getD 1 0 → s.gov.bgTiles = false → s.gov.stretch = 0 →
            t.gov.bgTiles = true ∧ t.gov.stretch = 0)
        ∧ (subCap s 1 < (meansNow s).getD 2 0 → t.gov.bgDram = true)
        ∧ ((meansNow s).getD 2 0 ≤ subCap s 1 → t.gov.bgDram = false ∧ t.gov.dramGaps = 0)
        ∧ (subCap s 2 < (meansNow s).getD 4 0 → t.gov.bgFlash = true)
        ∧ ((meansNow s).getD 4 0 ≤ subCap s 2 → t.gov.bgFlash = false ∧ t.gov.dieLimit = 512 ∧ t.gov.progLimit = 256)
        ∧ t.fl = s.fl ∧ t.trs = s.trs ∧ t.tier = s.tier))
  ∧ (∀ s : State, (s.aon.crystalGood = true →
      exec .timebaseFullValue s = .next { s with isl := { s.isl with approx := [], lastFull := now s } })
    ∧ (s.aon.crystalGood = false → exec .timebaseFullValue s = .next s))

namespace Sys2Proof.Machine

/-- The cells once the next in rotation has been measured; an isolated cell stays isolated (17 R489). -/
def cellsMeasured (s : State) (cap res : Nat) : List Cell :=
  s.gov.cells.set s.gov.nextCell ⟨cap, res, decide (cap < 900 ∨ 50 < res) || (s.gov.cells.getD s.gov.nextCell {}).isolated⟩

end Sys2Proof.Machine

/-- A hold-up cell is measured in rotation, and isolated below 900 µF or above 50 mΩ; a bank that fails in service ends it: Fettle mode with
HOLDUP.
Model choice it rests on: log 1. -/
def Obligations.HoldupCellsAreMeasured : Prop :=
  ∀ (s : State) (cap res : Nat), s.boot.mode = .service →
    (s.gov.powerLost = true → exec (.holdupCellMeasurement cap res) s = .next s)
    ∧ (s.gov.powerLost = false → bankFailed { s with gov := { s.gov with cells := cellsMeasured s cap res } } = false →
      ∃ t, exec (.holdupCellMeasurement cap res) s = .next t ∧ t.gov.nextCell = (s.gov.nextCell + 1) % 9
        ∧ t.gov.cells = cellsMeasured s cap res
        ∧ t = { s with outbox := t.outbox, gov := { s.gov with cells := t.gov.cells, nextCell := t.gov.nextCell } })
    ∧ (s.gov.powerLost = false → bankFailed { s with gov := { s.gov with cells := cellsMeasured s cap res } } = true →
      ∃ t, exec (.holdupCellMeasurement cap res) s = .next t ∧ InFettle 7 t ∧ t.gov.nextCell = (s.gov.nextCell + 1) % 9)

/-! ### The mailbox and DOE (02 R36, R48, R55, 13 R399, 14 R423 to R443, 16 R471, R479) -/

namespace Sys2Proof.Machine

/-- The mailbox has answered with a code and a payload, and nothing else has changed in `u`. -/
def answered (u : State) (rc : Rc) (payload : List Byte) : State := { u with outbox := u.outbox ++ [.mailbox rc payload] }

end Sys2Proof.Machine

/-- Event records are read as many whole records as an answer holds, cleared from the oldest on by their handles or, after an overflow, all at
once; the interrupt policy is set for all four logs. Timestamps are the timebase; one log, of the commands and their effects, can be read
in pieces; the device names 954 units of 256 MiB; DOE answers Discovery and the seven entries of the CDAT; an opcode that the mode does
not serve is unsupported.
Model choices it rests on: log 2, log 13. -/
def Obligations.EventsTimesLogsAndDescriptions : Prop :=
  (
  (∀ (s : State) (log : Nat), mailboxUp s = true → log < 4 →
    ∃ head, exec (.getEventRecords log) s
        = .next (answered s .success (head ++ ((s.tele.logs.getD log []).take 511).flatMap recordBytes))
      ∧ head.length = 32 ∧ sliceBytes head 20 2 = bytesOf 2 (min (s.tele.logs.getD log []).length 511))
  ∧ (∀ (s : State) (log : Nat) (hs : List (BitVec 16)), mailboxUp s = true → log < 4 →
    (((s.tele.logs.getD log []).take hs.length).map (·.handle) = hs →
      exec (.clearEventRecords log false hs) s = .next (answered { s with tele := { s.tele with
        logs := s.tele.logs.set log ((s.tele.logs.getD log []).drop hs.length),
        overflow := s.tele.overflow.set log 0, overTimes := s.tele.overTimes.set log (0, 0) } } .success []))
    ∧ (((s.tele.logs.getD log []).take hs.length).map (·.handle) ≠ hs →
      exec (.clearEventRecords log false hs) s = .next (answered s .invalidHandle []))
    ∧ (s.tele.overflow.getD log 0 ≠ 0 → exec (.clearEventRecords log true hs) s = .next (answered { s with tele := { s.tele with
        logs := s.tele.logs.set log [], overflow := s.tele.overflow.set log 0, overTimes := s.tele.overTimes.set log (0, 0) } }
        .success [])))
  ∧ (∀ (s : State) (p : List Byte), mailboxUp s = true →
    exec .getEventInterruptPolicy s = .next (answered s .success (s.tele.intPolicy.map (fun b => b &&& 3)))
    ∧ (p.length = 4 → p.all (fun b => decide (b.toNat % 4 ≤ 1)) = true → exec (.setEventInterruptPolicy p) s
        = .next (answered { s with tele := { s.tele with intPolicy := p.map (fun b => b &&& 3) } } .success []))
    ∧ (p.length ≠ 4 → exec (.setEventInterruptPolicy p) s = .next (answered s .invalidPayloadLength [])))
  )
  ∧ (
  (∀ s : State, mailboxUp s = true →
    exec .getTimestamp s = .next (answered s .success (bytesOf 8 (now s).toNat))
    ∧ (∀ v, ∃ t, exec (.setTimestamp v) s = .next t ∧ t.outbox = s.outbox ++ [.mailbox .success []]
        ∧ t.aon = { s.aon with timebase := v, tbHeldLow := none, tbFromHost := true }
        ∧ t.isl = { s.isl with approx := s.isl.released.filter (fun i => decide (i ≠ .alwaysOn)) }
        ∧ t = { s with aon := t.aon, isl := t.isl, trs := t.trs, outbox := t.outbox, boot := { s.boot with mediaRef := none },
                       fl := { s.fl with mediaMinutes := t.fl.mediaMinutes } })
    ∧ exec .getSupportedLogs s = .next (answered s .success (bytesOf 2 1 ++ bytesOf 6 0 ++ celUuid ++ bytesOf 4 76))
    ∧ (∀ off n, off + n ≤ 76 → exec (.getLog celUuid off n) s = .next (answered s .success (sliceBytes
        (mailboxOpcodes.flatMap (fun op => bytesOf 2 op ++ bytesOf 2 (Config.commandEffect op).toNat)) off n)))
    ∧ (∀ u off n, u ≠ celUuid → exec (.getLog u off n) s = .next (answered s .invalidInput []))
    ∧ (∃ l, exec .identifyMemoryDevice s = .next (answered s .success l) ∧ sliceBytes l 16 8 = bytesOf 8 954
        ∧ sliceBytes l 24 8 = bytesOf 8 954 ∧ sliceBytes l 32 8 = bytesOf 8 0)
    ∧ (∀ (op : BitVec 16) (p : List Byte), opcodeServed s op.toNat = false → p.length ≤ 65536 →
        exec (.unsupportedMailboxOpcode op p) s = .next (answered s .unsupported [])))
  ∧ (∀ s : State, configUp s = true →
    (∀ i, i < 3 → ∃ l, exec (.doeDiscovery i) s = .next { s with outbox := s.outbox ++ [.doe l] }
        ∧ sliceBytes l 11 1 = bytesOf 1 ((i + 1) % 3))
    ∧ (∀ e, e < 7 → ∃ l, exec (.cdatTableAccess e) s = .next { s with outbox := s.outbox ++ [.doe l] }
        ∧ sliceBytes l 10 2 = bytesOf 2 (if e = 6 then 0xFFFF else e + 1) ∧ l.drop 12 = cdatTable.getD e [])
    ∧ (∀ e, 7 ≤ e → exec (.cdatTableAccess e) s = .next s))
  )

/-- A report over a nonce uses one leaf and carries the state's head, the leaf and the signature over the head, over the mailbox and over DOE;
the start log answers with the block of an earlier start.
Model choices it rests on: log 8, log 30. -/
def Obligations.AttestationAndStartLog : Prop :=
  (∀ (s : State) (b : Nat) (p : List Byte), s.nor.xmssBlock = some b → s.nor.xmssLeaf < 1024 → p.length = 32 →
    ∃ u l, u = { s with nor := { s.nor with xmssLeaf := s.nor.xmssLeaf + 1 } }
      ∧ l = reportHead u p false ++ bytesOf 5 (1024 * b + s.nor.xmssLeaf)
          ++ sliceBytes (Config.xmssSign (attestSeed u) (1024 * b + s.nor.xmssLeaf) (reportHead u p false)) 0 9888 ++ bytesOf 3 0
      ∧ (mailboxUp s = true → exec (.attest p) s = .next (answered u .success l))
      ∧ (configUp s = true → attestServed s = true → exec (.doeAttestation (bytesOf 4 1 ++ p)) s
          = .next { u with outbox := s.outbox ++ [.doe (doeObject Config.imiaranVid.toNat 1 l)] }))
  ∧ (∀ (s : State) (p : List Byte), mailboxUp s = true → p.length ≠ 32 →
    exec (.attest p) s = .next (answered s .invalidPayloadLength []))
  ∧ (∀ (s : State) (n : Nat), mailboxUp s = true → n < 256 → s.boot.logBlock.isSome = true →
    (∀ b, consumedOf s (seqBack s n) = some b →
      exec (.startLogRead (bytesOf 4 n)) s = .next (answered s .success (norRead s (logAddr b) 4096)))
    ∧ (consumedOf s (seqBack s n) = none → exec (.startLogRead (bytesOf 4 n)) s = .next (answered s .invalidInput [])))

/-- 16 R471: COUNTERS_GLOBAL takes KIND and FIRST in 4 bytes and answers the header of Table 147 and min(INSTANCES − FIRST, 8,184) values; an
unknown KIND and a FIRST beyond the kind are Invalid Input; it is served from the end of S2 (Mailbox Interface Ready) on, through S5, and
not in Fettle mode. -/
def Obligations.CountersGlobalServesItsKinds : Prop :=
  (∀ (s : State) (kind first : Nat), kind < 65536 → first < 65536 → mailboxUp s = true →
    (s.boot.mode ≠ .fettle → ∀ n, kindInstances kind = some n → first < n →
      exec (.countersGlobal (bytesOf 2 kind ++ bytesOf 2 first)) s = .next (answered s .success
        ((bytesOf 8 (now s).toNat ++ bytesOf 8 0 ++ bytesOf 2 kind ++ bytesOf 1 1 ++ bytesOf 1 (tsApprox s).toNat ++ bytesOf 4 n
            ++ bytesOf 4 first ++ bytesOf 4 (min (n - first) 8184) ++ List.replicate 32 0)
          ++ (List.range' first (min (n - first) 8184)).flatMap (fun i => bytesOf 8 (counterValue s kind i)))))
    ∧ (s.boot.mode ≠ .fettle → (kindInstances kind = none ∨ ∃ n, kindInstances kind = some n ∧ n ≤ first) →
      exec (.countersGlobal (bytesOf 2 kind ++ bytesOf 2 first)) s = .next (answered s .invalidInput []))
    ∧ (s.boot.mode = .fettle → exec (.countersGlobal (bytesOf 2 kind ++ bytesOf 2 first)) s = .next (answered s .unsupported [])))
  ∧ (∀ (s : State) (p : List Byte), mailboxUp s = false → exec (.countersGlobal p) s = .next s)
  ∧ (∀ (s : State) (p : List Byte), mailboxUp s = true → s.boot.mode ≠ .fettle → p.length ≠ 4 →
    exec (.countersGlobal p) s = .next (answered s .invalidPayloadLength []))

namespace Sys2Proof.Machine

/-- The digest that a claim's signature covers (14 R434). -/
def claimDigest (s : State) (p : List Byte) : List Byte :=
  digest32 (ascii ['I', 'M', 'I', 'A', 'R', 'A', 'N', '-', 'C', 'L', 'A', 'I', 'M'] ++ sliceBytes p 4 4 ++ idPub s ++ sliceBytes p 8 68)

/-- The digest that a release's signature covers (14 R435). -/
def releaseDigest (s : State) (p : List Byte) : List Byte :=
  digest32 (ascii ['I', 'M', 'I', 'A', 'R', 'A', 'N', '-', 'R', 'E', 'L', 'E', 'A', 'S', 'E'] ++ sliceBytes p 0 4 ++ idPub s)

/-- The owner record of a claim: the next epoch, claimed, the parameter set and key of the payload (14 R434). -/
def claimedBy (s : State) (p : List Byte) : OwnerRec :=
  { ownerNow s with epoch := (ownerNow s).epoch + 1, claimed := true, param := numAt p 0 1, pub := sliceBytes p 8 68 }

/-- The owner record of a release: the next epoch, unclaimed (14 R435). -/
def releasedNow (s : State) : OwnerRec :=
  { ownerNow s with epoch := (ownerNow s).epoch + 1, claimed := false, param := 0, pub := List.replicate 68 0 }

end Sys2Proof.Machine

/-- Sanitize opens in service, waits until every accepted command has ended, and then unmaps all volumes and tier pages, deletes every context
and collection and destroys the keys. An unclaimed module takes an owner whose signature verifies, and a claimed one in Fettle mode is
released by its owner's signature; the record's epoch rises by 1 and a release destroys the keys.
Model choices it rests on: log 8, log 68. -/
def Obligations.SanitizeAndOwnership : Prop :=
  (
  (∀ s : State, mailboxUp s = true →
    (s.boot.mode = .service → s.nor.bg = none → s.nor.sanitize = 0 → exec .sanitize s
      = .next (answered { s with nor := { s.nor with sanitize := 1, bg := some (0x4400, 0) } } .backgroundStarted []))
    ∧ (s.boot.mode = .service → (s.nor.bg ≠ none ∨ s.nor.sanitize ≠ 0) → exec .sanitize s = .next (answered s .busy []))
    ∧ (s.boot.mode = .fettle → exec .sanitize s = .next (answered s .unsupported [])))
  ∧ (∀ s : State, s.boot.mode = .service → s.nor.sanitize = 1 →
    (allDrained s = true → ∃ t, exec .sanitizeDrained s = .next t ∧ t.tier.pages = [] ∧ t.coll = []
      ∧ (∀ i, (SMap.find {} t.ctx.recs i).live = false) ∧ (∀ u, u < storeBase → mapOf t u = {})
      ∧ (∀ a, a < storeBase * 16384 → SMap.find 0 t.fl.data a = 0)
      ∧ (SMap.wf {} s.ctx.recs = true → ∀ i, (SMap.find {} s.ctx.recs i).live = true →
          (SMap.find {} t.ctx.recs i).gen = (SMap.find {} s.ctx.recs i).gen + 1)
      ∧ t.fl.keyGen = s.fl.keyGen + 1 ∧ t.nor.sanitize = 0 ∧ t.nor.bg = none ∧ t.trs = s.trs ∧ t.tun = s.tun ∧ t.pol = s.pol
      ∧ t.outbox = s.outbox)
    ∧ (allDrained s = false → exec .sanitizeDrained s = .next s))
  )
  ∧ (
  (∀ (s : State) (p : List Byte) (n : Nat), mailboxUp s = true → sigLen (numAt p 0 1) = some n → p.length = 80 + n →
    ((ownerNow s).claimed = true → exec (.claimOwner p) s = .next (answered s .invalidSecurityState []))
    ∧ ((ownerNow s).claimed = false → s.nor.bg = none → numAt p 1 3 = 0 → numAt p 76 4 = 0 → numAt p 4 4 = (ownerNow s).epoch + 1 →
      exec (.claimOwner p) s = .next (if Config.xmssVerify (sliceBytes p 8 68) (claimDigest s p) (sliceBytes p 80 n) = true
        then answered { s with nor := { s.nor with mem := (writeOwner (claimedBy s p) (keysNow s) s).nor.mem } } .backgroundStarted []
        else answered s .invalidInput [])))
  ∧ (∀ (s : State) (p : List Byte), mailboxUp s = true → s.boot.mode ≠ .fettle →
    exec (.releaseOwner p) s = .next (answered s .unsupported []))
  ∧ (∀ (s : State) (p : List Byte) (n : Nat), mailboxUp s = true → s.boot.mode = .fettle → (ownerNow s).claimed = true →
      sigLen (ownerNow s).param = some n → p.length = 8 + n → s.nor.bg = none → numAt p 0 4 = (ownerNow s).epoch → numAt p 4 4 = 0 →
      s.fl.objects = [] →
    exec (.releaseOwner p) s = .next (if Config.xmssVerify (ownerNow s).pub (releaseDigest s p) (sliceBytes p 8 n) = true
      then answered { s with nor := { s.nor with session := none, mem := (writeOwner (releasedNow s) [] s).nor.mem } }
        .backgroundStarted []
      else answered s .invalidInput []))
  )

/-- Staging: BEGIN opens a session on the target and erases its sectors behind what waits, DATA programs image bytes once and counts them,
COMMIT programs the commit record where every check passes; a command out of place changes nothing but an event.
Model choice it rests on: log 2. -/
def Obligations.StagingBeginsFillsAndCommits : Prop :=
  (∀ (s : State) (p : List Byte), mailboxUp s = true → p.length = 16 → numAt p 8 8 = 0 →
    (s.boot.patternGen.toNat < numAt p 0 4 → rejectGen s < numAt p 0 4 → 0x10100 ≤ numAt p 4 4 → numAt p 4 4 ≤ 100663296 →
        s.nor.bg = none →
      ∃ t, exec (.patternStageBegin p) s = .next t ∧ t.outbox = s.outbox ++ [.mailbox .backgroundStarted []]
        ∧ t.nor = { s.nor with
            session := some ⟨BitVec.ofNat 32 (numAt p 0 4), numAt p 4 4, stagingTarget s, []⟩,
            bg := some (0xC010, 0),
            ops := s.nor.ops ++ (List.range (ceilDiv (numAt p 4 4) 65536)).map (fun i => .erasing (slotSector (stagingTarget s) + i) false) }
        ∧ (s.fl.objects = [] → t.fl = s.fl) ∧ (∀ o ∈ t.fl.objects, o ∈ s.fl.objects)
        ∧ t = { s with nor := t.nor, outbox := t.outbox, fl := t.fl })
    ∧ ((numAt p 0 4 ≤ s.boot.patternGen.toNat ∨ numAt p 4 4 < 0x10100 ∨ 100663296 < numAt p 4 4) →
      ∃ t, exec (.patternStageBegin p) s = .next t ∧ t.outbox.getLast? = some (.mailbox .invalidInput []) ∧ t.nor = s.nor
        ∧ t.tele.eventSeq = s.tele.eventSeq + 1))
  ∧ (∀ (s : State) (p : List Byte) (dma : DmaOutcome), mailboxUp s = true → p.length = 64 + numAt p 4 4 → numAt p 4 4 ≤ 65472 →
      numAt p 0 1 = 0 → numAt p 1 3 = 0 → numAt p 16 8 = 0 → numAt p 28 36 = 0 →
    (∀ x, s.nor.session = some x → imageRefused x (numAt p 8 8) (numAt p 4 4) = false →
      ∃ t, exec (.patternStageData p dma) s = .next t ∧ t.outbox = s.outbox ++ [.mailbox .success (bytesOf 8 0)]
        ∧ t.nor.session = some { x with written := x.written ++ [(numAt p 8 8, numAt p 4 4)] }
        ∧ (s.nor.ops = [] → t.nor.ops = []
            ∧ t.nor.mem = programBytes (norAddr s (slotBase x.target + numAt p 8 8)) (p.drop 64) s.nor.mem)
        ∧ t = { s with outbox := t.outbox, nor := { s.nor with session := t.nor.session, ops := t.nor.ops, mem := t.nor.mem } })
    ∧ (s.nor.session = none → ∃ t, exec (.patternStageData p dma) s = .next t
        ∧ t.outbox.getLast? = some (.mailbox .invalidSecurityState []) ∧ t.nor = s.nor ∧ t.fl = s.fl
        ∧ t.tele.eventSeq = s.tele.eventSeq + 1))
  ∧ (∀ s : State, mailboxUp s = true → s.nor.bg = none →
    (∀ x, s.nor.session = some x → ∃ t, exec (.patternStageCommit (bytesOf 8 0)) s = .next t
      ∧ (∀ m, commitOk (drained s) x = some m → t.outbox = (drained s).outbox ++ [.mailbox .backgroundStarted []]
          ∧ t.nor.bg = some (0xC012, 0) ∧ t.nor.session = (drained s).nor.session ∧ t.nor.mem = (drained s).nor.mem
          ∧ t.nor.ops = (drained s).nor.ops ++ [.program (slotBase x.target + 0xFFC0) (commitRecord m) false])
      ∧ (commitOk (drained s) x = none → t.outbox.getLast? = some (.mailbox .invalidInput []) ∧ t.nor = (drained s).nor))
    ∧ (s.nor.session = none → ∃ t, exec (.patternStageCommit (bytesOf 8 0)) s = .next t
        ∧ t.outbox.getLast? = some (.mailbox .invalidSecurityState []) ∧ t.nor = s.nor))

/-! ### The pattern window and the NOR (14 R408 to R411, R429 to R431) -/

/-- The pattern window: PATTERN_WINDOW enables it; the two keys in turn arm it; an armed command starts its program or erase, and any command
disarms it; BAR4 reads the NOR byte for byte while it is enabled, and while it is disabled reads return zero and writes are ignored. NOR
operations: a program clears bits and can raise none, an erase returns its sector to all ones, a failed one changes no
byte outside the logged regions; an erase is suspended for a read after 1 ms and resumes after 200 µs or when no read waits.
Model choices it rests on: log 66, log 67, log 85. -/
def Obligations.PatternWindowAndNor : Prop :=
  (
  (∀ s : State, mailboxUp s = true →
    exec .patternWindow s = .next (answered { s with nor := { s.nor with enabled := true } } .success []))
  ∧ (∀ s : State, configUp s = true → decodes s s.link.bar4 = true → windowOpen s = true →
    exec (.pwKey 0x50574B31) s = .next { s with nor := { s.nor with keyHalf := true, armed := false } }
    ∧ (∀ v, v ≠ 0x50574B31 → exec (.pwKey v) s
        = .next { s with nor := { s.nor with armed := s.nor.keyHalf && decide (v = 0xAFA8B4CE), keyHalf := false } })
    ∧ (∀ i, (i = .pwProgram ∨ i = .pwErase) → s.nor.armed = false →
        exec i s = .next { s with nor := { s.nor with keyHalf := false, lastResult := 1 } })
    ∧ (∀ i, (i = .pwProgram ∨ i = .pwErase) → s.nor.armed = true → s.nor.session = none →
        exec i s = .next { s with nor := { s.nor with armed := false, keyHalf := false, lastResult := 2 } })
    ∧ (∀ x : Session, s.nor.armed = true → s.nor.session = some x → windowBusy s = false →
        (inTarget x s.nor.pwAddr.toNat s.nor.pwLen.toNat = true → 1 ≤ s.nor.pwLen.toNat →
          s.nor.pwAddr.toNat % 256 + s.nor.pwLen.toNat ≤ 256 →
          bitRise s s.nor.pwAddr.toNat ((bytesOf 256 s.nor.pwBuf.toNat).take s.nor.pwLen.toNat) = false →
          exec .pwProgram s = .next { s with nor := { s.nor with
            armed := false, keyHalf := false,
            ops := s.nor.ops ++ [.program s.nor.pwAddr.toNat ((bytesOf 256 s.nor.pwBuf.toNat).take s.nor.pwLen.toNat) true],
            session := some { x with written := x.written ++ [(s.nor.pwAddr.toNat - slotBase x.target, s.nor.pwLen.toNat)] } } })
        ∧ (inTarget x s.nor.pwAddr.toNat 65536 = true → s.nor.pwAddr.toNat % 65536 = 0 →
          exec .pwErase s = .next { s with nor := { s.nor with
            armed := false, keyHalf := false, ops := s.nor.ops ++ [.erasing (s.nor.pwAddr.toNat / 65536) true] } })))
  ∧ (∀ (s : State) (off w : Nat), configUp s = true → decodes s s.link.bar4 = true → off + w ≤ 0x10000000 →
    (windowOpen s = true →
      exec (.tbNowRead 4 off w) s = .next { s with outbox := s.outbox ++ [.completion (norRaw s off w) false false] })
    ∧ (windowOpen s = false →
      exec (.tbNowRead 4 off w) s = .next { s with outbox := s.outbox ++ [.completion (List.replicate w 0) false false] }
      ∧ ∀ (v : BitVec 512) (rid : BitVec 16), exec (.registerWrite 4 off w v rid) s = .next s))
  )
  ∧ (
  (∀ (s : State) (a : Nat) (bytes : List Byte) (w : Bool), s.nor.ops = [.program a bytes w] → s.nor.bg = none →
    (∃ t, exec (.norProgramComplete true) s = .next t
      ∧ (∀ i, i < bytes.length → SMap.find 0xFF t.nor.mem (norAddr s a + i)
          = SMap.find 0xFF s.nor.mem (norAddr s a + i) &&& bytes.getD i 0)
      ∧ (∀ b, (b < norAddr s a ∨ norAddr s a + bytes.length ≤ b) → SMap.find 0xFF t.nor.mem b = SMap.find 0xFF s.nor.mem b)
      ∧ t = { s with nor := { s.nor with ops := [], mem := t.nor.mem, lastResult := if w then 0 else s.nor.lastResult } })
    ∧ (loggedOf a = none → exec (.norProgramComplete false) s
        = .next { s with nor := { s.nor with ops := [], lastResult := if w then 7 else s.nor.lastResult } }))
  ∧ (∀ (s : State) (k : Nat) (w : Bool), s.nor.ops = [.erasing k w] → s.nor.bg = none → s.nor.suspended = false →
      (k < 3073 ∨ 3089 ≤ k) →
    (∃ t, exec (.norEraseComplete true) s = .next t
      ∧ (∀ b, norAddr s (k * 65536) ≤ b → b < norAddr s (k * 65536) + 65536 → SMap.find 0xFF t.nor.mem b = 0xFF)
      ∧ (∀ b, (b < norAddr s (k * 65536) ∨ norAddr s (k * 65536) + 65536 ≤ b) →
          SMap.find 0xFF t.nor.mem b = SMap.find 0xFF s.nor.mem b)
      ∧ t = { s with nor := { s.nor with ops := [], mem := t.nor.mem, lastResult := if w then 0 else s.nor.lastResult } })
    ∧ (∀ n, exec (.norEraseSuspend n) s = .next (if 1000000 ≤ n then { s with nor := { s.nor with suspended := true } } else s)))
  ∧ (∀ (s : State) (rd : Bool) (n : Nat), exec (.norEraseResume rd n) s
      = .next (if rd = false ∨ 200000 ≤ n then { s with nor := { s.nor with suspended := false } } else s))
  )

/-! ### The sideband (16 R482, R483, 17 R493) -/

/-- Addresses and identity: the target takes one dynamic address, at its static address or in ENTDAA, then answers MCTP and PLDM's base
commands; after watchdog expiry it does not acknowledge. Sensors and their records: a numeric sensor reads its value, a state sensor its
state, cores, stacks and flash are unavailable in Fettle mode, and the repository holds one record for each of the 56 sensors, in turn.
Model choices it rests on: log 2, log 13, log 24, log 35. -/
def Obligations.SidebandAndSensors : Prop :=
  (
  (∀ (s : State) (a : BitVec 7), targetUp s = true → s.tele.dynAddr = none →
    exec (.entdaa a) s = .next { s with outbox := s.outbox ++ [.i3cAck true], tele := { s.tele with dynAddr := some a } }
    ∧ exec (.setdasa (BitVec.ofNat 7 (0x68 + s.aon.addrSel.toNat)) a) s
        = .next { s with outbox := s.outbox ++ [.i3cAck true], tele := { s.tele with dynAddr := some a } })
  ∧ (∀ (s : State) (a b : BitVec 7), targetUp s = true → (s.tele.dynAddr ≠ none ∨ b ≠ BitVec.ofNat 7 (0x68 + s.aon.addrSel.toNat)) →
    exec (.setdasa b a) s = .next s)
  ∧ (∀ s : State, targetUp s = true → s.tele.dynAddr ≠ none →
    (∀ e, exec (.setEndpointId e) s
      = .next { s with outbox := s.outbox ++ [.pldm [0, 0, e, 0]], tele := { s.tele with eid := some e } })
    ∧ (∀ e, exec (.setEventReceiver e) s
      = .next { s with outbox := s.outbox ++ [.pldm [0]], tele := { s.tele with receiver := some e } })
    ∧ exec .getTid s = .next { s with outbox := s.outbox ++ [.pldm [0, Config.pldmTid]] }
    ∧ exec .getPldmTypes s = .next { s with outbox := s.outbox ++ [.pldm (0 :: bytesOf 8 5)] }
    ∧ exec (.getPldmCommands 0) s = .next { s with outbox := s.outbox ++ [.pldm (0 :: bytesOf 32 60)] }
    ∧ exec (.getPldmCommands 2) s = .next { s with outbox := s.outbox ++ [.pldm (0 :: bytesOf 32
        (2 ^ 0x04 + 2 ^ 0x0A + 2 ^ 0x11 + 2 ^ 0x21 + 2 ^ 0x50 + 2 ^ 0x51))] }
    ∧ (∀ p : Byte, (p = 0 ∨ p = 2) → ∃ l, exec (.getPldmVersion p) s = .next { s with outbox := s.outbox ++ [.pldm (0 :: l)] }
        ∧ sliceBytes l 5 4 = bytesOf 4 (Config.pldmVersion p.toNat).toNat)
    ∧ (∀ p : Byte, p ≠ 0 → p ≠ 2 → exec (.getPldmVersion p) s = .next { s with outbox := s.outbox ++ [.pldm [0x83]] }
        ∧ exec (.getPldmCommands p) s = .next { s with outbox := s.outbox ++ [.pldm [0x83]] }))
  ∧ (∀ (s : State) (a : BitVec 7), s.boot.mode = .expired →
    exec (.entdaa a) s = .next { s with outbox := s.outbox ++ [.i3cAck false] }
    ∧ exec .getTid s = .next { s with outbox := s.outbox ++ [.i3cAck false] })
  )
  ∧ (
  ∀ s : State, targetUp s = true → s.tele.dynAddr ≠ none →
    (∀ id, 1 ≤ id → id ≤ 51 → (s.boot.mode ≠ .fettle ∨ id < 10 ∨ 49 < id) →
      ∃ l, exec (.getSensorReading id) s = .next { s with outbox := s.outbox ++ [.pldm (0 :: 5 :: 0 :: l)] } ∧ l.length = 8
        ∧ l.drop 4 = bytesOf 4 (numericValue s id % 4294967296).toNat)
    ∧ (∀ id, 10 ≤ id → id ≤ 49 → s.boot.mode = .fettle →
      ∃ l, exec (.getSensorReading id) s = .next { s with outbox := s.outbox ++ [.pldm (0 :: 5 :: 2 :: l)] } ∧ l.drop 4 = bytesOf 4 0)
    ∧ (∀ id, (id = 0 ∨ 51 < id) → exec (.getSensorReading id) s = .next { s with outbox := s.outbox ++ [.pldm [0x80]] })
    ∧ (∀ id, 60 ≤ id → id ≤ 64 → (s.boot.mode ≠ .fettle ∨ id ≠ 62) →
      ∃ l, exec (.getStateSensorReadings id) s
        = .next { s with outbox := s.outbox ++ [.pldm (0 :: 1 :: 0 :: bytesOf 1 (stateValue s id) ++ l)] })
    ∧ (∀ id, (id < 60 ∨ 64 < id) → exec (.getStateSensorReadings id) s = .next { s with outbox := s.outbox ++ [.pldm [0x80]] })
    ∧ (∀ h, 1 ≤ h → h ≤ 56 → ∃ l, exec (.getPdr h) s = .next { s with outbox := s.outbox ++ [.pldm (0 ::
        (bytesOf 4 (if h = 56 then 0 else h + 1) ++ bytesOf 4 0 ++ [5] ++ bytesOf 2 l.length ++ l))] }
        ∧ l = pdrOf s h (if h ≤ 51 then h else h + 8))
    ∧ (∀ h, 56 < h → exec (.getPdr h) s = .next { s with outbox := s.outbox ++ [.pldm [0x82]] })
    ∧ (∃ l, exec .getPdrRepositoryInfo s = .next { s with outbox := s.outbox ++ [.pldm (0 :: 0 :: l)] }
        ∧ sliceBytes l 26 4 = bytesOf 4 56)
  )
end

