-- ==== Sys2Proof/Laws/SMap.lean ====
section
/-! SUPPORT. Laws of the sorted maps: reading after writing, and that every operation keeps the canonical form. -/
namespace Sys2Proof.Machine

variable {α : Type} {d : α}

/-! ### The canonical form as pairwise order -/

/-- Keys rise strictly. -/
def SMap.rises (m : SMap α) : Prop := m.Pairwise (fun a b => a.1 < b.1)

/-- The check says that keys rise and that no entry holds the unlisted value. -/
theorem SMap.wf_iff [DecidableEq α] (m : SMap α) : SMap.wf d m = true ↔ SMap.rises m ∧ ∀ e ∈ m, e.2 ≠ d := by
  induction m with
  | nil => simp [SMap.wf, SMap.rises]
  | cons a t ih =>
    cases t with
    | nil => simp [SMap.wf, SMap.rises]
    | cons b r =>
      simp only [SMap.wf, Bool.and_eq_true, decide_eq_true_eq, ih]
      constructor
      · rintro ⟨⟨ha, hab⟩, hr, hn⟩
        refine ⟨List.pairwise_cons.2 ⟨?_, hr⟩, ?_⟩
        · intro x hx
          rcases List.mem_cons.1 hx with rfl | hx
          · exact hab
          · exact lt_trans hab ((List.pairwise_cons.1 hr).1 x hx)
        · intro e he
          rcases List.mem_cons.1 he with rfl | he
          · exact ha
          · exact hn e he
      · rintro ⟨hr, hn⟩
        exact ⟨⟨hn a (by simp), (List.pairwise_cons.1 hr).1 b (by simp)⟩, (List.pairwise_cons.1 hr).2,
          fun e he => hn e (by simp [he])⟩

/-! ### Removing and placing -/

theorem SMap.erase_eq_filter (m : SMap α) (k : Nat) : SMap.erase m k = m.filter (fun e => decide (e.1 ≠ k)) := by
  induction m with
  | nil => rfl
  | cons a t ih => by_cases h : a.1 = k <;> simp [SMap.erase, h, ih]

theorem SMap.mem_place (m : SMap α) (k : Nat) (v : α) (e : Nat × α) : e ∈ SMap.place m k v ↔ e = (k, v) ∨ e ∈ m := by
  induction m with
  | nil => simp [SMap.place]
  | cons a t ih =>
    by_cases h : k < a.1
    · simp [SMap.place, h]
    · simp only [SMap.place, h, if_false, List.mem_cons, ih]
      tauto

theorem SMap.rises_place (m : SMap α) (k : Nat) (v : α) (hm : SMap.rises m) (hk : ∀ e ∈ m, e.1 ≠ k) :
    SMap.rises (SMap.place m k v) := by
  induction m with
  | nil => simp [SMap.place, SMap.rises]
  | cons a t ih =>
    have ht := List.pairwise_cons.1 hm
    by_cases h : k < a.1
    · simp only [SMap.place, h, if_true, SMap.rises]
      refine List.pairwise_cons.2 ⟨?_, hm⟩
      intro x hx
      rcases List.mem_cons.1 hx with rfl | hx
      · exact h
      · exact lt_trans h (ht.1 x hx)
    · simp only [SMap.place, h, if_false, SMap.rises]
      refine List.pairwise_cons.2 ⟨?_, ih ht.2 (fun e he => hk e (by simp [he]))⟩
      intro x hx
      rcases (SMap.mem_place t k v x).1 hx with rfl | hx
      · have := hk a (by simp)
        simp only
        omega
      · exact ht.1 x hx

theorem SMap.rises_filter (m : SMap α) (p : Nat × α → Bool) (hm : SMap.rises m) : SMap.rises (m.filter p) :=
  List.Pairwise.filter p hm

/-! ### Every operation keeps the canonical form -/

/-- Dropping entries keeps it. -/
theorem SMap.wf_filter [DecidableEq α] (m : SMap α) (p : Nat × α → Bool) (h : SMap.wf d m = true) :
    SMap.wf d (m.filter p) = true := by
  rw [SMap.wf_iff] at *
  exact ⟨SMap.rises_filter m p h.1, fun e he => h.2 e (List.mem_of_mem_filter he)⟩

/-- Writing keeps it. -/
theorem SMap.wf_put [DecidableEq α] (m : SMap α) (k : Nat) (v : α) (h : SMap.wf d m = true) : SMap.wf d (SMap.put d m k v) = true := by
  unfold SMap.put
  rw [SMap.erase_eq_filter]
  by_cases hv : v = d
  · simpa [hv] using SMap.wf_filter m _ h
  · have hf := (SMap.wf_iff _).1 (SMap.wf_filter m (fun e => decide (e.1 ≠ k)) h)
    rw [if_neg hv, SMap.wf_iff]
    refine ⟨SMap.rises_place _ k v hf.1 (fun e he => by simpa using (List.mem_filter.1 he).2), ?_⟩
    intro e he
    rcases (SMap.mem_place _ k v e).1 he with rfl | he
    · exact hv
    · exact hf.2 e he

theorem SMap.wf_modify [DecidableEq α] (m : SMap α) (k : Nat) (f : α → α) (h : SMap.wf d m = true) :
    SMap.wf d (SMap.modify d m k f) = true := SMap.wf_put m k _ h

theorem SMap.wf_putList [DecidableEq α] (vs : List α) (m : SMap α) (k : Nat) (h : SMap.wf d m = true) :
    SMap.wf d (SMap.putList d m k vs) = true := by
  induction vs generalizing m k with
  | nil => exact h
  | cons v vs ih => exact ih _ _ (SMap.wf_put m k v h)

theorem SMap.wf_clearRange [DecidableEq α] (m : SMap α) (b n : Nat) (h : SMap.wf d m = true) :
    SMap.wf d (SMap.clearRange m b n) = true := SMap.wf_filter m _ h

theorem SMap.wf_mapVals [DecidableEq α] (f : Nat → α → α) (m : SMap α) (h : SMap.wf d m = true) :
    SMap.wf d (SMap.mapVals d f m) = true := by
  rw [SMap.wf_iff] at *
  refine ⟨SMap.rises_filter _ _ ?_, fun e he => by simpa using (List.mem_filter.1 he).2⟩
  exact List.pairwise_map.2 h.1

/-! ### Reading after writing -/

theorem SMap.find_erase_self (m : SMap α) (k : Nat) : SMap.find d (SMap.erase m k) k = d := by
  induction m with
  | nil => rfl
  | cons a t ih => by_cases h : a.1 = k <;> simp [SMap.erase, SMap.find, h, ih]

theorem SMap.find_erase_other (m : SMap α) (k j : Nat) (h : j ≠ k) : SMap.find d (SMap.erase m k) j = SMap.find d m j := by
  induction m with
  | nil => rfl
  | cons a t ih =>
    by_cases ha : a.1 = k
    · have : a.1 ≠ j := fun e => h (e ▸ ha)
      simp [SMap.erase, SMap.find, ha, ih, Ne.symm h]
    · simp [SMap.erase, SMap.find, ha, ih]

theorem SMap.find_place_self (m : SMap α) (k : Nat) (v : α) (hk : ∀ e ∈ m, e.1 ≠ k) : SMap.find d (SMap.place m k v) k = v := by
  induction m with
  | nil => simp [SMap.place, SMap.find]
  | cons a t ih =>
    by_cases h : k < a.1
    · simp [SMap.place, SMap.find, h]
    · have := hk a (by simp)
      simp [SMap.place, SMap.find, h, this, ih (fun e he => hk e (by simp [he]))]

theorem SMap.find_place_other (m : SMap α) (k j : Nat) (v : α) (h : j ≠ k) :
    SMap.find d (SMap.place m k v) j = SMap.find d m j := by
  induction m with
  | nil => simp [SMap.place, SMap.find, Ne.symm h]
  | cons a t ih =>
    by_cases hk : k < a.1
    · simp [SMap.place, SMap.find, hk, Ne.symm h]
    · simp [SMap.place, SMap.find, hk, ih]

/-- A read after a write to the same place gives the value written. -/
@[simp] theorem SMap.find_put_self [DecidableEq α] (m : SMap α) (k : Nat) (v : α) : SMap.find d (SMap.put d m k v) k = v := by
  unfold SMap.put
  by_cases hv : v = d
  · simp [hv, SMap.find_erase_self]
  · rw [if_neg hv]
    refine SMap.find_place_self _ k v (fun e he => ?_)
    rw [SMap.erase_eq_filter] at he
    simpa using (List.mem_filter.1 he).2

/-- A write leaves every other place alone. -/
@[simp] theorem SMap.find_put_other [DecidableEq α] (m : SMap α) (k j : Nat) (v : α) (h : j ≠ k) :
    SMap.find d (SMap.put d m k v) j = SMap.find d m j := by
  unfold SMap.put
  by_cases hv : v = d
  · simp [hv, SMap.find_erase_other m k j h]
  · rw [if_neg hv, SMap.find_place_other _ k j v h, SMap.find_erase_other m k j h]

theorem SMap.find_modify_self [DecidableEq α] (m : SMap α) (k : Nat) (f : α → α) :
    SMap.find d (SMap.modify d m k f) k = f (SMap.find d m k) := SMap.find_put_self m k _

theorem SMap.find_modify_other [DecidableEq α] (m : SMap α) (k j : Nat) (f : α → α) (h : j ≠ k) :
    SMap.find d (SMap.modify d m k f) j = SMap.find d m j := SMap.find_put_other m k j _ h

/-- A write of consecutive values leaves every place outside them alone. -/
theorem SMap.find_putList_outside [DecidableEq α] (vs : List α) (m : SMap α) (k j : Nat) (h : j < k ∨ k + vs.length ≤ j) :
    SMap.find d (SMap.putList d m k vs) j = SMap.find d m j := by
  induction vs generalizing m k with
  | nil => rfl
  | cons v vs ih =>
    simp only [List.length_cons] at h
    rw [SMap.putList, ih _ _ (by omega), SMap.find_put_other _ _ _ _ (by omega)]

/-- A write of consecutive values reads back. -/
theorem SMap.getList_putList [DecidableEq α] (vs : List α) (m : SMap α) (k : Nat) :
    SMap.getList d (SMap.putList d m k vs) k vs.length = vs := by
  induction vs generalizing m k with
  | nil => rfl
  | cons v vs ih =>
    rw [SMap.putList, List.length_cons, SMap.getList, ih]
    rw [SMap.find_putList_outside vs _ _ _ (by omega), SMap.find_put_self]

end Sys2Proof.Machine
end

