-- ==== Sys2Proof/Laws/Memory.lean ====
section
/-! SUPPORT. The block's memories (tundish, flash content, NOR, the engines' scratchpads, core SRAM and function scratch): every operation over
them keeps the canonical form, the reset memories have it, and a write is read back and leaves every other byte alone. -/
namespace Sys2Proof.Machine

/-- The tundish, the flash content and the NOR are in canonical form, and so are the poisoned lines and the check values. -/
def State.memWf (s : State) : Bool :=
  Mem.wf 0 s.tun.mem && SMap.wf false s.tun.poison && Mem.wf 0 s.fl.data && SMap.wf none s.fl.check && Mem.wf 0xFF s.nor.mem

theorem State.memWf_iff (s : State) : s.memWf = true ↔ SMap.wf 0 s.tun.mem = true ∧ SMap.wf false s.tun.poison = true
    ∧ SMap.wf 0 s.fl.data = true ∧ SMap.wf none s.fl.check = true ∧ SMap.wf 0xFF s.nor.mem = true := by
  simp [State.memWf, Mem.wf, and_assoc]

theorem reset_memWf : State.reset.memWf = true := by decide

theorem wf_programBytes (bs : List Byte) (a : Nat) (m : Mem) (h : SMap.wf 0xFF m = true) : SMap.wf 0xFF (programBytes a bs m) = true := by
  induction bs generalizing a m with
  | nil => exact h
  | cons b bs ih => exact ih _ _ (SMap.wf_put m a _ h)

theorem tunWrite_memWf (a : Nat) (bytes : List Byte) (s : State) (h : s.memWf = true) : (tunWrite a bytes s).memWf = true := by
  rw [State.memWf_iff] at *
  exact ⟨SMap.wf_putList _ _ _ h.1, SMap.wf_filter _ _ h.2.1, h.2.2⟩

theorem setPoison_memWf (l : Nat) (p : Bool) (s : State) (h : s.memWf = true) : (setPoison l p s).memWf = true := by
  rw [State.memWf_iff] at *
  exact ⟨h.1, SMap.wf_put _ _ _ h.2.1, h.2.2⟩

theorem norProgram_memWf (a : Nat) (bytes : List Byte) (s : State) (h : s.memWf = true) : (norProgram a bytes s).memWf = true := by
  rw [State.memWf_iff] at *
  exact ⟨h.1, h.2.1, h.2.2.1, h.2.2.2.1, wf_programBytes _ _ _ h.2.2.2.2⟩

theorem norErase_memWf (k : Nat) (s : State) (h : s.memWf = true) : (norErase k s).memWf = true := by
  rw [State.memWf_iff] at *
  exact ⟨h.1, h.2.1, h.2.2.1, h.2.2.2.1, SMap.wf_clearRange _ _ _ h.2.2.2.2⟩

theorem putUnitBytes_memWf (u off : Nat) (bytes : List Byte) (s : State) (h : s.memWf = true) :
    (putUnitBytes u off bytes s).memWf = true := by
  rw [State.memWf_iff] at *
  exact ⟨h.1, h.2.1, SMap.wf_putList _ _ _ h.2.2.1, h.2.2.2⟩

theorem putBlock_memWf (v k : Nat) (bytes : List Byte) (chk : Option (BitVec 64)) (s : State) (h : s.memWf = true) :
    (putBlock v k bytes chk s).memWf = true := by
  rw [State.memWf_iff] at *
  exact ⟨h.1, h.2.1, SMap.wf_putList _ _ _ h.2.2.1, SMap.wf_put _ _ _ h.2.2.2.1, h.2.2.2.2⟩

theorem clearUnits_memWf (u n : Nat) (s : State) (h : s.memWf = true) : (clearUnits u n s).memWf = true := by
  rw [State.memWf_iff] at *
  exact ⟨h.1, h.2.1, SMap.wf_clearRange _ _ _ h.2.2.1, SMap.wf_clearRange _ _ _ h.2.2.2.1, h.2.2.2.2⟩

/-- What a reset does to a NOR under erase keeps it. -/
theorem partlyErased_wf (m : Mem) (f : Nat → Byte → Byte) (h : SMap.wf 0xFF m = true) : SMap.wf 0xFF (SMap.mapVals 0xFF f m) = true :=
  SMap.wf_mapVals f m h

/-! ### The memories of the cores -/

/-- An engine's scratchpad and its marks are in canonical form. -/
def Engine.memWf (e : Engine) : Bool := Mem.wf 0 e.scratchpad && SMap.wf false e.bad

/-- A core's engines, SRAM and function scratch are in canonical form. -/
def Core.memWf (c : Core) : Bool :=
  c.engines.all (fun e => e.2.memWf) && Mem.wf 0 c.sram && SMap.wf false c.badSram && Mem.wf 0 c.scratch && SMap.wf false c.badScratch

/-- Every core's memories are in canonical form. -/
def State.fabricWf (s : State) : Bool := s.core.cores.all (fun e => e.2.memWf)

theorem reset_fabricWf : State.reset.fabricWf = true := by decide

/-- A property of every listed value, and of the unlisted one, outlives a change that keeps it. -/
theorem SMap.all_modify {α : Type} [DecidableEq α] (d : α) (m : SMap α) (k : Nat) (f : α → α) (p : α → Bool) (hd : p d = true)
    (hf : ∀ v, p v = true → p (f v) = true) (h : m.all (fun e => p e.2) = true) : (SMap.modify d m k f).all (fun e => p e.2) = true := by
  have hfind : ∀ l : SMap α, l.all (fun e => p e.2) = true → p (SMap.find d l k) = true := by
    intro l hl
    induction l with
    | nil => exact hd
    | cons e l ih =>
      obtain ⟨a, v⟩ := e
      simp only [List.all_cons, Bool.and_eq_true] at hl
      unfold SMap.find
      split
      · exact hl.1
      · exact ih hl.2
  rw [List.all_eq_true] at h ⊢
  intro e he
  unfold SMap.modify SMap.put at he
  rw [SMap.erase_eq_filter] at he
  split at he
  · exact h e (List.mem_of_mem_filter he)
  · rw [SMap.mem_place] at he
    rcases he with rfl | he
    · exact hf _ (hfind m (List.all_eq_true.mpr h))
    · exact h e (List.mem_of_mem_filter he)

theorem modCore_fabricWf (c : Nat) (f : Core → Core) (s : State) (hf : ∀ x : Core, x.memWf = true → (f x).memWf = true)
    (h : s.fabricWf = true) : (modCore c f s).fabricWf = true :=
  SMap.all_modify ({} : Core) s.core.cores c f Core.memWf (by decide) hf h

theorem modEngine_memWf (e : Nat) (f : Engine → Engine) (c : Core) (hf : ∀ x : Engine, x.memWf = true → (f x).memWf = true)
    (h : c.memWf = true) : (modEngine e f c).memWf = true := by
  simp only [Core.memWf, Bool.and_eq_true] at h ⊢
  exact ⟨⟨⟨⟨SMap.all_modify ({} : Engine) c.engines e f Engine.memWf (by decide) hf h.1.1.1.1, h.1.1.1.2⟩, h.1.1.2⟩, h.1.2⟩, h.2⟩

/-- Changing what a partition holds keeps every memory. -/
theorem modPart_fabricWf (q : Seat) (f : Part → Part) (s : State) (h : s.fabricWf = true) : (modPart q f s).fabricWf = true :=
  modCore_fabricWf _ _ _ (fun x hx => modEngine_memWf _ _ x (fun _ hg => hg) hx) h

theorem markWrite_wf (bad : SMap Bool) (a n : Nat) (poison : Bool) (h : SMap.wf false bad = true) :
    SMap.wf false (markWrite bad a n poison) = true := by
  unfold markWrite
  generalize linesOf a n = l
  induction l generalizing bad with
  | nil => exact h
  | cons x l ih =>
    refine ih _ ?_
    dsimp only
    split
    · exact SMap.wf_put _ _ _ h
    · split
      · exact SMap.wf_put _ _ _ h
      · exact h

theorem countDram_cores (q : Seat) (n : Nat) (p : Place) (s : State) : (countDram q n p s).core = s.core := by
  unfold countDram
  split <;> (try split) <;> rfl

/-- A tile's write keeps every memory. -/
theorem writePlace_fabricWf (q : Seat) (bytes : List Byte) (poison : Bool) (dst : Place) (s : State) (h : s.fabricWf = true) :
    (writePlace q bytes poison dst s).fabricWf = true := by
  unfold writePlace
  dsimp only
  split
  · split
    · refine modPart_fabricWf _ _ _ (modCore_fabricWf _ _ _ (fun x hx => modEngine_memWf _ _ x (fun g hg => ?_) hx) h)
      simp only [Engine.memWf, Mem.wf, Bool.and_eq_true] at hg ⊢
      exact ⟨SMap.wf_putList _ _ _ hg.1, markWrite_wf _ _ _ _ hg.2⟩
    · exact h
  · split
    · exact h
    · split
      · refine modPart_fabricWf _ _ _ (modCore_fabricWf _ _ _ (fun x hx => ?_) h)
        simp only [Core.memWf, Mem.wf, Bool.and_eq_true] at hx ⊢
        exact ⟨⟨⟨⟨hx.1.1.1.1, SMap.wf_putList _ _ _ hx.1.1.1.2⟩, markWrite_wf _ _ _ _ hx.1.1.2⟩, hx.1.2⟩, hx.2⟩
      · exact h
  · split
    · exact h
    · split
      · unfold State.fabricWf
        rw [countDram_cores]
        refine modPart_fabricWf _ _ _ (modCore_fabricWf _ _ _ (fun x hx => ?_) h)
        simp only [Core.memWf, Mem.wf, Bool.and_eq_true] at hx ⊢
        exact ⟨⟨⟨⟨hx.1.1.1.1, hx.1.1.1.2⟩, hx.1.1.2⟩, SMap.wf_putList _ _ _ hx.1.2⟩, markWrite_wf _ _ _ _ hx.2⟩
      · exact h
  · exact h

/-- Poison that marks a line keeps every memory. -/
theorem poisonLine_fabricWf (core : Nat) (eng : Option Nat) (base : Nat) (j : Option Job) (l : Nat × Nat) (s : State)
    (h : s.fabricWf = true) : (poisonLine core eng base j l s).fabricWf = true := by
  unfold poisonLine
  split
  · split
    · refine modCore_fabricWf _ _ _ (fun x hx => modEngine_memWf _ _ x (fun g hg => ?_) hx) h
      simp only [Engine.memWf, Bool.and_eq_true] at hg ⊢
      exact ⟨hg.1, SMap.wf_put _ _ _ hg.2⟩
    · exact h
  · split
    · refine modCore_fabricWf _ _ _ (fun x hx => ?_) h
      simp only [Core.memWf, Bool.and_eq_true] at hx ⊢
      exact ⟨⟨⟨⟨hx.1.1.1.1, hx.1.1.1.2⟩, SMap.wf_put _ _ _ hx.1.1.2⟩, hx.1.2⟩, hx.2⟩
    · exact h
  · split
    · refine modCore_fabricWf _ _ _ (fun x hx => ?_) h
      simp only [Core.memWf, Bool.and_eq_true] at hx ⊢
      exact ⟨⟨⟨⟨hx.1.1.1.1, hx.1.1.1.2⟩, hx.1.1.2⟩, hx.1.2⟩, SMap.wf_put _ _ _ hx.2⟩
    · exact h

/-- Restored bytes keep the scratchpad's form. -/
theorem restoreBytes_memWf (v : Saved) (g : Engine) (h : g.memWf = true) : (restoreBytes v g).memWf = true := by
  simp only [Engine.memWf, Mem.wf, Bool.and_eq_true] at h ⊢
  have hc : ∀ (ps : List Part) (m : Mem), SMap.wf (0 : Byte) m = true →
      SMap.wf (0 : Byte) (ps.foldl (fun (m : Mem) p => match p.tile with
        | some x => SMap.clearRange m p.base x.live
        | none => m) m) = true := by
    intro ps
    induction ps with
    | nil => intro m hm; exact hm
    | cons p ps ih =>
      intro m hm
      refine ih _ ?_
      dsimp only
      split
      · exact SMap.wf_clearRange _ _ _ hm
      · exact hm
  have hp : ∀ (es : Mem) (m : Mem), SMap.wf (0 : Byte) m = true → SMap.wf (0 : Byte) (es.foldl (fun m e => SMap.put 0 m e.1 e.2) m) = true := by
    intro es
    induction es with
    | nil => intro m hm; exact hm
    | cons e es ih => intro m hm; exact ih _ (SMap.wf_put _ _ _ hm)
  have hb : ∀ (es : SMap Bool) (m : SMap Bool), SMap.wf false m = true →
      SMap.wf false (es.foldl (fun m e => SMap.put false m e.1 e.2) m) = true := by
    intro es
    induction es with
    | nil => intro m hm; exact hm
    | cons e es ih => intro m hm; exact ih _ (SMap.wf_put _ _ _ hm)
  exact ⟨hp _ _ (hc _ _ h.1), hb _ _ h.2⟩

/-- An engine-level save keeps the core's memories. -/
theorem saveWork_memWf (eng : Nat) (c : Core) (h : c.memWf = true) : (saveWork eng c).memWf = true :=
  modEngine_memWf _ _ _ (fun _ hg => hg) h

/-! ### Read after write -/

@[simp] theorem tunRead_tunWrite_self (a : Nat) (bytes : List Byte) (s : State) : tunRead (tunWrite a bytes s) a bytes.length = bytes :=
  SMap.getList_putList bytes s.tun.mem a

/-- A byte outside the written range reads as before. -/
theorem tun_byte_outside (a b : Nat) (bytes : List Byte) (s : State) (h : b < a ∨ a + bytes.length ≤ b) :
    SMap.find 0 (tunWrite a bytes s).tun.mem b = SMap.find 0 s.tun.mem b := SMap.find_putList_outside bytes s.tun.mem a b h

@[simp] theorem unitBytes_putUnitBytes_self (u off : Nat) (bytes : List Byte) (s : State) :
    unitBytes (putUnitBytes u off bytes s) u off bytes.length = bytes := SMap.getList_putList bytes s.fl.data _

/-- A byte outside the written range of the flash content reads as before. -/
theorem fl_byte_outside (u off b : Nat) (bytes : List Byte) (s : State) (h : b < u * 16384 + off ∨ u * 16384 + off + bytes.length ≤ b) :
    SMap.find 0 (putUnitBytes u off bytes s).fl.data b = SMap.find 0 s.fl.data b := SMap.find_putList_outside bytes s.fl.data _ b h

/-- A byte outside the programmed range of the NOR reads as before. -/
theorem find_programBytes_outside (bs : List Byte) (a b : Nat) (m : Mem) (h : b < a ∨ a + bs.length ≤ b) :
    SMap.find 0xFF (programBytes a bs m) b = SMap.find 0xFF m b := by
  induction bs generalizing a m with
  | nil => rfl
  | cons x bs ih =>
    simp only [List.length_cons] at h
    rw [programBytes, ih _ _ (by omega), SMap.find_put_other _ _ _ _ (by omega)]

/-- A programmed byte is the old byte with its cleared bits cleared (14 R409). -/
theorem find_programBytes_inside (bs : List Byte) (a i : Nat) (m : Mem) (h : i < bs.length) :
    SMap.find 0xFF (programBytes a bs m) (a + i) = SMap.find 0xFF m (a + i) &&& bs.getD i 0 := by
  induction bs generalizing a m i with
  | nil => simp at h
  | cons x bs ih =>
    cases i with
    | zero => rw [programBytes, find_programBytes_outside _ _ _ _ (by omega)]; simp
    | succ i =>
      have := ih (a + 1) i (SMap.put 0xFF m a (SMap.find 0xFF m a &&& x)) (by simpa using h)
      rw [show a + (i + 1) = a + 1 + i by omega, programBytes, this, SMap.find_put_other _ _ _ _ (by omega)]
      simp

end Sys2Proof.Machine
end

