-- ==== Sys2Proof/Laws/State.lean ====
section
/-! SUPPORT. What each named update of the state leaves in each field: one lemma per field per update, true by computation, so that no
later proof unfolds a record update. -/
namespace Sys2Proof.Machine

/-! ### emit -/

@[simp] theorem emit_pending (o : Out) (s : State) : (emit o s).pending = s.pending := rfl
@[simp] theorem emit_outbox (o : Out) (s : State) : (emit o s).outbox = s.outbox ++ [o] := rfl
@[simp] theorem emit_freeCount (o : Out) (s : State) : (emit o s).freeCount = s.freeCount := rfl
@[simp] theorem emit_aon (o : Out) (s : State) : (emit o s).aon = s.aon := rfl
@[simp] theorem emit_boot (o : Out) (s : State) : (emit o s).boot = s.boot := rfl
@[simp] theorem emit_isl (o : Out) (s : State) : (emit o s).isl = s.isl := rfl
@[simp] theorem emit_link (o : Out) (s : State) : (emit o s).link = s.link := rfl
@[simp] theorem emit_tun (o : Out) (s : State) : (emit o s).tun = s.tun := rfl
@[simp] theorem emit_trs (o : Out) (s : State) : (emit o s).trs = s.trs := rfl
@[simp] theorem emit_cmd (o : Out) (s : State) : (emit o s).cmd = s.cmd := rfl
@[simp] theorem emit_pol (o : Out) (s : State) : (emit o s).pol = s.pol := rfl
@[simp] theorem emit_ctx (o : Out) (s : State) : (emit o s).ctx = s.ctx := rfl
@[simp] theorem emit_tier (o : Out) (s : State) : (emit o s).tier = s.tier := rfl
@[simp] theorem emit_coll (o : Out) (s : State) : (emit o s).coll = s.coll := rfl
@[simp] theorem emit_heat (o : Out) (s : State) : (emit o s).heat = s.heat := rfl
@[simp] theorem emit_fl (o : Out) (s : State) : (emit o s).fl = s.fl := rfl
@[simp] theorem emit_core (o : Out) (s : State) : (emit o s).core = s.core := rfl
@[simp] theorem emit_integ (o : Out) (s : State) : (emit o s).integ = s.integ := rfl
@[simp] theorem emit_nor (o : Out) (s : State) : (emit o s).nor = s.nor := rfl
@[simp] theorem emit_gov (o : Out) (s : State) : (emit o s).gov = s.gov := rfl
@[simp] theorem emit_tele (o : Out) (s : State) : (emit o s).tele = s.tele := rfl

/-! ### emitAll -/

@[simp] theorem emitAll_pending (os : List Out) (s : State) : (emitAll os s).pending = s.pending := rfl
@[simp] theorem emitAll_outbox (os : List Out) (s : State) : (emitAll os s).outbox = s.outbox ++ os := rfl
@[simp] theorem emitAll_freeCount (os : List Out) (s : State) : (emitAll os s).freeCount = s.freeCount := rfl
@[simp] theorem emitAll_aon (os : List Out) (s : State) : (emitAll os s).aon = s.aon := rfl
@[simp] theorem emitAll_boot (os : List Out) (s : State) : (emitAll os s).boot = s.boot := rfl
@[simp] theorem emitAll_isl (os : List Out) (s : State) : (emitAll os s).isl = s.isl := rfl
@[simp] theorem emitAll_link (os : List Out) (s : State) : (emitAll os s).link = s.link := rfl
@[simp] theorem emitAll_tun (os : List Out) (s : State) : (emitAll os s).tun = s.tun := rfl
@[simp] theorem emitAll_trs (os : List Out) (s : State) : (emitAll os s).trs = s.trs := rfl
@[simp] theorem emitAll_cmd (os : List Out) (s : State) : (emitAll os s).cmd = s.cmd := rfl
@[simp] theorem emitAll_pol (os : List Out) (s : State) : (emitAll os s).pol = s.pol := rfl
@[simp] theorem emitAll_ctx (os : List Out) (s : State) : (emitAll os s).ctx = s.ctx := rfl
@[simp] theorem emitAll_tier (os : List Out) (s : State) : (emitAll os s).tier = s.tier := rfl
@[simp] theorem emitAll_coll (os : List Out) (s : State) : (emitAll os s).coll = s.coll := rfl
@[simp] theorem emitAll_heat (os : List Out) (s : State) : (emitAll os s).heat = s.heat := rfl
@[simp] theorem emitAll_fl (os : List Out) (s : State) : (emitAll os s).fl = s.fl := rfl
@[simp] theorem emitAll_core (os : List Out) (s : State) : (emitAll os s).core = s.core := rfl
@[simp] theorem emitAll_integ (os : List Out) (s : State) : (emitAll os s).integ = s.integ := rfl
@[simp] theorem emitAll_nor (os : List Out) (s : State) : (emitAll os s).nor = s.nor := rfl
@[simp] theorem emitAll_gov (os : List Out) (s : State) : (emitAll os s).gov = s.gov := rfl
@[simp] theorem emitAll_tele (os : List Out) (s : State) : (emitAll os s).tele = s.tele := rfl

/-! ### drawn -/

@[simp] theorem drawn_pending (n : Nat) (s : State) : (drawn n s).pending = s.pending := rfl
@[simp] theorem drawn_outbox (n : Nat) (s : State) : (drawn n s).outbox = s.outbox := rfl
@[simp] theorem drawn_freeCount (n : Nat) (s : State) : (drawn n s).freeCount = s.freeCount + n := rfl
@[simp] theorem drawn_aon (n : Nat) (s : State) : (drawn n s).aon = s.aon := rfl
@[simp] theorem drawn_boot (n : Nat) (s : State) : (drawn n s).boot = s.boot := rfl
@[simp] theorem drawn_isl (n : Nat) (s : State) : (drawn n s).isl = s.isl := rfl
@[simp] theorem drawn_link (n : Nat) (s : State) : (drawn n s).link = s.link := rfl
@[simp] theorem drawn_tun (n : Nat) (s : State) : (drawn n s).tun = s.tun := rfl
@[simp] theorem drawn_trs (n : Nat) (s : State) : (drawn n s).trs = s.trs := rfl
@[simp] theorem drawn_cmd (n : Nat) (s : State) : (drawn n s).cmd = s.cmd := rfl
@[simp] theorem drawn_pol (n : Nat) (s : State) : (drawn n s).pol = s.pol := rfl
@[simp] theorem drawn_ctx (n : Nat) (s : State) : (drawn n s).ctx = s.ctx := rfl
@[simp] theorem drawn_tier (n : Nat) (s : State) : (drawn n s).tier = s.tier := rfl
@[simp] theorem drawn_coll (n : Nat) (s : State) : (drawn n s).coll = s.coll := rfl
@[simp] theorem drawn_heat (n : Nat) (s : State) : (drawn n s).heat = s.heat := rfl
@[simp] theorem drawn_fl (n : Nat) (s : State) : (drawn n s).fl = s.fl := rfl
@[simp] theorem drawn_core (n : Nat) (s : State) : (drawn n s).core = s.core := rfl
@[simp] theorem drawn_integ (n : Nat) (s : State) : (drawn n s).integ = s.integ := rfl
@[simp] theorem drawn_nor (n : Nat) (s : State) : (drawn n s).nor = s.nor := rfl
@[simp] theorem drawn_gov (n : Nat) (s : State) : (drawn n s).gov = s.gov := rfl
@[simp] theorem drawn_tele (n : Nat) (s : State) : (drawn n s).tele = s.tele := rfl

/-! ### bump -/

@[simp] theorem bump_pending (k i n : Nat) (s : State) : (bump k i n s).pending = s.pending := rfl
@[simp] theorem bump_outbox (k i n : Nat) (s : State) : (bump k i n s).outbox = s.outbox := rfl
@[simp] theorem bump_freeCount (k i n : Nat) (s : State) : (bump k i n s).freeCount = s.freeCount := rfl
@[simp] theorem bump_aon (k i n : Nat) (s : State) : (bump k i n s).aon = s.aon := rfl
@[simp] theorem bump_boot (k i n : Nat) (s : State) : (bump k i n s).boot = s.boot := rfl
@[simp] theorem bump_isl (k i n : Nat) (s : State) : (bump k i n s).isl = s.isl := rfl
@[simp] theorem bump_link (k i n : Nat) (s : State) : (bump k i n s).link = s.link := rfl
@[simp] theorem bump_tun (k i n : Nat) (s : State) : (bump k i n s).tun = s.tun := rfl
@[simp] theorem bump_trs (k i n : Nat) (s : State) : (bump k i n s).trs = s.trs := rfl
@[simp] theorem bump_cmd (k i n : Nat) (s : State) : (bump k i n s).cmd = s.cmd := rfl
@[simp] theorem bump_pol (k i n : Nat) (s : State) : (bump k i n s).pol = s.pol := rfl
@[simp] theorem bump_ctx (k i n : Nat) (s : State) : (bump k i n s).ctx = s.ctx := rfl
@[simp] theorem bump_tier (k i n : Nat) (s : State) : (bump k i n s).tier = s.tier := rfl
@[simp] theorem bump_coll (k i n : Nat) (s : State) : (bump k i n s).coll = s.coll := rfl
@[simp] theorem bump_heat (k i n : Nat) (s : State) : (bump k i n s).heat = s.heat := rfl
@[simp] theorem bump_fl (k i n : Nat) (s : State) : (bump k i n s).fl = s.fl := rfl
@[simp] theorem bump_core (k i n : Nat) (s : State) : (bump k i n s).core = s.core := rfl
@[simp] theorem bump_integ (k i n : Nat) (s : State) : (bump k i n s).integ = s.integ := rfl
@[simp] theorem bump_nor (k i n : Nat) (s : State) : (bump k i n s).nor = s.nor := rfl
@[simp] theorem bump_gov (k i n : Nat) (s : State) : (bump k i n s).gov = s.gov := rfl
@[simp] theorem bump_tele (k i n : Nat) (s : State) : (bump k i n s).tele = { s.tele with counters := SMap.modify 0 s.tele.counters (k * 65536 + i) (· + BitVec.ofNat 64 n) } := rfl

/-! ### setVec -/

@[simp] theorem setVec_pending (v : Nat) (x : Vec) (s : State) : (setVec v x s).pending = s.pending := rfl
@[simp] theorem setVec_outbox (v : Nat) (x : Vec) (s : State) : (setVec v x s).outbox = s.outbox := rfl
@[simp] theorem setVec_freeCount (v : Nat) (x : Vec) (s : State) : (setVec v x s).freeCount = s.freeCount := rfl
@[simp] theorem setVec_aon (v : Nat) (x : Vec) (s : State) : (setVec v x s).aon = s.aon := rfl
@[simp] theorem setVec_boot (v : Nat) (x : Vec) (s : State) : (setVec v x s).boot = s.boot := rfl
@[simp] theorem setVec_isl (v : Nat) (x : Vec) (s : State) : (setVec v x s).isl = s.isl := rfl
@[simp] theorem setVec_link (v : Nat) (x : Vec) (s : State) : (setVec v x s).link = { s.link with vec := SMap.put {} s.link.vec v x } := rfl
@[simp] theorem setVec_tun (v : Nat) (x : Vec) (s : State) : (setVec v x s).tun = s.tun := rfl
@[simp] theorem setVec_trs (v : Nat) (x : Vec) (s : State) : (setVec v x s).trs = s.trs := rfl
@[simp] theorem setVec_cmd (v : Nat) (x : Vec) (s : State) : (setVec v x s).cmd = s.cmd := rfl
@[simp] theorem setVec_pol (v : Nat) (x : Vec) (s : State) : (setVec v x s).pol = s.pol := rfl
@[simp] theorem setVec_ctx (v : Nat) (x : Vec) (s : State) : (setVec v x s).ctx = s.ctx := rfl
@[simp] theorem setVec_tier (v : Nat) (x : Vec) (s : State) : (setVec v x s).tier = s.tier := rfl
@[simp] theorem setVec_coll (v : Nat) (x : Vec) (s : State) : (setVec v x s).coll = s.coll := rfl
@[simp] theorem setVec_heat (v : Nat) (x : Vec) (s : State) : (setVec v x s).heat = s.heat := rfl
@[simp] theorem setVec_fl (v : Nat) (x : Vec) (s : State) : (setVec v x s).fl = s.fl := rfl
@[simp] theorem setVec_core (v : Nat) (x : Vec) (s : State) : (setVec v x s).core = s.core := rfl
@[simp] theorem setVec_integ (v : Nat) (x : Vec) (s : State) : (setVec v x s).integ = s.integ := rfl
@[simp] theorem setVec_nor (v : Nat) (x : Vec) (s : State) : (setVec v x s).nor = s.nor := rfl
@[simp] theorem setVec_gov (v : Nat) (x : Vec) (s : State) : (setVec v x s).gov = s.gov := rfl
@[simp] theorem setVec_tele (v : Nat) (x : Vec) (s : State) : (setVec v x s).tele = s.tele := rfl

/-! ### setTrs -/

@[simp] theorem setTrs_pending (t : Nat) (p : Trs) (s : State) : (setTrs t p s).pending = s.pending := rfl
@[simp] theorem setTrs_outbox (t : Nat) (p : Trs) (s : State) : (setTrs t p s).outbox = s.outbox := rfl
@[simp] theorem setTrs_freeCount (t : Nat) (p : Trs) (s : State) : (setTrs t p s).freeCount = s.freeCount := rfl
@[simp] theorem setTrs_aon (t : Nat) (p : Trs) (s : State) : (setTrs t p s).aon = s.aon := rfl
@[simp] theorem setTrs_boot (t : Nat) (p : Trs) (s : State) : (setTrs t p s).boot = s.boot := rfl
@[simp] theorem setTrs_isl (t : Nat) (p : Trs) (s : State) : (setTrs t p s).isl = s.isl := rfl
@[simp] theorem setTrs_link (t : Nat) (p : Trs) (s : State) : (setTrs t p s).link = s.link := rfl
@[simp] theorem setTrs_tun (t : Nat) (p : Trs) (s : State) : (setTrs t p s).tun = s.tun := rfl
@[simp] theorem setTrs_trs (t : Nat) (p : Trs) (s : State) : (setTrs t p s).trs = SMap.put {} s.trs t p := rfl
@[simp] theorem setTrs_cmd (t : Nat) (p : Trs) (s : State) : (setTrs t p s).cmd = s.cmd := rfl
@[simp] theorem setTrs_pol (t : Nat) (p : Trs) (s : State) : (setTrs t p s).pol = s.pol := rfl
@[simp] theorem setTrs_ctx (t : Nat) (p : Trs) (s : State) : (setTrs t p s).ctx = s.ctx := rfl
@[simp] theorem setTrs_tier (t : Nat) (p : Trs) (s : State) : (setTrs t p s).tier = s.tier := rfl
@[simp] theorem setTrs_coll (t : Nat) (p : Trs) (s : State) : (setTrs t p s).coll = s.coll := rfl
@[simp] theorem setTrs_heat (t : Nat) (p : Trs) (s : State) : (setTrs t p s).heat = s.heat := rfl
@[simp] theorem setTrs_fl (t : Nat) (p : Trs) (s : State) : (setTrs t p s).fl = s.fl := rfl
@[simp] theorem setTrs_core (t : Nat) (p : Trs) (s : State) : (setTrs t p s).core = s.core := rfl
@[simp] theorem setTrs_integ (t : Nat) (p : Trs) (s : State) : (setTrs t p s).integ = s.integ := rfl
@[simp] theorem setTrs_nor (t : Nat) (p : Trs) (s : State) : (setTrs t p s).nor = s.nor := rfl
@[simp] theorem setTrs_gov (t : Nat) (p : Trs) (s : State) : (setTrs t p s).gov = s.gov := rfl
@[simp] theorem setTrs_tele (t : Nat) (p : Trs) (s : State) : (setTrs t p s).tele = s.tele := rfl

/-! ### modTrs -/

@[simp] theorem modTrs_pending (t : Nat) (f : Trs → Trs) (s : State) : (modTrs t f s).pending = s.pending := rfl
@[simp] theorem modTrs_outbox (t : Nat) (f : Trs → Trs) (s : State) : (modTrs t f s).outbox = s.outbox := rfl
@[simp] theorem modTrs_freeCount (t : Nat) (f : Trs → Trs) (s : State) : (modTrs t f s).freeCount = s.freeCount := rfl
@[simp] theorem modTrs_aon (t : Nat) (f : Trs → Trs) (s : State) : (modTrs t f s).aon = s.aon := rfl
@[simp] theorem modTrs_boot (t : Nat) (f : Trs → Trs) (s : State) : (modTrs t f s).boot = s.boot := rfl
@[simp] theorem modTrs_isl (t : Nat) (f : Trs → Trs) (s : State) : (modTrs t f s).isl = s.isl := rfl
@[simp] theorem modTrs_link (t : Nat) (f : Trs → Trs) (s : State) : (modTrs t f s).link = s.link := rfl
@[simp] theorem modTrs_tun (t : Nat) (f : Trs → Trs) (s : State) : (modTrs t f s).tun = s.tun := rfl
@[simp] theorem modTrs_trs (t : Nat) (f : Trs → Trs) (s : State) : (modTrs t f s).trs = SMap.put {} s.trs t (f (getTrs s t)) := rfl
@[simp] theorem modTrs_cmd (t : Nat) (f : Trs → Trs) (s : State) : (modTrs t f s).cmd = s.cmd := rfl
@[simp] theorem modTrs_pol (t : Nat) (f : Trs → Trs) (s : State) : (modTrs t f s).pol = s.pol := rfl
@[simp] theorem modTrs_ctx (t : Nat) (f : Trs → Trs) (s : State) : (modTrs t f s).ctx = s.ctx := rfl
@[simp] theorem modTrs_tier (t : Nat) (f : Trs → Trs) (s : State) : (modTrs t f s).tier = s.tier := rfl
@[simp] theorem modTrs_coll (t : Nat) (f : Trs → Trs) (s : State) : (modTrs t f s).coll = s.coll := rfl
@[simp] theorem modTrs_heat (t : Nat) (f : Trs → Trs) (s : State) : (modTrs t f s).heat = s.heat := rfl
@[simp] theorem modTrs_fl (t : Nat) (f : Trs → Trs) (s : State) : (modTrs t f s).fl = s.fl := rfl
@[simp] theorem modTrs_core (t : Nat) (f : Trs → Trs) (s : State) : (modTrs t f s).core = s.core := rfl
@[simp] theorem modTrs_integ (t : Nat) (f : Trs → Trs) (s : State) : (modTrs t f s).integ = s.integ := rfl
@[simp] theorem modTrs_nor (t : Nat) (f : Trs → Trs) (s : State) : (modTrs t f s).nor = s.nor := rfl
@[simp] theorem modTrs_gov (t : Nat) (f : Trs → Trs) (s : State) : (modTrs t f s).gov = s.gov := rfl
@[simp] theorem modTrs_tele (t : Nat) (f : Trs → Trs) (s : State) : (modTrs t f s).tele = s.tele := rfl

/-! ### tunWrite -/

@[simp] theorem tunWrite_pending (a : Nat) (bs : List Byte) (s : State) : (tunWrite a bs s).pending = s.pending := rfl
@[simp] theorem tunWrite_outbox (a : Nat) (bs : List Byte) (s : State) : (tunWrite a bs s).outbox = s.outbox := rfl
@[simp] theorem tunWrite_freeCount (a : Nat) (bs : List Byte) (s : State) : (tunWrite a bs s).freeCount = s.freeCount := rfl
@[simp] theorem tunWrite_aon (a : Nat) (bs : List Byte) (s : State) : (tunWrite a bs s).aon = s.aon := rfl
@[simp] theorem tunWrite_boot (a : Nat) (bs : List Byte) (s : State) : (tunWrite a bs s).boot = s.boot := rfl
@[simp] theorem tunWrite_isl (a : Nat) (bs : List Byte) (s : State) : (tunWrite a bs s).isl = s.isl := rfl
@[simp] theorem tunWrite_link (a : Nat) (bs : List Byte) (s : State) : (tunWrite a bs s).link = s.link := rfl
@[simp] theorem tunWrite_trs (a : Nat) (bs : List Byte) (s : State) : (tunWrite a bs s).trs = s.trs := rfl
@[simp] theorem tunWrite_cmd (a : Nat) (bs : List Byte) (s : State) : (tunWrite a bs s).cmd = s.cmd := rfl
@[simp] theorem tunWrite_pol (a : Nat) (bs : List Byte) (s : State) : (tunWrite a bs s).pol = s.pol := rfl
@[simp] theorem tunWrite_ctx (a : Nat) (bs : List Byte) (s : State) : (tunWrite a bs s).ctx = s.ctx := rfl
@[simp] theorem tunWrite_tier (a : Nat) (bs : List Byte) (s : State) : (tunWrite a bs s).tier = s.tier := rfl
@[simp] theorem tunWrite_coll (a : Nat) (bs : List Byte) (s : State) : (tunWrite a bs s).coll = s.coll := rfl
@[simp] theorem tunWrite_heat (a : Nat) (bs : List Byte) (s : State) : (tunWrite a bs s).heat = s.heat := rfl
@[simp] theorem tunWrite_fl (a : Nat) (bs : List Byte) (s : State) : (tunWrite a bs s).fl = s.fl := rfl
@[simp] theorem tunWrite_core (a : Nat) (bs : List Byte) (s : State) : (tunWrite a bs s).core = s.core := rfl
@[simp] theorem tunWrite_integ (a : Nat) (bs : List Byte) (s : State) : (tunWrite a bs s).integ = s.integ := rfl
@[simp] theorem tunWrite_nor (a : Nat) (bs : List Byte) (s : State) : (tunWrite a bs s).nor = s.nor := rfl
@[simp] theorem tunWrite_gov (a : Nat) (bs : List Byte) (s : State) : (tunWrite a bs s).gov = s.gov := rfl
@[simp] theorem tunWrite_tele (a : Nat) (bs : List Byte) (s : State) : (tunWrite a bs s).tele = s.tele := rfl

/-! ### setPoison -/

@[simp] theorem setPoison_pending (l : Nat) (p : Bool) (s : State) : (setPoison l p s).pending = s.pending := rfl
@[simp] theorem setPoison_outbox (l : Nat) (p : Bool) (s : State) : (setPoison l p s).outbox = s.outbox := rfl
@[simp] theorem setPoison_freeCount (l : Nat) (p : Bool) (s : State) : (setPoison l p s).freeCount = s.freeCount := rfl
@[simp] theorem setPoison_aon (l : Nat) (p : Bool) (s : State) : (setPoison l p s).aon = s.aon := rfl
@[simp] theorem setPoison_boot (l : Nat) (p : Bool) (s : State) : (setPoison l p s).boot = s.boot := rfl
@[simp] theorem setPoison_isl (l : Nat) (p : Bool) (s : State) : (setPoison l p s).isl = s.isl := rfl
@[simp] theorem setPoison_link (l : Nat) (p : Bool) (s : State) : (setPoison l p s).link = s.link := rfl
@[simp] theorem setPoison_tun (l : Nat) (p : Bool) (s : State) : (setPoison l p s).tun = { s.tun with poison := SMap.put false s.tun.poison l p } := rfl
@[simp] theorem setPoison_trs (l : Nat) (p : Bool) (s : State) : (setPoison l p s).trs = s.trs := rfl
@[simp] theorem setPoison_cmd (l : Nat) (p : Bool) (s : State) : (setPoison l p s).cmd = s.cmd := rfl
@[simp] theorem setPoison_pol (l : Nat) (p : Bool) (s : State) : (setPoison l p s).pol = s.pol := rfl
@[simp] theorem setPoison_ctx (l : Nat) (p : Bool) (s : State) : (setPoison l p s).ctx = s.ctx := rfl
@[simp] theorem setPoison_tier (l : Nat) (p : Bool) (s : State) : (setPoison l p s).tier = s.tier := rfl
@[simp] theorem setPoison_coll (l : Nat) (p : Bool) (s : State) : (setPoison l p s).coll = s.coll := rfl
@[simp] theorem setPoison_heat (l : Nat) (p : Bool) (s : State) : (setPoison l p s).heat = s.heat := rfl
@[simp] theorem setPoison_fl (l : Nat) (p : Bool) (s : State) : (setPoison l p s).fl = s.fl := rfl
@[simp] theorem setPoison_core (l : Nat) (p : Bool) (s : State) : (setPoison l p s).core = s.core := rfl
@[simp] theorem setPoison_integ (l : Nat) (p : Bool) (s : State) : (setPoison l p s).integ = s.integ := rfl
@[simp] theorem setPoison_nor (l : Nat) (p : Bool) (s : State) : (setPoison l p s).nor = s.nor := rfl
@[simp] theorem setPoison_gov (l : Nat) (p : Bool) (s : State) : (setPoison l p s).gov = s.gov := rfl
@[simp] theorem setPoison_tele (l : Nat) (p : Bool) (s : State) : (setPoison l p s).tele = s.tele := rfl

/-! ### refuseWrite -/

@[simp] theorem refuseWrite_pending (s : State) : (refuseWrite s).pending = s.pending := rfl
@[simp] theorem refuseWrite_outbox (s : State) : (refuseWrite s).outbox = s.outbox := rfl
@[simp] theorem refuseWrite_freeCount (s : State) : (refuseWrite s).freeCount = s.freeCount := rfl
@[simp] theorem refuseWrite_aon (s : State) : (refuseWrite s).aon = s.aon := rfl
@[simp] theorem refuseWrite_boot (s : State) : (refuseWrite s).boot = s.boot := rfl
@[simp] theorem refuseWrite_isl (s : State) : (refuseWrite s).isl = s.isl := rfl
@[simp] theorem refuseWrite_link (s : State) : (refuseWrite s).link = aerLog 0x100000 0x2000 s.link := rfl
@[simp] theorem refuseWrite_tun (s : State) : (refuseWrite s).tun = s.tun := rfl
@[simp] theorem refuseWrite_trs (s : State) : (refuseWrite s).trs = s.trs := rfl
@[simp] theorem refuseWrite_cmd (s : State) : (refuseWrite s).cmd = s.cmd := rfl
@[simp] theorem refuseWrite_pol (s : State) : (refuseWrite s).pol = s.pol := rfl
@[simp] theorem refuseWrite_ctx (s : State) : (refuseWrite s).ctx = s.ctx := rfl
@[simp] theorem refuseWrite_tier (s : State) : (refuseWrite s).tier = s.tier := rfl
@[simp] theorem refuseWrite_coll (s : State) : (refuseWrite s).coll = s.coll := rfl
@[simp] theorem refuseWrite_heat (s : State) : (refuseWrite s).heat = s.heat := rfl
@[simp] theorem refuseWrite_fl (s : State) : (refuseWrite s).fl = s.fl := rfl
@[simp] theorem refuseWrite_core (s : State) : (refuseWrite s).core = s.core := rfl
@[simp] theorem refuseWrite_integ (s : State) : (refuseWrite s).integ = s.integ := rfl
@[simp] theorem refuseWrite_nor (s : State) : (refuseWrite s).nor = s.nor := rfl
@[simp] theorem refuseWrite_gov (s : State) : (refuseWrite s).gov = s.gov := rfl

/-! ### refuseRead -/

@[simp] theorem refuseRead_pending (s : State) : (refuseRead s).pending = s.pending := rfl
@[simp] theorem refuseRead_outbox (s : State) : (refuseRead s).outbox = s.outbox ++ [.ur] := rfl
@[simp] theorem refuseRead_freeCount (s : State) : (refuseRead s).freeCount = s.freeCount := rfl
@[simp] theorem refuseRead_aon (s : State) : (refuseRead s).aon = s.aon := rfl
@[simp] theorem refuseRead_boot (s : State) : (refuseRead s).boot = s.boot := rfl
@[simp] theorem refuseRead_isl (s : State) : (refuseRead s).isl = s.isl := rfl
@[simp] theorem refuseRead_link (s : State) : (refuseRead s).link = s.link := rfl
@[simp] theorem refuseRead_tun (s : State) : (refuseRead s).tun = s.tun := rfl
@[simp] theorem refuseRead_trs (s : State) : (refuseRead s).trs = s.trs := rfl
@[simp] theorem refuseRead_cmd (s : State) : (refuseRead s).cmd = s.cmd := rfl
@[simp] theorem refuseRead_pol (s : State) : (refuseRead s).pol = s.pol := rfl
@[simp] theorem refuseRead_ctx (s : State) : (refuseRead s).ctx = s.ctx := rfl
@[simp] theorem refuseRead_tier (s : State) : (refuseRead s).tier = s.tier := rfl
@[simp] theorem refuseRead_coll (s : State) : (refuseRead s).coll = s.coll := rfl
@[simp] theorem refuseRead_heat (s : State) : (refuseRead s).heat = s.heat := rfl
@[simp] theorem refuseRead_fl (s : State) : (refuseRead s).fl = s.fl := rfl
@[simp] theorem refuseRead_core (s : State) : (refuseRead s).core = s.core := rfl
@[simp] theorem refuseRead_integ (s : State) : (refuseRead s).integ = s.integ := rfl
@[simp] theorem refuseRead_nor (s : State) : (refuseRead s).nor = s.nor := rfl
@[simp] theorem refuseRead_gov (s : State) : (refuseRead s).gov = s.gov := rfl

end Sys2Proof.Machine
end

