-- ==== Sys2Proof/Laws/Ops.lean ====
section
/-! SUPPORT. What each larger shared operation can change: one lemma per field that it leaves alone, and what the fence keeps. -/
namespace Sys2Proof.Machine

/-! ### idleCycle. A crystal cycle changes the timebase, the engines and the pages' CURRENT sets at most. -/

theorem foldl_addCurrent_frame {α : Type} (p : α → Nat) (f : α → CtrSet → CtrSet) (l : List α) (s : State) :
    ∃ m, l.foldl (fun s' w => addCurrent (p w) (f w) s') s = { s with trs := m } := by
  induction l generalizing s with
  | nil => exact ⟨s.trs, rfl⟩
  | cons w l ih =>
    obtain ⟨m, hm⟩ := ih (addCurrent (p w) (f w) s)
    exact ⟨m, hm⟩

theorem countEngines_frame (s : State) : ∃ m k, countEngines s = { s with trs := m, core := { s.core with cores := k } } := by
  obtain ⟨m, hm⟩ := foldl_addCurrent_frame (fun w : Nat × Nat => w.1)
    (fun w c => { c with engCycles := c.engCycles + BitVec.ofNat 64 w.2 }) (busyWork s) s
  refine ⟨m, (countEngines s).core.cores, ?_⟩
  unfold countEngines
  simp only [hm]

theorem idleCycle_frame (s : State) :
    ∃ a m k, idleCycle s = { s with aon := { s.aon with timebase := a }, trs := m, core := { s.core with cores := k } } := by
  unfold idleCycle
  split
  · split
    · obtain ⟨m, k, h⟩ := countEngines_frame s
      exact ⟨_, m, k, by rw [h]⟩
    · exact ⟨_, s.trs, s.core.cores, rfl⟩
  · exact ⟨s.aon.timebase, s.trs, s.core.cores, rfl⟩

/-! ### modHeld. Changing a held command changes a TRS page. -/

@[simp] theorem modHeld_pending (t id : Nat) (f : Held → Held) (s : State) : (modHeld t id f s).pending = s.pending := rfl
@[simp] theorem modHeld_outbox (t id : Nat) (f : Held → Held) (s : State) : (modHeld t id f s).outbox = s.outbox := rfl
@[simp] theorem modHeld_freeCount (t id : Nat) (f : Held → Held) (s : State) : (modHeld t id f s).freeCount = s.freeCount := rfl
@[simp] theorem modHeld_aon (t id : Nat) (f : Held → Held) (s : State) : (modHeld t id f s).aon = s.aon := rfl
@[simp] theorem modHeld_boot (t id : Nat) (f : Held → Held) (s : State) : (modHeld t id f s).boot = s.boot := rfl
@[simp] theorem modHeld_isl (t id : Nat) (f : Held → Held) (s : State) : (modHeld t id f s).isl = s.isl := rfl
@[simp] theorem modHeld_link (t id : Nat) (f : Held → Held) (s : State) : (modHeld t id f s).link = s.link := rfl
@[simp] theorem modHeld_tun (t id : Nat) (f : Held → Held) (s : State) : (modHeld t id f s).tun = s.tun := rfl
@[simp] theorem modHeld_cmd (t id : Nat) (f : Held → Held) (s : State) : (modHeld t id f s).cmd = s.cmd := rfl
@[simp] theorem modHeld_pol (t id : Nat) (f : Held → Held) (s : State) : (modHeld t id f s).pol = s.pol := rfl
@[simp] theorem modHeld_ctx (t id : Nat) (f : Held → Held) (s : State) : (modHeld t id f s).ctx = s.ctx := rfl
@[simp] theorem modHeld_tier (t id : Nat) (f : Held → Held) (s : State) : (modHeld t id f s).tier = s.tier := rfl
@[simp] theorem modHeld_coll (t id : Nat) (f : Held → Held) (s : State) : (modHeld t id f s).coll = s.coll := rfl
@[simp] theorem modHeld_heat (t id : Nat) (f : Held → Held) (s : State) : (modHeld t id f s).heat = s.heat := rfl
@[simp] theorem modHeld_fl (t id : Nat) (f : Held → Held) (s : State) : (modHeld t id f s).fl = s.fl := rfl
@[simp] theorem modHeld_core (t id : Nat) (f : Held → Held) (s : State) : (modHeld t id f s).core = s.core := rfl
@[simp] theorem modHeld_integ (t id : Nat) (f : Held → Held) (s : State) : (modHeld t id f s).integ = s.integ := rfl
@[simp] theorem modHeld_nor (t id : Nat) (f : Held → Held) (s : State) : (modHeld t id f s).nor = s.nor := rfl
@[simp] theorem modHeld_gov (t id : Nat) (f : Held → Held) (s : State) : (modHeld t id f s).gov = s.gov := rfl
@[simp] theorem modHeld_tele (t id : Nat) (f : Held → Held) (s : State) : (modHeld t id f s).tele = s.tele := rfl

/-! ### addCurrent. Accounting in CURRENT changes a TRS page. -/

@[simp] theorem addCurrent_pending (t : Nat) (f : CtrSet → CtrSet) (s : State) : (addCurrent t f s).pending = s.pending := rfl
@[simp] theorem addCurrent_outbox (t : Nat) (f : CtrSet → CtrSet) (s : State) : (addCurrent t f s).outbox = s.outbox := rfl
@[simp] theorem addCurrent_freeCount (t : Nat) (f : CtrSet → CtrSet) (s : State) : (addCurrent t f s).freeCount = s.freeCount := rfl
@[simp] theorem addCurrent_aon (t : Nat) (f : CtrSet → CtrSet) (s : State) : (addCurrent t f s).aon = s.aon := rfl
@[simp] theorem addCurrent_boot (t : Nat) (f : CtrSet → CtrSet) (s : State) : (addCurrent t f s).boot = s.boot := rfl
@[simp] theorem addCurrent_isl (t : Nat) (f : CtrSet → CtrSet) (s : State) : (addCurrent t f s).isl = s.isl := rfl
@[simp] theorem addCurrent_link (t : Nat) (f : CtrSet → CtrSet) (s : State) : (addCurrent t f s).link = s.link := rfl
@[simp] theorem addCurrent_tun (t : Nat) (f : CtrSet → CtrSet) (s : State) : (addCurrent t f s).tun = s.tun := rfl
@[simp] theorem addCurrent_cmd (t : Nat) (f : CtrSet → CtrSet) (s : State) : (addCurrent t f s).cmd = s.cmd := rfl
@[simp] theorem addCurrent_pol (t : Nat) (f : CtrSet → CtrSet) (s : State) : (addCurrent t f s).pol = s.pol := rfl
@[simp] theorem addCurrent_ctx (t : Nat) (f : CtrSet → CtrSet) (s : State) : (addCurrent t f s).ctx = s.ctx := rfl
@[simp] theorem addCurrent_tier (t : Nat) (f : CtrSet → CtrSet) (s : State) : (addCurrent t f s).tier = s.tier := rfl
@[simp] theorem addCurrent_coll (t : Nat) (f : CtrSet → CtrSet) (s : State) : (addCurrent t f s).coll = s.coll := rfl
@[simp] theorem addCurrent_heat (t : Nat) (f : CtrSet → CtrSet) (s : State) : (addCurrent t f s).heat = s.heat := rfl
@[simp] theorem addCurrent_fl (t : Nat) (f : CtrSet → CtrSet) (s : State) : (addCurrent t f s).fl = s.fl := rfl
@[simp] theorem addCurrent_core (t : Nat) (f : CtrSet → CtrSet) (s : State) : (addCurrent t f s).core = s.core := rfl
@[simp] theorem addCurrent_integ (t : Nat) (f : CtrSet → CtrSet) (s : State) : (addCurrent t f s).integ = s.integ := rfl
@[simp] theorem addCurrent_nor (t : Nat) (f : CtrSet → CtrSet) (s : State) : (addCurrent t f s).nor = s.nor := rfl
@[simp] theorem addCurrent_gov (t : Nat) (f : CtrSet → CtrSet) (s : State) : (addCurrent t f s).gov = s.gov := rfl
@[simp] theorem addCurrent_tele (t : Nat) (f : CtrSet → CtrSet) (s : State) : (addCurrent t f s).tele = s.tele := rfl

/-! ### signal. Signalling a vector sends its message or sets its PBA bit. -/

@[simp] theorem signal_pending (v : Nat) (s : State) : (signal v s).pending = s.pending := by unfold signal; split <;> simp
@[simp] theorem signal_freeCount (v : Nat) (s : State) : (signal v s).freeCount = s.freeCount := by unfold signal; split <;> simp
@[simp] theorem signal_aon (v : Nat) (s : State) : (signal v s).aon = s.aon := by unfold signal; split <;> simp
@[simp] theorem signal_boot (v : Nat) (s : State) : (signal v s).boot = s.boot := by unfold signal; split <;> simp
@[simp] theorem signal_isl (v : Nat) (s : State) : (signal v s).isl = s.isl := by unfold signal; split <;> simp
@[simp] theorem signal_tun (v : Nat) (s : State) : (signal v s).tun = s.tun := by unfold signal; split <;> simp
@[simp] theorem signal_trs (v : Nat) (s : State) : (signal v s).trs = s.trs := by unfold signal; split <;> simp
@[simp] theorem signal_cmd (v : Nat) (s : State) : (signal v s).cmd = s.cmd := by unfold signal; split <;> simp
@[simp] theorem signal_pol (v : Nat) (s : State) : (signal v s).pol = s.pol := by unfold signal; split <;> simp
@[simp] theorem signal_ctx (v : Nat) (s : State) : (signal v s).ctx = s.ctx := by unfold signal; split <;> simp
@[simp] theorem signal_tier (v : Nat) (s : State) : (signal v s).tier = s.tier := by unfold signal; split <;> simp
@[simp] theorem signal_coll (v : Nat) (s : State) : (signal v s).coll = s.coll := by unfold signal; split <;> simp
@[simp] theorem signal_heat (v : Nat) (s : State) : (signal v s).heat = s.heat := by unfold signal; split <;> simp
@[simp] theorem signal_fl (v : Nat) (s : State) : (signal v s).fl = s.fl := by unfold signal; split <;> simp
@[simp] theorem signal_core (v : Nat) (s : State) : (signal v s).core = s.core := by unfold signal; split <;> simp
@[simp] theorem signal_integ (v : Nat) (s : State) : (signal v s).integ = s.integ := by unfold signal; split <;> simp
@[simp] theorem signal_nor (v : Nat) (s : State) : (signal v s).nor = s.nor := by unfold signal; split <;> simp
@[simp] theorem signal_gov (v : Nat) (s : State) : (signal v s).gov = s.gov := by unfold signal; split <;> simp
@[simp] theorem signal_tele (v : Nat) (s : State) : (signal v s).tele = s.tele := by unfold signal; split <;> simp

/-! ### logRecord. Queueing a record changes the logs, and at most signals vector 0. -/

@[simp] theorem logRecord_pending (log : Nat) (m : Bool) (d : List Byte) (s : State) : (logRecord log m d s).pending = s.pending := by unfold logRecord; dsimp only; split <;> (try split) <;> simp
@[simp] theorem logRecord_freeCount (log : Nat) (m : Bool) (d : List Byte) (s : State) : (logRecord log m d s).freeCount = s.freeCount := by unfold logRecord; dsimp only; split <;> (try split) <;> simp
@[simp] theorem logRecord_aon (log : Nat) (m : Bool) (d : List Byte) (s : State) : (logRecord log m d s).aon = s.aon := by unfold logRecord; dsimp only; split <;> (try split) <;> simp
@[simp] theorem logRecord_boot (log : Nat) (m : Bool) (d : List Byte) (s : State) : (logRecord log m d s).boot = s.boot := by unfold logRecord; dsimp only; split <;> (try split) <;> simp
@[simp] theorem logRecord_isl (log : Nat) (m : Bool) (d : List Byte) (s : State) : (logRecord log m d s).isl = s.isl := by unfold logRecord; dsimp only; split <;> (try split) <;> simp
@[simp] theorem logRecord_tun (log : Nat) (m : Bool) (d : List Byte) (s : State) : (logRecord log m d s).tun = s.tun := by unfold logRecord; dsimp only; split <;> (try split) <;> simp
@[simp] theorem logRecord_trs (log : Nat) (m : Bool) (d : List Byte) (s : State) : (logRecord log m d s).trs = s.trs := by unfold logRecord; dsimp only; split <;> (try split) <;> simp
@[simp] theorem logRecord_cmd (log : Nat) (m : Bool) (d : List Byte) (s : State) : (logRecord log m d s).cmd = s.cmd := by unfold logRecord; dsimp only; split <;> (try split) <;> simp
@[simp] theorem logRecord_pol (log : Nat) (m : Bool) (d : List Byte) (s : State) : (logRecord log m d s).pol = s.pol := by unfold logRecord; dsimp only; split <;> (try split) <;> simp
@[simp] theorem logRecord_ctx (log : Nat) (m : Bool) (d : List Byte) (s : State) : (logRecord log m d s).ctx = s.ctx := by unfold logRecord; dsimp only; split <;> (try split) <;> simp
@[simp] theorem logRecord_tier (log : Nat) (m : Bool) (d : List Byte) (s : State) : (logRecord log m d s).tier = s.tier := by unfold logRecord; dsimp only; split <;> (try split) <;> simp
@[simp] theorem logRecord_coll (log : Nat) (m : Bool) (d : List Byte) (s : State) : (logRecord log m d s).coll = s.coll := by unfold logRecord; dsimp only; split <;> (try split) <;> simp
@[simp] theorem logRecord_heat (log : Nat) (m : Bool) (d : List Byte) (s : State) : (logRecord log m d s).heat = s.heat := by unfold logRecord; dsimp only; split <;> (try split) <;> simp
@[simp] theorem logRecord_fl (log : Nat) (m : Bool) (d : List Byte) (s : State) : (logRecord log m d s).fl = s.fl := by unfold logRecord; dsimp only; split <;> (try split) <;> simp
@[simp] theorem logRecord_core (log : Nat) (m : Bool) (d : List Byte) (s : State) : (logRecord log m d s).core = s.core := by unfold logRecord; dsimp only; split <;> (try split) <;> simp
@[simp] theorem logRecord_integ (log : Nat) (m : Bool) (d : List Byte) (s : State) : (logRecord log m d s).integ = s.integ := by unfold logRecord; dsimp only; split <;> (try split) <;> simp
@[simp] theorem logRecord_nor (log : Nat) (m : Bool) (d : List Byte) (s : State) : (logRecord log m d s).nor = s.nor := by unfold logRecord; dsimp only; split <;> (try split) <;> simp
@[simp] theorem logRecord_gov (log : Nat) (m : Bool) (d : List Byte) (s : State) : (logRecord log m d s).gov = s.gov := by unfold logRecord; dsimp only; split <;> (try split) <;> simp

/-! ### raise. Raising an event changes the event queues, the early events of a start, and at most signals vector 0. -/

@[simp] theorem raise_pending (ev log w d0 d1 : Nat) (s : State) : (raise ev log w d0 d1 s).pending = s.pending := by unfold raise; dsimp only; split <;> (try split) <;> simp
@[simp] theorem raise_freeCount (ev log w d0 d1 : Nat) (s : State) : (raise ev log w d0 d1 s).freeCount = s.freeCount := by unfold raise; dsimp only; split <;> (try split) <;> simp
@[simp] theorem raise_aon (ev log w d0 d1 : Nat) (s : State) : (raise ev log w d0 d1 s).aon = s.aon := by unfold raise; dsimp only; split <;> (try split) <;> simp
@[simp] theorem raise_isl (ev log w d0 d1 : Nat) (s : State) : (raise ev log w d0 d1 s).isl = s.isl := by unfold raise; dsimp only; split <;> (try split) <;> simp
@[simp] theorem raise_tun (ev log w d0 d1 : Nat) (s : State) : (raise ev log w d0 d1 s).tun = s.tun := by unfold raise; dsimp only; split <;> (try split) <;> simp
@[simp] theorem raise_trs (ev log w d0 d1 : Nat) (s : State) : (raise ev log w d0 d1 s).trs = s.trs := by unfold raise; dsimp only; split <;> (try split) <;> simp
@[simp] theorem raise_cmd (ev log w d0 d1 : Nat) (s : State) : (raise ev log w d0 d1 s).cmd = s.cmd := by unfold raise; dsimp only; split <;> (try split) <;> simp
@[simp] theorem raise_pol (ev log w d0 d1 : Nat) (s : State) : (raise ev log w d0 d1 s).pol = s.pol := by unfold raise; dsimp only; split <;> (try split) <;> simp
@[simp] theorem raise_ctx (ev log w d0 d1 : Nat) (s : State) : (raise ev log w d0 d1 s).ctx = s.ctx := by unfold raise; dsimp only; split <;> (try split) <;> simp
@[simp] theorem raise_tier (ev log w d0 d1 : Nat) (s : State) : (raise ev log w d0 d1 s).tier = s.tier := by unfold raise; dsimp only; split <;> (try split) <;> simp
@[simp] theorem raise_coll (ev log w d0 d1 : Nat) (s : State) : (raise ev log w d0 d1 s).coll = s.coll := by unfold raise; dsimp only; split <;> (try split) <;> simp
@[simp] theorem raise_heat (ev log w d0 d1 : Nat) (s : State) : (raise ev log w d0 d1 s).heat = s.heat := by unfold raise; dsimp only; split <;> (try split) <;> simp
@[simp] theorem raise_fl (ev log w d0 d1 : Nat) (s : State) : (raise ev log w d0 d1 s).fl = s.fl := by unfold raise; dsimp only; split <;> (try split) <;> simp
@[simp] theorem raise_core (ev log w d0 d1 : Nat) (s : State) : (raise ev log w d0 d1 s).core = s.core := by unfold raise; dsimp only; split <;> (try split) <;> simp
@[simp] theorem raise_integ (ev log w d0 d1 : Nat) (s : State) : (raise ev log w d0 d1 s).integ = s.integ := by unfold raise; dsimp only; split <;> (try split) <;> simp
@[simp] theorem raise_nor (ev log w d0 d1 : Nat) (s : State) : (raise ev log w d0 d1 s).nor = s.nor := by unfold raise; dsimp only; split <;> (try split) <;> simp
@[simp] theorem raise_gov (ev log w d0 d1 : Nat) (s : State) : (raise ev log w d0 d1 s).gov = s.gov := by unfold raise; dsimp only; split <;> (try split) <;> simp

/-! ### platform. A sideband notice only sends. -/

@[simp] theorem platform_pending (n : Nat) (v : Int) (s : State) : (platform n v s).pending = s.pending := by unfold platform; split <;> simp
@[simp] theorem platform_freeCount (n : Nat) (v : Int) (s : State) : (platform n v s).freeCount = s.freeCount := by unfold platform; split <;> simp
@[simp] theorem platform_aon (n : Nat) (v : Int) (s : State) : (platform n v s).aon = s.aon := by unfold platform; split <;> simp
@[simp] theorem platform_boot (n : Nat) (v : Int) (s : State) : (platform n v s).boot = s.boot := by unfold platform; split <;> simp
@[simp] theorem platform_isl (n : Nat) (v : Int) (s : State) : (platform n v s).isl = s.isl := by unfold platform; split <;> simp
@[simp] theorem platform_link (n : Nat) (v : Int) (s : State) : (platform n v s).link = s.link := by unfold platform; split <;> simp
@[simp] theorem platform_tun (n : Nat) (v : Int) (s : State) : (platform n v s).tun = s.tun := by unfold platform; split <;> simp
@[simp] theorem platform_trs (n : Nat) (v : Int) (s : State) : (platform n v s).trs = s.trs := by unfold platform; split <;> simp
@[simp] theorem platform_cmd (n : Nat) (v : Int) (s : State) : (platform n v s).cmd = s.cmd := by unfold platform; split <;> simp
@[simp] theorem platform_pol (n : Nat) (v : Int) (s : State) : (platform n v s).pol = s.pol := by unfold platform; split <;> simp
@[simp] theorem platform_ctx (n : Nat) (v : Int) (s : State) : (platform n v s).ctx = s.ctx := by unfold platform; split <;> simp
@[simp] theorem platform_tier (n : Nat) (v : Int) (s : State) : (platform n v s).tier = s.tier := by unfold platform; split <;> simp
@[simp] theorem platform_coll (n : Nat) (v : Int) (s : State) : (platform n v s).coll = s.coll := by unfold platform; split <;> simp
@[simp] theorem platform_heat (n : Nat) (v : Int) (s : State) : (platform n v s).heat = s.heat := by unfold platform; split <;> simp
@[simp] theorem platform_fl (n : Nat) (v : Int) (s : State) : (platform n v s).fl = s.fl := by unfold platform; split <;> simp
@[simp] theorem platform_core (n : Nat) (v : Int) (s : State) : (platform n v s).core = s.core := by unfold platform; split <;> simp
@[simp] theorem platform_integ (n : Nat) (v : Int) (s : State) : (platform n v s).integ = s.integ := by unfold platform; split <;> simp
@[simp] theorem platform_nor (n : Nat) (v : Int) (s : State) : (platform n v s).nor = s.nor := by unfold platform; split <;> simp
@[simp] theorem platform_gov (n : Nat) (v : Int) (s : State) : (platform n v s).gov = s.gov := by unfold platform; split <;> simp
@[simp] theorem platform_tele (n : Nat) (v : Int) (s : State) : (platform n v s).tele = s.tele := by unfold platform; split <;> simp

/-! ### countHostRead. Accounting host reads changes counters. -/

@[simp] theorem countHostRead_pending (t n : Nat) (s : State) : (countHostRead t n s).pending = s.pending := rfl
@[simp] theorem countHostRead_outbox (t n : Nat) (s : State) : (countHostRead t n s).outbox = s.outbox := rfl
@[simp] theorem countHostRead_freeCount (t n : Nat) (s : State) : (countHostRead t n s).freeCount = s.freeCount := rfl
@[simp] theorem countHostRead_aon (t n : Nat) (s : State) : (countHostRead t n s).aon = s.aon := rfl
@[simp] theorem countHostRead_boot (t n : Nat) (s : State) : (countHostRead t n s).boot = s.boot := rfl
@[simp] theorem countHostRead_isl (t n : Nat) (s : State) : (countHostRead t n s).isl = s.isl := rfl
@[simp] theorem countHostRead_link (t n : Nat) (s : State) : (countHostRead t n s).link = s.link := rfl
@[simp] theorem countHostRead_tun (t n : Nat) (s : State) : (countHostRead t n s).tun = s.tun := rfl
@[simp] theorem countHostRead_cmd (t n : Nat) (s : State) : (countHostRead t n s).cmd = s.cmd := rfl
@[simp] theorem countHostRead_pol (t n : Nat) (s : State) : (countHostRead t n s).pol = s.pol := rfl
@[simp] theorem countHostRead_ctx (t n : Nat) (s : State) : (countHostRead t n s).ctx = s.ctx := rfl
@[simp] theorem countHostRead_tier (t n : Nat) (s : State) : (countHostRead t n s).tier = s.tier := rfl
@[simp] theorem countHostRead_coll (t n : Nat) (s : State) : (countHostRead t n s).coll = s.coll := rfl
@[simp] theorem countHostRead_heat (t n : Nat) (s : State) : (countHostRead t n s).heat = s.heat := rfl
@[simp] theorem countHostRead_fl (t n : Nat) (s : State) : (countHostRead t n s).fl = s.fl := rfl
@[simp] theorem countHostRead_core (t n : Nat) (s : State) : (countHostRead t n s).core = s.core := rfl
@[simp] theorem countHostRead_integ (t n : Nat) (s : State) : (countHostRead t n s).integ = s.integ := rfl
@[simp] theorem countHostRead_nor (t n : Nat) (s : State) : (countHostRead t n s).nor = s.nor := rfl
@[simp] theorem countHostRead_gov (t n : Nat) (s : State) : (countHostRead t n s).gov = s.gov := rfl

/-! ### dmaWrite. A DMA write sends and counts. -/

@[simp] theorem dmaWrite_pending (t a : Nat) (bs : List Byte) (r : Bool) (s : State) : (dmaWrite t a bs r s).pending = s.pending := by unfold dmaWrite; split <;> simp
@[simp] theorem dmaWrite_freeCount (t a : Nat) (bs : List Byte) (r : Bool) (s : State) : (dmaWrite t a bs r s).freeCount = s.freeCount := by unfold dmaWrite; split <;> simp
@[simp] theorem dmaWrite_aon (t a : Nat) (bs : List Byte) (r : Bool) (s : State) : (dmaWrite t a bs r s).aon = s.aon := by unfold dmaWrite; split <;> simp
@[simp] theorem dmaWrite_boot (t a : Nat) (bs : List Byte) (r : Bool) (s : State) : (dmaWrite t a bs r s).boot = s.boot := by unfold dmaWrite; split <;> simp
@[simp] theorem dmaWrite_isl (t a : Nat) (bs : List Byte) (r : Bool) (s : State) : (dmaWrite t a bs r s).isl = s.isl := by unfold dmaWrite; split <;> simp
@[simp] theorem dmaWrite_link (t a : Nat) (bs : List Byte) (r : Bool) (s : State) : (dmaWrite t a bs r s).link = s.link := by unfold dmaWrite; split <;> simp
@[simp] theorem dmaWrite_tun (t a : Nat) (bs : List Byte) (r : Bool) (s : State) : (dmaWrite t a bs r s).tun = s.tun := by unfold dmaWrite; split <;> simp
@[simp] theorem dmaWrite_cmd (t a : Nat) (bs : List Byte) (r : Bool) (s : State) : (dmaWrite t a bs r s).cmd = s.cmd := by unfold dmaWrite; split <;> simp
@[simp] theorem dmaWrite_pol (t a : Nat) (bs : List Byte) (r : Bool) (s : State) : (dmaWrite t a bs r s).pol = s.pol := by unfold dmaWrite; split <;> simp
@[simp] theorem dmaWrite_ctx (t a : Nat) (bs : List Byte) (r : Bool) (s : State) : (dmaWrite t a bs r s).ctx = s.ctx := by unfold dmaWrite; split <;> simp
@[simp] theorem dmaWrite_tier (t a : Nat) (bs : List Byte) (r : Bool) (s : State) : (dmaWrite t a bs r s).tier = s.tier := by unfold dmaWrite; split <;> simp
@[simp] theorem dmaWrite_coll (t a : Nat) (bs : List Byte) (r : Bool) (s : State) : (dmaWrite t a bs r s).coll = s.coll := by unfold dmaWrite; split <;> simp
@[simp] theorem dmaWrite_heat (t a : Nat) (bs : List Byte) (r : Bool) (s : State) : (dmaWrite t a bs r s).heat = s.heat := by unfold dmaWrite; split <;> simp
@[simp] theorem dmaWrite_fl (t a : Nat) (bs : List Byte) (r : Bool) (s : State) : (dmaWrite t a bs r s).fl = s.fl := by unfold dmaWrite; split <;> simp
@[simp] theorem dmaWrite_core (t a : Nat) (bs : List Byte) (r : Bool) (s : State) : (dmaWrite t a bs r s).core = s.core := by unfold dmaWrite; split <;> simp
@[simp] theorem dmaWrite_integ (t a : Nat) (bs : List Byte) (r : Bool) (s : State) : (dmaWrite t a bs r s).integ = s.integ := by unfold dmaWrite; split <;> simp
@[simp] theorem dmaWrite_nor (t a : Nat) (bs : List Byte) (r : Bool) (s : State) : (dmaWrite t a bs r s).nor = s.nor := by unfold dmaWrite; split <;> simp
@[simp] theorem dmaWrite_gov (t a : Nat) (bs : List Byte) (r : Bool) (s : State) : (dmaWrite t a bs r s).gov = s.gov := by unfold dmaWrite; split <;> simp

/-! ### issueRead. A DMA read sends requests and notes them. -/

@[simp] theorem issueRead_pending (t id a n : Nat) (s : State) : (issueRead t id a n s).pending = s.pending := by simp [issueRead]
@[simp] theorem issueRead_freeCount (t id a n : Nat) (s : State) : (issueRead t id a n s).freeCount = s.freeCount := by simp [issueRead]
@[simp] theorem issueRead_aon (t id a n : Nat) (s : State) : (issueRead t id a n s).aon = s.aon := by simp [issueRead]
@[simp] theorem issueRead_boot (t id a n : Nat) (s : State) : (issueRead t id a n s).boot = s.boot := by simp [issueRead]
@[simp] theorem issueRead_isl (t id a n : Nat) (s : State) : (issueRead t id a n s).isl = s.isl := by simp [issueRead]
@[simp] theorem issueRead_link (t id a n : Nat) (s : State) : (issueRead t id a n s).link = s.link := by simp [issueRead]
@[simp] theorem issueRead_tun (t id a n : Nat) (s : State) : (issueRead t id a n s).tun = s.tun := by simp [issueRead]
@[simp] theorem issueRead_cmd (t id a n : Nat) (s : State) : (issueRead t id a n s).cmd = s.cmd := by simp [issueRead]
@[simp] theorem issueRead_pol (t id a n : Nat) (s : State) : (issueRead t id a n s).pol = s.pol := by simp [issueRead]
@[simp] theorem issueRead_ctx (t id a n : Nat) (s : State) : (issueRead t id a n s).ctx = s.ctx := by simp [issueRead]
@[simp] theorem issueRead_tier (t id a n : Nat) (s : State) : (issueRead t id a n s).tier = s.tier := by simp [issueRead]
@[simp] theorem issueRead_coll (t id a n : Nat) (s : State) : (issueRead t id a n s).coll = s.coll := by simp [issueRead]
@[simp] theorem issueRead_heat (t id a n : Nat) (s : State) : (issueRead t id a n s).heat = s.heat := by simp [issueRead]
@[simp] theorem issueRead_fl (t id a n : Nat) (s : State) : (issueRead t id a n s).fl = s.fl := by simp [issueRead]
@[simp] theorem issueRead_core (t id a n : Nat) (s : State) : (issueRead t id a n s).core = s.core := by simp [issueRead]
@[simp] theorem issueRead_integ (t id a n : Nat) (s : State) : (issueRead t id a n s).integ = s.integ := by simp [issueRead]
@[simp] theorem issueRead_nor (t id a n : Nat) (s : State) : (issueRead t id a n s).nor = s.nor := by simp [issueRead]
@[simp] theorem issueRead_gov (t id a n : Nat) (s : State) : (issueRead t id a n s).gov = s.gov := by simp [issueRead]
@[simp] theorem issueRead_tele (t id a n : Nat) (s : State) : (issueRead t id a n s).tele = s.tele := by simp [issueRead]

/-! ### addCompletion. A pending completion counts in its vector or signals it. -/

@[simp] theorem addCompletion_pending (v : Nat) (e : Bool) (s : State) : (addCompletion v e s).pending = s.pending := by unfold addCompletion; dsimp only; split <;> simp
@[simp] theorem addCompletion_freeCount (v : Nat) (e : Bool) (s : State) : (addCompletion v e s).freeCount = s.freeCount := by unfold addCompletion; dsimp only; split <;> simp
@[simp] theorem addCompletion_aon (v : Nat) (e : Bool) (s : State) : (addCompletion v e s).aon = s.aon := by unfold addCompletion; dsimp only; split <;> simp
@[simp] theorem addCompletion_boot (v : Nat) (e : Bool) (s : State) : (addCompletion v e s).boot = s.boot := by unfold addCompletion; dsimp only; split <;> simp
@[simp] theorem addCompletion_isl (v : Nat) (e : Bool) (s : State) : (addCompletion v e s).isl = s.isl := by unfold addCompletion; dsimp only; split <;> simp
@[simp] theorem addCompletion_tun (v : Nat) (e : Bool) (s : State) : (addCompletion v e s).tun = s.tun := by unfold addCompletion; dsimp only; split <;> simp
@[simp] theorem addCompletion_trs (v : Nat) (e : Bool) (s : State) : (addCompletion v e s).trs = s.trs := by unfold addCompletion; dsimp only; split <;> simp
@[simp] theorem addCompletion_cmd (v : Nat) (e : Bool) (s : State) : (addCompletion v e s).cmd = s.cmd := by unfold addCompletion; dsimp only; split <;> simp
@[simp] theorem addCompletion_pol (v : Nat) (e : Bool) (s : State) : (addCompletion v e s).pol = s.pol := by unfold addCompletion; dsimp only; split <;> simp
@[simp] theorem addCompletion_ctx (v : Nat) (e : Bool) (s : State) : (addCompletion v e s).ctx = s.ctx := by unfold addCompletion; dsimp only; split <;> simp
@[simp] theorem addCompletion_tier (v : Nat) (e : Bool) (s : State) : (addCompletion v e s).tier = s.tier := by unfold addCompletion; dsimp only; split <;> simp
@[simp] theorem addCompletion_coll (v : Nat) (e : Bool) (s : State) : (addCompletion v e s).coll = s.coll := by unfold addCompletion; dsimp only; split <;> simp
@[simp] theorem addCompletion_heat (v : Nat) (e : Bool) (s : State) : (addCompletion v e s).heat = s.heat := by unfold addCompletion; dsimp only; split <;> simp
@[simp] theorem addCompletion_fl (v : Nat) (e : Bool) (s : State) : (addCompletion v e s).fl = s.fl := by unfold addCompletion; dsimp only; split <;> simp
@[simp] theorem addCompletion_core (v : Nat) (e : Bool) (s : State) : (addCompletion v e s).core = s.core := by unfold addCompletion; dsimp only; split <;> simp
@[simp] theorem addCompletion_integ (v : Nat) (e : Bool) (s : State) : (addCompletion v e s).integ = s.integ := by unfold addCompletion; dsimp only; split <;> simp
@[simp] theorem addCompletion_nor (v : Nat) (e : Bool) (s : State) : (addCompletion v e s).nor = s.nor := by unfold addCompletion; dsimp only; split <;> simp
@[simp] theorem addCompletion_gov (v : Nat) (e : Bool) (s : State) : (addCompletion v e s).gov = s.gov := by unfold addCompletion; dsimp only; split <;> simp
@[simp] theorem addCompletion_tele (v : Nat) (e : Bool) (s : State) : (addCompletion v e s).tele = s.tele := by unfold addCompletion; dsimp only; split <;> simp

/-! ### decideEnd. Deciding an ending changes the held command. -/

@[simp] theorem decideEnd_pending (t id : Nat) (st : Byte) (r : Nat) (s : State) : (decideEnd t id st r s).pending = s.pending := by simp [decideEnd]
@[simp] theorem decideEnd_outbox (t id : Nat) (st : Byte) (r : Nat) (s : State) : (decideEnd t id st r s).outbox = s.outbox := by simp [decideEnd]
@[simp] theorem decideEnd_freeCount (t id : Nat) (st : Byte) (r : Nat) (s : State) : (decideEnd t id st r s).freeCount = s.freeCount := by simp [decideEnd]
@[simp] theorem decideEnd_aon (t id : Nat) (st : Byte) (r : Nat) (s : State) : (decideEnd t id st r s).aon = s.aon := by simp [decideEnd]
@[simp] theorem decideEnd_boot (t id : Nat) (st : Byte) (r : Nat) (s : State) : (decideEnd t id st r s).boot = s.boot := by simp [decideEnd]
@[simp] theorem decideEnd_isl (t id : Nat) (st : Byte) (r : Nat) (s : State) : (decideEnd t id st r s).isl = s.isl := by simp [decideEnd]
@[simp] theorem decideEnd_link (t id : Nat) (st : Byte) (r : Nat) (s : State) : (decideEnd t id st r s).link = s.link := by simp [decideEnd]
@[simp] theorem decideEnd_tun (t id : Nat) (st : Byte) (r : Nat) (s : State) : (decideEnd t id st r s).tun = s.tun := by simp [decideEnd]
@[simp] theorem decideEnd_cmd (t id : Nat) (st : Byte) (r : Nat) (s : State) : (decideEnd t id st r s).cmd = s.cmd := by simp [decideEnd]
@[simp] theorem decideEnd_pol (t id : Nat) (st : Byte) (r : Nat) (s : State) : (decideEnd t id st r s).pol = s.pol := by simp [decideEnd]
@[simp] theorem decideEnd_ctx (t id : Nat) (st : Byte) (r : Nat) (s : State) : (decideEnd t id st r s).ctx = s.ctx := by simp [decideEnd]
@[simp] theorem decideEnd_tier (t id : Nat) (st : Byte) (r : Nat) (s : State) : (decideEnd t id st r s).tier = s.tier := by simp [decideEnd]
@[simp] theorem decideEnd_coll (t id : Nat) (st : Byte) (r : Nat) (s : State) : (decideEnd t id st r s).coll = s.coll := by simp [decideEnd]
@[simp] theorem decideEnd_heat (t id : Nat) (st : Byte) (r : Nat) (s : State) : (decideEnd t id st r s).heat = s.heat := by simp [decideEnd]
@[simp] theorem decideEnd_fl (t id : Nat) (st : Byte) (r : Nat) (s : State) : (decideEnd t id st r s).fl = s.fl := by simp [decideEnd]
@[simp] theorem decideEnd_core (t id : Nat) (st : Byte) (r : Nat) (s : State) : (decideEnd t id st r s).core = s.core := by simp [decideEnd]
@[simp] theorem decideEnd_integ (t id : Nat) (st : Byte) (r : Nat) (s : State) : (decideEnd t id st r s).integ = s.integ := by simp [decideEnd]
@[simp] theorem decideEnd_nor (t id : Nat) (st : Byte) (r : Nat) (s : State) : (decideEnd t id st r s).nor = s.nor := by simp [decideEnd]
@[simp] theorem decideEnd_gov (t id : Nat) (st : Byte) (r : Nat) (s : State) : (decideEnd t id st r s).gov = s.gov := by simp [decideEnd]
@[simp] theorem decideEnd_tele (t id : Nat) (st : Byte) (r : Nat) (s : State) : (decideEnd t id st r s).tele = s.tele := by simp [decideEnd]

/-! ### startEvent. A start event changes the TRS page. -/

@[simp] theorem startEvent_pending (t id : Nat) (s : State) : (startEvent t id s).pending = s.pending := by simp [startEvent]
@[simp] theorem startEvent_outbox (t id : Nat) (s : State) : (startEvent t id s).outbox = s.outbox := by simp [startEvent]
@[simp] theorem startEvent_freeCount (t id : Nat) (s : State) : (startEvent t id s).freeCount = s.freeCount := by simp [startEvent]
@[simp] theorem startEvent_aon (t id : Nat) (s : State) : (startEvent t id s).aon = s.aon := by simp [startEvent]
@[simp] theorem startEvent_boot (t id : Nat) (s : State) : (startEvent t id s).boot = s.boot := by simp [startEvent]
@[simp] theorem startEvent_isl (t id : Nat) (s : State) : (startEvent t id s).isl = s.isl := by simp [startEvent]
@[simp] theorem startEvent_link (t id : Nat) (s : State) : (startEvent t id s).link = s.link := by simp [startEvent]
@[simp] theorem startEvent_tun (t id : Nat) (s : State) : (startEvent t id s).tun = s.tun := by simp [startEvent]
@[simp] theorem startEvent_cmd (t id : Nat) (s : State) : (startEvent t id s).cmd = s.cmd := by simp [startEvent]
@[simp] theorem startEvent_pol (t id : Nat) (s : State) : (startEvent t id s).pol = s.pol := by simp [startEvent]
@[simp] theorem startEvent_ctx (t id : Nat) (s : State) : (startEvent t id s).ctx = s.ctx := by simp [startEvent]
@[simp] theorem startEvent_tier (t id : Nat) (s : State) : (startEvent t id s).tier = s.tier := by simp [startEvent]
@[simp] theorem startEvent_coll (t id : Nat) (s : State) : (startEvent t id s).coll = s.coll := by simp [startEvent]
@[simp] theorem startEvent_heat (t id : Nat) (s : State) : (startEvent t id s).heat = s.heat := by simp [startEvent]
@[simp] theorem startEvent_fl (t id : Nat) (s : State) : (startEvent t id s).fl = s.fl := by simp [startEvent]
@[simp] theorem startEvent_core (t id : Nat) (s : State) : (startEvent t id s).core = s.core := by simp [startEvent]
@[simp] theorem startEvent_integ (t id : Nat) (s : State) : (startEvent t id s).integ = s.integ := by simp [startEvent]
@[simp] theorem startEvent_nor (t id : Nat) (s : State) : (startEvent t id s).nor = s.nor := by simp [startEvent]
@[simp] theorem startEvent_gov (t id : Nat) (s : State) : (startEvent t id s).gov = s.gov := by simp [startEvent]
@[simp] theorem startEvent_tele (t id : Nat) (s : State) : (startEvent t id s).tele = s.tele := by simp [startEvent]

/-! ### endJobs. Jobs end on the cores. -/

@[simp] theorem endJobs_pending (t id : Nat) (s : State) : (endJobs t id s).pending = s.pending := rfl
@[simp] theorem endJobs_outbox (t id : Nat) (s : State) : (endJobs t id s).outbox = s.outbox := rfl
@[simp] theorem endJobs_freeCount (t id : Nat) (s : State) : (endJobs t id s).freeCount = s.freeCount := rfl
@[simp] theorem endJobs_aon (t id : Nat) (s : State) : (endJobs t id s).aon = s.aon := rfl
@[simp] theorem endJobs_boot (t id : Nat) (s : State) : (endJobs t id s).boot = s.boot := rfl
@[simp] theorem endJobs_isl (t id : Nat) (s : State) : (endJobs t id s).isl = s.isl := rfl
@[simp] theorem endJobs_link (t id : Nat) (s : State) : (endJobs t id s).link = s.link := rfl
@[simp] theorem endJobs_tun (t id : Nat) (s : State) : (endJobs t id s).tun = s.tun := rfl
@[simp] theorem endJobs_trs (t id : Nat) (s : State) : (endJobs t id s).trs = s.trs := rfl
@[simp] theorem endJobs_cmd (t id : Nat) (s : State) : (endJobs t id s).cmd = s.cmd := rfl
@[simp] theorem endJobs_pol (t id : Nat) (s : State) : (endJobs t id s).pol = s.pol := rfl
@[simp] theorem endJobs_ctx (t id : Nat) (s : State) : (endJobs t id s).ctx = s.ctx := rfl
@[simp] theorem endJobs_tier (t id : Nat) (s : State) : (endJobs t id s).tier = s.tier := rfl
@[simp] theorem endJobs_coll (t id : Nat) (s : State) : (endJobs t id s).coll = s.coll := rfl
@[simp] theorem endJobs_heat (t id : Nat) (s : State) : (endJobs t id s).heat = s.heat := rfl
@[simp] theorem endJobs_fl (t id : Nat) (s : State) : (endJobs t id s).fl = s.fl := rfl
@[simp] theorem endJobs_integ (t id : Nat) (s : State) : (endJobs t id s).integ = s.integ := rfl
@[simp] theorem endJobs_nor (t id : Nat) (s : State) : (endJobs t id s).nor = s.nor := rfl
@[simp] theorem endJobs_gov (t id : Nat) (s : State) : (endJobs t id s).gov = s.gov := rfl
@[simp] theorem endJobs_tele (t id : Nat) (s : State) : (endJobs t id s).tele = s.tele := rfl

/-! ### dropBatches. The batches of a failed command leave the cores. -/

@[simp] theorem dropBatches_pending (t id : Nat) (st : Byte) (s : State) : (dropBatches t id st s).pending = s.pending := by unfold dropBatches; split <;> rfl
@[simp] theorem dropBatches_outbox (t id : Nat) (st : Byte) (s : State) : (dropBatches t id st s).outbox = s.outbox := by unfold dropBatches; split <;> rfl
@[simp] theorem dropBatches_freeCount (t id : Nat) (st : Byte) (s : State) : (dropBatches t id st s).freeCount = s.freeCount := by unfold dropBatches; split <;> rfl
@[simp] theorem dropBatches_aon (t id : Nat) (st : Byte) (s : State) : (dropBatches t id st s).aon = s.aon := by unfold dropBatches; split <;> rfl
@[simp] theorem dropBatches_boot (t id : Nat) (st : Byte) (s : State) : (dropBatches t id st s).boot = s.boot := by unfold dropBatches; split <;> rfl
@[simp] theorem dropBatches_isl (t id : Nat) (st : Byte) (s : State) : (dropBatches t id st s).isl = s.isl := by unfold dropBatches; split <;> rfl
@[simp] theorem dropBatches_link (t id : Nat) (st : Byte) (s : State) : (dropBatches t id st s).link = s.link := by unfold dropBatches; split <;> rfl
@[simp] theorem dropBatches_tun (t id : Nat) (st : Byte) (s : State) : (dropBatches t id st s).tun = s.tun := by unfold dropBatches; split <;> rfl
@[simp] theorem dropBatches_trs (t id : Nat) (st : Byte) (s : State) : (dropBatches t id st s).trs = s.trs := by unfold dropBatches; split <;> rfl
@[simp] theorem dropBatches_cmd (t id : Nat) (st : Byte) (s : State) : (dropBatches t id st s).cmd = s.cmd := by unfold dropBatches; split <;> rfl
@[simp] theorem dropBatches_pol (t id : Nat) (st : Byte) (s : State) : (dropBatches t id st s).pol = s.pol := by unfold dropBatches; split <;> rfl
@[simp] theorem dropBatches_ctx (t id : Nat) (st : Byte) (s : State) : (dropBatches t id st s).ctx = s.ctx := by unfold dropBatches; split <;> rfl
@[simp] theorem dropBatches_tier (t id : Nat) (st : Byte) (s : State) : (dropBatches t id st s).tier = s.tier := by unfold dropBatches; split <;> rfl
@[simp] theorem dropBatches_coll (t id : Nat) (st : Byte) (s : State) : (dropBatches t id st s).coll = s.coll := by unfold dropBatches; split <;> rfl
@[simp] theorem dropBatches_heat (t id : Nat) (st : Byte) (s : State) : (dropBatches t id st s).heat = s.heat := by unfold dropBatches; split <;> rfl
@[simp] theorem dropBatches_fl (t id : Nat) (st : Byte) (s : State) : (dropBatches t id st s).fl = s.fl := by unfold dropBatches; split <;> rfl
@[simp] theorem dropBatches_integ (t id : Nat) (st : Byte) (s : State) : (dropBatches t id st s).integ = s.integ := by unfold dropBatches; split <;> rfl
@[simp] theorem dropBatches_nor (t id : Nat) (st : Byte) (s : State) : (dropBatches t id st s).nor = s.nor := by unfold dropBatches; split <;> rfl
@[simp] theorem dropBatches_gov (t id : Nat) (st : Byte) (s : State) : (dropBatches t id st s).gov = s.gov := by unfold dropBatches; split <;> rfl
@[simp] theorem dropBatches_tele (t id : Nat) (st : Byte) (s : State) : (dropBatches t id st s).tele = s.tele := by unfold dropBatches; split <;> rfl

/-! ### settleWatch. Watch records settle in the telemetry. -/

@[simp] theorem settleWatch_pending (t id : Nat) (ok : Bool) (s : State) : (settleWatch t id ok s).pending = s.pending := by unfold settleWatch; dsimp only; split <;> rfl
@[simp] theorem settleWatch_outbox (t id : Nat) (ok : Bool) (s : State) : (settleWatch t id ok s).outbox = s.outbox := by unfold settleWatch; dsimp only; split <;> rfl
@[simp] theorem settleWatch_freeCount (t id : Nat) (ok : Bool) (s : State) : (settleWatch t id ok s).freeCount = s.freeCount := by unfold settleWatch; dsimp only; split <;> rfl
@[simp] theorem settleWatch_aon (t id : Nat) (ok : Bool) (s : State) : (settleWatch t id ok s).aon = s.aon := by unfold settleWatch; dsimp only; split <;> rfl
@[simp] theorem settleWatch_boot (t id : Nat) (ok : Bool) (s : State) : (settleWatch t id ok s).boot = s.boot := by unfold settleWatch; dsimp only; split <;> rfl
@[simp] theorem settleWatch_isl (t id : Nat) (ok : Bool) (s : State) : (settleWatch t id ok s).isl = s.isl := by unfold settleWatch; dsimp only; split <;> rfl
@[simp] theorem settleWatch_link (t id : Nat) (ok : Bool) (s : State) : (settleWatch t id ok s).link = s.link := by unfold settleWatch; dsimp only; split <;> rfl
@[simp] theorem settleWatch_tun (t id : Nat) (ok : Bool) (s : State) : (settleWatch t id ok s).tun = s.tun := by unfold settleWatch; dsimp only; split <;> rfl
@[simp] theorem settleWatch_trs (t id : Nat) (ok : Bool) (s : State) : (settleWatch t id ok s).trs = s.trs := by unfold settleWatch; dsimp only; split <;> rfl
@[simp] theorem settleWatch_cmd (t id : Nat) (ok : Bool) (s : State) : (settleWatch t id ok s).cmd = s.cmd := by unfold settleWatch; dsimp only; split <;> rfl
@[simp] theorem settleWatch_pol (t id : Nat) (ok : Bool) (s : State) : (settleWatch t id ok s).pol = s.pol := by unfold settleWatch; dsimp only; split <;> rfl
@[simp] theorem settleWatch_ctx (t id : Nat) (ok : Bool) (s : State) : (settleWatch t id ok s).ctx = s.ctx := by unfold settleWatch; dsimp only; split <;> rfl
@[simp] theorem settleWatch_tier (t id : Nat) (ok : Bool) (s : State) : (settleWatch t id ok s).tier = s.tier := by unfold settleWatch; dsimp only; split <;> rfl
@[simp] theorem settleWatch_coll (t id : Nat) (ok : Bool) (s : State) : (settleWatch t id ok s).coll = s.coll := by unfold settleWatch; dsimp only; split <;> rfl
@[simp] theorem settleWatch_heat (t id : Nat) (ok : Bool) (s : State) : (settleWatch t id ok s).heat = s.heat := by unfold settleWatch; dsimp only; split <;> rfl
@[simp] theorem settleWatch_fl (t id : Nat) (ok : Bool) (s : State) : (settleWatch t id ok s).fl = s.fl := by unfold settleWatch; dsimp only; split <;> rfl
@[simp] theorem settleWatch_core (t id : Nat) (ok : Bool) (s : State) : (settleWatch t id ok s).core = s.core := by unfold settleWatch; dsimp only; split <;> rfl
@[simp] theorem settleWatch_integ (t id : Nat) (ok : Bool) (s : State) : (settleWatch t id ok s).integ = s.integ := by unfold settleWatch; dsimp only; split <;> rfl
@[simp] theorem settleWatch_nor (t id : Nat) (ok : Bool) (s : State) : (settleWatch t id ok s).nor = s.nor := by unfold settleWatch; dsimp only; split <;> rfl
@[simp] theorem settleWatch_gov (t id : Nat) (ok : Bool) (s : State) : (settleWatch t id ok s).gov = s.gov := by unfold settleWatch; dsimp only; split <;> rfl

/-! ### finishWith. An ending changes its page, its locks, its frames and unprogrammed units, its jobs, its records and its vector. -/

@[simp] theorem finishWith_pending (pk : Option Nat) (q : Bool) (t id : Nat) (st : Byte) (r : BitVec 64) (s : State) : (finishWith pk q t id st r s).pending = s.pending := by unfold finishWith; split <;> dsimp only <;> (try split) <;> simp
@[simp] theorem finishWith_freeCount (pk : Option Nat) (q : Bool) (t id : Nat) (st : Byte) (r : BitVec 64) (s : State) : (finishWith pk q t id st r s).freeCount = s.freeCount := by unfold finishWith; split <;> dsimp only <;> (try split) <;> simp
@[simp] theorem finishWith_aon (pk : Option Nat) (q : Bool) (t id : Nat) (st : Byte) (r : BitVec 64) (s : State) : (finishWith pk q t id st r s).aon = s.aon := by unfold finishWith; split <;> dsimp only <;> (try split) <;> simp
@[simp] theorem finishWith_boot (pk : Option Nat) (q : Bool) (t id : Nat) (st : Byte) (r : BitVec 64) (s : State) : (finishWith pk q t id st r s).boot = s.boot := by unfold finishWith; split <;> dsimp only <;> (try split) <;> simp
@[simp] theorem finishWith_isl (pk : Option Nat) (q : Bool) (t id : Nat) (st : Byte) (r : BitVec 64) (s : State) : (finishWith pk q t id st r s).isl = s.isl := by unfold finishWith; split <;> dsimp only <;> (try split) <;> simp
@[simp] theorem finishWith_tun (pk : Option Nat) (q : Bool) (t id : Nat) (st : Byte) (r : BitVec 64) (s : State) : (finishWith pk q t id st r s).tun = s.tun := by unfold finishWith; split <;> dsimp only <;> (try split) <;> simp
@[simp] theorem finishWith_pol (pk : Option Nat) (q : Bool) (t id : Nat) (st : Byte) (r : BitVec 64) (s : State) : (finishWith pk q t id st r s).pol = s.pol := by unfold finishWith; split <;> dsimp only <;> (try split) <;> simp
@[simp] theorem finishWith_ctx (pk : Option Nat) (q : Bool) (t id : Nat) (st : Byte) (r : BitVec 64) (s : State) : (finishWith pk q t id st r s).ctx = s.ctx := by unfold finishWith; split <;> dsimp only <;> (try split) <;> simp
@[simp] theorem finishWith_coll (pk : Option Nat) (q : Bool) (t id : Nat) (st : Byte) (r : BitVec 64) (s : State) : (finishWith pk q t id st r s).coll = s.coll := by unfold finishWith; split <;> dsimp only <;> (try split) <;> simp
@[simp] theorem finishWith_heat (pk : Option Nat) (q : Bool) (t id : Nat) (st : Byte) (r : BitVec 64) (s : State) : (finishWith pk q t id st r s).heat = s.heat := by unfold finishWith; split <;> dsimp only <;> (try split) <;> simp
@[simp] theorem finishWith_integ (pk : Option Nat) (q : Bool) (t id : Nat) (st : Byte) (r : BitVec 64) (s : State) : (finishWith pk q t id st r s).integ = s.integ := by unfold finishWith; split <;> dsimp only <;> (try split) <;> simp
@[simp] theorem finishWith_nor (pk : Option Nat) (q : Bool) (t id : Nat) (st : Byte) (r : BitVec 64) (s : State) : (finishWith pk q t id st r s).nor = s.nor := by unfold finishWith; split <;> dsimp only <;> (try split) <;> simp
@[simp] theorem finishWith_gov (pk : Option Nat) (q : Bool) (t id : Nat) (st : Byte) (r : BitVec 64) (s : State) : (finishWith pk q t id st r s).gov = s.gov := by unfold finishWith; split <;> dsimp only <;> (try split) <;> simp

/-! ### finish. The ordinary ending. -/

@[simp] theorem finish_pending (t id : Nat) (st : Byte) (r : BitVec 64) (s : State) : (finish t id st r s).pending = s.pending := by simp [finish]
@[simp] theorem finish_freeCount (t id : Nat) (st : Byte) (r : BitVec 64) (s : State) : (finish t id st r s).freeCount = s.freeCount := by simp [finish]
@[simp] theorem finish_aon (t id : Nat) (st : Byte) (r : BitVec 64) (s : State) : (finish t id st r s).aon = s.aon := by simp [finish]
@[simp] theorem finish_boot (t id : Nat) (st : Byte) (r : BitVec 64) (s : State) : (finish t id st r s).boot = s.boot := by simp [finish]
@[simp] theorem finish_isl (t id : Nat) (st : Byte) (r : BitVec 64) (s : State) : (finish t id st r s).isl = s.isl := by simp [finish]
@[simp] theorem finish_tun (t id : Nat) (st : Byte) (r : BitVec 64) (s : State) : (finish t id st r s).tun = s.tun := by simp [finish]
@[simp] theorem finish_pol (t id : Nat) (st : Byte) (r : BitVec 64) (s : State) : (finish t id st r s).pol = s.pol := by simp [finish]
@[simp] theorem finish_ctx (t id : Nat) (st : Byte) (r : BitVec 64) (s : State) : (finish t id st r s).ctx = s.ctx := by simp [finish]
@[simp] theorem finish_coll (t id : Nat) (st : Byte) (r : BitVec 64) (s : State) : (finish t id st r s).coll = s.coll := by simp [finish]
@[simp] theorem finish_heat (t id : Nat) (st : Byte) (r : BitVec 64) (s : State) : (finish t id st r s).heat = s.heat := by simp [finish]
@[simp] theorem finish_integ (t id : Nat) (st : Byte) (r : BitVec 64) (s : State) : (finish t id st r s).integ = s.integ := by simp [finish]
@[simp] theorem finish_nor (t id : Nat) (st : Byte) (r : BitVec 64) (s : State) : (finish t id st r s).nor = s.nor := by simp [finish]
@[simp] theorem finish_gov (t id : Nat) (st : Byte) (r : BitVec 64) (s : State) : (finish t id st r s).gov = s.gov := by simp [finish]

/-! ### fenced. Work behind the fence changes neither the queue, the always-on island, the start's standing nor the port's controls. -/

@[simp] theorem fenced_pending (f : State → State) (s : State) : (fenced f s).pending = s.pending := rfl
@[simp] theorem fenced_outbox (f : State → State) (s : State) : (fenced f s).outbox = (f s).outbox := rfl
@[simp] theorem fenced_freeCount (f : State → State) (s : State) : (fenced f s).freeCount = (f s).freeCount := rfl
@[simp] theorem fenced_aon (f : State → State) (s : State) : (fenced f s).aon = s.aon := rfl
@[simp] theorem fenced_isl (f : State → State) (s : State) : (fenced f s).isl = s.isl := rfl
@[simp] theorem fenced_tun (f : State → State) (s : State) : (fenced f s).tun = (f s).tun := rfl
@[simp] theorem fenced_trs (f : State → State) (s : State) : (fenced f s).trs = (f s).trs := rfl
@[simp] theorem fenced_cmd (f : State → State) (s : State) : (fenced f s).cmd = (f s).cmd := rfl
@[simp] theorem fenced_pol (f : State → State) (s : State) : (fenced f s).pol = (f s).pol := rfl
@[simp] theorem fenced_ctx (f : State → State) (s : State) : (fenced f s).ctx = (f s).ctx := rfl
@[simp] theorem fenced_tier (f : State → State) (s : State) : (fenced f s).tier = (f s).tier := rfl
@[simp] theorem fenced_coll (f : State → State) (s : State) : (fenced f s).coll = (f s).coll := rfl
@[simp] theorem fenced_heat (f : State → State) (s : State) : (fenced f s).heat = (f s).heat := rfl
@[simp] theorem fenced_fl (f : State → State) (s : State) : (fenced f s).fl = (f s).fl := rfl
@[simp] theorem fenced_core (f : State → State) (s : State) : (fenced f s).core = (f s).core := rfl
@[simp] theorem fenced_integ (f : State → State) (s : State) : (fenced f s).integ = (f s).integ := rfl
@[simp] theorem fenced_nor (f : State → State) (s : State) : (fenced f s).nor = (f s).nor := rfl
@[simp] theorem fenced_gov (f : State → State) (s : State) : (fenced f s).gov = (f s).gov := rfl
@[simp] theorem fenced_tele (f : State → State) (s : State) : (fenced f s).tele = (f s).tele := rfl
@[simp] theorem fenced_boot (f : State → State) (s : State) : (fenced f s).boot
    = { s.boot with earlyEvents := (f s).boot.earlyEvents, details := (f s).boot.details, logNext := (f s).boot.logNext } := rfl
@[simp] theorem fenced_link (f : State → State) (s : State) : (fenced f s).link
    = { s.link with msix := (f s).link.msix, vec := (f s).link.vec, 
                    cfg := { s.link.cfg with aerUncorr := (f s).link.cfg.aerUncorr, aerCorr := (f s).link.cfg.aerCorr } } := rfl

end Sys2Proof.Machine
end

