-- ==== Sys2Proof/Tests/Base.lean ====
section
/-! SUPPORT. The small states and descriptors that the tests and witnesses start from. -/

set_option Elab.async false

namespace Sys2Proof.Tests

open Sys2Proof Sys2Proof.Machine

/-- A descriptor from (byte, width in bytes, value) triples. -/
def mkd (l : List (Nat × Nat × Nat)) : Desc :=
  BitVec.ofNat 512 (l.foldl (fun a e => a + (e.2.2 % 2 ^ (8 * e.2.1)) * 2 ^ (8 * e.1)) 0)

/-- A device in service: port programmed, tenant 0 with volume 0, TRS 0 privileged and TRS 16 bound, both admitting requester 0x100. -/
def svc : State := { State.reset with
  boot := { mode := .service, stage := 5, memActive := true, mediaReady := true, mailboxReady := true, wdRunning := true },
  aon := { State.reset.aon with crystalGood := true, timebase := 1000000 },
  link := { State.reset.link with
    up := true, rate := .gt64, bar0 := some 0, bar2 := some 0, bar4 := some 0, dec0 := some 954, biEnable := true, biUsed := true,
    cfg := { memEnable := true, busMaster := true, msixEnable := true } },
  pol := {
    tenants := [(0, { t1q := 100000, t1max := 200000, frameq := 10000, framemax := 10000, t2q := 100000, chanMask := 0xFFFFFFFF,
                      wayMask := 0xFFFFFF, cap := 1000000000000 })],
    volumes := [{ vol := 0, tenant := 0, blocks := 100000 }] },
  isl := { released := [.alwaysOn, .hub, .link] },
  trs := [(0, { bind := { valid := true, priv := true, tenant := 0, vector := 1, rids := [0x100] } }),
          (16, { bind := { valid := true, tenant := 0, vector := 5, rids := [0x100] } })] }

/-- A state with commands held on TRS 0. -/
def holding (hs : List Held) : State := setTrs 0 { getTrs svc 0 with held := hs } svc

/-- A state as it is at a start stage. -/
def atStage (n : Nat) : State := { State.reset with boot := { mode := .starting, stage := n } }

/-- Engine `e` of core `c` as `g`, in the device in service. -/
def withEngine (c e : Nat) (g : Engine) (k : Core) : State :=
  { svc with core := { svc.core with cores := [(c, { k with engines := [(e, g)] })] } }

/-- Page of layer `l` of context 0, homed in T2. -/
def ctxPage (l : Nat) : Page := { owner := .kv 0 l 0 0, tenant := 0, home := .t2, backSlc := true, lastUse := 1000000 }

/-- A context of two layers of one head, 2 tokens, element format 0x1. -/
def ctx2 : Ctx := { live := true, layers := 2, hkv := 1, group := 1, dim := 64, fmt := 1, n := 2 }

/-- The device in service with context 0 of two pages. -/
def parked : State := { svc with
  ctx := { recs := [(0, ctx2)], nextNew := 1 },
  tier := { svc.tier with pages := [(0, ctxPage 0), (1, ctxPage 1)] } }

/-- Three codes of 256 bits, inserted as one. -/
def codes3 : List Code := [⟨0, 100, 0, 1, 1, none, none, none, 0, [], []⟩, ⟨1, 101, 0, 3, 1, none, none, none, 0, [], []⟩,
  ⟨2, 102, 0, 7, 1, none, none, none, 0, [], []⟩]

/-- The device in service with the FLAT collection 7 of 256-bit codes, three in its side list. -/
def collected : State := { svc with
  coll := [(7, { live := true, commitSeq := 1, nextOrd := 3, codes := codes3 })],
  tier := { svc.tier with pages := [(0, { owner := .coll 7 4 0, tenant := 0, home := .t2, backSlc := true, lastUse := 1000000 })] } }

/-- The running pattern's slots: one EMBED slot of 256 outputs, an ATTENTION, a COMPARE and a PREDICATE slot. -/
def slotted : State := { collected with pol := { svc.pol with slots :=
  [⟨1, 1, 2, 512, 256, 0, [], [], [], [], [], false, []⟩, ⟨2, 2, 1, 0, 0, 0, [], [], [], [], [], false, []⟩,
   ⟨3, 3, 1, 0, 0, 0, [], [], [], [], [], false, []⟩, ⟨4, 4, 2, 0, 0, 0, [], [], [], [], [], false, []⟩] } }

/-- Descriptors that their rows' checks pass on the states above. -/
def dRead : Desc := mkd [(8, 8, 3), (16, 4, 2), (24, 8, 0x20000), (32, 8, 0x2000)]
def dRelease : Desc := mkd [(8, 8, 3), (16, 4, 2)]
def dPark : Desc := mkd [(8, 2, 2), (10, 1, 1), (11, 1, 1), (12, 2, 64), (14, 1, 0x01), (16, 4, 2), (24, 8, 1024), (32, 8, 0x10000),
  (40, 8, 2048)]
def dExtend : Desc := mkd [(16, 4, 2), (24, 8, 1024), (32, 8, 0x10000), (40, 8, 2048)]
def dRecall : Desc := mkd [(10, 2, 2), (20, 4, 2), (24, 8, 1024), (32, 8, 0x30000), (40, 8, 2048), (56, 8, 0x50000)]
def dRecallTundish : Desc := mkd [(1, 1, 4), (10, 2, 2), (20, 4, 2), (24, 8, 1024), (40, 8, 2048), (56, 8, 0x50000)]
def dAttend : Desc := mkd [(10, 2, 2), (20, 4, 2), (24, 4, 0x3F800000), (32, 8, 0x60000), (40, 8, 0x1000)]
def dWarm : Desc := mkd [(10, 2, 1), (20, 4, 2)]
def dSearch : Desc := mkd [(4, 4, 7), (8, 2, 3), (10, 1, 1), (14, 2, 256), (16, 4, 8), (24, 8, 0x20000), (32, 8, 0x40000), (40, 8, 4096)]
def dInsert : Desc := mkd [(4, 4, 7), (8, 4, 5), (24, 8, 0x10000), (32, 8, 240)]
def dDelete : Desc := mkd [(4, 4, 7), (8, 4, 2), (24, 8, 0x10000), (32, 8, 16)]
def dCreate : Desc := mkd [(4, 4, 8)]
def dDescribe : Desc := mkd [(4, 4, 7), (8, 1, 2), (16, 8, 0x9000)]
def dFilter : Desc := mkd [(8, 8, 0), (16, 8, 4096), (32, 8, 0x10000), (40, 8, 0x11000), (48, 8, 0x12000), (56, 8, 4096)]
def dEmbed : Desc := mkd [(1, 1, 4), (8, 1, 1), (9, 1, 0xD), (24, 8, 48), (32, 8, 0x10000), (40, 4, 2), (48, 8, 0x12000), (56, 8, 4096)]
def dChain : Desc := mkd [(16, 8, 0x10000)]
def dChainSearch : Desc := mkd [(4, 4, 7), (16, 8, 0x10000)]
def dCounters : Desc := mkd [(16, 8, 0x9000), (24, 8, 192)]
def dDigests : Desc := mkd [(16, 8, 0x9000), (24, 8, 160)]
def dBind : Desc := mkd [(4, 4, 20), (10, 2, 9), (12, 1, 2), (16, 2, 0x200), (18, 2, 0x201)]
def dUnbind : Desc := mkd [(4, 4, 16), (8, 1, 1)]

/-- A step's next state, or the state itself where the step stops. -/
def after (c : Instr) (s : State) : State :=
  match step { s with pending := [c] } with
  | .next t => t
  | _ => s

end Sys2Proof.Tests
end

