-- ==== Sys2Proof/Tests/Slice0.lean ====
section
/-! SUPPORT. Tests: ill-formed commands refused, and values that the spec's tables and worked examples give. -/

set_option Elab.async false

namespace Sys2Proof.Tests

open Sys2Proof Sys2Proof.Machine

/-! ### Well-formedness: each check refuses an ill-formed term -/

theorem test_wf_accepts : (Instr.flush 4095 0x100 0).wf = true ∧ (Instr.tileDispatch 15 9 3 [] []).wf = true
    ∧ (Instr.cxlMemRead (tundishBytes - 64) 64).wf = true ∧ (Instr.islandRelease (.engine 15 9) 0 0).wf = true := by decide
theorem test_wf_trs : (Instr.flush 4096 0x100 0).wf = false := by decide
theorem test_wf_bar2_offset : (Instr.refusedBar2Access 0 4095 2 0).wf = false := by decide
theorem test_wf_window_offset : (Instr.registerWrite 0 0x7FFFC 8 0 0).wf = false := by decide
theorem test_wf_no_window : (Instr.registerWrite 3 0 4 0 0).wf = false := by decide
theorem test_wf_tb_now_offset : (Instr.tbNowRead 0 0x80000 4).wf = false := by decide
theorem test_wf_aperture : (Instr.cxlMemWrite (tundishBytes - 1) [0, 0] false).wf = false := by decide
theorem test_wf_aperture_read : (Instr.cxlMemRead tundishBytes 1).wf = false := by decide
theorem test_wf_doorbell : (Instr.stepDoorbell tundishBytes 0).wf = false := by decide
theorem test_wf_tb_set : (Instr.tbSetWrite 0x28 4 0).wf = false := by decide
theorem test_wf_vector : (Instr.holdoffExpiry 2048).wf = false := by decide
theorem test_wf_msix_entry : (Instr.msixUnmask 2048).wf = false := by decide
theorem test_wf_decoder : (Instr.hdmDecoderCommit 2 0 954 1 0 true).wf = false := by decide
theorem test_wf_island : (Instr.islandRelease (.flash 8) 0 0).wf = false := by decide
theorem test_wf_core : (Instr.coreControlFault 16).wf = false := by decide
theorem test_wf_engine : (Instr.engineIdleStop 0 10).wf = false := by decide
theorem test_wf_partition : (Instr.tileComplete 0 0 4 [] []).wf = false := by decide
theorem test_wf_semaphore : (Instr.semaphoreAcquire 0 0 0 32).wf = false := by decide
theorem test_wf_processor : (Instr.processorFault 36 true).wf = false := by decide
theorem test_wf_stack : (Instr.lowWaterEviction 16).wf = false := by decide
theorem test_wf_flash_island : (Instr.gcStart 8).wf = false := by decide
theorem test_wf_die : (Instr.nandOperationTimeout 0 17).wf = false := by decide
theorem test_wf_dram_channel : (Instr.dramCorrectableError 512 0 false .free).wf = false := by decide
theorem test_wf_region : (Instr.uncorrectableError 741 .journalStaging).wf = false := by decide
theorem test_wf_link : (Instr.laneRetrain 16 [] []).wf = false := by decide
theorem test_wf_sample : (Instr.governorSample ⟨48000, 9000, [1, 2, 3, 4], List.replicate 42 250⟩).wf = false := by decide
theorem test_wf_markers : (Instr.erLockAchieved (List.replicate 9 0)).wf = false := by decide
theorem test_wf_lane : (Instr.erErrorRateFallback 8 0).wf = false := by decide
theorem test_wf_log : (Instr.getEventRecords 4).wf = false := by decide

/-! ### Commands outside the machine stop; every command in it goes on -/

theorem test_no_such_trs : (match exec (.flush 4096 0x100 0) svc with
    | .fault .noSuchAddress => true
    | _ => false) = true := by decide +kernel
theorem test_step_empty : svc.pending = [] ∧ (∃ t, step svc = .next t ∧ t.pending = []) := ⟨rfl, _, rfl, rfl⟩
theorem test_table_words : decodeTableWord 16 7 = none := rfl

/-! ### 08: the example "one key block converted to MXFP8-E4M3": inputs 3.9, 0.1, −0.001, 0.0001 and 28 zeros as FP32 -/

def keyBlock : List Val :=
  ([0x4079999A, 0x3DCCCCCD, 0xBA83126F, 0x38D1B717] ++ List.replicate 28 0).map (fun w => ofFp32 (BitVec.ofNat 32 w))

theorem test_mx_block_example : mxBlock 3 keyBlock = (0x78, [0x7E, 0x55, 0xA0, 0x07] ++ List.replicate 28 0, 1) := by decide +kernel
/-- Table 77 column of the example: 3.5 and 0.1015625. -/
theorem test_mx_read_back : toFp32 (decodeMx 3 0x78 0x7E) = 0x40600000 ∧ toFp32 (decodeMx 3 0x78 0x55) = 0x3DD00000 := by decide +kernel
theorem test_mx_special : mxBlock 3 (.nan :: List.replicate 31 (.num false 1 0)) = (0xFF, List.replicate 32 0, 0) := by decide +kernel

/-! ### 09: the example "one row through late scaling" -/

/-- The scale records of the weight (INT8, ZPT 1, code 0x38, S2 = 2^−7), the activation (UINT8, ZP 0, code 0x40, S2 = 2^−5) and the output
(INT8, code 0x30, S2 = 2^−6). -/
def lateScales : List ScaleRec :=
  [⟨0x9, true, 0, false, 0, 1, 0x3C000000, 4, [0x38], [1]⟩, ⟨0xA, true, 1, false, 0, 1, 0x3D000000, 4, [0x40], [0]⟩,
   ⟨0x9, true, 1, false, 0, 1, 0x3C800000, 4, [0x30], [0]⟩]

theorem test_late_scales : lateScales.map (fun r => (learnedScale r 0, effZero r 0))
    = [(0x3C000000, 1), (0x3D800000, 128), (0x3C000000, 0)] := by decide +kernel
theorem test_late_preload : preloadTerm 4 6 1 128 = -256 := by decide
theorem test_late_row : rowFactor 0x3C000000 0x3D800000 = 0x3A000000 ∧ lateValue 578 1 518 0x3A000000 = 0x3CF00000 := by decide +kernel
theorem test_late_output : fp32Recip 0x3C000000 = 0x43000000 ∧ outConvert 0x43000000 0 (-128) 127 0x3CF00000 = (4, false, false, 4)
    ∧ rangeUse 0 (-128) 127 4 = 0x3D010204 := by decide +kernel

/-! ### 09: the example "a multiplier over a run of batches": CLIP_HI 0.1%, 1,048,576 values -/

theorem test_adapt_step1 : adaptUpdate 10 1048576 3146 0 { quiet := 5 } = { mult := 0x3FA00000 } := by decide +kernel
theorem test_adapt_step3 : adaptUpdate 10 1048576 524 0 { mult := 0x3FC80000, quiet := 5 } = { mult := 0x3FC80000 } := by decide +kernel
theorem test_adapt_step5 : adaptUpdate 10 1048576 0 0x3EE147AE { mult := 0x3FC80000, quiet := 63 } = { mult := 0x3FC1EB85 + 0x147B } := by
  decide +kernel
theorem test_adapt_clamped : adaptUpdate 10 1048576 3146 0 { mult := 0x40747AE1 } = { mult := 0x40800000, pinned := true } := by decide +kernel

/-! ### Check values: CRC-32 and CRC-64 of "123456789", SHAKE256 of the empty message (FIPS 202) -/

def nine : List Byte := [0x31, 0x32, 0x33, 0x34, 0x35, 0x36, 0x37, 0x38, 0x39]

theorem test_crc32 : crc32 nine = 0xCBF43926 := by decide +kernel
theorem test_crc64 : crc64 nine = 0x995DC9BBDF1939FA := by decide +kernel
theorem test_shake256 : (digest32 []).take 8 = [0x46, 0xB9, 0xDD, 0x2B, 0x0B, 0xA8, 0x8D, 0x13] := by decide +kernel

/-- FIPS 197: the S-box of 0x53 is 0xED, and back; FIPS 197, 5.1.3's matrix on the column DB 13 53 45. -/
theorem test_aes_box : aesSub 0x53 = 0xED ∧ aesUnsub 0xED = 0x53 := by decide +kernel
theorem test_aes_columns : (aesMix [2, 3, 1, 1] ([0xDB, 0x13, 0x53, 0x45] ++ List.replicate 12 0)).take 4 = [0x8E, 0x4D, 0xA1, 0xBC] := by
  decide +kernel

/-! ### 03: TRS registers, acceptance and retirement -/

/-- 03's example, step 5: HEAD = RUNNING, HELD = 3. -/
theorem test_state_word : stateWord { held := [{ id := 1, desc := 0, phase := .running }, { id := 2, desc := 0, phase := .accepted },
    { id := 3, desc := 0, phase := .done }] } = 0x302 := by decide
/-- The head of an empty TRS reads 0. -/
theorem test_state_word_empty : stateWord {} = 0 := by decide
/-- 03 Table 34: a reserved byte that is not zero ends the command INVALID_FIELD with that byte named. -/
theorem test_nop_reserved : (((after (.goSubmitNop 0 0x100 (mkd [(9, 1, 1)])) svc).trs.head?.map (·.2.held)).getD []).map
    (fun h => (h.phase, h.status, h.byte)) = [(.error, 0x03, 9)] := by decide +kernel
theorem test_nop_done : (((after (.goSubmitNop 0 0x100 0) svc).trs.head?.map (·.2.held)).getD []).map (fun h => (h.phase, h.status))
    = [(.done, 0)] := by decide +kernel
/-- A requester that the binding does not admit submits nothing. -/
theorem test_not_admitted : (after (.goSubmitNop 0 0x101 0) svc).trs = svc.trs := by decide +kernel

/-! ### 02, 13, 15: registers, reset and quench -/

theorem test_reset_link : State.reset.link.up = false ∧ State.reset.boot.mode = .starting ∧ State.reset.pending = [] := by decide +kernel
theorem test_por : (after .porAssert svc).aon.porAsserted = true := by decide +kernel
/-- 15's example: 15.3 A at 48 V is above the threshold of 15.0 A; 15.0 A is not. -/
theorem test_quench_above : (after (.quenchOvercurrent 15300) svc).gov.quench = true := by decide +kernel
theorem test_quench_at : (after (.quenchOvercurrent 15000) svc).gov.quench = false := by decide +kernel
theorem test_timestamp : (after (.setTimestamp 77) svc).aon.timebase = 77 := by decide +kernel

/-! ### 12: the example "a hard fault and a marginal channel" -/

/-- Step 2: with four entries recorded the fifth, entry 4, is engaged. -/
theorem test_remap_fifth : (after (.dramCorrectableError 115 9 true .free)
      { svc with integ := { svc.integ with remap := [(1840, 1), (1841, 2), (1842, 3), (1843, 4)] } }).integ.remap
    = [(1840, 1), (1841, 2), (1842, 3), (1843, 4), (1844, 10)] := by decide +kernel
/-- Step 5: the error that takes the level above 64 sets it to 0. -/
theorem test_bucket_full : SMap.find 7 (after (.dramCorrectableError 116 9 false .free)
      { svc with integ := { svc.integ with buckets := [(116, 64)] } }).integ.buckets 116 = 7
    ∧ SMap.find 0 (after (.dramCorrectableError 116 9 false .free)
      { svc with integ := { svc.integ with buckets := [(116, 63)] } }).integ.buckets 116 = 64 := by decide +kernel

/-! ### 02: Extended Rate framing -/

/-- Table 22 in byte order: the fixed pattern, lane 3, block 0x12. -/
theorem test_marker_head : markerHead 3 0x12 = [0x63, 0xC9, 0xF0, 0x35, 0x9C, 0x6A, 0x23, 0x01] := by decide +kernel
/-- A codeword is zero at the generator's thirty roots. -/
theorem test_codeword_roots : (List.range 30).all (fun j => polyAt (gfPow j) ([5, 7, 1000] ++ rsParity [5, 7, 1000]) == 0) = true := by
  decide +kernel
/-- R65: 00, 01, 11, 10 are -3, -1, +1, +3. -/
theorem test_gray : (grayLevels [false, false, false, true, true, true, true, false]).map pamLevel = [-3, -1, 1, 3] := by decide +kernel

end Sys2Proof.Tests
end

