-- ==== Sys2Proof/Tests/Witness1.lean ====
section
/-! SUPPORT. Witnesses: states and operands that meet the hypotheses of the statements about the block as a whole, reset and start. -/

set_option Elab.async false

namespace Sys2Proof.Tests

open Sys2Proof Sys2Proof.Machine

theorem witness_StepRunsFrontCommand :
    (∃ (c : Instr) (rest : List Instr) (s : State), s.pending = c :: rest)
    ∧ (∃ s : State, s.pending = [] ∧ s.aon.crystalGood = true ∧ s.aon.porAsserted = false)
    ∧ (∃ s : State, s.pending = [] ∧ s.aon.crystalGood = true ∧ s.aon.porAsserted = false ∧ s.boot.mode ≠ .service
        ∧ s.boot.mode ≠ .starting)
    ∧ (∃ (s : State) (c e : Nat), s.pending = [] ∧ s.aon.crystalGood = true ∧ s.aon.porAsserted = false ∧ s.boot.mode = .service
        ∧ SMap.wf {} s.core.cores = true ∧ SMap.wf {} (getCore s c).engines = true ∧ getEngine s c e ≠ {})
    ∧ (∃ s : State, s.pending = [] ∧ (s.aon.crystalGood = false ∨ s.aon.porAsserted = true)) :=
  ⟨⟨.stageS0, [.stageS2], { svc with pending := [.stageS0, .stageS2] }, rfl⟩, ⟨svc, by decide +kernel⟩,
   ⟨{ svc with boot := { svc.boot with mode := .inReset } }, by decide +kernel⟩, ⟨withEngine 0 0 { pass := true } {}, 0, 0, by decide +kernel⟩,
   ⟨State.reset, by decide +kernel⟩⟩

/-- 15 R446: at s = 0 an engine runs 144 cycles in 40 ns, at s = 128 a third of that; a stopped engine only counts its time. -/
theorem test_engine_clock :
    (clocked 0 { stopped := false }).cycles = 144 ∧ (clocked 128 { stopped := false }).cycles = 48
    ∧ (clocked 0 { stopped := true }).cycles = 0 ∧ (clocked 0 { stopped := true }).stoppedNs = 40 := by decide +kernel

theorem witness_CommandsGoOnExactlyWhereAddressesExist :
    (∃ i : Instr, i.reaches = true) ∧ (∃ i : Instr, i.reaches = false) :=
  ⟨⟨.qresetComplete 4095, by decide⟩, ⟨.qresetComplete 4096, by decide⟩⟩

/-- The device in service is lawful. -/
theorem svc_lawful : Lawful svc :=
  ⟨⟨by decide +kernel, by decide +kernel, by decide +kernel, (by intro a h; cases h; decide), (by intro a h; cases h; decide),
    (by intro a h; cases h; decide)⟩,
   ⟨by decide, by decide, (by intro h; cases h), (by intro _; rfl), (by intro h; cases h), (by intro h; cases h)⟩, by decide⟩

theorem witness_LawfulKeptByEveryStep : ∃ s t : State, Lawful s ∧ step s = .next t :=
  ⟨svc, _, svc_lawful, rfl⟩

theorem witness_ModeChangesOnlyAlongItsArcs :
    ∃ (i : Instr) (s t : State), exec i s = .next t ∧ t.boot.mode ≠ s.boot.mode :=
  ⟨.porAssert, atStage 0, _, rfl, by decide +kernel⟩

theorem witness_TimebaseChangesOnlyByResetOrSet :
    ∃ (i : Instr) (s t : State), exec i s = .next t ∧ t.aon.timebase ≠ s.aon.timebase :=
  ⟨.setTimestamp 5, svc, _, rfl, by decide +kernel⟩

theorem witness_ResetsAndInputLossTakeHold :
    (∃ s : State, s.boot.flushing = false ∧ (s.boot.mode = .service ∨ s.boot.mode = .fettle ∨ s.boot.mode = .expired))
    ∧ (∃ s : State, s.boot.flushing = true)
    ∧ (∃ s : State, s.boot.flushing = false ∧ (s.boot.mode = .inReset ∨ s.boot.mode = .starting ∨ s.boot.mode = .halted))
    ∧ (∃ s : State, s.aon.porAsserted = true ∧ s.gov.powerLost = false ∧ s.aon.pinAsserted = false ∧ s.boot.mode = .inReset
        ∧ s.boot.flushing = false)
    ∧ (∃ ns : Nat, ns < 10000)
    ∧ (∃ (s : State) (ns : Nat), 10000 ≤ ns ∧ s.aon.pinAsserted = false ∧ s.aon.porAsserted = false ∧ s.boot.flushing = false
        ∧ (s.boot.mode = .service ∨ s.boot.mode = .fettle ∨ s.boot.mode = .expired))
    ∧ (∃ (s : State) (ns : Nat), 10000 ≤ ns ∧ s.aon.pinAsserted = false ∧ s.aon.porAsserted = false ∧ s.boot.flushing = false
        ∧ (s.boot.mode = .inReset ∨ s.boot.mode = .starting ∨ s.boot.mode = .halted))
    ∧ (∃ s : State, s.aon.pinAsserted = true ∧ s.aon.porAsserted = false ∧ s.boot.mode = .inReset ∧ s.boot.flushing = false)
    ∧ (∃ s : State, s.aon.pinAsserted = true ∧ s.aon.porAsserted = true)
    ∧ (∃ (s : State) (mv ns : Nat), ((mv < 38000 ∧ 5000 < ns) ∨ 62000 < mv) ∧ s.boot.mode = .service ∧ s.boot.flushing = false)
    ∧ (∃ mv : Nat, 38000 ≤ mv ∧ mv ≤ 62000)
    ∧ (∃ s : State, s.boot.flushing = true ∧ (s.aon.porAsserted = true ∨ s.aon.pinAsserted = true))
    ∧ (∃ s : State, s.boot.flushing = true ∧ s.aon.porAsserted = false ∧ s.aon.pinAsserted = false)
    ∧ (∃ (s : State) (lo hi ns : Nat), s.gov.powerLost = true ∧ s.boot.flushing = false ∧ s.boot.mode = .inReset
        ∧ s.aon.porAsserted = true ∧ s.aon.pinAsserted = false ∧ 40000 ≤ lo ∧ hi ≤ 60000 ∧ 100000000 ≤ ns)
    ∧ (∃ lo hi ns : Nat, (lo < 40000 ∨ 60000 < hi ∨ ns < 100000000)) :=
  let por := { State.reset with aon := { State.reset.aon with porAsserted := true }, boot := { mode := .inReset } }
  let pin := { State.reset with aon := { State.reset.aon with pinAsserted := true }, boot := { mode := .inReset } }
  ⟨⟨svc, by decide +kernel⟩, ⟨{ por with boot := { mode := .inReset, flushing := true } }, rfl⟩, ⟨State.reset, by decide +kernel⟩,
   ⟨por, by decide +kernel⟩, ⟨9999, by decide⟩, ⟨svc, 10000, by decide +kernel⟩, ⟨State.reset, 10000, by decide +kernel⟩,
   ⟨pin, by decide +kernel⟩, ⟨{ pin with aon := { pin.aon with porAsserted := true } }, by decide +kernel⟩,
   ⟨svc, 37999, 5001, by decide +kernel⟩, ⟨38000, by decide⟩,
   ⟨{ por with boot := { mode := .inReset, flushing := true } }, by decide +kernel⟩,
   ⟨{ State.reset with boot := { mode := .inReset, flushing := true } }, by decide +kernel⟩,
   ⟨{ por with gov := { por.gov with powerLost := true } }, 40000, 60000, 100000000, by decide +kernel⟩,
   ⟨39999, 60000, 100000000, by decide⟩⟩

theorem witness_LinkResetClearsPortAndTundish : (∃ s : State, configUp s = true) ∧ (∃ s : State, configUp s = false) :=
  ⟨⟨svc, by decide +kernel⟩, ⟨State.reset, by decide +kernel⟩⟩

theorem witness_IslandsReleaseOrFail :
    (∃ (s : State) (c ns : Nat), 64 ≤ c ∧ 2000 ≤ ns ∧ Island.alwaysOn ∉ s.isl.released ∧ Island.alwaysOn ∉ s.isl.failed
        ∧ mayRelease s .alwaysOn = true ∧ s.boot.mode = .starting)
    ∧ (∃ (s : State) (i : Island) (c ns : Nat), i ≠ .alwaysOn ∧ (∀ x e, i ≠ .engine x e) ∧ 64 ≤ c ∧ 2000 ≤ ns ∧ i ∉ s.isl.released
        ∧ i ∉ s.isl.failed ∧ mayRelease s i = true ∧ (s.boot.mode = .starting ∨ s.boot.mode = .service))
    ∧ (∃ (s : State) (c e cy ns : Nat), 64 ≤ cy ∧ 2000 ≤ ns ∧ Island.engine c e ∉ s.isl.released ∧ Island.engine c e ∉ s.isl.failed
        ∧ mayRelease s (.engine c e) = true ∧ s.boot.mode = .service)
    ∧ (∃ c ns : Nat, c < 64 ∨ ns < 2000)
    ∧ (∃ (s : State) (i : Island), (i = .hub ∨ i = .link) ∧ i ∉ s.isl.released ∧ i ∉ s.isl.failed ∧ timeoutCounts s i = true)
    ∧ (∃ (s : State) (n : Nat), Island.core n ∉ s.isl.released ∧ Island.core n ∉ s.isl.failed ∧ timeoutCounts s (.core n) = true)
    ∧ (∃ (s : State) (n : Nat), Island.flash n ∉ s.isl.released ∧ Island.flash n ∉ s.isl.failed ∧ timeoutCounts s (.flash n) = true)
    ∧ (∃ (s : State) (c e : Nat), Island.engine c e ∉ s.isl.released ∧ Island.engine c e ∉ s.isl.failed
        ∧ timeoutCounts s (.engine c e) = true ∧ s.boot.mode = .starting)
    ∧ (∃ (s : State) (c e : Nat), Island.engine c e ∉ s.isl.released ∧ Island.engine c e ∉ s.isl.failed
        ∧ timeoutCounts s (.engine c e) = true ∧ s.boot.mode = .service)
    ∧ (∃ (s : State) (i : Island), timeoutCounts s i = false) :=
  ⟨⟨atStage 0, 64, 2000, by decide +kernel⟩, ⟨atStage 1, .hub, 64, 2000, by decide, (by intro x e h; cases h), by decide +kernel⟩,
   ⟨withEngine 15 9 { pass := true, logical := some 7 } {}, 15, 9, 64, 2000, by decide +kernel⟩, ⟨63, 2000, by decide⟩,
   ⟨atStage 1, .link, by decide, by decide +kernel⟩, ⟨atStage 3, 15, by decide +kernel⟩, ⟨atStage 3, 7, by decide +kernel⟩,
   ⟨atStage 3, 15, 9, by decide +kernel⟩, ⟨withEngine 15 9 { pass := true, logical := some 7 } {}, 15, 9, by decide +kernel⟩,
   ⟨atStage 3, .core 16, by decide +kernel⟩⟩

theorem witness_SlotIsChosenAndEnginesAreFormed :
    (∃ s : State, Starting 2 s)
    ∧ (∃ (s : State) (r : S3Report), Starting 3 s ∧ fillFails (tested r s) r ≠ [])
    ∧ (∃ (s : State) (r : S3Report), Starting 3 s ∧ fillFails (tested r s) r = [] ∧ ∃ c, c < 16 ∧ 3 < (engFails (tested r s) r c).length)
    ∧ (∃ (s : State) (r : S3Report), Starting 3 s ∧ fillFails (tested r s) r = [] ∧ ∀ c, c < 16 → (engFails (tested r s) r c).length ≤ 3) :=
  let report : S3Report := ⟨[], [], [], [], [], []⟩
  ⟨⟨atStage 2, rfl, rfl⟩, ⟨atStage 3, { report with fill := [.stack 15] }, ⟨rfl, rfl⟩, by decide +kernel⟩,
   ⟨atStage 3, { report with engines := [(15, 0, .array), (15, 1, .clock), (15, 2, .vector), (15, 9, .scratchpad)] }, ⟨rfl, rfl⟩, by decide +kernel, 15, by decide, by decide +kernel⟩,
   ⟨atStage 3, { report with engines := [(15, 0, .array), (15, 1, .clock), (15, 9, .scratchpad)] }, ⟨rfl, rfl⟩, by decide +kernel, by decide +kernel⟩⟩

theorem witness_LastStagesOpenService :
    (∃ s : State, Starting 4 s ∧ s.boot.mapRebuilt = false)
    ∧ (∃ s : State, Starting 4 s ∧ s.boot.mapRebuilt = false ∧ s.boot.bankReported = false)
    ∧ (∃ s : State, s.boot.mode = .starting ∧ ¬(s.boot.stage = 4 ∧ s.boot.mapRebuilt = true))
    ∧ (∃ (s : State) (cells : List (Nat × Nat)), Starting 4 s ∧ s.boot.mapRebuilt = true ∧ ∀ c ∈ cells, c.1 < 900 ∨ 50 < c.2)
    ∧ (∃ s : State, Starting 4 s ∧ s.boot.mapRebuilt = true ∧ s.boot.bankReported = true ∧ bankFailed s = false) :=
  let built := { atStage 4 with boot := { (atStage 4).boot with mapRebuilt := true, bankReported := true } }
  ⟨⟨atStage 4, ⟨rfl, rfl⟩, rfl⟩, ⟨atStage 4, ⟨rfl, rfl⟩, rfl, rfl⟩, ⟨atStage 4, by decide +kernel⟩,
   ⟨built, List.replicate 9 (899, 50), ⟨rfl, rfl⟩, rfl, by decide⟩,
   ⟨{ built with gov := { built.gov with charged := true, bankTested := true, cells := List.replicate 9 ⟨900, 50, false⟩ } },
    ⟨rfl, rfl⟩, rfl, rfl, by decide +kernel⟩⟩

theorem witness_FirstStagesLimitsAndWatchdog :
    (∃ s : State, Starting 0 s) ∧ (∃ s : State, Starting 1 s) ∧ (∃ s : State, Starting 2 s) ∧ (∃ s : State, Starting 3 s)
    ∧ (∃ s : State, Starting 4 s) ∧ (∃ (s : State) (n : Nat), Starting n s ∧ 2 ≤ n)
    ∧ (∃ s : State, s.boot.wdRunning = true ∧ (s.boot.mode = .service ∨ s.boot.mode = .fettle)) :=
  ⟨⟨atStage 0, rfl, rfl⟩, ⟨atStage 1, rfl, rfl⟩, ⟨atStage 2, rfl, rfl⟩, ⟨atStage 3, rfl, rfl⟩, ⟨atStage 4, rfl, rfl⟩,
   ⟨atStage 4, 4, ⟨rfl, rfl⟩, by decide⟩, ⟨svc, by decide +kernel⟩⟩

end Sys2Proof.Tests
end

