-- ==== Sys2Proof/Tests/Witness2.lean ====
section
/-! SUPPORT. Witnesses of the statements about commands on TRS pages: acceptance, start, endings. -/

set_option Elab.async false

namespace Sys2Proof.Tests

open Sys2Proof Sys2Proof.Machine

/-- A page that starts a command at once, as a Bool. -/
def startsB (s : State) (p : Nat) (rid : BitVec 16) (d : Desc) : Bool :=
  decide (p < 4096 ∧ s.boot.mode = .service ∧ decodes s s.link.bar2 = true ∧ admits s p rid = true ∧ (getTrs s p).held = []
    ∧ (getTrs s p).resetting = false ∧ s.cmd.locks = [] ∧ (allHeld s).all (fun e => !e.2.waitLock) = true)
  && decide (earlyFail (arrived s p d) p d = none) && !waitsAtSeven s d && decide (resourceFail (arrived s p d) p d = none)
  && decide (objectGone s d = none) && decide (startFail (begun s p d) d = none)

theorem starts_of (s : State) (p : Nat) (rid : BitVec 16) (d : Desc) (h : startsB s p rid d = true) : Starts s p rid d := by
  simp only [startsB, Bool.and_eq_true, decide_eq_true_eq, Bool.not_eq_true'] at h
  exact ⟨h.1.1.1.1.1, h.1.1.1.1.2, h.1.1.1.2, h.1.1.2, h.1.2, h.2⟩

theorem witness_ChecksRunInOrder :
    ∃ (i : Instr) (s : State) (p : Nat) (rid : BitVec 16) (c : Desc), i.command = some (p, rid, c) ∧ p < 4096
      ∧ (∃ s : State, decodes s s.link.bar2 = false)
      ∧ (∃ rid2, decodes s s.link.bar2 = true ∧ s.boot.mode = .service ∧ admits s p rid2 = false)
      ∧ (∃ s2, decodes s2 s2.link.bar2 = true ∧ s2.boot.mode = .service ∧ admits s2 p rid = true ∧ (32 ≤ (getTrs s2 p).held.length))
      ∧ (∃ c2 f, OpenPage s p rid ∧ earlyFail (arrived s p c2) p c2 = some f)
      ∧ (∃ s2 c2, OpenPage s2 p rid ∧ earlyFail (arrived s2 p c2) p c2 = none ∧ waitsAtSeven s2 c2 = true)
      ∧ (∃ s2 c2 st, OpenPage s2 p rid ∧ earlyFail (arrived s2 p c2) p c2 = none ∧ waitsAtSeven s2 c2 = false
          ∧ resourceFail (arrived s2 p c2) p c2 = some st)
      ∧ (∃ s2 c2, decodes s2 s2.link.bar2 = true ∧ s2.boot.mode = .service ∧ admits s2 p rid = true ∧ (getTrs s2 p).held = []
          ∧ (getTrs s2 p).resetting = false ∧ earlyFail (arrived s2 p c2) p c2 = none ∧ waitsAtSeven s2 c2 = false
          ∧ resourceFail (arrived s2 p c2) p c2 = none ∧ (lockOf s2 c2).isSome = true ∧ 1024 ≤ s2.cmd.locks.length) :=
  ⟨.goSubmitNop 0 0x100 0, svc, 0, 0x100, setDescByte 0 0 0, rfl, by decide, ⟨State.reset, by decide +kernel⟩, ⟨0x101, by decide +kernel⟩,
   ⟨holding (List.replicate 32 { id := 0, desc := 0, phase := .done }),
     by decide +kernel⟩,
   ⟨setDescByte 0 0 0xFF, (0x02, none), by unfold OpenPage; decide +kernel⟩,
   ⟨{ svc with fl := { svc.fl with reserveReady := false } }, setDescByte dRead 0 0x02, by unfold OpenPage; decide +kernel⟩,
   ⟨{ svc with pol := { svc.pol with tenants := [(0, { cap := 0 })] } }, setDescByte dPark 0 0x10, 0x07,
     by unfold OpenPage; decide +kernel⟩,
   ⟨{ svc with cmd := { svc.cmd with locks := List.replicate 1024 ⟨0, 0, 0, false, []⟩ } }, setDescByte dRead 0 0x01,
     by decide +kernel⟩⟩

theorem witness_AcceptedCommandStarts :
    ∃ (i : Instr) (s : State) (p : Nat) (rid : BitVec 16) (c : Desc), i.command = some (p, rid, c) ∧ Starts s p rid c :=
  ⟨.read 0 0x100 dRead, svc, 0, 0x100, setDescByte dRead 0 0x01, rfl, starts_of _ _ _ _ (by decide +kernel)⟩

theorem witness_NopInvalidAndFettleEnd :
    (∃ (s : State) (p : Nat) (rid : BitVec 16) (d c : Desc), c = setDescByte d 0 0 ∧ Starts s p rid c)
    ∧ (∃ (s : State) (p : Nat) (rid : BitVec 16), OpenPage s p rid)
    ∧ (∃ (i : Instr) (s : State) (p : Nat) (rid : BitVec 16) (c : Desc), i.command = some (p, rid, c) ∧ p < 4096
        ∧ s.boot.mode = .fettle ∧ decodes s s.link.bar2 = true ∧ admits s p rid = true ∧ (getTrs s p).held = []
        ∧ (getTrs s p).resetting = false) :=
  ⟨⟨svc, 0, 0x100, 0, _, rfl, starts_of _ _ _ _ (by decide +kernel)⟩, ⟨svc, 0, 0x100, by unfold OpenPage; decide +kernel⟩,
   ⟨.flush 0 0x100 0, { svc with boot := { svc.boot with mode := .fettle, fettleReason := 7 } }, 0, 0x100, _, rfl,
    by decide +kernel⟩⟩

/-- The write buffer full. -/
def bufferFull : State := { svc with fl := { svc.fl with wbuf := List.replicate bufferUnits { unit := 7 } } }

theorem bufferFull_used : bufferUsed bufferFull = bufferUnits := by
  simp [bufferUsed, bufferFull]

theorem witness_ReadAndReleaseServeTheirBlocks :
    (∃ (s : State) (p : Nat) (rid : BitVec 16) (d c : Desc) (k : Nat) (st : Byte), c = setDescByte d 0 0x01 ∧ Starts s p rid c
      ∧ readPrefix s (bitOf (fld c 1 1) 1) (objOf c) (fld c 8 8) (fld c 16 4) = (k, st))
    ∧ (∃ (s : State) (p : Nat) (rid : BitVec 16) (d c : Desc), c = setDescByte d 0 0x04 ∧ Starts s p rid c
        ∧ releaseRoom s c = true ∧ (∃ k, k < fld c 8 8 ∧ unitStatus s (blockUnit s (objOf c) k) = stOk))
    ∧ (∃ (s : State) (p : Nat) (rid : BitVec 16) (d c : Desc), c = setDescByte d 0 0x04 ∧ Starts s p rid c
        ∧ releaseRoom s c = false) :=
  ⟨⟨svc, 0, 0x100, dRead, _, 2, 0, rfl, starts_of _ _ _ _ (by decide +kernel), by decide +kernel⟩,
   ⟨svc, 0, 0x100, dRelease, _, rfl, starts_of _ _ _ _ (by decide +kernel), by decide +kernel, 2, by decide +kernel⟩,
   ⟨bufferFull, 0, 0x100, dRelease, _, rfl, starts_of _ _ _ _ (by decide +kernel),
    by simp only [releaseRoom, bufferRoom, bufferFull_used]; decide +kernel⟩⟩

theorem witness_BindAndUnbindSetTheTarget :
    (∃ (s : State) (p : Nat) (rid : BitVec 16) (d c : Desc), c = setDescByte (firstSelector d 8 1) 0 0x50 ∧ Starts s p rid c)
    ∧ (∃ (s : State) (p : Nat) (rid : BitVec 16) (d c : Desc), c = setDescByte (setDescByte d 8 1) 0 0x50 ∧ Starts s p rid c
        ∧ ∀ h ∈ (getTrs s (objOf c)).held, h.op ≠ 0x13) :=
  ⟨⟨svc, 0, 0x100, dBind, _, rfl, starts_of _ _ _ _ (by decide +kernel)⟩,
   ⟨svc, 0, 0x100, dUnbind, _, rfl, starts_of _ _ _ _ (by decide +kernel), by decide +kernel⟩⟩

theorem witness_CommandsFetchTheirInput :
    (∃ (s : State) (p : Nat) (rid : BitVec 16) (d c : Desc), c = setDescByte d 0 0x03 ∧ Starts s p rid c)
    ∧ (∃ (s : State) (p : Nat) (rid : BitVec 16) (d c : Desc), c = setDescByte d 0 0x02 ∧ Starts s p rid c)
    ∧ (∃ (s : State) (p : Nat) (rid : BitVec 16) (d c : Desc), c = setDescByte d 0 0x21 ∧ Starts s p rid c)
    ∧ (∃ (s : State) (p : Nat) (rid : BitVec 16) (d c : Desc), c = setDescByte d 0 0x22 ∧ Starts s p rid c)
    ∧ (∃ a n, ∃ r, r ∈ fetch a n)
    ∧ (∃ (s : State) (p : Nat) (rid : BitVec 16) (d c : Desc), c = setDescByte d 0 0x20 ∧ Starts s p rid c)
    ∧ (∃ (s : State) (p : Nat) (rid : BitVec 16) (d c : Desc), c = setDescByte d 0 0x30 ∧ Starts s p rid c)
    ∧ (∃ (s : State) (p : Nat) (rid : BitVec 16) (d c : Desc), c = setDescByte d 0 0x31 ∧ Starts s p rid c)
    ∧ (∃ (s : State) (p : Nat) (rid : BitVec 16) (d c : Desc), c = setDescByte (firstSelector d 8 1) 0 0x32 ∧ Starts s p rid c)
    ∧ (∃ (s : State) (p : Nat) (rid : BitVec 16) (d c : Desc), c = setDescByte (setDescByte d 8 1) 0 0x32 ∧ Starts s p rid c)
    ∧ (∃ (s : State) (p : Nat) (rid : BitVec 16) (d c : Desc), c = setDescByte d 0 0x10 ∧ isStaged c = false ∧ Starts s p rid c)
    ∧ (∃ (s : State) (p : Nat) (rid : BitVec 16) (d c : Desc) (x : Ctx), c = setDescByte d 0 0x11 ∧ isStaged c = false
        ∧ Starts s p rid c ∧ ctxOf s (objOf c) = some x) :=
  ⟨⟨svc, 0, 0x100, 0, _, rfl, starts_of _ _ _ _ (by decide +kernel)⟩,
   ⟨svc, 0, 0x100, dRead, _, rfl, starts_of _ _ _ _ (by decide +kernel)⟩,
   ⟨collected, 0, 0x100, dInsert, _, rfl, starts_of _ _ _ _ (by decide +kernel)⟩,
   ⟨collected, 0, 0x100, dDelete, _, rfl, starts_of _ _ _ _ (by decide +kernel)⟩,
   ⟨0xFFF, 2, (0xFFF, 1), by decide⟩,
   ⟨collected, 0, 0x100, dSearch, _, rfl, starts_of _ _ _ _ (by decide +kernel)⟩,
   ⟨slotted, 0, 0x100, dFilter, _, rfl, starts_of _ _ _ _ (by decide +kernel)⟩,
   ⟨slotted, 0, 0x100, dEmbed, _, rfl, starts_of _ _ _ _ (by decide +kernel)⟩,
   ⟨slotted, 0, 0x100, dChain, _, rfl, starts_of _ _ _ _ (by decide +kernel)⟩,
   ⟨slotted, 0, 0x100, dChainSearch, _, rfl, starts_of _ _ _ _ (by decide +kernel)⟩,
   ⟨svc, 0, 0x100, dPark, _, rfl, by decide +kernel, starts_of _ _ _ _ (by decide +kernel)⟩,
   ⟨parked, 0, 0x100, dExtend, _, ctx2, rfl, by decide +kernel, starts_of _ _ _ _ (by decide +kernel), by decide +kernel⟩⟩

end Sys2Proof.Tests
end

