-- ==== Sys2Proof/Tests/Witness3.lean ====
section
/-! SUPPORT. Witnesses of the statements about contexts, collections, counters, and retiring and resetting a page. -/

set_option Elab.async false

namespace Sys2Proof.Tests

open Sys2Proof Sys2Proof.Machine

/-- A place is found where the first fit finds one. -/
theorem tunPlace_exists (s : State) (len : Nat) (h : (firstFit s len).isSome = true) : ∃ base, tunPlace s len = some base := by
  unfold tunPlace
  simp only
  split
  · exact ⟨_, rfl⟩
  · exact Option.isSome_iff_exists.mp h

/-- One region over the whole tundish leaves no place. -/
theorem tunPlace_full (s : State) (len : Nat) (hl : 0 < len) (h : ∃ r ∈ s.tun.regions, r.base = 0 ∧ r.len = tundishSize) :
    tunPlace s len = none := by
  have hf : ∀ b, tunFree s b len = false := by
    intro b
    obtain ⟨r, hr, h0, h1⟩ := h
    by_contra hc
    simp only [Bool.not_eq_false, tunFree, Bool.and_eq_true, decide_eq_true_eq, List.all_eq_true] at hc
    have := hc.1.2 r hr
    omega
  unfold tunPlace firstFit
  simp [hf]

/-- A pair whose second part is some value. -/
theorem pair_of {α β : Type} {x : α × Option β} (h : x.2.isSome = true) : ∃ u ch, x = (u, some ch) := by
  obtain ⟨u, o⟩ := x
  obtain ⟨ch, hc⟩ := Option.isSome_iff_exists.mp h
  exact ⟨u, ch, Prod.ext rfl hc⟩

/-- The states above with the whole tundish taken. -/
def full (s : State) : State := { s with tun := { s.tun with regions := [⟨0, tundishSize, .slot, 9, 0⟩] } }

def dParkStaged : Desc := mkd [(1, 1, 4), (8, 2, 2), (10, 1, 1), (11, 1, 1), (12, 2, 64), (14, 1, 0x01), (16, 4, 2), (24, 8, 1024),
  (32, 8, 0x10000), (40, 8, 2048)]
def dExtendStaged : Desc := mkd [(1, 1, 4), (16, 4, 2), (24, 8, 1024), (32, 8, 0x10000), (40, 8, 2048)]

theorem witness_ParkAndExtendStageTheirSource :
    (∃ (i : Instr) (s : State) (p : Nat) (rid : BitVec 16) (c : Desc), i.command = some (p, rid, c) ∧ fld c 0 1 = 0x10
      ∧ isStaged c = true ∧ Starts s p rid c ∧ ∃ base, tunPlace s (64 + fld c 40 8) = some base)
    ∧ (∃ (i : Instr) (s : State) (p : Nat) (rid : BitVec 16) (c : Desc), i.command = some (p, rid, c) ∧ fld c 0 1 = 0x11
      ∧ isStaged c = true ∧ Starts s p rid c ∧ tunPlace s (64 + fld c 40 8) = none) :=
  ⟨⟨.park 0 0x100 dParkStaged, svc, 0, 0x100, _, rfl, by decide +kernel, by decide +kernel, starts_of _ _ _ _ (by decide +kernel),
    tunPlace_exists _ _ (by decide +kernel)⟩,
   ⟨.extend 0 0x100 dExtendStaged, full parked, 0, 0x100, _, rfl, by decide +kernel, by decide +kernel,
    starts_of _ _ _ _ (by decide +kernel), tunPlace_full _ _ (by decide +kernel) ⟨_, List.mem_singleton.mpr rfl, rfl, rfl⟩⟩⟩

/-- Context 0 where its tenant may hold no frame. -/
def frameless : State := { parked with pol := { svc.pol with
  tenants := [(0, { t1q := 100000, t1max := 200000, chanMask := 0xFFFFFFFF, wayMask := 0xFFFFFF, cap := 1000000000000 })] } }

theorem witness_RecallDeliversLayersOrPlacesLines :
    (∃ (s : State) (p : Nat) (rid : BitVec 16) (d c : Desc) (x : Ctx), c = setDescByte d 0 0x12 ∧ Starts s p rid c
      ∧ ctxOf s (objOf c) = some x ∧ bitOf (fld c 1 1) 2 = false
      ∧ frameWait p s.cmd.goCount ((recallOwners x.shape (handleIdx (objOf c)) c).filterMap (slotOfOwner s)) (begun s p c) = none)
    ∧ (∃ (s : State) (p : Nat) (rid : BitVec 16) (d c : Desc) (x : Ctx), c = setDescByte d 0 0x12 ∧ Starts s p rid c
      ∧ ctxOf s (objOf c) = some x ∧ bitOf (fld c 1 1) 2 = false
      ∧ ∃ u, frameWait p s.cmd.goCount ((recallOwners x.shape (handleIdx (objOf c)) c).filterMap (slotOfOwner s)) (begun s p c) = some u)
    ∧ (∃ (s : State) (p : Nat) (rid : BitVec 16) (d c : Desc), c = setDescByte d 0 0x12 ∧ Starts s p rid c
      ∧ bitOf (fld c 1 1) 2 = true ∧ ∃ base, tunPlace s (fld c 40 8) = some base)
    ∧ (∃ (s : State) (p : Nat) (rid : BitVec 16) (d c : Desc), c = setDescByte d 0 0x12 ∧ Starts s p rid c
      ∧ bitOf (fld c 1 1) 2 = true ∧ tunPlace s (fld c 40 8) = none) :=
  ⟨⟨parked, 0, 0x100, dRecall, _, ctx2, rfl, starts_of _ _ _ _ (by decide +kernel), by decide +kernel⟩,
   ⟨frameless, 0, 0x100, dRecall, _, ctx2, rfl, starts_of _ _ _ _ (by decide +kernel), by decide +kernel, by decide +kernel,
    Option.isSome_iff_exists.mp (by decide +kernel)⟩,
   ⟨parked, 0, 0x100, dRecallTundish, _, rfl, starts_of _ _ _ _ (by decide +kernel), by decide +kernel,
    tunPlace_exists _ _ (by decide +kernel)⟩,
   ⟨full parked, 0, 0x100, dRecallTundish, _, rfl, starts_of _ _ _ _ (by decide +kernel), by decide +kernel,
    tunPlace_full _ _ (by decide +kernel) ⟨_, List.mem_singleton.mpr rfl, rfl, rfl⟩⟩⟩

theorem witness_AttendOpensAStep :
    (∃ (s : State) (p : Nat) (rid : BitVec 16) (d c : Desc) (x : Ctx) (q : Step), c = setDescByte d 0 0x13 ∧ Starts s p rid c
      ∧ ctxOf s (objOf c) = some x ∧ q = newStep c x (nextSeq s.cmd.seq) ∧ tunPlace s (64 + 2 * q.ds) = none)
    ∧ (∃ (s : State) (p : Nat) (rid : BitVec 16) (d c : Desc) (x : Ctx) (q : Step), c = setDescByte d 0 0x13 ∧ Starts s p rid c
      ∧ ctxOf s (objOf c) = some x ∧ q = newStep c x (nextSeq s.cmd.seq) ∧ ∃ base, tunPlace s (64 + 2 * q.ds) = some base) :=
  ⟨⟨full parked, 0, 0x100, dAttend, _, ctx2, _, rfl, starts_of _ _ _ _ (by decide +kernel), by decide +kernel, rfl,
    tunPlace_full _ _ (by omega) ⟨_, List.mem_singleton.mpr rfl, rfl, rfl⟩⟩,
   ⟨parked, 0, 0x100, dAttend, _, ctx2, _, rfl, starts_of _ _ _ _ (by decide +kernel), by decide +kernel, rfl,
    tunPlace_exists _ _ (by decide +kernel)⟩⟩

/-- Context 0 with its first page in T1. -/
def lifted : State := { parked with tier := { parked.tier with pages := [(0, { ctxPage 0 with home := .t1 0 0 }), (1, ctxPage 1)] } }

/-- Context 0 with a WARM frame on its first page. -/
def framed0 : State := { parked with tier := { parked.tier with
  frames := [{ fid := 0, page := 0, kind := .warm, stack := 0, chan := 0, tenant := 0, filled := true }], nextFrame := 1 } }

theorem witness_DropFreesAndWarmPlacesPages :
    (∃ (s : State) (p : Nat) (rid : BitVec 16) (d c : Desc) (idx : Nat), c = setDescByte d 0 0x14 ∧ Starts s p rid c
      ∧ idx = handleIdx (objOf c))
    ∧ (∃ (s : State) (p : Nat) (rid : BitVec 16) (d c : Desc) (x : Ctx) (o : Owner) (k : Nat) (g : Page),
        (Instr.warmFrames p rid d).command = some (p, rid, c) ∧ Starts s p rid c ∧ ctxOf s (objOf c) = some x
        ∧ warmOwners x.shape (handleIdx (objOf c)) c = [o] ∧ slotOfOwner s o = some k ∧ pageAt s k = some g ∧ pageStatus s k = stOk
        ∧ g.inT1 = true)
    ∧ (∃ (s : State) (p : Nat) (rid : BitVec 16) (d c : Desc) (x : Ctx) (o : Owner) (k : Nat) (g : Page),
        (Instr.warmFrames p rid d).command = some (p, rid, c) ∧ Starts s p rid c ∧ ctxOf s (objOf c) = some x
        ∧ warmOwners x.shape (handleIdx (objOf c)) c = [o] ∧ slotOfOwner s o = some k ∧ pageAt s k = some g ∧ pageStatus s k = stOk
        ∧ g.inT1 = false ∧ heldFrame s k = true)
    ∧ (∃ (s : State) (p : Nat) (rid : BitVec 16) (d c : Desc) (x : Ctx) (o : Owner) (k : Nat) (g : Page),
        (Instr.warmFrames p rid d).command = some (p, rid, c) ∧ Starts s p rid c ∧ ctxOf s (objOf c) = some x
        ∧ warmOwners x.shape (handleIdx (objOf c)) c = [o] ∧ slotOfOwner s o = some k ∧ pageAt s k = some g ∧ pageStatus s k = stOk
        ∧ g.inT1 = false ∧ heldFrame s k = false
        ∧ ∃ u ch, placeFrame (stripeStack g.owner) g.tenant 1 (readPage p k (begun s p c)) = (u, some ch))
    ∧ (∃ (s : State) (p : Nat) (rid : BitVec 16) (d c : Desc) (x : Ctx) (o : Owner) (k : Nat) (g : Page),
        (Instr.warmPromote p rid d).command = some (p, rid, c) ∧ Starts s p rid c ∧ ctxOf s (objOf c) = some x
        ∧ warmOwners x.shape (handleIdx (objOf c)) c = [o] ∧ slotOfOwner s o = some k ∧ pageAt s k = some g ∧ pageStatus s k = stOk
        ∧ g.inT1 = false ∧ inMemberRange (begun s p c) o = false ∧ g.moving = none ∧ inFold s k = false
        ∧ ∃ u ch, placeHome (stripeStack g.owner) g.tenant (readPage p k (begun s p c)) = (u, some ch)) :=
  ⟨⟨parked, 0, 0x100, 0, _, 0, rfl, starts_of _ _ _ _ (by decide +kernel), by decide +kernel⟩,
   ⟨lifted, 0, 0x100, dWarm, _, ctx2, .kv 0 0 0 0, 0, { ctxPage 0 with home := .t1 0 0 }, rfl, starts_of _ _ _ _ (by decide +kernel),
    by decide +kernel⟩,
   ⟨framed0, 0, 0x100, dWarm, _, ctx2, .kv 0 0 0 0, 0, ctxPage 0, rfl, starts_of _ _ _ _ (by decide +kernel), by decide +kernel⟩,
   ⟨parked, 0, 0x100, dWarm, _, ctx2, .kv 0 0 0 0, 0, ctxPage 0, rfl, starts_of _ _ _ _ (by decide +kernel), by decide +kernel,
    by decide +kernel, by decide +kernel, by decide +kernel, by decide +kernel, by decide +kernel, by decide +kernel,
    pair_of (by decide +kernel)⟩,
   ⟨parked, 0, 0x100, dWarm, _, ctx2, .kv 0 0 0 0, 0, ctxPage 0, rfl, starts_of _ _ _ _ (by decide +kernel), by decide +kernel,
    by decide +kernel, by decide +kernel, by decide +kernel, by decide +kernel, by decide +kernel, by decide +kernel,
    by decide +kernel, by decide +kernel, pair_of (by decide +kernel)⟩⟩

theorem witness_CollectionsAreMadeMergedAndDestroyed :
    (∃ (s : State) (p : Nat) (rid : BitVec 16) (d c : Desc) (x : Coll), c = setDescByte d 0 0x23 ∧ Starts s p rid c
      ∧ x = getColl s (objOf c) ∧ mergeLeft x x.commitSeq = false)
    ∧ (∃ (s : State) (p : Nat) (rid : BitVec 16) (d c : Desc) (x : Coll), c = setDescByte d 0 0x23 ∧ Starts s p rid c
      ∧ x = getColl s (objOf c) ∧ mergeLeft x x.commitSeq = true ∧ x.round.isSome = true)
    ∧ (∃ (s : State) (p : Nat) (rid : BitVec 16) (d c : Desc) (x : Coll), c = setDescByte d 0 0x23 ∧ Starts s p rid c
      ∧ x = getColl s (objOf c) ∧ mergeLeft x x.commitSeq = true ∧ x.round = none)
    ∧ (∃ (s : State) (p : Nat) (rid : BitVec 16) (d c : Desc), c = setDescByte (firstSelector d 8 2) 0 0x24 ∧ Starts s p rid c)
    ∧ (∃ (s : State) (p : Nat) (rid : BitVec 16) (d c : Desc), c = setDescByte (setDescByte d 8 1) 0 0x24 ∧ Starts s p rid c)
    ∧ (∃ (s : State) (p : Nat) (rid : BitVec 16) (d c : Desc) (x : Coll), c = setDescByte (setDescByte d 8 2) 0 0x24
      ∧ Starts s p rid c ∧ collOf s (objOf c) = some x) :=
  ⟨⟨{ svc with coll := [(7, { live := true })] }, 0, 0x100, mkd [(4, 4, 7)], _, _, rfl, starts_of _ _ _ _ (by decide +kernel), rfl,
    by decide +kernel⟩,
   ⟨{ svc with coll := [(7, { live := true, codes := codes3, commitSeq := 1, round := some { insSeq := 1, count := 3, charged := 0, foreground := false } })] }, 0, 0x100,
    mkd [(4, 4, 7)], _, _, rfl, starts_of _ _ _ _ (by decide +kernel), rfl, by decide +kernel⟩,
   ⟨collected, 0, 0x100, mkd [(4, 4, 7)], _, _, rfl, starts_of _ _ _ _ (by decide +kernel), rfl, by decide +kernel⟩,
   ⟨collected, 0, 0x100, dCreate, _, rfl, starts_of _ _ _ _ (by decide +kernel)⟩,
   ⟨collected, 0, 0x100, mkd [(4, 4, 7)], _, rfl, starts_of _ _ _ _ (by decide +kernel)⟩,
   ⟨collected, 0, 0x100, dDescribe, _, getColl collected 7, rfl, starts_of _ _ _ _ (by decide +kernel), by decide +kernel⟩⟩

/-- A held command of TRS 0 in a phase, with its descriptor's opcode in byte 0. -/
def heldAs (id : Nat) (ph : Phase) (d : Desc) : Held := { id := id, desc := d, phase := ph }

theorem witness_NextRetiresTheEndedHead :
    (∃ (s : State) (p : Nat) (rid : BitVec 16) (v : BitVec 32) (h : Held), p < 4096 ∧ bar2Writable s = true ∧ admits s p rid = true
      ∧ v.getLsbD 0 = true ∧ (getTrs s p).held.head? = some h ∧ h.ended = true)
    ∧ (∃ (s : State) (p : Nat) (rid : BitVec 16) (v : BitVec 32) (h : Held), p < 4096 ∧ bar2Writable s = true ∧ admits s p rid = true
      ∧ v.getLsbD 0 = true ∧ (getTrs s p).held.head? = some h ∧ h.ended = false)
    ∧ (∃ (s : State) (p : Nat) (rid : BitVec 16) (v : BitVec 32), p < 4096 ∧ bar2Writable s = true ∧ admits s p rid = true
      ∧ (v.getLsbD 0 = false ∨ (getTrs s p).held = []))
    ∧ (∃ p o w : Nat, p < 4096 ∧ o + w ≤ 4096) :=
  ⟨⟨holding [heldAs 0 .done 0], 0, 0x100, 1, heldAs 0 .done 0, by decide +kernel⟩,
   ⟨holding [heldAs 0 .running 0], 0, 0x100, 1, heldAs 0 .running 0, by decide +kernel⟩, ⟨svc, 0, 0x100, 1, by decide +kernel⟩,
   ⟨4095, 4092, 4, by decide⟩⟩

theorem witness_CountersAreDeliveredAndPagesReset :
    (∃ (s : State) (p : Nat) (rid : BitVec 16) (d c : Desc), c = setDescByte d 0 0x40 ∧ Starts s p rid c
      ∧ fld c 8 1 = 0)
    ∧ (∃ (s : State) (p : Nat) (rid : BitVec 16) (d c : Desc), c = setDescByte d 0 0x40 ∧ Starts s p rid c
      ∧ fld c 8 1 = 1)
    ∧ (∃ (s : State) (p : Nat) (rid : BitVec 16) (d c : Desc), c = setDescByte d 0 0x40 ∧ Starts s p rid c
      ∧ fld c 8 1 = 2)
    ∧ (∃ (s : State) (p : Nat) (rid : BitVec 16) (d c : Desc), c = setDescByte d 0 0x41 ∧ Starts s p rid c)
    ∧ (∃ (s : State) (p : Nat) (rid : BitVec 16) (v : BitVec 32), p < 4096 ∧ s.boot.mode = .service ∧ decodes s s.link.bar2 = true
      ∧ admits s p rid = true ∧ v.getLsbD 0 = true ∧ (getTrs s p).resetting = false
      ∧ ∃ id h, heldOf s p id = some h ∧ h.undecided = true)
    ∧ (∃ (s : State) (p : Nat), p < 4096 ∧ s.boot.mode = .service ∧ (getTrs s p).resetting = true
      ∧ ∃ id h e, heldOf s p id = some h ∧ h.ending = some e ∧ h.ended = false)
    ∧ (∃ (s : State) (p : Nat) (rid : BitVec 16) (v : BitVec 32), p < 4096 ∧ s.boot.mode = .service ∧ decodes s s.link.bar2 = true
      ∧ admits s p rid = true ∧ v.getLsbD 0 = false)
    ∧ (∃ (s : State) (p : Nat) (rid : BitVec 16), p < 4096 ∧ s.boot.mode = .service ∧ decodes s s.link.bar2 = true
      ∧ admits s p rid = false) :=
  let stopped : Held := { heldAs 0 .running 0 with ending := some ⟨0x0D, 0⟩ }
  ⟨⟨svc, 0, 0x100, dCounters, _, rfl, starts_of _ _ _ _ (by decide +kernel), by decide +kernel⟩,
   ⟨svc, 0, 0x100, mkd [(8, 1, 1), (10, 2, 0x10), (16, 8, 0x9000), (24, 8, 192)], _, rfl, starts_of _ _ _ _ (by decide +kernel),
    by decide +kernel⟩,
   ⟨svc, 0, 0x100, mkd [(8, 1, 2), (16, 8, 0x9000), (24, 8, 192)], _, rfl, starts_of _ _ _ _ (by decide +kernel),
    by decide +kernel⟩,
   ⟨svc, 0, 0x100, dDigests, _, rfl, starts_of _ _ _ _ (by decide +kernel)⟩,
   ⟨holding [heldAs 0 .running 0], 0, 0x100, 1, by decide +kernel, by decide +kernel, by decide +kernel, by decide +kernel,
    by decide +kernel, by decide +kernel, 0, heldAs 0 .running 0, by decide +kernel⟩,
   ⟨setTrs 0 { getTrs svc 0 with held := [stopped], resetting := true } svc, 0, by decide +kernel, by decide +kernel,
    by decide +kernel, 0, stopped, ⟨0x0D, 0⟩, by decide +kernel⟩,
   ⟨svc, 0, 0x100, 2, by decide +kernel⟩, ⟨svc, 0, 0x101, by decide +kernel⟩⟩

end Sys2Proof.Tests
end

