-- ==== Sys2Proof/Tests/Witness4.lean ====
section
/-! SUPPORT. Witnesses of the statements about waiting and ending commands, vectors, windows and the Extended Rate. -/

set_option Elab.async false

namespace Sys2Proof.Tests

open Sys2Proof Sys2Proof.Machine

/-- READ, WRITE, FLUSH, INSERT, DELETE descriptors with their opcodes. -/
def oRead : Desc := setDescByte dRead 0 0x01
def oWrite : Desc := setDescByte dRead 0 0x02
def oFlush : Desc := setDescByte 0 0 0x03

/-- An exclusive lock of TRS 16 over the volume's blocks, taken first. -/
def lockAll : Lock := ⟨16, 77, 1, true, [.volume 0 0 100000]⟩

/-- Locks held, commands of TRS 0 as given. -/
def locked (ls : List Lock) (hs : List Held) : State :=
  { holding hs with cmd := { svc.cmd with locks := ls, acceptCount := 5, goCount := 100 } }

def waiting : Held := { heldAs 3 .pending oRead with waitLock := true }
def waitingRes : Held := { heldAs 3 .pending oRead with waitRes := true }
def acceptedRead : Held := { heldAs 3 .accepted oRead with acceptNo := 5 }
def lockOfRead : Lock := ⟨0, 3, 5, false, [.volume 0 3 5]⟩

/-- Context 0 and collection 7 under a pattern whose ATTENTION and COMPARE slots are withdrawn. -/
def withdrawn (hs : List Held) : State :=
  { locked [] hs with ctx := parked.ctx, coll := collected.coll, tier := parked.tier, pol := { svc.pol with slots :=
      [⟨2, 2, 1, 0, 0, 0, [], [], [], [], [], true, []⟩, ⟨3, 3, 1, 0, 0, 0, [], [], [], [], [], true, []⟩] } }

theorem witness_WaitersAreAcceptedAndStart :
    (∃ s : State, s.boot.mode = .service ∧ (pendingBy (fun h => h.waitLock) s = [] ∨ 1024 ≤ s.cmd.locks.length))
    ∧ (∃ (s : State) (p id : Nat) (h : Held) (l : Bool × List LockRange), s.boot.mode = .service ∧ s.cmd.locks.length < 1024
        ∧ pendingBy (fun h => h.waitLock) s = [(p, id)] ∧ heldOf s p id = some h ∧ h.id = id ∧ lockOf s h.desc = some l
        ∧ h.op ≠ 0x13 ∧ (∀ m ∈ s.cmd.locks, m.id ≠ id)
        ∧ (s.cmd.locks.any (fun m => decide (m.acceptNo < s.cmd.acceptCount + 1)
            && locksConflict m ⟨p, id, s.cmd.acceptCount + 1, l.1, l.2⟩)) = true)
    ∧ (∃ (s : State) (p id : Nat) (h : Held), p < 4096 ∧ s.boot.mode = .service ∧ heldOf s p id = some h ∧ h.phase = .accepted
        ∧ h.ending = none ∧ h.step = none ∧ blocked s h = true)
    ∧ (∃ (s : State) (p id : Nat) (h : Held), p < 4096 ∧ s.boot.mode = .service ∧ heldOf s p id = some h ∧ h.phase = .accepted
        ∧ h.ending = none ∧ h.step = none ∧ blocked s h = false ∧ objectGone s h.desc = none
        ∧ startFail (startEvent p id s) h.desc = none)
    ∧ (∃ (s : State) (p id : Nat) (h : Held) (st : Byte), p < 4096 ∧ s.boot.mode = .service ∧ heldOf s p id = some h
        ∧ h.phase = .accepted ∧ h.ending = none ∧ h.step = none ∧ blocked s h = false ∧ objectGone s h.desc = some st)
    ∧ (∃ (s : State) (p id : Nat) (h : Held), p < 4096 ∧ s.boot.mode = .service ∧ heldOf s p id = some h ∧ h.phase = .accepted
        ∧ h.ending = none ∧ h.step = none ∧ blocked s h = false ∧ objectGone s h.desc = none
        ∧ startFail (startEvent p id s) h.desc = none ∧ h.op = 0x03)
    ∧ (∃ (s : State) (p id : Nat) (h : Held) (st : Byte), p < 4096 ∧ s.boot.mode = .service ∧ heldOf s p id = some h
        ∧ h.phase = .accepted ∧ h.ending = none ∧ h.step = none ∧ blocked s h = false ∧ objectGone s h.desc = none
        ∧ startFail (startEvent p id s) h.desc = some st ∧ h.op = 0x13)
    ∧ (∃ (s : State) (p id : Nat) (h : Held) (st : Byte), p < 4096 ∧ s.boot.mode = .service ∧ heldOf s p id = some h
        ∧ h.phase = .accepted ∧ h.ending = none ∧ h.step = none ∧ blocked s h = false ∧ objectGone s h.desc = none
        ∧ startFail (startEvent p id s) h.desc = some st ∧ h.op = 0x20)
    ∧ (∃ (s : State) (p id : Nat) (h : Held) (st : Byte), p < 4096 ∧ s.boot.mode = .service ∧ heldOf s p id = some h
        ∧ h.phase = .accepted ∧ h.ending = none ∧ h.step = none ∧ blocked s h = false ∧ objectGone s h.desc = none
        ∧ startFail (startEvent p id s) h.desc = some st ∧ h.op ∉ [0x13, 0x20, 0x30, 0x31, 0x32])
    ∧ (∃ (s : State) (p id : Nat) (h : Held), heldOf s p id = some h ∧ h.op ≠ 0x40 ∧ h.op ≠ 0x41)
    ∧ (∃ (s : State) (p id : Nat) (h : Held), s.boot.mode = .service ∧ pendingBy (fun h => h.waitRes) s = [(p, id)]
        ∧ heldOf s p id = some h ∧ waitsAtSeven s h.desc = true)
    ∧ (∃ (s : State) (p id : Nat) (h : Held) (st : Byte), s.boot.mode = .service ∧ pendingBy (fun h => h.waitRes) s = [(p, id)]
        ∧ heldOf s p id = some h ∧ waitsAtSeven s h.desc = false ∧ resourceFail s p h.desc = some st)
    ∧ (∃ (s : State) (p id : Nat) (h : Held), s.boot.mode = .service ∧ pendingBy (fun h => h.waitRes) s = [(p, id)]
        ∧ heldOf s p id = some h ∧ waitsAtSeven s h.desc = false ∧ resourceFail s p h.desc = none
        ∧ (lockOf s h.desc).isSome = true ∧ 1024 ≤ s.cmd.locks.length)
    ∧ (∃ (s : State) (p id : Nat) (h : Held), s.boot.mode = .service ∧ pendingBy (fun h => h.waitRes) s = [(p, id)]
        ∧ heldOf s p id = some h ∧ waitsAtSeven s h.desc = false ∧ resourceFail s p h.desc = none ∧ lockOf s h.desc = none) :=
  let oAttend := setDescByte dAttend 0 0x13
  let oPark := setDescByte dPark 0 0x10
  let oSearch := setDescByte dSearch 0 0x20
  let oBind := setDescByte (mkd [(4, 4, 16), (12, 1, 1), (16, 2, 0x200)]) 0 0x50
  ⟨⟨svc, by decide +kernel⟩, ⟨locked [lockAll] [waiting], 0, 3, waiting, (false, [.volume 0 3 5]), by decide +kernel⟩,
   ⟨locked [lockAll, lockOfRead] [acceptedRead], 0, 3, acceptedRead, by decide +kernel⟩,
   ⟨locked [lockOfRead] [acceptedRead], 0, 3, acceptedRead, by decide +kernel⟩,
   ⟨locked [] [{ acceptedRead with desc := oAttend }], 0, 3, { acceptedRead with desc := oAttend }, 0x10, by decide +kernel⟩,
   ⟨locked [] [{ acceptedRead with desc := oFlush }], 0, 3, { acceptedRead with desc := oFlush }, by decide +kernel⟩,
   ⟨withdrawn [{ acceptedRead with desc := oAttend }], 0, 3, { acceptedRead with desc := oAttend }, 0x08, by decide +kernel⟩,
   ⟨withdrawn [{ acceptedRead with desc := oSearch }], 0, 3, { acceptedRead with desc := oSearch }, 0x08, by decide +kernel⟩,
   ⟨locked [] [{ acceptedRead with desc := oBind }], 0, 3, { acceptedRead with desc := oBind }, 0x03, by decide +kernel⟩,
   ⟨locked [lockOfRead] [acceptedRead], 0, 3, acceptedRead, by decide +kernel⟩,
   ⟨{ locked [] [{ waitingRes with desc := oWrite }] with fl := { svc.fl with reserveReady := false } }, 0, 3,
     { waitingRes with desc := oWrite }, by decide +kernel⟩,
   ⟨{ locked [] [{ waitingRes with desc := oPark }] with pol := { svc.pol with tenants := [(0, { cap := 0 })] } }, 0, 3,
     { waitingRes with desc := oPark }, 0x07, by decide +kernel⟩,
   ⟨locked (List.replicate 1024 lockAll) [waitingRes], 0, 3, waitingRes, by decide +kernel⟩,
   ⟨locked [] [{ waitingRes with desc := oFlush }], 0, 3, { waitingRes with desc := oFlush }, by decide +kernel⟩⟩

theorem witness_DecidedEndingsAndWritesFinish :
    (∃ (s : State) (p id : Nat) (h : Held) (e : Ending), p < 4096 ∧ s.boot.mode = .service ∧ heldOf s p id = some h
      ∧ h.ending = some e ∧ h.ended = false ∧ (h.op ≠ 0x13 ∨ h.step = none))
    ∧ (∃ (s : State) (p id : Nat), p < 4096 ∧ s.boot.mode = .service ∧ heldOf s p id = none)
    ∧ (∃ (s : State) (p id : Nat) (h : Held), p < 4096 ∧ s.boot.mode = .service ∧ heldOf s p id = some h ∧ h.ending = none
        ∧ h.phase ≠ .running)
    ∧ (∃ (s : State) (p id : Nat) (h : Held), p < 4096 ∧ s.boot.mode = .service ∧ heldOf s p id = some h ∧ h.ending = none
        ∧ h.op = 0x03 ∧ flushReady s h = false)
    ∧ (∃ (s : State) (p id : Nat) (h : Held), p < 4096 ∧ s.boot.mode = .service ∧ heldOf s p id = some h ∧ h.ending = none
        ∧ (h.op = 0x10 ∨ h.op = 0x21 ∨ h.op = 0x22) ∧ h.reads ≠ [])
    ∧ (∃ (s : State) (p id : Nat) (h : Held), p < 4096 ∧ s.boot.mode = .service ∧ heldOf s p id = some h ∧ h.op = 0x02
        ∧ h.phase = .running ∧ h.ending = none ∧ h.applied = false ∧ h.reads = [] ∧ isFua h = false ∧ 0 < fld h.desc 16 4
        ∧ bufferRoom s (unitsTouched (fld h.desc 8 8) (fld h.desc 16 4)) = true
        ∧ ∃ k, k < fld h.desc 8 8 ∧ unitStatus s (blockUnit s (objOf h.desc) k) = stOk) :=
  let write := { heldAs 3 .running oWrite with acceptNo := 5 }
  let busyWrite := { heldAs 2 .running oWrite with acceptNo := 4 }
  let flush := { heldAs 3 .running oFlush with acceptNo := 5 }
  let insert := { heldAs 3 .running (setDescByte dInsert 0 0x21) with reads := [(0x10000, 240)] }
  ⟨⟨holding [{ write with ending := some ⟨0x0F, 1⟩ }], 0, 3, { write with ending := some ⟨0x0F, 1⟩ }, ⟨0x0F, 1⟩, by decide +kernel⟩,
   ⟨svc, 4095, 3, by decide +kernel⟩, ⟨holding [waiting], 0, 3, waiting, by decide +kernel⟩,
   ⟨locked [] [busyWrite, flush], 0, 3, flush, by decide +kernel⟩, ⟨holding [insert], 0, 3, insert, by decide +kernel⟩,
   ⟨holding [write], 0, 3, write, by decide +kernel, by decide +kernel, by decide +kernel, by decide +kernel, by decide +kernel,
    by decide +kernel, by decide +kernel, by decide +kernel, by decide +kernel, by decide +kernel, by decide +kernel, 2,
    by decide +kernel⟩⟩

theorem witness_FlushAndCollectionChangesCommit :
    (∃ (s : State) (p id : Nat) (h : Held), p < 4096 ∧ s.boot.mode = .service ∧ heldOf s p id = some h ∧ h.op = 0x03
      ∧ h.phase = .running ∧ h.ending = none ∧ flushReady s h = true ∧ 0 < s.fl.pendBytes)
    ∧ (∃ (s : State) (p id : Nat) (h : Held) (x : Coll) (n : Nat), p < 4096 ∧ s.boot.mode = .service ∧ heldOf s p id = some h
        ∧ h.op = 0x21 ∧ h.phase = .running ∧ h.ending = none ∧ h.reads = [] ∧ x = getColl s (objOf h.desc) ∧ n = fld h.desc 8 4
        ∧ bufferRoom s (4 * (n / sidePer x.width + 2)) = true)
    ∧ (∃ (s : State) (p id : Nat) (h : Held) (x : Coll) (n : Nat) (named : List Nat), p < 4096 ∧ s.boot.mode = .service
        ∧ heldOf s p id = some h ∧ h.op = 0x22 ∧ h.phase = .running ∧ h.ending = none ∧ h.reads = []
        ∧ x = getColl s (objOf h.desc) ∧ n = fld h.desc 8 4 ∧ bufferRoom s (4 * (n / 4096 + 2)) = true
        ∧ named = deleteTargets x ((List.range n).map (fun i => numAt (rxBytes h (fld h.desc 24 8) (8 * n)) (8 * i) 8))
        ∧ named = [2]) :=
  let flush := { heldAs 3 .running oFlush with acceptNo := 5 }
  let insert := heldAs 3 .running (setDescByte dInsert 0 0x21)
  let delete := { heldAs 3 .running (setDescByte dDelete 0 0x22) with rx := [(0x10000, 2), (0x10008, 9)] }
  let on (h : Held) : State := setTrs 0 { getTrs svc 0 with held := [h] } collected
  ⟨⟨{ holding [flush] with fl := { svc.fl with journal := [⟨1, [.unmap 0 1], false⟩], pendBytes := 40, seq := 1 } }, 0, 3, flush,
     by decide +kernel⟩,
   ⟨on insert, 0, 3, insert, getColl collected 7, 5, by decide +kernel⟩,
   ⟨on delete, 0, 3, delete, getColl collected 7, 2, [2], by decide +kernel⟩⟩

theorem witness_HostDataAndTimersReachTheirCommand :
    (∃ (s : State) (p id a n : Nat) (h : Held), p < 4096 ∧ s.boot.mode = .service ∧ heldOf s p id = some h ∧ h.undecided = true
      ∧ h.reads.find? (fun r => r.1 == a) = some (a, n)
      ∧ h.op ∈ [0x02, 0x10, 0x11, 0x21, 0x22])
    ∧ (∃ (s : State) (p id a n : Nat) (o : DmaOutcome) (h : Held), p < 4096 ∧ s.boot.mode = .service ∧ heldOf s p id = some h
        ∧ h.undecided = true ∧ h.reads.find? (fun r => r.1 == a) = some (a, n) ∧ (∀ l, o ≠ .data l)
        ∧ (o ≠ .poisoned ∨ h.op ∉ [0x20, 0x30, 0x31, 0x32]))
    ∧ (∃ (s : State) (p id a n : Nat) (o : DmaOutcome) (h : Held), p < 4096 ∧ s.boot.mode = .service ∧ heldOf s p id = some h
        ∧ h.undecided = true ∧ h.reads.find? (fun r => r.1 == a) = some (a, n) ∧ o = .poisoned ∧ h.op = 0x20)
    ∧ (∃ (s : State) (p id : Nat), p < 4096 ∧ s.boot.mode = .service ∧ heldOf s p id = none)
    ∧ (∃ (s : State) (p id a : Nat) (h : Held), p < 4096 ∧ s.boot.mode = .service ∧ heldOf s p id = some h
        ∧ (h.undecided = false ∨ h.reads.find? (fun r => r.1 == a) = none))
    ∧ (∃ (s : State) (p id : Nat) (h : Held), p < 4096 ∧ s.boot.mode = .service ∧ heldOf s p id = some h ∧ h.undecided = true
        ∧ h.reads ≠ [] ∧ timeoutDisabled s = false ∧ h.op = 0x02 ∧ h.applied = false ∧ h.phase = .running)
    ∧ (∃ s : State, s.boot.mode = .service ∧ timeoutDisabled s = true)
    ∧ (∃ (s : State) (p id : Nat) (h : Held), p < 4096 ∧ s.boot.mode = .service ∧ heldOf s p id = some h ∧ h.undecided = true
        ∧ h.phase = .running ∧ waitsForHost h = true ∧ h.op = 0x02 ∧ h.applied = false)
    ∧ (∃ (s : State) (p id : Nat) (h : Held), p < 4096 ∧ s.boot.mode = .service ∧ heldOf s p id = some h ∧ waitsForHost h = false
        ∧ h.reads = []) :=
  let write := { heldAs 3 .running oWrite with reads := [(0x20000, 4096), (0x21000, 4096)] }
  let search := { heldAs 3 .running (setDescByte dSearch 0 0x20) with reads := [(0x20000, 96)] }
  ⟨⟨holding [write], 0, 3, 0x21000, 4096, write, by decide +kernel⟩,
   ⟨holding [write], 0, 3, 0x20000, 4096, .aborted, write, by decide +kernel, by decide +kernel, by decide +kernel, by decide +kernel,
    by decide +kernel, (by intro l h; cases h), by decide⟩,
   ⟨holding [search], 0, 3, 0x20000, 96, .poisoned, search, by decide +kernel⟩, ⟨svc, 4095, 0, by decide +kernel⟩,
   ⟨holding [write], 0, 3, 0x22000, write, by decide +kernel⟩, ⟨holding [write], 0, 3, write, by decide +kernel⟩,
   ⟨{ svc with link := { svc.link with cfg := { svc.link.cfg with devCtl2 := 0x10 } } }, by decide +kernel⟩,
   ⟨holding [write], 0, 3, write, by decide +kernel⟩, ⟨holding [heldAs 3 .done oWrite], 0, 3, heldAs 3 .done oWrite, by decide +kernel⟩⟩

/-- Vector 9 as `x`, its message masked or not. -/
def vector (x : Vec) (mask : Bool) : State :=
  { svc with link := { svc.link with vec := [(9, x)], msix := [(9, { mask := mask })] } }

theorem witness_VectorsSendOneMessageForAllPending :
    (∃ (v : Nat) (s : State) (x : Vec), x = vecOf s v ∧ msixOn s = true ∧ x.coal.toNat % 2 ^ 8 + 1 ≤ x.pend + 1
      ∧ (msixEntry s v).mask = false      ∧ x.coal.toNat / 2 ^ 8 % 2 ^ 16 ≠ 0)
    ∧ (∃ (v : Nat) (s : State) (x : Vec), x = vecOf s v ∧ msixOn s = true ∧ x.coal.toNat / 2 ^ 8 % 2 ^ 16 = 0 ∧ (msixEntry s v).mask = true)
    ∧ (∃ (v : Nat) (s : State) (x : Vec), x = vecOf s v ∧ msixOn s = true ∧ x.coal.toNat.testBit 24 = true ∧ x.coal.toNat % 2 ^ 8 + 1 > x.pend + 1)
    ∧ (∃ (v : Nat) (err : Bool) (s : State) (x : Vec), x = vecOf s v ∧ msixOn s = true ∧ ¬(x.coal.toNat % 2 ^ 8 + 1 ≤ x.pend + 1
        ∨ x.coal.toNat / 2 ^ 8 % 2 ^ 16 = 0 ∨ (err = true ∧ x.coal.toNat.testBit 24 = true)))
    ∧ (∃ (v : Nat) (s : State) (x : Vec), x = vecOf s v ∧ x.timer.isSome = true ∧ 0 < x.pend ∧ (msixEntry s v).mask = false
        ∧ msixOn s = true)
    ∧ (∃ (v : Nat) (s : State) (x : Vec), x = vecOf s v ∧ x.timer.isSome = true ∧ 0 < x.pend ∧ (msixEntry s v).mask = true)
    ∧ (∃ (v : Nat) (s : State), (vecOf s v).timer = none)
    ∧ (∃ (v : Nat) (s : State), v < 2048 ∧ bar0Up s = true ∧ msixOn s = true)
    ∧ (∃ (v : Nat) (s : State), v < 2048 ∧ bar0Up s = false) :=
  ⟨⟨9, vector { coal := 0x503, pend := 3 } false, { coal := 0x503, pend := 3 }, by decide +kernel⟩,
   ⟨9, vector { coal := 0x003 } true, { coal := 0x003 }, by decide +kernel⟩,
   ⟨9, vector { coal := 0x1000503 } false, { coal := 0x1000503 }, by decide +kernel⟩,
   ⟨9, true, vector { coal := 0x503, pend := 2 } false, { coal := 0x503, pend := 2 }, by decide +kernel⟩,
   ⟨9, vector { coal := 0x503, pend := 2, timer := some 5 } false, { coal := 0x503, pend := 2, timer := some 5 }, by decide +kernel⟩,
   ⟨9, vector { coal := 0x503, pend := 2, timer := some 5 } true, { coal := 0x503, pend := 2, timer := some 5 }, by decide +kernel⟩,
   ⟨9, svc, by decide +kernel⟩, ⟨2047, svc, by decide +kernel⟩, ⟨2047, State.reset, by decide +kernel⟩⟩

theorem witness_WindowsWriteAndReadRegisters :
    (∃ (s : State) (n : Nat), n < 2048 ∧ bar0Up s = true)
    ∧ (∃ off w : Nat, off < 0x20 ∧ off + w ≤ 0x80000)
    ∧ (∃ s : State, bar0Up s = false)
    ∧ (∃ (s : State) (p o w : Nat) (rid : BitVec 16), p < 4096 ∧ o + w ≤ 0x40 ∧ s.boot.mode = .service ∧ decodes s s.link.bar2 = true
        ∧ admits s p rid = true)
    ∧ (∃ (s : State) (p : Nat) (v : BitVec 512) (rid : BitVec 16), p < 4096 ∧ s.boot.mode = .service ∧ decodes s s.link.bar2 = true
        ∧ admits s p rid = true ∧ v.getLsbD 0 = true)
    ∧ (∃ (s : State) (p o w : Nat) (rid : BitVec 16), p < 4096 ∧ o + w ≤ 4096 ∧ 0 < w ∧ s.boot.mode = .service
        ∧ decodes s s.link.bar2 = true ∧ admits s p rid = false)
    ∧ (∃ (s : State) (v : BitVec 512), configUp s = true ∧ v.toNat % 2 = 0)
    ∧ (∃ (s : State) (p o w : Nat) (rid : BitVec 16), p < 4096 ∧ o + w ≤ 4096 ∧ configUp s = true ∧ decodes s s.link.bar2 = true
        ∧ admits s p rid = false)
    ∧ (∃ (s : State) (p o w : Nat) (rid : BitVec 16), p < 4096 ∧ o + w ≤ 4096 ∧ configUp s = true ∧ decodes s s.link.bar2 = true
        ∧ admits s p rid = true)
    ∧ (∃ (s : State) (off w : Nat), configUp s = true ∧ off + w ≤ 0x300) :=
  ⟨⟨svc, 2047, by decide +kernel⟩, ⟨0x1F, 8, by decide⟩, ⟨State.reset, by decide +kernel⟩, ⟨svc, 16, 0x3C, 4, 0x100, by decide +kernel⟩,
   ⟨svc, 16, 1, 0x100, by decide +kernel⟩, ⟨svc, 4095, 0xFFF, 1, 0x100, by decide +kernel⟩, ⟨svc, 2, by decide +kernel⟩,
   ⟨svc, 16, 0xFFF, 1, 0x101, by decide +kernel⟩, ⟨svc, 16, 0xFFF, 1, 0x100, by decide +kernel⟩, ⟨svc, 0x2FC, 4, by decide +kernel⟩⟩

theorem witness_TimebaseAndDecodersAreSet :
    (∃ s : State, bar0Up s = true)
    ∧ (∃ (s : State) (base units ways skip : Nat), bar0Up s = true ∧ base = 0 ∧ ways = 1 ∧ skip = 0 ∧ 1 ≤ units
        ∧ units + s.link.dec1.getD 0 ≤ 954 ∧ s.link.dec1 = none ∧ units = 954)
    ∧ (∃ (s : State) (base units ways skip : Nat), bar0Up s = true ∧ base = 0 ∧ ways = 1 ∧ skip = 0 ∧ 1 ≤ units
        ∧ units + s.link.dec1.getD 0 ≤ 954 ∧ s.link.dec1.isSome = true ∧ s.link.dec0 = some units)
    ∧ (∃ (s : State) (units : Nat), bar0Up s = true ∧ 1 ≤ units ∧ s.link.dec1.isSome = true ∧ s.link.dec0 ≠ some units)
    ∧ (∃ (s : State) (base units ways skip n : Nat), bar0Up s = true ∧ s.link.dec0 = some n ∧ base = n * 2 ^ 28 ∧ ways = 1
        ∧ skip = 0 ∧ 1 ≤ units ∧ n + units ≤ 954 ∧ n + units = 954)
    ∧ (∃ d units ways skip : Nat, d < 2 ∧ (ways ≠ 1 ∨ skip ≠ 0 ∨ units = 0 ∨ 954 < units))
    ∧ (∃ s : State, bar0Up s = false) :=
  ⟨⟨svc, by decide +kernel⟩, ⟨svc, 0, 954, 1, 0, by decide +kernel⟩,
   ⟨{ svc with link := { svc.link with dec0 := some 900, dec1 := some 54 } }, 0, 900, 1, 0, by decide +kernel⟩,
   ⟨{ svc with link := { svc.link with dec0 := some 900, dec1 := some 54 } }, 899, by decide +kernel⟩,
   ⟨{ svc with link := { svc.link with dec0 := some 900 } }, 900 * 2 ^ 28, 54, 1, 0, 900, by decide +kernel⟩,
   ⟨1, 955, 1, 0, by decide⟩, ⟨State.reset, by decide +kernel⟩⟩

theorem witness_MemoryWindowStoresAndReads :
    (∃ (s : State) (a : Nat) (bytes : List Byte), a + bytes.length ≤ tundishSize ∧ s.boot.memActive = true
      ∧ decoded s a bytes.length = true ∧ lateInput s a bytes.length = false
      ∧ s.tun.regions.all (fun r => decide (r.base ≠ a)) = true ∧ bytes ≠ [])
    ∧ (∃ (s : State) (a : Nat) (bytes : List Byte), a + bytes.length ≤ tundishSize ∧ s.boot.memActive = true
      ∧ decoded s a bytes.length = true ∧ lateInput s a bytes.length = true)
    ∧ (∃ (s : State) (a : Nat) (bytes : List Byte), a + bytes.length ≤ tundishSize ∧ s.boot.memActive = false)
    ∧ (∃ (s : State) (a : Nat) (bytes : List Byte), a + bytes.length ≤ tundishSize ∧ decoded s a bytes.length = false)
    ∧ (∃ (s : State) (a n : Nat), a + n ≤ tundishSize ∧ decoded s a n = true ∧ s.boot.memActive = true)
    ∧ (∃ (s : State) (a n : Nat), a + n ≤ tundishSize ∧ decoded s a n = true ∧ s.boot.memActive = false ∧ s.boot.mode = .fettle)
    ∧ (∃ (s : State) (a l b : Nat), l ∈ linesOf a 4 ∧ (b < a ∨ a + 4 ≤ b) ∧ decoded s a 4 = true) :=
  ⟨⟨svc, tundishSize - 4, [1, 2, 3, 4], by decide +kernel⟩,
   ⟨{ svc with tun := { svc.tun with dead := [(0, 64)] } }, 63, [1], by decide +kernel⟩, ⟨State.reset, 0, [1], by decide +kernel⟩,
   ⟨{ svc with link := { svc.link with dec0 := some 1 } }, 2 ^ 28, [1], by decide +kernel⟩,
   ⟨svc, tundishSize - 4, 4, by decide +kernel⟩,
   ⟨{ svc with boot := { mode := .fettle, fettleReason := 7, mailboxReady := true, stage := 5 } }, 0, 4, by decide +kernel⟩,
   ⟨svc, 62, 1, 66, by decide +kernel⟩⟩

/-- The port at a rate with ER_CTL and ER_STATUS as given. -/
def erPort (ctl status : BitVec 32) (r : Rate) (rec offered : Bool) : State :=
  { svc with link := { svc.link with erCtl := ctl, erStatus := status, rate := r, recovery := rec, erOfferSent := offered } }

theorem witness_ExtendedRateAgreesEntersAndFallsBack :
    (∃ (s : State) (v : BitVec 32), portUp s = true ∧ erArmed s = false ∧ v.getLsbD 0 = true ∧ at64 s = true)
    ∧ (∃ s : State, portUp s = true ∧ erArmed s = true ∧ s.link.erDead = false ∧ s.link.erOfferSent = true ∧ erAgreed s = false)
    ∧ (∃ v : BitVec 8, v ≠ 1)
    ∧ (∃ s : State, erArmed s = false ∨ s.link.erDead = true)
    ∧ (∃ s : State, portUp s = true ∧ at64 s = true ∧ erAgreed s = true)
    ∧ (∃ (s : State) (ms : List Nat), portUp s = true ∧ s.link.recovery = true ∧ erAgreed s = true ∧ s.link.width ≤ ms.length
        ∧ ∀ m ∈ ms, 3 ≤ m)
    ∧ (∃ s : State, portUp s = true ∧ (at64 s = false ∨ erAgreed s = false))
    ∧ (∃ (s : State) (ms : List Nat), portUp s = true ∧ s.link.recovery = true ∧ erAgreed s = true ∧ ms.length < s.link.width)
    ∧ (∃ (s : State) (n : Nat), portUp s = true ∧ erActive s = true ∧ erAutoDowngrade s = true ∧ 8 < n)
    ∧ (∃ (s : State) (n : Nat), portUp s = true ∧ erActive s = true ∧ (erAutoDowngrade s = false ∨ n ≤ 8))
    ∧ (∃ (s : State) (n : Nat), portUp s = true ∧ erActive s = true ∧ 4 ≤ n)
    ∧ (∃ n : Nat, n < 4)
    ∧ (∃ s : State, portUp s = true ∧ (erActive s = true ∨ (s.link.recovery = true ∧ erAgreed s = true))) :=
  ⟨⟨erPort 4 0 .gt64 false false, 5, by decide +kernel⟩, ⟨erPort 5 0 .gt64 false true, by decide +kernel⟩, ⟨2, by decide⟩,
   ⟨svc, by decide +kernel⟩, ⟨erPort 5 2 .gt64 false true, by decide +kernel⟩,
   ⟨erPort 5 2 .gt64 true true, List.replicate 8 3, by decide +kernel⟩, ⟨erPort 5 0 .gt64 false true, by decide +kernel⟩,
   ⟨erPort 5 2 .gt64 true true, List.replicate 7 3, by decide +kernel⟩, ⟨erPort 5 3 .er false true, 9, by decide +kernel⟩,
   ⟨erPort 5 3 .er false true, 8, by decide +kernel⟩, ⟨erPort 5 3 .er false true, 4, by decide +kernel⟩, ⟨3, by decide⟩,
   ⟨erPort 5 3 .er false true, by decide +kernel⟩⟩

end Sys2Proof.Tests
end

