-- ==== Sys2Proof/Tests/Witness5.lean ====
section
/-! SUPPORT. Witnesses of the statements about steps, heats, frames, tier pages, scans and anneal rounds. -/

set_option Elab.async false

namespace Sys2Proof.Tests

open Sys2Proof Sys2Proof.Machine

/-- The step of an ATTEND over both layers of context 0, its slot at address 0. -/
def step0 : Step :=
  { layer0 := 0, nlayer := 2, tok0 := 0, tok1 := 2, scale := 0x3F800000, qfmt := 0, resAddr := 0x60000, group := 1, hkv := 1,
    dim := 64, fmt := 1, tenant := 0, seq := 1, slot := some 0, nextLayer := 0 }

/-- The slot's region. -/
def slot0 : Region := ⟨0, 64 + 2 * step0.ds, .slot, 0, 3⟩

/-- Context 0 in T1, its step open as command 3 of TRS 0, the heat window open or not. -/
def attending (p : Step) (w : Bool) : State :=
  setTrs 0 { getTrs svc 0 with held := [{ heldAs 3 .running (setDescByte dAttend 0 0x13) with acceptNo := 5, step := some p }] }
    { parked with
      tier := { parked.tier with pages := [(0, { ctxPage 0 with home := .t1 0 0 }), (1, { ctxPage 1 with home := .t1 1 0 })] },
      tun := { parked.tun with regions := [slot0] }, heat := { parked.heat with windowOpen := w } }

/-- A source staged at address 0. -/
def stage0 : StageRec := ⟨0, 64 + 2048, 9, false⟩
def stagedPark : Held := { heldAs 3 .running (setDescByte dParkStaged 0 0x10) with stage := some stage0 }
def staged : State :=
  setTrs 0 { getTrs svc 0 with held := [stagedPark] } { svc with tun := { svc.tun with regions := [⟨0, 2112, .stage, 0, 3⟩] } }

theorem witness_DoorbellsAskCloseAndStage :
    (∃ (i : Instr) (s : State) (a : Nat) (v : BitVec 32) (r : Region) (p : Step), s.boot.mode = .service ∧ a + 4 ≤ tundishSize
      ∧ lateInput s a 4 = false ∧ RingsStep s a v i ∧ bellRegion s .slot a = some r ∧ openStep s r.trs r.id = some p ∧ p.closing = false ∧ p.badBell = false
      ∧ bitOf v.toNat 31 = false ∧ bitsOf v.toNat 0 8 = p.nextLayer ∧ p.nextLayer < p.endLayer)
    ∧ (∃ (i : Instr) (s : State) (a : Nat) (v : BitVec 32) (r : Region) (p : Step), s.boot.mode = .service ∧ a + 4 ≤ tundishSize
      ∧ lateInput s a 4 = false ∧ RingsStep s a v i ∧ bellRegion s .slot a = some r ∧ openStep s r.trs r.id = some p ∧ p.closing = false ∧ p.badBell = false
      ∧ bitOf v.toNat 31 = true ∧ (p.requested ≠ [] ∨ p.placed ≠ []))
    ∧ (∃ (i : Instr) (s : State) (a : Nat) (v : BitVec 32) (r : Region) (p : Step), s.boot.mode = .service ∧ a + 4 ≤ tundishSize
      ∧ lateInput s a 4 = false ∧ RingsStep s a v i ∧ bellRegion s .slot a = some r ∧ openStep s r.trs r.id = some p ∧ p.closing = false ∧ p.badBell = false
      ∧ bitOf v.toNat 31 = false ∧ (bitsOf v.toNat 0 8 ≠ p.nextLayer ∨ p.endLayer ≤ p.nextLayer)
      ∧ (p.requested ≠ [] ∨ p.placed ≠ []))
    ∧ (∃ (i : Instr) (s : State) (a : Nat) (v : BitVec 32) (r : Region) (p : Step), s.boot.mode = .service ∧ a + 4 ≤ tundishSize
      ∧ lateInput s a 4 = false ∧ RingsStep s a v i ∧ bellRegion s .slot a = some r ∧ openStep s r.trs r.id = some p ∧ p.closing = false ∧ p.badBell = false
      ∧ bitOf v.toNat 31 = true ∧ p.requested = [] ∧ p.placed = [] ∧ s.heat.windowOpen = true)
    ∧ (∃ (i : Instr) (s : State) (a : Nat) (v : BitVec 32) (r : Region) (p : Step), s.boot.mode = .service ∧ a + 4 ≤ tundishSize
      ∧ lateInput s a 4 = false ∧ RingsStep s a v i ∧ bellRegion s .slot a = some r ∧ openStep s r.trs r.id = some p ∧ p.closing = false ∧ p.badBell = false
      ∧ bitOf v.toNat 31 = false ∧ (bitsOf v.toNat 0 8 ≠ p.nextLayer ∨ p.endLayer ≤ p.nextLayer) ∧ p.requested = [] ∧ p.placed = []
      ∧ s.heat.windowOpen = true)
    ∧ (∃ (i : Instr) (s : State) (a : Nat) (v : BitVec 32) (r : Region) (h : Held) (x : StageRec), s.boot.mode = .service
      ∧ a + 4 ≤ tundishSize ∧ lateInput s a 4 = false ∧ RingsStage s a v i ∧ bellRegion s .stage a = some r ∧ heldOf s r.trs r.id = some h
      ∧ h.undecided = true ∧ h.stage = some x ∧ x.seq = v) :=
  let busy : Step := { step0 with requested := [0], nextLayer := 1 }
  ⟨⟨.cxlMemWrite 0 (bytesOf 4 1) false, attending busy false, 0, 1, slot0, busy, by decide +kernel, by decide +kernel, by decide +kernel,
    Or.inr ⟨rfl, by decide +kernel, by decide +kernel, by decide +kernel⟩, by decide +kernel⟩,
   ⟨.stepDoorbell 0 0x80000000, attending busy false, 0, 0x80000000, slot0, busy, by decide +kernel, by decide +kernel, by decide +kernel, Or.inl rfl,
    by decide +kernel⟩,
   ⟨.stepDoorbell 0 0, attending busy false, 0, 0, slot0, busy, by decide +kernel, by decide +kernel, by decide +kernel, Or.inl rfl, by decide +kernel⟩,
   ⟨.stepDoorbell 0 0x80000000, attending step0 true, 0, 0x80000000, slot0, step0, by decide +kernel, by decide +kernel, by decide +kernel, Or.inl rfl,
    by decide +kernel⟩,
   ⟨.stepDoorbell 0 1, attending step0 true, 0, 1, slot0, step0, by decide +kernel, by decide +kernel, by decide +kernel, Or.inl rfl, by decide +kernel⟩,
   ⟨.stageDoorbell 0 9, staged, 0, 9, ⟨0, 2112, .stage, 0, 3⟩, stagedPark, stage0, by decide +kernel, by decide +kernel, by decide +kernel, Or.inl rfl,
    by decide +kernel⟩⟩

theorem witness_HeatsAndFramesServeSteps :
    (∃ s : State, s.boot.mode = .service ∧ s.heat.windowOpen = true ∧ s.heat.leaving = [] ∧ runningSteps s = [])
    ∧ (∃ s : State, s.heat.windowOpen = false)
    ∧ (∃ (s : State) (q id l : Nat) (p : Step), s.boot.mode = .service ∧ s.heat.windowOpen = true ∧ s.heat.leaving = []
        ∧ runningSteps s = [(q, id, p)] ∧ openStep s q id = some p ∧ p.member = true
        ∧ (∀ m, p.layer0 + p.doneLayers ≤ m → m < p.endLayer →
            (p.owners (idxOf s q id) m).all (fun o => (missing s q id o).isNone) = true)
        ∧ readyLayer s (idxOf s q id) p = some l ∧ layerStatus s (idxOf s q id) p l = 0x00)
    ∧ (∃ (s : State) (q id l : Nat) (dr : List Byte) (p : Step), s.boot.mode = .service ∧ q < 4096
        ∧ s.heat.windowOpen = true ∧ openStep s q id = some p ∧ p.placed.head? = some (l, dr) ∧ p.doneLayers + 1 = p.nlayer)
    ∧ (∃ (s : State) (q id : Nat) (p : Step), s.boot.mode = .service ∧ q < 4096 ∧ s.heat.windowOpen = true
        ∧ openStep s q id = some p ∧ p.deferred = true)
    ∧ (∃ (s : State) (q id : Nat) (p : Step), s.boot.mode = .service ∧ q < 4096 ∧ s.heat.windowOpen = true
        ∧ openStep s q id = some p ∧ p.deferred = false)
    ∧ (∃ (s : State) (n : Nat) (f : Frame) (tp : TenantPol) (c : Nat), s.boot.mode = .service
        ∧ s.tier.frames.find? (fun f => f.fid == n && !f.placed) = some f ∧ tenantPol s f.tenant = some tp
        ∧ frameUse s f.tenant + 1 ≤ tp.framemax ∧ bestChan s f.stack f.tenant = some c ∧ 1 ≤ chanFree s f.stack c) :=
  let asked : Step := { step0 with requested := [0], nextLayer := 1, member := true }
  let last : Step := { step0 with nextLayer := 2, member := true, doneLayers := 1, placed := [(1, [])] }
  let later : Step := { step0 with deferred := true }
  let f : Frame := { fid := 4, page := 0, kind := .transient 0 3, stack := 15, chan := 0, tenant := 0, placed := false }
  ⟨⟨{ svc with heat := { svc.heat with windowOpen := true } }, by decide +kernel⟩, ⟨svc, rfl⟩,
   ⟨attending asked true, 0, 3, 0, asked, by decide +kernel, by decide +kernel, by decide +kernel, by decide +kernel,
    by decide +kernel, by decide +kernel,
    (fun m _ h => by
      have he : asked.endLayer = 2 := by decide +kernel
      have hm : m = 0 ∨ m = 1 := by omega
      rcases hm with rfl | rfl <;> decide +kernel), by decide +kernel⟩,
   ⟨attending last true, 0, 3, 1, [], last, by decide +kernel⟩, ⟨attending later true, 0, 3, later, by decide +kernel⟩,
   ⟨attending step0 true, 0, 3, step0, by decide +kernel⟩,
   ⟨{ parked with tier := { parked.tier with frames := [f] } }, 4, f,
     { t1q := 100000, t1max := 200000, frameq := 10000, framemax := 10000, t2q := 100000, chanMask := 0xFFFFFFFF, wayMask := 0xFFFFFF,
       cap := 1000000000000 }, 0, by decide +kernel⟩⟩

/-- A page of context 0 in T1 at stack 0, channel 0; the tenant has no guaranteed T1 pages and its stack is short of room. -/
def crowded : State := { lifted with
  tier := { lifted.tier with withdrawn := (0, 31760) :: (List.range' 1 31).map (fun c => (c, 31776)) },
  pol := { svc.pol with tenants := [(0, { t1max := 200000, chanMask := 0xFFFFFFFF, wayMask := 0xFFFFFF, cap := 1000000000000 })] } }

/-- Page 0 in T2 with its units mapped, and no room in T2. -/
def mapped4 (k : Nat) : SMap MapEntry := (List.range 4).map (fun i => (storeBaseUnit k + i, { addr := 5, st := 1, slc := true }))
  where storeBaseUnit (k : Nat) : Nat := slotUnit svc k

theorem witness_PagesPromoteAndReturn :
    (∃ (s : State) (k st ch : Nat) (p : Page), s.boot.mode = .service ∧ pageAt s k = some p ∧ p.moving = some (st, ch)
      ∧ unitsStatus s (slotUnit s k) = 0x00 ∧ pageMismatch s k = false ∧ heldElsewhere s p = false)
    ∧ (∃ (s : State) (k st ch : Nat) (p : Page), s.boot.mode = .service ∧ pageAt s k = some p ∧ p.moving = some (st, ch)
      ∧ unitsStatus s (slotUnit s k) = 0x00 ∧ pageMismatch s k = true)
    ∧ (∃ (s : State) (k st ch : Nat) (p : Page), s.boot.mode = .service ∧ pageAt s k = some p ∧ p.moving = some (st, ch)
      ∧ unitsStatus s (slotUnit s k) = 0x00 ∧ pageMismatch s k = false ∧ heldElsewhere s p = true)
    ∧ (∃ s : State, reloads s = [])
    ∧ (∃ (s : State) (k ch : Nat) (p : Page) (tp : TenantPol), s.boot.mode = .service ∧ reloads s = [(k, p)] ∧ pageAt s k = some p
        ∧ pageStatus s k = 0x00 ∧ tenantPol s p.tenant = some tp ∧ t1Use s p.tenant + onTheWay s p.tenant < tp.t1max
        ∧ bestChan s (stripeStack p.owner) p.tenant = some ch ∧ 1 ≤ chanFree s (stripeStack p.owner) ch)
    ∧ (∃ (s : State) (st : Nat), s.boot.mode = .service ∧ aboveWater st s = true)
    ∧ (∃ (s : State) (st k : Nat) (p : Page), s.boot.mode = .service ∧ aboveWater st s = false
        ∧ oldest (s.tier.pages.filter (fun e => evictable s st (List.range 32) e.2 && !unbacked s e.1)) = some (k, p) ∧ pageAt s k = some p
        ∧ aboveWater st (demotePage k true s) = true)
    ∧ (∃ (s : State) (k : Nat) (p : Page), s.boot.mode = .service ∧ pageAt s k = some p ∧ p.inT1 = true ∧ p.moving = none
        ∧ keptT1 s p.owner = false ∧ inMemberRange s p.owner = false ∧ unbacked s k = false
        ∧ polValue s 0x0B 600 * 1000000000 ≤ (now s - p.lastUse).toNat)
    ∧ (∃ (s : State) (k : Nat) (p : Page), s.boot.mode = .service ∧ pageAt s k = some p ∧ p.inT1 = true ∧ p.moving = none
        ∧ keptT1 s p.owner = false ∧ inMemberRange s p.owner = false ∧ unbacked s k = false
        ∧ (now s - p.lastUse).toNat < polValue s 0x0B 600 * 1000000000)
    ∧ (∃ s : State, s.boot.mode = .service ∧ s.gov.bgFlash = false
        ∧ 10 * (s.tier.pages.filter (fun e => e.2.home == .t2)).length ≤ 9 * t2Pages s)
    ∧ (∃ (s : State) (k : Nat) (p : Page), s.boot.mode = .service ∧ s.gov.bgFlash = false
        ∧ 9 * t2Pages s + 10 * (s.tier.pages.filter (fun e => e.2.home == .t2 && inFold s e.1)).length
          < 10 * (s.tier.pages.filter (fun e => e.2.home == .t2)).length ∧ flashStopped s = false
        ∧ s.tier.pages.filter (foldsNow s) = [(k, p)])
    ∧ (∃ (s : State) (k : Nat) (p : Page), s.boot.mode = .service ∧ pageAt s k = some p ∧ hasReader s p.owner = false)
    ∧ (∃ (s : State) (k : Nat) (p : Page), s.boot.mode = .service ∧ pageAt s k = some p ∧ hasReader s p.owner = true) :=
  let up : Page := { ctxPage 0 with moving := some (0, 0) }
  let t1 : Page := { ctxPage 0 with home := .t1 0 0 }
  let side : Page := { owner := .coll 7 4 0, tenant := 0, home := .t2, backSlc := true, lastUse := 1000000 }
  let member : Step := { step0 with member := true }
  let pol0 : TenantPol := { t1q := 100000, t1max := 200000, frameq := 10000, framemax := 10000, t2q := 100000,
                            chanMask := 0xFFFFFFFF, wayMask := 0xFFFFFF, cap := 1000000000000 }
  ⟨⟨{ parked with tier := { parked.tier with pages := [(0, up)] } }, 0, 0, 0, up, by decide +kernel⟩,
   ⟨{ parked with tier := { parked.tier with pages := [(0, up)] }, fl := { parked.fl with mismatch := [slotUnit svc 0] } }, 0, 0, 0, up,
     by decide +kernel⟩,
   ⟨{ attending member false with tier := { parked.tier with pages := [(0, up)] } }, 0, 0, 0, up, by decide +kernel⟩,
   ⟨svc, by decide +kernel⟩,
   ⟨collected, 0, 0, side, pol0, by decide +kernel⟩,
   ⟨svc, 15, by decide +kernel⟩, ⟨crowded, 0, 0, t1, by decide +kernel⟩,
   ⟨{ lifted with aon := { lifted.aon with timebase := 600001000000 } }, 0, t1, by decide +kernel⟩,
   ⟨lifted, 0, t1, by decide +kernel⟩, ⟨svc, by decide +kernel⟩,
   ⟨{ parked with tier := { parked.tier with pages := [(0, ctxPage 0)] }, fl := { parked.fl with map := mapped4 0 },
                  pol := { svc.pol with values := [(0x0E, 0)] } }, 0, ctxPage 0, by decide +kernel⟩,
   ⟨lifted, 0, t1, by decide +kernel⟩,
   ⟨setTrs 0 { getTrs svc 0 with held := [heldAs 3 .running (setDescByte dRecall 0 0x12)] }
      { lifted with cmd := { lifted.cmd with locks := [⟨0, 3, 5, false, [.context 0 0 1]⟩] } }, 0, t1, by decide +kernel⟩⟩

/-- A SEARCH of collection 7 with one query on board. -/
def query0 : Query := { code := 0, cand := 8, onBoard := true }
def search0 : SearchRec := { coll := 7, epoch := 0, commitSeq := 1, queries := [query0], loaded := true }
def searching : Held := { heldAs 3 .running (setDescByte dSearch 0 0x20) with search := some search0 }
def scanning (hs : List Held) : State :=
  setTrs 0 { getTrs svc 0 with held := hs } { svc with
    coll := [(7, { live := true, commitSeq := 1, nextOrd := 3, codes := codes3, scanEpoch := some 0 })] }

/-- An anneal round of collection 7 over the codes given, the write buffer full. -/
def round0 : Round := { insSeq := 1, count := 3, charged := 0, foreground := false }
def rounding (cs : List Code) : State :=
  { bufferFull with coll := [(7, { live := true, codes := cs, commitSeq := 1, round := some round0 })] }

theorem rounding_used (cs : List Code) : bufferUsed (rounding cs) = bufferUnits := by
  simp [bufferUsed, rounding, bufferFull]

/-- The same with no code: its side-list and tombstone pages stand as the round would write them. -/
def emptyPages : State := { rounding [] with tier := { svc.tier with pages :=
  [(0, { owner := .coll 7 4 0, tenant := 0, home := .t2 }), (1, { owner := .coll 7 5 0, tenant := 0, home := .t2 })] } }

theorem getList_nil {α : Type} [DecidableEq α] (d : α) (n a : Nat) : SMap.getList d [] a n = List.replicate n d := by
  induction n generalizing a with
  | zero => rfl
  | succ n ih => simp [SMap.getList, SMap.find, ih, List.replicate_succ]

theorem emptyPages_images : collImages (annealed emptyPages 7 round0) = [(4, 0, padTo 65536 []), (5, 0, padTo 65536 [])] := by rfl

theorem emptyPages_bytes (k : Nat) : pageBytes emptyPages k = padTo 65536 [] := by
  have h : emptyPages.fl.data = [] := rfl
  simp only [pageBytes, unitBytes, h, getList_nil, padTo, List.nil_append, List.length_nil, Nat.sub_zero]

theorem emptyPages_new : roundPagesNew emptyPages 7 (annealed emptyPages 7 round0) = [] := by
  have h4 : slotOfOwner emptyPages (.coll 7 4 0) = some 0 := by decide +kernel
  have h5 : slotOfOwner emptyPages (.coll 7 5 0) = some 1 := by decide +kernel
  simp [roundPagesNew, emptyPages_images, h4, h5, emptyPages_bytes]

theorem witness_ScansEndAndAnnealRoundsCommit :
    (∃ (s : State) (cid ep : Nat), s.boot.mode = .service ∧ (getColl s cid).scanEpoch = some ep ∧ openSearches s cid = [])
    ∧ (∃ (s : State) (cid ep q id : Nat) (h : Held) (r : SearchRec) (x y : Query) (w : Pass), s.boot.mode = .service
        ∧ (getColl s cid).scanEpoch = some ep ∧ openSearches s cid = [(q, id, r)] ∧ heldOf s q id = some h ∧ h.op = 0x20
        ∧ h.undecided = true ∧ h.search = some r ∧ r.coll = cid ∧ r.queries = [x] ∧ x.onBoard = true ∧ x.hits = none
        ∧ (getColl s cid).kind = 0 ∧ (∀ e ∈ s.tier.pages, ownedByColl cid e.2.owner = false)
        ∧ w = runPass s h.desc r x (fun _ => true) ∧ y = afterPass h.desc { x with spent := [], seen := [] } w
        ∧ y.hits.isSome = true ∧ worse r.lost (worse w.lost 0x00) = 0x00)
    ∧ (∃ (s : State) (cid : Nat) (x : Coll), s.boot.mode = .service ∧ collOf s cid = some x ∧ x = getColl s cid ∧ x.round = none
        ∧ annealDue s x = true ∧ roundFits s cid (newRound s x (sideLen x)) = true)
    ∧ (∃ (s : State) (cid : Nat) (x : Coll), s.boot.mode = .service ∧ collOf s cid = some x ∧ x = getColl s cid ∧ x.round = none
        ∧ annealDue s x = false ∧ x.again = true ∧ roundFits s cid (newRound s x (sideLen x)) = true)
    ∧ (∃ (s : State) (cid : Nat) (x : Coll), s.boot.mode = .service ∧ collOf s cid = some x ∧ x = getColl s cid ∧ x.round = none
        ∧ annealDue s x = true ∧ roundFits s cid (newRound s x (sideLen x)) = false
        ∧ sideLen x ≤ 65536)
    ∧ (∃ (s : State) (cid : Nat) (x : Coll), s.boot.mode = .service ∧ collOf s cid = some x ∧ x = getColl s cid
        ∧ (x.round ≠ none ∨ (annealDue s x = false ∧ x.again = false)))
    ∧ (∃ (s : State) (cid : Nat) (r : Round), s.boot.mode = .service ∧ (getColl s cid).round = some r ∧ openMerges s cid = []
        ∧ (roundPagesNew s cid (annealed s cid r)).all (roundPageIn s cid) = true)
    ∧ (∃ (s : State) (cid : Nat) (r : Round), s.boot.mode = .service ∧ (getColl s cid).round = some r ∧ openMerges s cid = []
        ∧ (roundPagesNew s cid (annealed s cid r)).all (roundPageIn s cid) = false ∧ bufferFree s < 4)
    ∧ (∃ (s : State) (cid ep : Nat), s.boot.mode = .service ∧ freedSlots s cid ep = [])
    ∧ (∃ (s : State) (cid ep : Nat), s.boot.mode = .service ∧ freedSlots s cid ep ≠ []) :=
  let due (cap : Nat) : State := { collected with tier := svc.tier, pol := { svc.pol with
    values := [(5, 2)],
    tenants := [(0, { t1q := cap, t1max := cap, chanMask := 0xFFFFFFFF, wayMask := 0xFFFFFF, cap := cap * 10000000000 })] } }
  let again : State := { collected with coll := [(7, { live := true, commitSeq := 1, nextOrd := 3, codes := codes3, again := true })],
                                        tier := svc.tier }
  ⟨⟨scanning [], 7, 0, by decide +kernel⟩, ⟨scanning [searching], 7, 0, 0, 3, searching, search0, query0, _, _, by decide +kernel, by decide +kernel, by decide +kernel,
    by decide +kernel, by decide +kernel, by decide +kernel, by decide +kernel, by decide +kernel, by decide +kernel, by decide +kernel,
    by decide +kernel, by decide +kernel, by decide +kernel, rfl, rfl, by decide +kernel, by decide +kernel⟩,
   ⟨due 100, 7, getColl (due 100) 7, by decide +kernel⟩, ⟨again, 7, getColl again 7, by decide +kernel⟩,
   ⟨due 0, 7, getColl (due 0) 7, by decide +kernel⟩,
   ⟨collected, 7, getColl collected 7, by decide +kernel⟩,
   ⟨emptyPages, 7, round0, by decide +kernel, by decide +kernel, by decide +kernel, by rw [emptyPages_new]; rfl⟩,
   ⟨rounding codes3, 7, round0, by decide +kernel, by decide +kernel, by decide +kernel,
     by decide +kernel, by simp only [bufferFree, rounding_used]; decide⟩,
   ⟨collected, 7, 0, by decide +kernel⟩,
   ⟨{ collected with tier := { svc.tier with pages := [(0, { owner := .coll 7 4 0, tenant := 0, home := .t2, dead := some 1 })] } }, 7, 0,
     by decide +kernel⟩⟩

end Sys2Proof.Tests
end

