-- ==== Sys2Proof/Tests/Witness6.lean ====
section
/-! SUPPORT. Witnesses of the statements about cores, engines and the flash media. -/

set_option Elab.async false

namespace Sys2Proof.Tests

open Sys2Proof Sys2Proof.Machine

/-- A tile of job 1 with one output line in its scratchpad, and the job: command 3 of TRS 0, with 4 semaphores at block 8, in batch 4. -/
def tile1 : Tile := { job := 1, index := 0, cls := 2, shape := 0, live := 4096, cycles := 1000, lines := [(0, 5)] }
def job1 : Job := { jid := 1, trs := 0, id := 3, slot := 3, tenant := 0, sems := 4, sram := 0, placed := true, block := some 8, batch := 4 }

/-- Engine 9 in service, its partition 0 as given. -/
def engine9 (g : Part) : Engine := { pass := true, logical := some 7, stopped := false, parts := [g, {}, {}, {}] }

/-- A partition that runs `tile1`. -/
def busy : Part := { tile := some tile1 }

/-- A running SEARCH of TRS 0 with its queries. -/
def oSearching : Held := { heldAs 3 .running (setDescByte dSearch 0 0x20) with search := some search0 }

/-- Core 15 with that engine, serving a running SEARCH of TRS 0. -/
def working (g : Engine) (k : Machine.Core) : State := { withEngine 15 9 g k with trs := (holding [oSearching]).trs }

theorem serving1 (s : State) (h : heldOf s 0 3 = some oSearching) : Serving s job1 := ⟨_, h, by decide +kernel, by decide +kernel⟩

/-- The work of `tile1` as an engine-level save keeps it. -/
def saved1 : Saved := ⟨9, [busy, {}, {}, {}], [], []⟩

theorem witness_TilesAreDispatched :
    (∃ (s : State) (c e p : Nat) (g : Part) (v : Saved), s.boot.mode = .service ∧ canRun (getEngine s c e) = true
      ∧ (getEngine s c e).parts[p]? = some g ∧ g.tile = none ∧ savedFirst s c e p = some v)
    ∧ (∃ (s : State) (c e p : Nat) (g : Part) (x : Tile), s.boot.mode = .service ∧ canRun (getEngine s c e) = true
      ∧ (getEngine s c e).parts[p]? = some g ∧ g.tile = none ∧ savedFirst s c e p = none
      ∧ nextTile s (getCore s c) e (getEngine s c e) p = some x)
    ∧ (∃ (s : State) (c e p : Nat) (g : Part), s.boot.mode = .service ∧ canRun (getEngine s c e) = true
      ∧ (getEngine s c e).parts[p]? = some g ∧ g.tile = none ∧ savedFirst s c e p = none
      ∧ nextTile s (getCore s c) e (getEngine s c e) p = none) :=
  ⟨⟨working (engine9 {}) { jobs := [job1], saves := [saved1], ready := [{ tile1 with index := 1 }] }, 15, 9, 0, {}, saved1,
     by decide +kernel⟩,
   ⟨working (engine9 {}) { jobs := [job1], saves := [saved1], ready := [{ tile1 with cls := 1 }] }, 15, 9, 0, {}, { tile1 with cls := 1 },
     by decide +kernel⟩,
   ⟨working (engine9 {}) {}, 15, 9, 0, {}, by decide +kernel⟩⟩

/-- The tile at partition 0 of engine 9 with no operation left. -/
theorem closed1 (s : State) (g : Part) (x : Tile) (h1 : (getEngine (closeTile ⟨15, 9, 0⟩ [] s) 15 9).parts[0]? = some g)
    (h2 : g.tile = some x) (h3 : (partAt s ⟨15, 9, 0⟩).tile = some x) : Closed s 15 9 0 [] (closeTile ⟨15, 9, 0⟩ [] s) g x :=
  ⟨rfl, h1, h2, h3⟩

theorem witness_TilesAreCompleted :
    (∃ (s u : State) (c e p : Nat) (ops : List EngOp) (g : Part) (x : Tile) (j : Job), Closed s c e p ops u g x ∧ s.boot.mode = .service
      ∧ x.kat = none ∧ jobOf (getCore u c) x.job = some j ∧ g.poisoned = false ∧ heldSems (getCore u c) x = [] ∧ g.flagged = false
      ∧ g.outs = [] ∧ ∃ y ∈ (getCore u c).ready, y.job = x.job)
    ∧ (∃ (s u : State) (c e p : Nat) (ops : List EngOp) (g : Part) (x : Tile) (j : Job), Closed s c e p ops u g x ∧ s.boot.mode = .service
      ∧ x.kat = none ∧ jobOf (getCore u c) x.job = some j ∧ g.poisoned = false ∧ heldSems (getCore u c) x = [] ∧ g.flagged = true
      ∧ x.groupPath = false)
    ∧ (∃ (s u : State) (c e p : Nat) (ops : List EngOp) (g : Part) (x : Tile) (j : Job) (h : Held) (r : SearchRec), Closed s c e p ops u g x
      ∧ s.boot.mode = .service ∧ x.kat = none ∧ jobOf (getCore u c) x.job = some j ∧ g.poisoned = true
      ∧ heldOf s j.trs j.id = some h ∧ h.undecided = true ∧ h.op = 0x20 ∧ h.search = some r ∧ r.loaded = true)
    ∧ (∃ (s u : State) (c e p : Nat) (ops : List EngOp) (g : Part) (x : Tile) (j : Job) (h : Held) (q : Step), Closed s c e p ops u g x
      ∧ s.boot.mode = .service ∧ x.kat = none ∧ jobOf (getCore u c) x.job = some j ∧ g.poisoned = true
      ∧ heldOf s j.trs j.id = some h ∧ h.undecided = true ∧ h.op = 0x13 ∧ h.step = some q ∧ s.heat.windowOpen = true)
    ∧ (∃ (s u : State) (c e p : Nat) (ops : List EngOp) (g : Part) (x : Tile) (j : Job), Closed s c e p ops u g x ∧ s.boot.mode = .service
      ∧ x.kat = none ∧ jobOf (getCore u c) x.job = some j ∧ g.poisoned = false ∧ heldSems (getCore u c) x ≠ [] ∧ Serving s j)
    ∧ (∃ (s u : State) (c e p : Nat) (ops : List EngOp) (g : Part) (x : Tile), Closed s c e p ops u g x ∧ s.boot.mode = .service
      ∧ x.kat ≠ none ∧ running (getEngine s c e) = [x]) :=
  let jobs : Machine.Core := { jobs := [job1] }
  let bad : Part := { busy with poisoned := true }
  let clamped : Part := { busy with flagged := true }
  let kat : Part := { tile := some (katTile 9) }
  let step1 : Step := { step0 with nextLayer := 1 }
  let attend : State := { attending step1 true with core := (withEngine 15 9 (engine9 bad) jobs).core }
  ⟨⟨working (engine9 busy) { jobs with ready := [{ tile1 with index := 1 }] }, _, 15, 9, 0, [], busy, tile1, job1,
     closed1 _ _ _ (by decide +kernel) rfl (by decide +kernel), by decide +kernel⟩,
   ⟨working (engine9 clamped) jobs, _, 15, 9, 0, [], clamped, tile1, job1,
     closed1 _ _ _ (by decide +kernel) rfl (by decide +kernel), by decide +kernel⟩,
   ⟨working (engine9 bad) jobs, _, 15, 9, 0, [], bad, tile1, job1, oSearching, search0,
     closed1 _ _ _ (by decide +kernel) rfl (by decide +kernel), by decide +kernel⟩,
   ⟨attend, _, 15, 9, 0, [], bad, tile1, job1,
     { heldAs 3 .running (setDescByte dAttend 0 0x13) with acceptNo := 5, step := some step1 }, step1,
     closed1 _ _ _ (by decide +kernel) rfl (by decide +kernel), by decide +kernel⟩,
   ⟨working (engine9 busy) { jobs with sems := [(8, { holder := some (1, 0) })] }, _, 15, 9, 0, [], busy, tile1, job1,
     closed1 _ _ _ (by decide +kernel) rfl (by decide +kernel), by decide +kernel, rfl, by decide +kernel, by decide +kernel,
     by decide +kernel, serving1 _ (by decide +kernel)⟩,
   ⟨working (engine9 kat) {}, _, 15, 9, 0, [], kat, katTile 9,
     closed1 _ _ _ (by decide +kernel) rfl (by decide +kernel), by decide +kernel⟩⟩

/-- A full-array partition whose reload of an integer set waits for its swap. -/
def loaded1 : Part := { busy with shadowReady := true, shadow := { fmt := 0x9, cells := [(0, 1)] } }

theorem witness_StationarySetsAreSwapped :
    (∃ (s : State) (c e p : Nat) (g : Part), s.boot.mode = .service ∧ (getEngine s c e).parts[p]? = some g ∧ canSwap g = false)
    ∧ (∃ (s : State) (c e p : Nat) (g : Part), s.boot.mode = .service ∧ (getEngine s c e).parts[p]? = some g ∧ canSwap g = true
      ∧ g.queued ≠ [])
    ∧ (∃ (s : State) (c e p : Nat) (g : Part) (x : Tile) (m : ArrayMode) (a k f n v : Nat), s.boot.mode = .service
      ∧ (getEngine s c e).parts[p]? = some g ∧ canSwap g = true ∧ g.queued = [] ∧ g.writes = [] ∧ g.tile = some x
      ∧ modeOf f = some m ∧ shapeTakes x.shape m = true ∧ m ≠ .binary ∧ isIntFmt g.shadow.fmt = true ∧ isMx f = false
      ∧ formatsPair g.shadow.fmt f = true ∧ n < entriesOf x.shape ∧ v < vregsOf x.shape
      ∧ a + ceilDiv (fmtBits f * inputsOf x.shape m) 8 ≤ x.live ∧ k ≤ x.live) :=
  ⟨⟨working (engine9 { busy with passRunning := true, shadowReady := true }) {}, 15, 9, 0, _, by decide +kernel, rfl, by decide +kernel⟩,
   ⟨working (engine9 { loaded1 with queued := [(0, 0, 0x9)] }) {}, 15, 9, 0, _, by decide +kernel, rfl, by decide +kernel⟩,
   ⟨working (engine9 loaded1) { jobs := [job1] }, 15, 9, 0, loaded1, tile1, .eight, 4064, 4096, 0xA, 31, 127, by decide +kernel⟩⟩

theorem witness_SemaphoresGrantInOrder :
    (∃ (s : State) (c e p m n : Nat) (y : Tile) (x : Sem), s.boot.mode = .service ∧ semOf s ⟨c, e, p⟩ m = some (n, y)
      ∧ SMap.find {} (getCore s c).sems n = x ∧ x.holder = none)
    ∧ (∃ (s : State) (c e p m n : Nat) (y : Tile) (x : Sem) (j : Job), s.boot.mode = .service ∧ semOf s ⟨c, e, p⟩ m = some (n, y)
      ∧ SMap.find {} (getCore s c).sems n = x ∧ x.holder = some (y.job, y.index) ∧ jobOf (getCore s c) y.job = some j ∧ Serving s j)
    ∧ (∃ (s : State) (c e p m n : Nat) (y : Tile) (x : Sem), s.boot.mode = .service ∧ semOf s ⟨c, e, p⟩ m = some (n, y)
      ∧ SMap.find {} (getCore s c).sems n = x ∧ x.holder ≠ none ∧ x.holder ≠ some (y.job, y.index)) :=
  let sem (h : Nat × Nat) : Sem := { holder := some h, queue := [(1, 2)] }
  ⟨⟨working (engine9 busy) { jobs := [job1] }, 15, 9, 0, 3, 11, tile1, {}, by decide +kernel⟩,
   ⟨working (engine9 busy) { jobs := [job1], sems := [(8, sem (1, 0))] }, 15, 9, 0, 0, 8, tile1, sem (1, 0), job1, by decide +kernel,
    by decide +kernel, by decide +kernel, by decide +kernel, by decide +kernel, serving1 _ (by decide +kernel)⟩,
   ⟨working (engine9 busy) { jobs := [job1], sems := [(8, sem (1, 3))] }, 15, 9, 0, 0, 8, tile1, sem (1, 3), by decide +kernel⟩⟩

theorem witness_EnginesArePreemptedSavedAndStopped :
    (∃ (s : State) (c e : Nat), s.boot.mode = .service ∧ outranked (getCore s c) (getEngine s c e) = true
      ∧ (getEngine s c e).preempt = false)
    ∧ (∃ (s : State) (c e : Nat), s.boot.mode = .service ∧ outranked (getCore s c) (getEngine s c e) = false)
    ∧ (∃ (s : State) (c e : Nat), s.boot.mode = .service ∧ holdsSem (getCore s c) e = true)
    ∧ (∃ (s : State) (c e : Nat), s.boot.mode = .service ∧ holdsSem (getCore s c) e = false
      ∧ running (getEngine (drainEngine c e s) c e) ≠ [])
    ∧ (∃ (s : State) (c e : Nat), s.boot.mode = .service ∧ running (getEngine s c e) = [])
    ∧ (∃ (s : State) (c e : Nat), s.boot.mode = .service ∧ running (getEngine s c e) ≠ []) :=
  ⟨⟨working (engine9 busy) { ready := [{ tile1 with cls := 0 }] }, 15, 9, by decide +kernel⟩, ⟨svc, 15, 9, by decide +kernel⟩,
   ⟨working (engine9 busy) { jobs := [job1], sems := [(8, { holder := some (1, 0) })] }, 15, 9, by decide +kernel⟩,
   ⟨working (engine9 busy) { jobs := [job1] }, 15, 9, by decide +kernel⟩,
   ⟨svc, 15, 9, by decide +kernel⟩, ⟨working (engine9 busy) {}, 15, 9, by decide +kernel⟩⟩

theorem witness_EngineFaultsAreCheckedAndContained :
    (∃ (s : State) (c e : Nat), s.boot.mode = .service ∧ inService (getEngine s c e) = true ∧ running (getEngine s c e) = []
      ∧ (getEngine s c e).faultAt = none)
    ∧ (∃ (s : State) (c e : Nat) (t0 : BitVec 64), s.boot.mode = .service ∧ inService (getEngine s c e) = true
      ∧ running (getEngine s c e) = [] ∧ (getEngine s c e).faultAt = some t0 ∧ (now s - t0).toNat < 86400000000000)
    ∧ (∃ (s : State) (c e : Nat), s.boot.mode = .service ∧ inService (getEngine s c e) = false)
    ∧ (∃ (s : State) (c e p : Nat) (g : Part) (x : Tile) (j : Job), s.boot.mode = .service ∧ inService (getEngine s c e) = true
      ∧ (getEngine s c e).faultAt = none ∧ (getEngine s c e).parts[p]? = some g ∧ p < 4 ∧ g.tile = some x
      ∧ jobOf (getCore s c) x.job = some j ∧ Serving s j)
    ∧ (∃ (s : State) (c e : Nat), s.boot.mode = .service ∧ (getEngine s c e).checking = true ∧ running (getEngine s c e) = [])
    ∧ (∃ (s : State) (c : Nat) (j : Job), s.boot.mode = .service ∧ (getCore s c).jobs = [j] ∧ Serving s j)
    ∧ (∃ s : State, s.boot.mode = .service ∧ SMap.wf {} s.core.cores = true ∧ katDue (getCore s 15) ≠ []) :=
  ⟨⟨working (engine9 {}) {}, 15, 9, by decide +kernel⟩,
   ⟨working { engine9 {} with faultAt := some 0 } {}, 15, 9, 0, by decide +kernel⟩, ⟨svc, 15, 9, by decide +kernel⟩,
   ⟨working (engine9 busy) { jobs := [job1] }, 15, 9, 0, busy, tile1, job1, by decide +kernel, by decide +kernel,
    by decide +kernel, by decide +kernel, by decide, rfl, by decide +kernel, serving1 _ (by decide +kernel)⟩,
   ⟨working { engine9 {} with checking := true } {}, 15, 9, by decide +kernel⟩,
   ⟨working (engine9 busy) { jobs := [job1] }, 15, job1, by decide +kernel, by decide +kernel, serving1 _ (by decide +kernel)⟩,
   ⟨working (engine9 {}) {}, by decide +kernel⟩⟩

/-- Batch 4 of slot 3 for command 3 of TRS 0, adapting tensors 1 and 2. -/
def batch4 (left : Nat) : Batch :=
  { no := 4, slot := 3, trs := 0, id := 3, tenant := 0, cls := 2, cores := [15], left := left, mults := [(1, 0x3F800000), (2, 0x40000000)] }

/-- That batch with no tile left. -/
def batched (left : Nat) : State :=
  let s := working (engine9 {}) {}
  { s with pol := slotted.pol, core := { s.core with batches := [batch4 left], nextBatch := 5 } }

theorem witness_BatchesAdaptTheirTensors :
    (∃ (s : State) (no : Nat), s.boot.mode = .service ∧ s.core.batches.find? (fun b => b.no == no) = none)
    ∧ (∃ (s : State) (no : Nat), s.boot.mode = .service ∧ batchRuns s no = true)
    ∧ (∃ (s : State) (no : Nat) (b : Batch), s.boot.mode = .service ∧ s.core.batches.find? (fun b => b.no == no) = some b
      ∧ batchRuns s no = false ∧ (b.mults.map (·.1)).Nodup ∧ b.mults ≠ [] ∧ b.left = 0)
    ∧ (∃ (s : State) (no : Nat) (b : Batch) (x : FnSlot) (h : Held), s.boot.mode = .service
      ∧ s.core.batches.find? (fun b => b.no == no) = some b ∧ batchRuns s no = false ∧ (b.mults.map (·.1)).Nodup ∧ 0 < b.left
      ∧ slotOf s b.slot = some x ∧ heldOf s b.trs b.id = some h ∧ h.undecided = true) :=
  ⟨⟨svc, 4, by decide +kernel⟩, ⟨working (engine9 busy) { jobs := [job1] }, 4, by decide +kernel⟩,
   ⟨batched 0, 4, batch4 0, by decide +kernel⟩,
   ⟨batched 1, 4, batch4 1, ⟨3, 3, 1, 0, 0, 0, [], [], [], [], [], false, []⟩, oSearching, by decide +kernel⟩⟩

/-- The page at flash address 5, in the open SLC superblock of its place. -/
def open5 : State :=
  { svc with fl := { svc.fl with wbuf := [{ unit := 0, accs := [5], group := 1 }],
                                 sbs := [(sbKey svc 5, { slc := true, st := .openSlc })] } }

/-- Unit 0 mapped at flash address 5, in a closed superblock. -/
def stored5 : State :=
  { svc with fl := { svc.fl with map := [(0, { addr := 5, st := 1, slc := true })], sbs := [(sbKey svc 5, { slc := true, st := .closed })] } }

theorem witness_ProgramsMapUnitsOrRetireBlocks :
    (∃ (s : State) (u : Nat) (a : FlashAddr), s.boot.mode = .service ∧ canProgram s a = true ∧ spreads s u a = true
      ∧ relocWaiting s u = none ∧ tailUnit s u = false
      ∧ (∀ b ∈ s.fl.wbuf, b.unit = u → b.progAt = none ∧ b.mapSeq = none ∧ b.cmd = none) ∧ inBuffer s u = true
      ∧ sbFits s (sbKey s a) (destOf s u) = true)
    ∧ (∃ (s : State) (a : FlashAddr) (lost : List Nat) (u : Nat), s.boot.mode = .service ∧ u ∈ unitsOfBlock s (blockKey a) ∧ u ∈ lost)
    ∧ (∃ (s : State) (a : FlashAddr), s.boot.mode = .service ∧ unitsOfBlock s (blockKey a) = []
      ∧ (SMap.find {} s.fl.blocks (blockKey a)).retired = none)
    ∧ (∃ (s : State) (a : FlashAddr), s.boot.mode = .service ∧ unitsOfBlock s (blockKey a) ≠ [] ∧ s.fl.relocs = []
      ∧ flashStopped s = false) :=
  ⟨⟨open5, 0, 5, by decide +kernel⟩, ⟨stored5, 5, [0], 0, by decide +kernel⟩, ⟨svc, 5, by decide +kernel⟩,
   ⟨stored5, 5, by decide +kernel⟩⟩

theorem witness_FlashReadsCountAndFail :
    (∃ (s : State) (u k : Nat) (a : FlashAddr), s.boot.mode = .service ∧ relocRead s u a = none ∧ (mapOf s u).st = 1
      ∧ (mapOf s u).addr = a ∧ k < 5 ∧ (SMap.find {} s.fl.blocks (blockKey a)).reads + 1 < readLimit (slcAddr s a))
    ∧ (∃ (s : State) (a : FlashAddr) (k bits : Nat), s.boot.mode = .service ∧ s.gov.bgFlash = false
      ∧ (SMap.find {} s.fl.blocks (blockKey a)).retired = none ∧ canErase s (sbKey s a) = false ∧ (sbOf s (sbKey s a)).st ≠ .free
      ∧ scanRefresh (.hard k) bits = false ∧ (SMap.find {} s.fl.blocks (blockKey a)).reads + 1 < readLimit (slcAddr s a))
    ∧ (∃ s : State, s.gov.bgFlash = true)
    ∧ (∃ (s : State) (c p : Nat), s.boot.mode = .service ∧ c < 128 ∧ p < 17 ∧ s.boot.flushing = false)
    ∧ (∃ s : State, s.boot.mode = .service ∧ s.boot.flushing = true) :=
  ⟨⟨stored5, 0, 4, 5, by decide +kernel⟩, ⟨stored5, 5, 0, 0, by decide +kernel⟩,
   ⟨{ svc with gov := { svc.gov with bgFlash := true } }, rfl⟩, ⟨svc, 127, 16, by decide +kernel⟩,
   ⟨{ svc with boot := { svc.boot with flushing := true } }, by decide +kernel⟩⟩

/-- 6 GiB of journal in equal entries. -/
def longJournal : State := { svc with fl := { svc.fl with journal := List.replicate 268435456 ⟨1, [.unmap 0 1], true⟩ } }

theorem longJournal_bytes : 6442450944 ≤ journalBytes longJournal := by
  have h : ∀ n k : Nat, sumOf (List.replicate n k) = n * k := by
    intro n k
    induction n with
    | zero => simp [sumOf]
    | succ n ih => rw [List.replicate_succ, sumOf, ih, Nat.succ_mul]; omega
  have hm : longJournal.fl.journal.map (fun e => entrySize e.recs) = List.replicate 268435456 (entrySize [.unmap 0 1]) :=
    List.map_replicate
  have hs : 24 ≤ entrySize [.unmap 0 1] := by decide
  rw [journalBytes, hm, h]
  omega

theorem witness_ErasesDieLossAndJournal :
    (∃ (s : State) (i p b : Nat), s.boot.mode = .service ∧ i < 8 ∧ p < 16 ∧ b < 2520 ∧ canErase s ((i * 17 + p) * 2520 + b) = true
      ∧ ∃ m ∈ members i, (SMap.find {} s.fl.blocks (memberKey s p b m)).retired = none)
    ∧ (∃ (s : State) (i p b : Nat), s.boot.mode = .service ∧ i < 8 ∧ p < 16 ∧ b < 2520 ∧ canErase s ((i * 17 + p) * 2520 + b) = false)
    ∧ (∃ (s : State) (c p : Nat), s.boot.mode = .service ∧ c < 128 ∧ p < 17 ∧ (dieOf s (c * 17 + p)).lost = false
      ∧ (dieOf s (c * 17 + p)).fails < 2)
    ∧ (∃ (s : State) (c p u : Nat), s.boot.mode = .service ∧ c < 128 ∧ p < 16 ∧ (dieOf s (c * 17 + p)).lost = false
      ∧ 2 ≤ (dieOf s (c * 17 + p)).fails ∧ (mapOf s u).st = 1 ∧ dieKey (mapOf s u).addr = c * 17 + p
      ∧ (dieOf s (c * 17 + 16)).serves = none ∧ (dieOf s (c * 17 + 16)).lost = false)
    ∧ (∃ (s : State) (c p : Nat), s.boot.mode = .service ∧ c < 128 ∧ p < 16 ∧ (dieOf s (c * 17 + p)).lost = false
      ∧ 2 ≤ (dieOf s (c * 17 + p)).fails ∧ (dieOf s (c * 17 + 16)).serves ≠ none)
    ∧ (∃ s : State, s.boot.mode = .service ∧ s.fl.pendBytes = 0 ∧ s.fl.rewrites = [] ∧ journalBytes s < 6442450944)
    ∧ (∃ s : State, s.boot.mode = .service ∧ s.fl.pendBytes ≠ 0 ∧ journalBytes s < 6442450944)
    ∧ (∃ s : State, s.boot.mode = .service ∧ 6442450944 ≤ journalBytes s)
    ∧ (∃ s : State, s.boot.mode = .service ∧ SMap.wf {} s.fl.sbs = true ∧ s.fl.sbs ≠ []) :=
  let closed : State := { svc with fl := { svc.fl with sbs := [((7 * 17 + 15) * 2520 + 2519, { st := .closed })] } }
  let k := dieKey (5 : FlashAddr)
  ⟨⟨closed, 7, 15, 2519, by decide, by decide, by decide, by decide, by decide +kernel, 0 + (members 7).headD 0, by decide +kernel,
    by decide +kernel⟩,
   ⟨svc, 7, 15, 2519, by decide +kernel⟩,
   ⟨{ svc with fl := { svc.fl with dies := [(127 * 17 + 16, { fails := 1 })] } }, 127, 16, by decide +kernel⟩,
   ⟨{ stored5 with fl := { stored5.fl with dies := [(k, { fails := 2 })] } }, k / 17, k % 17, 0, by decide +kernel⟩,
   ⟨{ svc with fl := { svc.fl with dies := [(k, { fails := 2 }), (k / 17 * 17 + 16, { serves := some 1 })] } }, k / 17, k % 17,
    by decide +kernel⟩,
   ⟨svc, by decide +kernel⟩, ⟨{ svc with fl := { svc.fl with pendBytes := 40 } }, by decide +kernel⟩, ⟨longJournal, rfl, longJournal_bytes⟩,
   ⟨closed, by decide +kernel⟩⟩

end Sys2Proof.Tests
end

