-- ==== Sys2Proof/Tests/Witness7.lean ====
section
/-! SUPPORT. Witnesses of the statements about background flash work, integrity, processors, the governor and the hold-up bank. -/

set_option Elab.async false

namespace Sys2Proof.Tests

open Sys2Proof Sys2Proof.Machine

/-- A map that holds one value on a run of keys. -/
theorem find_run {α : Type} (d v : α) (n a j : Nat) (h1 : a ≤ j) (h2 : j < a + n) :
    SMap.find d ((List.range' a n).map (fun k => (k, v))) j = v := by
  induction n generalizing a with
  | zero => omega
  | succ n ih =>
    simp only [List.range'_succ, List.map_cons, SMap.find]
    split
    · rfl
    · exact ih (a + 1) (by omega) (by omega)

/-- Flash island 0 with one closed superblock and 39,200 in use: fewer than 3% are free. -/
def fullIsland : State :=
  { svc with fl := { svc.fl with
      map := [(0, { addr := 0, st := 1 })],
      sbs := (0, { st := .closed }) :: (List.range' 1 39200).map (fun k => (k, ({ st := .openJournal } : Superblock))) } }

theorem fullIsland_free : freePool fullIsland 0 = 1119 := by
  have hz : canErase fullIsland 0 = false := by
    have : (sbUnits fullIsland 0).isEmpty = false := by decide +kernel
    simp [canErase, this]
  have hk : ∀ k, 1 ≤ k → k < 1 + 39200 → canErase fullIsland k = false := by
    intro k h1 h2
    have hs : sbOf fullIsland k = { st := .openJournal } := by
      have hne : ¬ (0 = k) := by omega
      simp only [sbOf, fullIsland, SMap.find, hne, if_false]
      exact find_run _ _ 39200 1 k h1 h2
    simp [canErase, hs]
  have hall : fullIsland.fl.sbs.filter (fun (e : Nat × Superblock) => sbIsland e.1 == 0 && decide (e.2.st ≠ .free)
      && !canErase fullIsland e.1) = fullIsland.fl.sbs := by
    rw [List.filter_eq_self]
    intro e he
    have he' : e = (0, { st := .closed }) ∨ e ∈ (List.range' 1 39200).map (fun k => (k, ({ st := .openJournal } : Superblock))) :=
      List.mem_cons.mp he
    rcases he' with rfl | h
    · simp [hz, sbIsland]
    · obtain ⟨k, hm, rfl⟩ := List.mem_map.mp h
      have hm' := List.mem_range'_1.mp hm
      have : k / 42840 = 0 := by omega
      simp [hk k hm'.1 (by omega), sbIsland, this]
  rw [freePool, hall]
  simp [fullIsland, islandSbs]

theorem fullIsland_victim : victims fullIsland 0 = [(0, { st := .closed })] := by
  have hu : (sbUnits fullIsland 0).isEmpty = false := by decide +kernel
  have hr : fullIsland.fl.relocs = [] := rfl
  have hb : fullIsland.fl.sbs = (0, { st := .closed })
      :: (List.range' 1 39200).map (fun k => (k, ({ st := .openJournal } : Superblock))) := rfl
  unfold victims
  rw [hb, List.filter_cons_of_pos (by simp [sbIsland, hu, hr]), List.filter_eq_nil_iff.mpr]
  intro e he
  obtain ⟨k, _, rfl⟩ := List.mem_map.mp he
  simp

/-- Unit 0 of volume 0 mapped at the start of the flash, its superblock closed in SLC mode. -/
def cold (wear spare : Nat) : State := { svc with
  fl := { svc.fl with
    map := [(0, { addr := 0, st := 1, slc := true })], sbs := [(0, { slc := true, st := .closed })], mediaMinutes := 20000,
    blocks := (0, {}) :: (List.range spare).map (fun i => (i + 1, { wear20 := wear })) }
  pol := { svc.pol with values := [(0x0E, 0)] } }

theorem witness_BackgroundWorkMovesAndCheckpoints :
    (∃ (s : State) (i : Nat), s.boot.mode = .service ∧ 3 * islandSbs ≤ freePool s i * 100)
    ∧ (∃ (s : State) (i : Nat) (v : Nat × Superblock), s.boot.mode = .service ∧ i < 8 ∧ freePool s i * 100 < 3 * islandSbs
        ∧ victims s i = [v] ∧ flashStopped s = false ∧ (sbUnits s v.1).all (fun u => !relocating s u) = true)
    ∧ (∃ s : State, s.boot.mode = .service ∧ (2 * slcUse s ≤ slcSize s ∨ s.gov.bgFlash = true))
    ∧ (∃ (s : State) (k : Nat) (x : Superblock), s.boot.mode = .service ∧ slcSize s < 2 * slcUse s ∧ s.gov.bgFlash = false
        ∧ flashStopped s = false ∧ s.fl.relocs = [] ∧ s.fl.sbs = [(k, x)] ∧ x.slc = true ∧ x.st = .closed
        ∧ (sbUnits s k).filter (foldable s) ≠ [])
    ∧ (∃ s : State, s.boot.mode = .service ∧ s.gov.bgFlash = true)
    ∧ (∃ (s : State) (u : Nat) (e : MapEntry), s.boot.mode = .service ∧ s.gov.bgFlash = false ∧ flashStopped s = false
        ∧ s.fl.relocs = [] ∧ s.fl.map = [(u, e)] ∧ e.st = 1 ∧ coldBlock s (blockKey e.addr) = true)
    ∧ (∃ (s : State) (u : Nat) (e : MapEntry), s.boot.mode = .service ∧ s.gov.bgFlash = false ∧ flashStopped s = false
        ∧ s.fl.relocs = [] ∧ s.fl.map = [(u, e)] ∧ e.st = 1 ∧ coldBlock s (blockKey e.addr) = false)
    ∧ (∃ (s : State) (acc : Nat), s.boot.mode = .service ∧ s.fl.wbuf.any (fun b => decide (acc ∈ b.accs)) = false)
    ∧ (∃ (s : State) (acc : Nat), s.boot.mode = .service ∧ s.fl.wbuf.any (fun b => decide (acc ∈ b.accs)) = true) :=
  ⟨⟨svc, 7, by decide +kernel⟩,
   ⟨fullIsland, 0, (0, { st := .closed }), rfl, by decide, by rw [fullIsland_free]; decide, fullIsland_victim, rfl, by decide +kernel⟩,
   ⟨svc, by decide +kernel⟩, ⟨cold 0 0, 0, { slc := true, st := .closed }, by decide +kernel⟩,
   ⟨{ svc with gov := { svc.gov with bgFlash := true } }, by decide +kernel⟩,
   ⟨cold 10000000000 3, 0, { addr := 0, st := 1, slc := true }, by decide +kernel⟩,
   ⟨cold 0 0, 0, { addr := 0, st := 1, slc := true }, by decide +kernel⟩,
   ⟨svc, 5, by decide +kernel⟩, ⟨open5, 5, by decide +kernel⟩⟩

/-- Region `r`'s bucket and channel 511's remap entries as given. -/
def bucketed (r n : Nat) (remap : SMap Nat) : State :=
  { svc with integ := { svc.integ with buckets := if n = 0 then [] else [(r, n)], remap := remap } }

theorem witness_CorrectableErrorsAreCountedAndRepaired :
    (∃ (i : Instr) (s : State) (chan seg : Nat) (hard : Bool) (place : DramPlace), alive s = true ∧ chan < 512
      ∧ FindsDram s chan seg hard place i ∧ hard = false ∧ SMap.find 0 s.integ.buckets chan < 64)
    ∧ (∃ (i : Instr) (s : State) (chan seg : Nat) (hard : Bool) (place : DramPlace), alive s = true ∧ chan < 512
      ∧ FindsDram s chan seg hard place i ∧ hard = false ∧ SMap.find 0 s.integ.buckets chan = 64)
    ∧ (∃ (i : Instr) (s : State) (chan seg e : Nat) (hard : Bool) (place : DramPlace), alive s = true ∧ chan < 512
      ∧ FindsDram s chan seg hard place i ∧ hard = true ∧ SMap.find 0 s.integ.buckets chan < 64 ∧ freeRemap s chan = some e)
    ∧ (∃ (i : Instr) (s : State) (chan seg : Nat) (hard : Bool) (place : DramPlace), alive s = true ∧ chan < 512
      ∧ FindsDram s chan seg hard place i ∧ hard = true ∧ SMap.find 0 s.integ.buckets chan < 64 ∧ freeRemap s chan = none
      ∧ place = .reserved)
    ∧ (∃ (i : Instr) (s : State) (chan seg : Nat) (hard : Bool) (place : DramPlace), alive s = true ∧ chan < 512
      ∧ FindsDram s chan seg hard place i ∧ hard = true ∧ SMap.find 0 s.integ.buckets chan < 64 ∧ freeRemap s chan = none
      ∧ place ≠ .reserved)
    ∧ (∃ (i : Instr) (s : State) (region ram word : Nat) (hard : Bool), alive s = true ∧ region < 741 ∧ ram < 4496
      ∧ FindsSram region ram word hard i ∧ SMap.find 0 s.integ.buckets region < 64 ∧ hard = false)
    ∧ (∃ (i : Instr) (s : State) (region ram word e : Nat) (hard : Bool), alive s = true ∧ region < 741 ∧ ram < 4496
      ∧ FindsSram region ram word hard i ∧ SMap.find 0 s.integ.buckets region < 64 ∧ hard = true ∧ freeWord s ram = some e)
    ∧ (∃ s : State, alive s = true ∧ SMap.wf 0 s.integ.buckets = true)
    ∧ (∃ (s : State) (link l : Nat), alive s = true ∧ link < 16 ∧ bitOf (laneSet s link 0) l = false
        ∧ popCount 256 (laneSet s link 0 + 2 ^ l) ≤ 4) :=
  let used : SMap Nat := (List.range 16).map (fun e => (16 * 511 + e, e + 1))
  ⟨⟨.dramPatrolRead 511 9 true false .reserved, bucketed 511 63 [], 511, 9, false, .reserved, by decide +kernel, by decide,
    Or.inr ⟨rfl, rfl⟩, by decide +kernel⟩,
   ⟨.dramCorrectableError 511 9 false .reserved, bucketed 511 64 [], 511, 9, false, .reserved, by decide +kernel, by decide,
    Or.inl rfl, by decide +kernel⟩,
   ⟨.dramCorrectableError 511 9 true .reserved, bucketed 511 63 (used.take 15), 511, 9, 15, true, .reserved, by decide +kernel,
    by decide, Or.inl rfl, by decide +kernel⟩,
   ⟨.dramCorrectableError 511 9 true .reserved, bucketed 511 63 used, 511, 9, true, .reserved, by decide +kernel, by decide,
    Or.inl rfl, by decide +kernel⟩,
   ⟨.dramCorrectableError 511 9 true .free, bucketed 511 0 used, 511, 9, true, .free, by decide +kernel, by decide,
    Or.inl rfl, by decide +kernel⟩,
   ⟨.sramPatrol [(724, 4495, 7, false)], bucketed 724 63 [], 724, 4495, 7, false, by decide +kernel, by decide, by decide,
    Or.inr ⟨rfl, by decide, by decide⟩, by decide +kernel⟩,
   ⟨.sramCorrectableError 740 4495 7 true, svc, 740, 4495, 7, 0, true, by decide +kernel, by decide, by decide, Or.inl rfl,
    by decide +kernel⟩,
   ⟨bucketed 511 64 [], by decide +kernel⟩, ⟨svc, 15, 3, by decide +kernel⟩⟩

/-- A running FILTER of TRS 0. -/
def filtering : Held := heldAs 3 .running (setDescByte dFilter 0 0x30)

theorem witness_UncorrectableErrorsAreContained :
    ∃ (s : State) (r : Nat), s.boot.mode = .service ∧ r < 741 ∧ unitsStatus s (slotUnit s 0) = 0x00
      ∧ (∃ s2 k p, s2.boot.mode = Mode.service ∧ pageAt s2 k = some p)
      ∧ (∃ s2 u, s2.boot.mode = Mode.service ∧ inBuffer s2 u = true)
      ∧ (∃ s2 q id h, s2.boot.mode = Mode.service ∧ heldOf s2 q id = some h ∧ h.undecided = true ∧ readsRegion h = false
          ∧ h.op ∉ [0x02, 0x13, 0x15, 0x20, 0x30, 0x31, 0x32])
      ∧ (∃ s2 q id h x, s2.boot.mode = Mode.service ∧ heldOf s2 q id = some h ∧ h.undecided = true ∧ readsRegion h = false
          ∧ h.op = 0x20 ∧ h.search = some x ∧ x.loaded = true)
      ∧ (∃ s2 q id h p, s2.boot.mode = Mode.service ∧ heldOf s2 q id = some h ∧ h.undecided = true ∧ readsRegion h = false
          ∧ h.op = 0x13 ∧ h.step = some p ∧ s2.heat.windowOpen = true)
      ∧ (∃ s2 q id h, s2.boot.mode = Mode.service ∧ heldOf s2 q id = some h ∧ readsRegion h = true)
      ∧ (∃ s2 u, s2.boot.mode = Mode.service ∧ (mapOf s2 u).st = 1) :=
  ⟨svc, 740, by decide +kernel, by decide, by decide +kernel, ⟨lifted, 1, ctxPage 1, by decide +kernel⟩, ⟨open5, 0, by decide +kernel⟩,
   ⟨holding [waiting], 0, 3, waiting, by decide +kernel⟩, ⟨holding [oSearching], 0, 3, oSearching, search0, by decide +kernel⟩,
   ⟨attending step0 true, 0, 3, { heldAs 3 .running (setDescByte dAttend 0 0x13) with acceptNo := 5, step := some step0 }, step0,
     by decide +kernel⟩,
   ⟨holding [filtering], 0, 3, filtering, by decide +kernel⟩, stored5, 0, by decide +kernel⟩

/-- The processors as given. -/
def processed (ps : SMap Proc) : State := { svc with integ := { svc.integ with procs := ps } }

theorem witness_ProcessorsHandOverTheirDuties :
    (∃ (i : Instr) (s : State) (p : Nat) (readable : Bool), alive s = true ∧ FaultsProc p readable i ∧ (procOf s p).st = .spare)
    ∧ (∃ (i : Instr) (s : State) (p q : Nat) (readable : Bool), alive s = true ∧ FaultsProc p readable i ∧ (procOf s p).st = .active
        ∧ readable = true ∧ lowestProc s .spare = some q)
    ∧ (∃ (i : Instr) (s : State) (p q : Nat) (readable : Bool), alive s = true ∧ FaultsProc p readable i ∧ (procOf s p).st = .active
        ∧ readable = true ∧ lowestProc s .spare = none ∧ q ≠ p ∧ q < 36 ∧ (procOf s q).st = .active
        ∧ ∀ r, r < q → r ≠ p → (procOf s r).st ≠ .active)
    ∧ (∃ (i : Instr) (s : State) (p : Nat) (readable : Bool), alive s = true ∧ FaultsProc p readable i ∧ (procOf s p).st = .active
        ∧ readable = false ∧ s.boot.wdRunning = true)
    ∧ (∃ (i : Instr) (s : State) (p : Nat) (readable : Bool), alive s = true ∧ FaultsProc p readable i ∧ (procOf s p).st ≠ .spare
        ∧ (procOf s p).st ≠ .active) :=
  ⟨⟨.processorFault 35 true, processed [(35, { st := .spare })], 35, true, by decide +kernel, Or.inl rfl, by decide +kernel⟩,
   ⟨.processorProgressTimeout 0 true, processed [(0, { st := .active, duties := 1 }), (35, { st := .spare })], 0, 35, true,
    by decide +kernel, Or.inr rfl, by decide +kernel⟩,
   ⟨.processorFault 0 true, processed [(0, { st := .active, duties := 1 }), (2, { st := .active, duties := 4 })], 0, 2, true,
    by decide +kernel, Or.inl rfl, by decide +kernel⟩,
   ⟨.processorFault 0 false, processed [(0, { st := .active, duties := 1 })], 0, false, by decide +kernel, Or.inl rfl, by decide +kernel⟩,
   ⟨.processorFault 0 true, processed [], 0, true, by decide +kernel, Or.inl rfl, by decide +kernel⟩⟩

/-- The governor as given, in service. -/
def governed (g : Gov) : State := { svc with gov := g }

/-- A decision's window of 20 samples with given sums. -/
def gov20 (sums : List Nat) : Gov := { svc.gov with count := 20, sums := sums }

theorem witness_SamplesAndQuench :
    (∃ (s : State) (g : GovSample) (i : Nat), s.boot.mode = .service ∧ s.gov.temps.length = 42 ∧ i < 17
      ∧ 1100 ≤ g.temps.getD i (s.gov.temps.getD i 0) ∧ s.gov.quench = false)
    ∧ (∃ (s : State) (ma : Nat), s.boot.mode = .service ∧ 12 * deviceCap s * 1000 < 10 * (ma * s.gov.inputMv) ∧ s.gov.quench = false)
    ∧ (∃ (s : State) (ma : Nat), s.boot.mode = .service ∧ 10 * (ma * s.gov.inputMv) ≤ 12 * deviceCap s * 1000)
    ∧ (∃ s : State, s.boot.mode = .service ∧ 200 ≤ s.gov.overSamples ∧ s.gov.quench = false)
    ∧ (∃ s : State, s.boot.mode = .service ∧ s.gov.overSamples < 200) :=
  ⟨⟨svc, ⟨48000, 10000, [1, 2, 3, 4, 5], List.replicate 16 250 ++ [1100]⟩, 16, by decide +kernel⟩, ⟨svc, 15001, by decide +kernel⟩,
   ⟨svc, 15000, by decide +kernel⟩, ⟨governed { svc.gov with overSamples := 200 }, by decide +kernel⟩, ⟨svc, by decide +kernel⟩⟩

theorem witness_DecisionsEndWindows :
    (∃ s : State, s.boot.mode = .service ∧ s.gov.count < 20)
    ∧ (∃ s : State, s.boot.mode = .service ∧ 20 ≤ s.gov.count ∧ s.gov.tripped = true)
    ∧ (∃ s : State, s.boot.mode = .service ∧ 20 ≤ s.gov.count ∧ s.gov.tripped = false ∧ s.gov.quench = true ∧ pkgCritical s = false
        ∧ (meansNow s).getD 0 0 * 100 ≤ polValue s 0x44 90 * deviceCap s)
    ∧ (∃ s : State, s.boot.mode = .service ∧ 20 ≤ s.gov.count ∧ s.gov.tripped = false ∧ s.gov.quench = false ∧ deviceCap s = 600000
        ∧ s.gov.thermal = [] ∧ (meansNow s).getD 3 0 ≤ 90000 ∧ (meansNow s).getD 5 0 ≤ 40000 ∧ subCap s 0 < (meansNow s).getD 1 0
        ∧ s.gov.bgTiles = false ∧ s.gov.stretch = 0 ∧ subCap s 1 < (meansNow s).getD 2 0 ∧ (meansNow s).getD 4 0 ≤ subCap s 2)
    ∧ (∃ s : State, s.boot.mode = .service ∧ 20 ≤ s.gov.count ∧ s.gov.tripped = false ∧ s.gov.quench = false ∧ deviceCap s = 600000
        ∧ s.gov.thermal = [] ∧ (meansNow s).getD 3 0 ≤ 90000 ∧ (meansNow s).getD 5 0 ≤ 40000 ∧ (meansNow s).getD 2 0 ≤ subCap s 1
        ∧ subCap s 2 < (meansNow s).getD 4 0)
    ∧ (∃ s : State, s.aon.crystalGood = true) ∧ (∃ s : State, s.aon.crystalGood = false) :=
  ⟨⟨governed { svc.gov with count := 19 }, by decide +kernel⟩,
   ⟨governed { gov20 [] with tripped := true }, by decide +kernel⟩,
   ⟨governed { gov20 [10800000, 0, 0, 0, 0, 0] with quench := true }, by decide +kernel⟩,
   ⟨governed (gov20 [0, 20000000, 20000000, 1800000, 0, 800000]), by decide +kernel⟩,
   ⟨governed (gov20 [0, 0, 0, 1800000, 20000000, 800000]), by decide +kernel⟩, ⟨svc, rfl⟩, ⟨State.reset, rfl⟩⟩

theorem witness_HoldupCellsAreMeasured :
    (∃ s : State, s.boot.mode = .service ∧ s.gov.powerLost = true)
    ∧ (∃ (s : State) (cap res : Nat), s.boot.mode = .service ∧ s.gov.powerLost = false
        ∧ bankFailed { s with gov := { s.gov with cells := cellsMeasured s cap res } } = false)
    ∧ (∃ (s : State) (cap res : Nat), s.boot.mode = .service ∧ s.gov.powerLost = false
        ∧ bankFailed { s with gov := { s.gov with cells := cellsMeasured s cap res } } = true) :=
  let cells (n : Nat) : List Cell := List.replicate n ⟨800, 10, true⟩ ++ List.replicate (9 - n) ⟨1000, 10, false⟩
  ⟨⟨governed { svc.gov with powerLost := true }, by decide +kernel⟩,
   ⟨governed { svc.gov with cells := cells 0, charged := true, bankTested := true }, 900, 50, by decide +kernel⟩,
   ⟨governed { svc.gov with cells := cells 8, charged := true, bankTested := true, nextCell := 8 }, 899, 50, by decide +kernel⟩⟩

end Sys2Proof.Tests
end

