-- ==== Sys2Proof/Tests/Witness8.lean ====
section
/-! SUPPORT. Witnesses of the statements about the mailbox, DOE, attestation, staging, the pattern window and the sideband. -/

set_option Elab.async false

namespace Sys2Proof.Tests

open Sys2Proof Sys2Proof.Machine

/-- The device in Fettle mode. -/
def fettled : State := { svc with boot := { svc.boot with mode := .fettle } }

/-- One event record of log 1 with handle 7, and an overflow of log 1. -/
def eventful : State :=
  { svc with tele := { svc.tele with logs := [[], [⟨7, 1, [], false⟩], [], []], overflow := [0, 3, 0, 0] } }

theorem witness_EventsTimesLogsAndDescriptions :
    (∃ (s : State) (log : Nat), mailboxUp s = true ∧ log < 4)
    ∧ (∃ (s : State) (log : Nat) (hs : List (BitVec 16)), mailboxUp s = true ∧ log < 4
        ∧ ((s.tele.logs.getD log []).take hs.length).map (·.handle) = hs)
    ∧ (∃ (s : State) (log : Nat) (hs : List (BitVec 16)), mailboxUp s = true ∧ log < 4
        ∧ ((s.tele.logs.getD log []).take hs.length).map (·.handle) ≠ hs)
    ∧ (∃ (s : State) (log : Nat), mailboxUp s = true ∧ log < 4 ∧ s.tele.overflow.getD log 0 ≠ 0)
    ∧ (∃ p : List Byte, p.length = 4 ∧ p.all (fun b => decide (b.toNat % 4 ≤ 1)) = true)
    ∧ (∃ p : List Byte, p.length ≠ 4)
    ∧ (∃ off n, off + n ≤ 76)
    ∧ (∃ u : List Byte, u ≠ celUuid)
    ∧ (∃ (s : State) (op : BitVec 16) (p : List Byte), mailboxUp s = true ∧ opcodeServed s op.toNat = false ∧ p.length ≤ 65536)
    ∧ (∃ (s : State) (i e : Nat), configUp s = true ∧ i < 3 ∧ e < 7)
    ∧ (∃ (s : State) (e : Nat), configUp s = true ∧ 7 ≤ e) :=
  ⟨⟨svc, 3, by decide +kernel⟩, ⟨eventful, 1, [7], by decide +kernel⟩, ⟨eventful, 1, [8], by decide +kernel⟩,
   ⟨eventful, 1, by decide +kernel⟩, ⟨[0, 1, 0, 5], by decide +kernel⟩, ⟨[0], by decide⟩, ⟨72, 4, by decide⟩, ⟨[], by decide +kernel⟩,
   ⟨fettled, 0x4400, [], by decide +kernel⟩, ⟨svc, 2, 6, by decide +kernel⟩, ⟨svc, 7, by decide +kernel⟩⟩

/-- The newest record of the start log is of block 3, SEQ 9, and block 2 holds SEQ 8. -/
def logged : State :=
  { svc with
    boot := { svc.boot with logBlock := some 3, startSeq := 9 }
    nor := { svc.nor with mem := (norProgram (logAddr 3 + 8) [9, 0, 0, 0, 0xFE] (norProgram (logAddr 2 + 8) [8, 0, 0, 0, 0xFE] svc)).nor.mem } }

theorem witness_AttestationAndStartLog :
    (∃ (s : State) (b : Nat) (p : List Byte), s.nor.xmssBlock = some b ∧ s.nor.xmssLeaf < 1024 ∧ p.length = 32
      ∧ mailboxUp s = true ∧ configUp s = true ∧ attestServed s = true)
    ∧ (∃ (s : State) (p : List Byte), mailboxUp s = true ∧ p.length ≠ 32)
    ∧ (∃ (s : State) (n b : Nat), mailboxUp s = true ∧ n < 256 ∧ s.boot.logBlock.isSome = true ∧ consumedOf s (seqBack s n) = some b)
    ∧ (∃ (s : State) (n : Nat), mailboxUp s = true ∧ n < 256 ∧ s.boot.logBlock.isSome = true ∧ consumedOf s (seqBack s n) = none) :=
  ⟨⟨{ svc with nor := { svc.nor with xmssBlock := some 5, xmssLeaf := 1023 } }, 5, List.replicate 32 0, by decide +kernel⟩,
   ⟨svc, [], by decide +kernel⟩, ⟨logged, 1, 2, by decide +kernel⟩, ⟨logged, 255, by decide +kernel⟩⟩

theorem witness_CountersGlobalServesItsKinds :
    (∃ (s : State) (kind first n : Nat), kind < 65536 ∧ first < 65536 ∧ mailboxUp s = true ∧ s.boot.mode ≠ .fettle
      ∧ kindInstances kind = some n ∧ first < n ∧ first ≠ 0)
    ∧ (∃ (s : State) (kind first : Nat), kind < 65536 ∧ first < 65536 ∧ mailboxUp s = true ∧ s.boot.mode ≠ .fettle
      ∧ kindInstances kind = none)
    ∧ (∃ (s : State) (kind first n : Nat), kind < 65536 ∧ first < 65536 ∧ mailboxUp s = true ∧ s.boot.mode ≠ .fettle
      ∧ kindInstances kind = some n ∧ n ≤ first)
    ∧ (∃ (s : State) (kind first : Nat), kind < 65536 ∧ first < 65536 ∧ mailboxUp s = true ∧ s.boot.mode = .fettle)
    ∧ (∃ (s : State), mailboxUp s = false)
    ∧ (∃ (s : State) (p : List Byte), mailboxUp s = true ∧ s.boot.mode ≠ .fettle ∧ p.length ≠ 4) :=
  ⟨⟨svc, 1, 1, (kindInstances 1).getD 0, by decide +kernel⟩, ⟨svc, 0xFFFF, 0, by decide +kernel⟩,
   ⟨svc, 1, 65535, (kindInstances 1).getD 0, by decide +kernel⟩, ⟨fettled, 1, 0, by decide +kernel⟩, ⟨State.reset, by decide +kernel⟩,
   ⟨svc, [], by decide +kernel⟩⟩

/-- A module whose owner record is claimed under parameter set 1, in Fettle mode. -/
def owned : State :=
  writeOwner { copy := 1, seq := 0, epoch := 6, claimed := true, param := 1, pub := List.replicate 68 3 } [] fettled

theorem witness_SanitizeAndOwnership :
    (∃ s : State, mailboxUp s = true ∧ s.boot.mode = .service ∧ s.nor.bg = none ∧ s.nor.sanitize = 0)
    ∧ (∃ s : State, mailboxUp s = true ∧ s.boot.mode = .service ∧ (s.nor.bg ≠ none ∨ s.nor.sanitize ≠ 0))
    ∧ (∃ s : State, mailboxUp s = true ∧ s.boot.mode = .fettle)
    ∧ (∃ (s : State) (i : Nat), s.boot.mode = .service ∧ s.nor.sanitize = 1 ∧ allDrained s = true ∧ SMap.wf {} s.ctx.recs = true
        ∧ (SMap.find {} s.ctx.recs i).live = true)
    ∧ (∃ s : State, s.boot.mode = .service ∧ s.nor.sanitize = 1 ∧ allDrained s = false)
    ∧ (∃ (s : State) (p : List Byte) (n : Nat), mailboxUp s = true ∧ sigLen (numAt p 0 1) = some n ∧ p.length = 80 + n
        ∧ (ownerNow s).claimed = true)
    ∧ (∃ (s : State) (p : List Byte) (n : Nat), mailboxUp s = true ∧ sigLen (numAt p 0 1) = some n ∧ p.length = 80 + n
        ∧ (ownerNow s).claimed = false ∧ s.nor.bg = none ∧ numAt p 1 3 = 0 ∧ numAt p 76 4 = 0 ∧ numAt p 4 4 = (ownerNow s).epoch + 1)
    ∧ (∃ s : State, mailboxUp s = true ∧ s.boot.mode ≠ .fettle)
    ∧ (∃ (s : State) (p : List Byte) (n : Nat), mailboxUp s = true ∧ s.boot.mode = .fettle ∧ (ownerNow s).claimed = true
        ∧ sigLen (ownerNow s).param = some n ∧ p.length = 8 + n ∧ s.nor.bg = none ∧ numAt p 0 4 = (ownerNow s).epoch ∧ numAt p 4 4 = 0
        ∧ s.fl.objects = []) :=
  ⟨⟨svc, by decide +kernel⟩, ⟨{ svc with nor := { svc.nor with sanitize := 1 } }, by decide +kernel⟩, ⟨fettled, by decide +kernel⟩,
   ⟨{ parked with nor := { svc.nor with sanitize := 1 } }, 0, by decide +kernel⟩,
   ⟨{ holding [heldAs 3 .running dSearch] with nor := { svc.nor with sanitize := 1 } }, by decide +kernel⟩,
   ⟨owned, 1 :: List.replicate 2579 0, 2500, by decide +kernel⟩,
   ⟨svc, [3, 0, 0, 0, 1] ++ List.replicate 2895 0, 2820, by decide +kernel⟩, ⟨svc, by decide +kernel⟩,
   ⟨owned, 6 :: List.replicate 2507 0, 2500, by decide +kernel⟩⟩

/-- A staging session of 65,792 bytes on DRAG with one byte written. -/
def session1 : Session := ⟨5, 65792, .drag, [(0, 1)]⟩
def sessioned : State := { svc with nor := { svc.nor with session := some session1 } }

/-- (A commit that passes has no closed witness: its signatures are checked by a function that the model leaves uninterpreted.) -/
theorem witness_StagingBeginsFillsAndCommits :
    (∃ (s : State) (p : List Byte), mailboxUp s = true ∧ p.length = 16 ∧ numAt p 8 8 = 0 ∧ s.boot.patternGen.toNat < numAt p 0 4
        ∧ rejectGen s < numAt p 0 4 ∧ 0x10100 ≤ numAt p 4 4 ∧ numAt p 4 4 ≤ 100663296 ∧ s.nor.bg = none)
    ∧ (∃ (s : State) (p : List Byte), mailboxUp s = true ∧ p.length = 16 ∧ numAt p 8 8 = 0
        ∧ (numAt p 0 4 ≤ s.boot.patternGen.toNat ∨ numAt p 4 4 < 0x10100 ∨ 100663296 < numAt p 4 4))
    ∧ (∃ (s : State) (p : List Byte) (x : Session), mailboxUp s = true ∧ p.length = 64 + numAt p 4 4 ∧ numAt p 4 4 ≤ 65472
        ∧ numAt p 0 1 = 0 ∧ numAt p 1 3 = 0 ∧ numAt p 16 8 = 0 ∧ numAt p 28 36 = 0 ∧ s.nor.session = some x
        ∧ imageRefused x (numAt p 8 8) (numAt p 4 4) = false ∧ s.nor.ops = [])
    ∧ (∃ (s : State) (p : List Byte), mailboxUp s = true ∧ p.length = 64 + numAt p 4 4 ∧ numAt p 4 4 ≤ 65472
        ∧ numAt p 0 1 = 0 ∧ numAt p 1 3 = 0 ∧ numAt p 16 8 = 0 ∧ numAt p 28 36 = 0 ∧ s.nor.session = none)
    ∧ (∃ (s : State) (x : Session), mailboxUp s = true ∧ s.nor.bg = none ∧ s.nor.session = some x ∧ commitOk (drained s) x = none)
    ∧ (∃ s : State, mailboxUp s = true ∧ s.nor.bg = none ∧ s.nor.session = none) :=
  let image : List Byte := [0, 0, 0, 0, 2, 0, 0, 0, 1] ++ List.replicate 57 0
  ⟨⟨svc, [9, 0, 0, 0, 0, 1, 1] ++ List.replicate 9 0, by decide +kernel⟩, ⟨svc, [9, 0, 0, 0, 255, 0, 1] ++ List.replicate 9 0, by decide +kernel⟩,
   ⟨sessioned, image, session1, by decide +kernel⟩, ⟨svc, image, by decide +kernel⟩, ⟨sessioned, session1, by decide +kernel⟩,
   ⟨svc, by decide +kernel⟩⟩

/-- The armed window on the staging session's target, with an operation given. -/
def windowed (addr len : Nat) (buf : BitVec 2048) : State :=
  { svc with nor := { svc.nor with session := some session1, enabled := true, armed := true, pwAddr := BitVec.ofNat 32 addr,
                                   pwLen := BitVec.ofNat 32 len, pwBuf := buf } }

/-- One NOR operation in progress. -/
def busyNor (o : NorOp) : State := { svc with nor := { svc.nor with ops := [o] } }

theorem witness_PatternWindowAndNor :
    (∃ s : State, mailboxUp s = true)
    ∧ (∃ (s : State) (v : BitVec 32), configUp s = true ∧ decodes s s.link.bar4 = true ∧ windowOpen s = true ∧ v ≠ 0x50574B31
        ∧ s.nor.armed = false)
    ∧ (∃ s : State, configUp s = true ∧ decodes s s.link.bar4 = true ∧ windowOpen s = true ∧ s.nor.armed = true ∧ s.nor.session = none)
    ∧ (∃ (s : State) (x : Session), configUp s = true ∧ decodes s s.link.bar4 = true ∧ windowOpen s = true ∧ s.nor.armed = true
        ∧ s.nor.session = some x ∧ windowBusy s = false ∧ inTarget x s.nor.pwAddr.toNat s.nor.pwLen.toNat = true ∧ 1 ≤ s.nor.pwLen.toNat
        ∧ s.nor.pwAddr.toNat % 256 + s.nor.pwLen.toNat ≤ 256
        ∧ bitRise s s.nor.pwAddr.toNat ((bytesOf 256 s.nor.pwBuf.toNat).take s.nor.pwLen.toNat) = false)
    ∧ (∃ (s : State) (x : Session), configUp s = true ∧ decodes s s.link.bar4 = true ∧ windowOpen s = true ∧ s.nor.armed = true
        ∧ s.nor.session = some x ∧ windowBusy s = false ∧ inTarget x s.nor.pwAddr.toNat 65536 = true ∧ s.nor.pwAddr.toNat % 65536 = 0)
    ∧ (∃ (s : State) (a : Nat) (bytes : List Byte) (w : Bool), s.nor.ops = [.program a bytes w] ∧ s.nor.bg = none ∧ loggedOf a = none
        ∧ bytes ≠ [])
    ∧ (∃ (s : State) (k : Nat) (w : Bool), s.nor.ops = [.erasing k w] ∧ s.nor.bg = none ∧ s.nor.suspended = false
        ∧ (k < 3073 ∨ 3089 ≤ k))
    ∧ (∃ (s : State) (off w : Nat), configUp s = true ∧ decodes s s.link.bar4 = true ∧ off + w ≤ 0x10000000 ∧ 0 < w ∧ windowOpen s = true)
    ∧ (∃ (s : State) (off w : Nat), configUp s = true ∧ decodes s s.link.bar4 = true ∧ off + w ≤ 0x10000000 ∧ 0 < w
        ∧ windowOpen s = false) :=
  ⟨⟨svc, by decide +kernel⟩, ⟨{ svc with nor := { svc.nor with enabled := true } }, 0xAFA8B4CE, by decide +kernel⟩,
   ⟨{ svc with nor := { svc.nor with enabled := true, armed := true } }, by decide +kernel⟩,
   ⟨windowed (slotBase .drag + 255) 1 0, session1, by decide +kernel⟩,
   ⟨windowed (slotBase .drag + 65536) 0 0, session1, by decide +kernel⟩,
   ⟨busyNor (.program 70000 [1, 2] true), 70000, [1, 2], true, by decide +kernel⟩,
   ⟨busyNor (.erasing 3072 false), 3072, false, by decide +kernel⟩,
   ⟨{ svc with nor := { svc.nor with enabled := true } }, 0xFFFFFFF, 1, by decide +kernel⟩, ⟨svc, 0xFFFFFFF, 1, by decide +kernel⟩⟩

/-- The sideband target with a dynamic address. -/
def addressed (s : State) : State := { s with tele := { s.tele with dynAddr := some 9 } }

theorem witness_SidebandAndSensors :
    (∃ s : State, targetUp s = true ∧ s.tele.dynAddr = none)
    ∧ (∃ (s : State) (b : BitVec 7), targetUp s = true ∧ (s.tele.dynAddr ≠ none ∨ b ≠ BitVec.ofNat 7 (0x68 + s.aon.addrSel.toNat)))
    ∧ (∃ (s : State) (p q : Byte), targetUp s = true ∧ s.tele.dynAddr ≠ none ∧ (p = 0 ∨ p = 2) ∧ q ≠ 0 ∧ q ≠ 2)
    ∧ (∃ s : State, s.boot.mode = .expired)
    ∧ (∃ (s : State) (id : Nat), targetUp s = true ∧ s.tele.dynAddr ≠ none ∧ 1 ≤ id ∧ id ≤ 51 ∧ s.boot.mode ≠ .fettle)
    ∧ (∃ (s : State) (id : Nat), targetUp s = true ∧ s.tele.dynAddr ≠ none ∧ 1 ≤ id ∧ id ≤ 51 ∧ s.boot.mode = .fettle ∧ (id < 10 ∨ 49 < id))
    ∧ (∃ (s : State) (id : Nat), targetUp s = true ∧ s.tele.dynAddr ≠ none ∧ 10 ≤ id ∧ id ≤ 49 ∧ s.boot.mode = .fettle)
    ∧ (∃ id : Nat, id = 0 ∨ 51 < id)
    ∧ (∃ (s : State) (id : Nat), targetUp s = true ∧ s.tele.dynAddr ≠ none ∧ 60 ≤ id ∧ id ≤ 64 ∧ (s.boot.mode ≠ .fettle ∨ id ≠ 62))
    ∧ (∃ id : Nat, id < 60 ∨ 64 < id)
    ∧ (∃ h : Nat, 1 ≤ h ∧ h ≤ 56)
    ∧ (∃ h : Nat, 56 < h) :=
  ⟨⟨svc, by decide +kernel⟩, ⟨svc, 0, by decide +kernel⟩, ⟨addressed svc, 2, 5, by decide +kernel⟩,
   ⟨{ svc with boot := { svc.boot with mode := .expired } }, rfl⟩, ⟨addressed svc, 49, by decide +kernel⟩,
   ⟨addressed fettled, 9, by decide +kernel⟩, ⟨addressed fettled, 49, by decide +kernel⟩, ⟨52, by decide⟩,
   ⟨addressed fettled, 64, by decide +kernel⟩, ⟨65, by decide⟩, ⟨56, by decide⟩, ⟨57, by decide⟩⟩

end Sys2Proof.Tests
end

/-! PROOFS. The standing rules of the port, the start and the reset cause, and the queue, through every command. -/
namespace Sys2Proof.Machine

/-! ### The fields that the standing rules and the queue speak of -/

/-- The queue, the decoders, the BARs, ER_CTL, the start's standing and the reset cause. -/
structure Standing where
  pending : List Instr
  bar0 : Option (BitVec 64)
  bar2 : Option (BitVec 64)
  bar4 : Option (BitVec 64)
  dec0 : Option Nat
  dec1 : Option Nat
  erCtl : BitVec 32
  mode : Mode
  stage : Nat
  fettleReason : BitVec 8
  memActive : Bool
  mediaReady : Bool
  mailboxReady : Bool
  flushing : Bool
  cause : BitVec 32

/-- What of a state the standing rules speak of. -/
def standing (s : State) : Standing :=
  { pending := s.pending, bar0 := s.link.bar0, bar2 := s.link.bar2, bar4 := s.link.bar4, dec0 := s.link.dec0, dec1 := s.link.dec1,
    erCtl := s.link.erCtl, mode := s.boot.mode, stage := s.boot.stage, fettleReason := s.boot.fettleReason,
    memActive := s.boot.memActive, mediaReady := s.boot.mediaReady, mailboxReady := s.boot.mailboxReady,
    flushing := s.boot.flushing, cause := s.aon.rstLastCause }

/-- The standing rules speak of nothing else. -/
theorem lawful_of_standing_eq {s t : State} (h : standing t = standing s) (hs : Lawful s) : Lawful t := by
  simp only [standing, Standing.mk.injEq] at h
  obtain ⟨-, b0, b2, b4, d0, d1, ec, mo, st, fr, ma, mr, mb, fl, ca⟩ := h
  obtain ⟨⟨ap, od, er, l0, l2, l4⟩, ⟨sg, sv, ft, rs, sa, rst⟩, cs⟩ := hs
  exact ⟨⟨by rwa [d0, d1], by rwa [d0, d1], by rwa [ec], by rwa [b0], by rwa [b2], by rwa [b4]⟩,
    ⟨by rwa [st], by rwa [mo, st, ma, mr], by rwa [mo, fr, ma, mr, mb], by rwa [mo, fr], by rwa [mo, ma], by rwa [mo, fl, ma, fr]⟩,
    by rwa [ca]⟩

/-- The smallest state of a standing. -/
def Standing.state (x : Standing) : State :=
  { pending := x.pending,
    link := { bar0 := x.bar0, bar2 := x.bar2, bar4 := x.bar4, dec0 := x.dec0, dec1 := x.dec1, erCtl := x.erCtl },
    boot := { mode := x.mode, stage := x.stage, fettleReason := x.fettleReason, memActive := x.memActive, mediaReady := x.mediaReady,
              mailboxReady := x.mailboxReady, flushing := x.flushing },
    aon := { rstLastCause := x.cause } }

theorem lawful_of_standing {t : State} {x : Standing} (h : standing t = x) (hx : Lawful x.state) : Lawful t :=
  lawful_of_standing_eq (s := x.state) h hx

theorem lawful_state {s : State} (h : Lawful s) : Lawful (standing s).state := lawful_of_standing_eq (s := s) rfl h

/-- The queue stays, and the standing rules survive. -/
structure Kept (s t : State) : Prop where
  pending : t.pending = s.pending
  lawful : Lawful s → Lawful t

theorem Kept.refl (s : State) : Kept s s := ⟨rfl, id⟩

theorem Kept.trans {s t u : State} (h : Kept s t) (g : Kept t u) : Kept s u := ⟨g.pending.trans h.pending, g.lawful ∘ h.lawful⟩

theorem Kept.of_standing {s t : State} (h : standing t = standing s) : Kept s t :=
  ⟨congrArg Standing.pending h, lawful_of_standing_eq h⟩

/-- Both branches of a guard keep it. -/
theorem Kept.ite {s t u : State} {c : Prop} [Decidable c] (ht : c → Kept s t) (hu : ¬c → Kept s u) : Kept s (if c then t else u) := by
  split
  · exact ht ‹_›
  · exact hu ‹_›

theorem Kept.when {s t : State} {c : Prop} [Decidable c] (ht : c → Kept s t) : Kept s (if c then t else s) :=
  Kept.ite ht (fun _ => Kept.refl s)

/-! ### Operations that touch none of these fields -/

@[simp] theorem standing_fenced (f : State → State) (s : State) : standing (fenced f s) = standing s := rfl

@[simp] theorem standing_emit (o : Out) (s : State) : standing (emit o s) = standing s := rfl

@[simp] theorem standing_drawn (n : Nat) (s : State) : standing (drawn n s) = standing s := rfl

@[simp] theorem standing_bump (k i n : Nat) (s : State) : standing (bump k i n s) = standing s := rfl

@[simp] theorem standing_setVec (v : Nat) (x : Vec) (s : State) : standing (setVec v x s) = standing s := rfl

@[simp] theorem standing_norProgram (a : Nat) (bs : List Byte) (s : State) : standing (norProgram a bs s) = standing s := rfl

@[simp] theorem standing_setProc (p : Nat) (x : Proc) (s : State) : standing (setProc p x s) = standing s := rfl

@[simp] theorem standing_erRetrained (s : State) : standing (erRetrained s) = standing s := rfl

@[simp] theorem standing_setTimebase (v : BitVec 64) (s : State) : standing (setTimebase v s) = standing s := rfl

@[simp] theorem standing_placeSlots (s : State) : standing (placeSlots s) = standing s := rfl

@[simp] theorem standing_tested (r : S3Report) (s : State) : standing (tested r s) = standing s := rfl

@[simp] theorem standing_platform (n : Nat) (v : Int) (s : State) : standing (platform n v s) = standing s := by
  unfold platform; split <;> rfl

@[simp] theorem standing_addDetail (ty : Nat) (p : List Byte) (s : State) : standing (addDetail ty p s) = standing s := by
  unfold addDetail; dsimp only; split
  · rfl
  · split <;> rfl

@[simp] theorem standing_markAbort (s : State) : standing (markAbort s) = standing s := rfl

/-- S2's word is programmed in the NOR; the latches of the last start end. -/
@[simp] theorem standing_consumeWord (s : State) : standing (consumeWord s) = standing s := by
  unfold consumeWord
  dsimp only
  have h : ∀ (c : Prop) [Decidable c] (f : State → State),
      standing (if c then markAbort s else fenced f (markAbort s)) = standing s := by
    intro c _ f; split <;> rfl
  split
  · exact h ..
  · exact h ..

@[simp] theorem standing_enteredS2 (s : State) : standing (enteredS2 s) = standing s := by
  unfold enteredS2; split <;> simp

@[simp] theorem standing_latchAbort (s : State) : standing (latchAbort s) = standing s := by
  unfold latchAbort; split <;> rfl

@[simp] theorem standing_sampleStraps (a : BitVec 2) (c r : Bool) (s : State) : standing (sampleStraps a c r s) = standing s := rfl

@[simp] theorem standing_fullValue (s : State) : standing (fullValue s) = standing s := by
  unfold fullValue; split <;> rfl

@[simp] theorem standing_idleCycle (s : State) : standing (idleCycle s) = standing s := by
  obtain ⟨a, m, k, h⟩ := idleCycle_frame s
  rw [h]; rfl

/-! ### Reset (13 R383 to R385) -/

/-- The port's registers and the start's fields at their reset values, the cause as it was. -/
theorem standing_resetRest (s : State) :
    standing (resetRest s) = { standing {} with pending := s.pending, mode := .inReset, cause := s.aon.rstLastCause } := rfl

theorem resetRest_kept (s : State) : Kept s (resetRest s) where
  pending := rfl
  lawful h := lawful_of_standing (standing_resetRest s)
    ⟨⟨Nat.zero_le 954, nofun, (by decide : (4 : BitVec 32) &&& 7 = 4), nofun, nofun, nofun⟩, ⟨Nat.zero_le 5, nofun, nofun, fun _ => rfl, nofun, fun _ _ => ⟨rfl, rfl⟩⟩, h.cause⟩

/-- The start begins with the fields at rest, and a cause that is POWER_ON or PIN. -/
theorem startIfReady_kept (s : State) : Kept s (startIfReady s) := by
  unfold startIfReady
  refine Kept.when fun ⟨hm, _, _, hf⟩ => ⟨rfl, fun h => ⟨h.port, ⟨h.start.stage, nofun, nofun, ?_, ?_, nofun⟩, ?_⟩⟩
  · exact fun _ => (h.start.atRest hm hf).2
  · exact fun _ => (h.start.atRest hm hf).1
  · cases s.aon.porSeen <;> simp

theorem beginFlush_kept (s : State) : Kept s (beginFlush s) :=
  ⟨rfl, fun h => ⟨h.port, ⟨h.start.stage, nofun, nofun, by simp [beginFlush], nofun, by simp [beginFlush]⟩, h.cause⟩⟩

/-- POR sets the cause of a start that follows it to POWER_ON. -/
theorem porAon_kept (a : Aon) (s : State) : Kept s { s with aon := porAon a } := ⟨rfl, fun h => ⟨h.port, h.start, Or.inl rfl⟩⟩

theorem porOn_kept (s : State) : Kept s (porOn s) := by
  unfold porOn
  dsimp only
  refine Kept.ite (fun _ => porAon_kept _ s) fun _ => Kept.ite (fun _ => (porAon_kept _ s).trans (beginFlush_kept _)) fun _ => ?_
  exact ((Kept.of_standing (standing_enteredS2 s)).trans (porAon_kept _ _)).trans (resetRest_kept _)

theorem pinOn_kept (n : Nat) (s : State) : Kept s (pinOn n s) := by
  have h1 : Kept s { s with aon := { s.aon with pinAsserted := true, tbHeldLow := none } } := Kept.of_standing rfl
  unfold pinOn
  dsimp only
  refine Kept.ite (fun _ => Kept.refl s) fun _ => Kept.ite (fun _ => h1) fun _ => Kept.ite (fun _ => h1.trans (beginFlush_kept _)) fun _ => ?_
  exact h1.trans ((Kept.of_standing (by simp)).trans (resetRest_kept _))

theorem porOff_kept (a : BitVec 2) (c r : Bool) (s : State) : Kept s (porOff a c r s) := by
  unfold porOff
  refine Kept.when fun _ => Kept.trans ?_ (startIfReady_kept _)
  exact Kept.of_standing rfl

theorem pinOff_kept (a : BitVec 2) (c r : Bool) (s : State) : Kept s (pinOff a c r s) := by
  unfold pinOff
  refine Kept.when fun _ => Kept.trans ?_ (startIfReady_kept _)
  exact Kept.of_standing rfl

theorem inputLoss_kept (mv ns : Nat) (s : State) : Kept s (inputLoss mv ns s) := by
  unfold inputLoss
  refine Kept.when fun _ => ?_
  exact Kept.trans (t := { s with gov := { s.gov with powerLost := true, inputMv := mv, measuring := false } }) (Kept.of_standing rfl)
    ((porOn_kept _).trans (Kept.of_standing rfl))

theorem inputBack_kept (lo hi ns : Nat) (a : BitVec 2) (c r : Bool) (s : State) : Kept s (inputBack lo hi ns a c r s) := by
  unfold inputBack
  refine Kept.when fun _ => Kept.trans ?_ (porOff_kept ..)
  exact Kept.of_standing rfl

theorem flushEnds_kept (s : State) : Kept s (flushEnds s) := by
  unfold flushEnds
  exact Kept.when fun _ => ((Kept.of_standing (standing_fenced _ s)).trans (resetRest_kept _)).trans (startIfReady_kept _)

/-! ### Fettle mode, halts and expiry (13 R400, R405, Table 116) -/

theorem standing_enterFettle (reason detail : Nat) (s : State) :
    standing (enterFettle reason detail s) = { standing s with
      mode := .fettle, fettleReason := BitVec.ofNat 8 reason, mailboxReady := true, memActive := false, mediaReady := false } := rfl

/-- Fettle mode has a reason of 13 Table 121. -/
theorem enterFettle_kept (reason detail : Nat) (s : State) (h1 : 1 ≤ reason) (h7 : reason ≤ 7) : Kept s (enterFettle reason detail s) := by
  have hr : (BitVec.ofNat 8 reason).toNat = reason := by simp; omega
  refine ⟨rfl, fun h => lawful_of_standing (standing_enterFettle reason detail s)
    ⟨(lawful_state h).port, ⟨h.start.stage, nofun, fun _ => ⟨?_, ?_, rfl, rfl, rfl⟩, ?_, nofun, nofun⟩, h.cause⟩⟩
  · exact hr.symm ▸ h1
  · exact hr.symm ▸ h7
  · exact fun e => by rcases e with e | e | e <;> cases e

theorem haltAll_kept (s : State) (hm : s.boot.mode = .starting) : Kept s (haltAll s) :=
  ⟨rfl, fun h => ⟨h.port, ⟨h.start.stage, nofun, nofun, fun _ => h.start.reason (Or.inl hm), nofun, nofun⟩, h.cause⟩⟩

theorem failS1_kept (s : State) (hm : s.boot.mode = .starting) : Kept s (failS1 s) :=
  Kept.trans (t := { s with aon := { s.aon with s1Fail := true } }) (Kept.of_standing rfl) (haltAll_kept _ hm)

theorem expire_kept (duty : Nat) (s : State) : Kept s (expire duty s) :=
  ⟨rfl, fun h => ⟨⟨h.port.aperture, h.port.order, h.port.erReserved, h.port.bar0, h.port.bar2, h.port.bar4⟩,
    ⟨h.start.stage, nofun, nofun, by simp [expire, emit], nofun, nofun⟩, h.cause⟩⟩

theorem dutyLost_kept (duty : Nat) (s : State) : Kept s (dutyLost duty s) := Kept.when fun _ => expire_kept duty s

theorem procFault_kept (p : Nat) (readable : Bool) (s : State) : Kept s (procFault p readable s) := by
  have h1 : ∀ x, Kept s (setProc p x s) := fun x => Kept.of_standing (standing_setProc p x s)
  unfold procFault
  dsimp only
  refine Kept.ite (fun _ => h1 _) fun _ => Kept.ite (fun _ => Kept.refl s) fun _ =>
    Kept.ite (fun _ => (h1 _).trans (dutyLost_kept ..)) fun _ => ?_
  split
  · exact (h1 _).trans (Kept.of_standing (standing_fenced ..))
  · split
    · exact (h1 _).trans (Kept.of_standing (standing_fenced ..))
    · exact (h1 _).trans (dutyLost_kept ..)

/-! ### The stages of the start (13 R387) -/

/-- A start moves to a stage up to S5, with the fields of the start's standing but the mailbox as they were. -/
theorem Kept.of_stage {s t : State} (hm : s.boot.mode = .starting) (n : Nat) (b : Bool) (hn : n ≤ 5)
    (h : standing t = { standing s with stage := n, mailboxReady := b }) : Kept s t := by
  refine ⟨congrArg Standing.pending h, fun hs => ?_⟩
  suffices Lawful { s with boot := { s.boot with stage := n, mailboxReady := b } } from lawful_of_standing_eq h this
  have hno : ∀ m, m ≠ Mode.starting → s.boot.mode ≠ m := fun m hne he => hne (he.symm.trans hm)
  exact ⟨hs.port, ⟨hn, fun e => absurd e (hno _ nofun), fun e => absurd e (hno _ nofun), hs.start.reason, hs.start.starting,
    fun e => absurd e (hno _ nofun)⟩, hs.cause⟩

theorem endS0_kept (s : State) : Kept s (endS0 s) := by
  unfold endS0
  exact Kept.when fun ⟨hm, _⟩ => Kept.of_stage hm 1 s.boot.mailboxReady (by decide) rfl

theorem endS1_kept (procFail : List Nat) (puf : List (List Byte)) (tr : Training) (s : State) : Kept s (endS1 procFail puf tr s) := by
  unfold endS1
  refine Kept.when fun ⟨hm, _⟩ => ?_
  split
  · exact failS1_kept s hm
  · exact Kept.ite (fun _ => failS1_kept s hm) fun _ => Kept.of_stage hm 2 s.boot.mailboxReady (by decide) rfl

/-- A start that goes into Fettle mode from a state of its standing. -/
theorem Kept.to_fettle {s t : State} (reason detail : Nat) (h1 : 1 ≤ reason) (h7 : reason ≤ 7) (h : standing t = standing s) :
    Kept s (enterFettle reason detail t) := (Kept.of_standing h).trans (enterFettle_kept reason detail t h1 h7)

theorem standing_toStage3 (u : State) (ts : BitVec 64) :
    standing { u with boot := { u.boot with stage := 3, tbS3 := ts, mailboxReady := true }, aon := { u.aon with stageStart := ts } }
      = { standing u with stage := 3, mailboxReady := true } := rfl

/-- The start's log block and S2's findings change no field of the standing. -/
theorem standing_stageTwo (s : State) (p h : Nat) (d : List Byte) :
    standing (addDetail 2 d { consumeWord s with tele := { (consumeWord s).tele with ringPos := p, healthPos := h } }) = standing s :=
  (standing_addDetail ..).trans (standing_consumeWord s)

theorem endS2_kept (s : State) : Kept s (endS2 s) := by
  unfold endS2
  refine Kept.when fun ⟨hm, _⟩ => ?_
  dsimp only
  have h1 := standing_stageTwo s (ringFind (consumeWord s)) (healthRead (consumeWord s)).2 (procMap (consumeWord s))
  generalize addDetail 2 (procMap (consumeWord s)) _ = s1 at h1 ⊢
  refine Kept.ite (fun _ => Kept.to_fettle 2 0 (by decide) (by decide) h1) fun _ => ?_
  generalize hu : List.find? _ (tryOrder s1 _) = used
  have h2 : ∀ d b, standing (addDetail 4 d { s1 with boot := b }) = standing { s1 with boot := b } := fun d b => standing_addDetail ..
  cases used with
  | none => exact Kept.to_fettle 1 0 (by decide) (by decide) ((h2 ..).trans h1)
  | some x =>
    dsimp only
    refine Kept.ite (fun _ => Kept.to_fettle 6 0 (by decide) (by decide) ((h2 ..).trans h1)) fun _ => ?_
    refine Kept.of_stage hm 3 true (by decide) ?_
    rw [standing_toStage3, standing_fenced, h2]
    exact congrArg (fun x : Standing => { x with stage := 3, mailboxReady := true }) h1

theorem standing_toStage4 (u : State) (ts : BitVec 64) (l : List Island) :
    standing { u with boot := { u.boot with stage := 4, tbS4 := ts }, aon := { u.aon with stageStart := ts },
                      isl := { u.isl with released := l } } = { standing u with stage := 4 } := rfl

theorem standing_graded (u : State) (k : Cores) (m : List Byte) (g : BitVec 32) :
    standing { u with core := k, boot := { u.boot with engineMap := m, grade := g } } = standing u := rfl

theorem endS3_kept (r : S3Report) (s : State) : Kept s (endS3 r s) := by
  unfold endS3
  refine Kept.when fun ⟨hm, _⟩ => ?_
  dsimp only
  have h1 := standing_tested r s
  generalize tested r s = s1 at h1 ⊢
  refine Kept.ite (fun _ => Kept.to_fettle 4 _ (by decide) (by decide) h1) fun _ => ?_
  split
  · split
    · exact Kept.to_fettle 3 _ (by decide) (by decide) h1
    · exact Kept.to_fettle 4 _ (by decide) (by decide) h1
  · generalize hs3 : placeSlots _ = s3
    have h3 : standing s3 = standing s :=
      (congrArg standing hs3).symm.trans ((((standing_placeSlots _).trans (standing_addDetail ..)).trans (standing_graded ..)).trans h1)
    refine Kept.of_stage hm 4 s.boot.mailboxReady (by decide) ?_
    rw [standing_platform, standing_toStage4, h3]
    rfl

theorem bankCheck_kept (s : State) : Kept s (bankCheck s) := by
  unfold bankCheck
  exact Kept.when fun _ => enterFettle_kept 7 0 s (by decide) (by decide)

theorem standing_rebuilt (u : State) (tb : Option (BitVec 64)) :
    standing { u with boot := { u.boot with mapRebuilt := true, mediaRef := tb } } = standing u := rfl

theorem endS4_kept (readable : Bool) (s : State) : Kept s (endS4 readable s) := by
  unfold endS4
  refine Kept.when fun _ => Kept.ite (fun _ => enterFettle_kept 5 0 s (by decide) (by decide)) fun _ => ?_
  exact Kept.trans (Kept.of_standing ((standing_rebuilt ..).trans (standing_fenced _ s))) (bankCheck_kept _)

theorem bankCharged_kept (cells : List (Nat × Nat)) (s : State) : Kept s (bankCharged cells s) := by
  unfold bankCharged
  refine Kept.when fun _ => ?_
  dsimp only
  refine Kept.ite (fun _ => Kept.trans (Kept.of_standing ?_) (bankCheck_kept _)) fun _ => Kept.of_standing ?_
  · rfl
  · rfl

/-- Service begins from a start whose FETTLE_REASON is 0. -/
theorem endS5_kept (s : State) : Kept s (endS5 s) := by
  unfold endS5
  refine Kept.when fun ⟨hm, _⟩ => ?_
  have h : ∀ u : State, standing u = { standing s with stage := 5 } →
      Kept s { u with boot := { u.boot with mode := .service, memActive := true, mediaReady := true, wdRunning := true } } := by
    intro u hu
    refine ⟨congrArg Standing.pending hu, fun hs => ?_⟩
    refine lawful_of_standing (x := { standing s with stage := 5, mode := .service, memActive := true, mediaReady := true })
      (congrArg (fun x : Standing => { x with mode := .service, memActive := true, mediaReady := true }) hu) ?_
    exact ⟨(lawful_state hs).port, ⟨Nat.le_refl 5, fun _ => ⟨rfl, rfl, rfl⟩, nofun, fun _ => hs.start.reason (Or.inl hm), nofun, nofun⟩,
      hs.cause⟩
  exact (h _ (by rfl)).trans (Kept.of_standing (standing_platform ..))

/-! ### Timeouts and islands (13 R388, R389) -/

theorem stageTimeout_kept (restarts : Bool) (s : State) : Kept s (stageTimeout restarts s) := by
  unfold stageTimeout
  refine Kept.when fun hm => ?_
  split
  · exact Kept.refl s
  · exact failS1_kept s hm
  · rename_i n _ _
    have h := standing_enteredS2 s
    refine Kept.ite (fun _ => (Kept.of_standing h).trans (haltAll_kept _ ((congrArg Standing.mode h).trans hm))) fun _ => ?_
    refine Kept.to_fettle _ 0 ?_ ?_ h
    · split_ifs <;> decide
    · split_ifs <;> decide

theorem islandRelease_kept (i : Island) (cycles ns : Nat) (s : State) : Kept s (islandRelease i cycles ns s) := by
  unfold islandRelease
  refine Kept.when fun _ => ?_
  cases i with
  | engine c e => exact Kept.of_standing rfl
  | alwaysOn | hub | link | flash | core => exact Kept.of_standing rfl

theorem islandTimeout_kept (i : Island) (s : State) : Kept s (islandTimeout i s) := by
  unfold islandTimeout
  refine Kept.ite (fun _ => Kept.refl s) fun _ => ?_
  dsimp only
  generalize hs1 : { s with isl := { s.isl with failed := s.isl.failed ++ [i] } } = s1
  have h1 : standing s1 = standing s := hs1 ▸ rfl
  have hm : s1.boot.mode = s.boot.mode := congrArg Standing.mode h1
  split
  · exact Kept.when fun _ => Kept.of_standing ((standing_fenced ..).trans h1)
  · exact Kept.of_standing h1
  · exact Kept.when fun _ => (Kept.of_standing h1).trans (failS1_kept s1 (hm.trans ‹_›))
  · exact Kept.when fun _ => (Kept.of_standing h1).trans (failS1_kept s1 (hm.trans ‹_›))
  · exact Kept.when fun _ => Kept.to_fettle 3 _ (by decide) (by decide) h1
  · exact Kept.when fun _ => Kept.to_fettle 3 _ (by decide) (by decide) h1
  · exact Kept.refl s

/-! ### The port (02 R37, R41, R43, R57) -/

/-- A change of the port alone keeps the rules where it keeps the port's. -/
theorem Kept.of_port {s t : State} (l : Link) (h : standing t = standing { s with link := l }) (hl : PortLawful s.link → PortLawful l) :
    Kept s t :=
  ⟨congrArg Standing.pending h, fun hs => lawful_of_standing_eq h ⟨hl hs.port, hs.start, hs.cause⟩⟩

theorem standing_endAll (s : State) : standing (endAll s) = standing s := by
  unfold endAll; split <;> rfl

theorem portLawful_resetLink (l : Link) : PortLawful (resetLink l) :=
  ⟨Nat.zero_le 954, nofun, (by decide : (4 : BitVec 32) &&& 7 = 4), nofun, nofun, nofun⟩

theorem linkReset_kept (tr : Training) (s : State) : Kept s (linkReset tr s) := by
  have h := standing_endAll { s with link := { s.link with up := false } }
  refine Kept.of_port (resetLink s.link) ?_ fun _ => portLawful_resetLink _
  unfold linkReset
  generalize endAll _ = s1 at h ⊢
  exact congrArg (fun x : Standing => { x with bar0 := none, bar2 := none, bar4 := none, dec0 := none, dec1 := none, erCtl := 4 }) h

theorem erCtl_and_seven (v : BitVec 32) : v &&& 7 &&& 7 = v &&& 7 := by rw [BitVec.and_assoc, BitVec.and_self]

theorem erCtlWrite_kept (v : BitVec 32) (s : State) : Kept s (erCtlWrite v s) := by
  refine Kept.of_port { s.link with erCtl := v &&& 7 } ?_ fun h => ⟨h.aperture, h.order, erCtl_and_seven v, h.bar0, h.bar2, h.bar4⟩
  unfold erCtlWrite
  dsimp only
  split
  · split <;> rfl
  · rfl

@[simp] theorem standing_erRefuse (c : Nat) (s : State) : standing (erRefuse c s) = standing s := rfl

@[simp] theorem standing_erSettle (s : State) : standing (erSettle s) = standing s := by
  unfold erSettle; split <;> rfl

@[simp] theorem standing_erFallback (c l : Nat) (s : State) : standing (erFallback c l s) = standing s := rfl

@[simp] theorem standing_erOffered (v : BitVec 8) (p : Bool) (s : State) : standing (erOffered v p s) = standing s := by
  unfold erOffered
  split
  · split
    · exact (standing_erSettle _).trans rfl
    · rfl
  · rfl

@[simp] theorem standing_erAccepted (v : BitVec 8) (p : Bool) (s : State) : standing (erAccepted v p s) = standing s := by
  unfold erAccepted
  split
  · split
    · exact (standing_erSettle _).trans rfl
    · rfl
  · rfl

@[simp] theorem standing_erSilent (s : State) : standing (erSilent s) = standing s := by
  unfold erSilent; split <;> rfl

@[simp] theorem standing_erRecovery (s : State) : standing (erRecovery s) = standing s := by
  unfold erRecovery; split <;> rfl

@[simp] theorem standing_erLocked (ms : List Nat) (s : State) : standing (erLocked ms s) = standing s := by
  unfold erLocked
  split
  · split
    · rfl
    · split <;> rfl
  · rfl

@[simp] theorem standing_erEqFails (b : Bool) (s : State) : standing (erEqFails b s) = standing s := by
  unfold erEqFails; split <;> rfl

@[simp] theorem standing_erMarkerLoss (l m : Nat) (s : State) : standing (erMarkerLoss l m s) = standing s := by
  unfold erMarkerLoss; split <;> rfl

@[simp] theorem standing_erPartnerLeaves (s : State) : standing (erPartnerLeaves s) = standing s := by
  unfold erPartnerLeaves; split <;> rfl

/-- Too many uncorrectable codewords clear ER_ARM. -/
theorem erErrorRate_kept (lane n : Nat) (s : State) : Kept s (erErrorRate lane n s) := by
  unfold erErrorRate
  refine Kept.when fun _ => ?_
  dsimp only
  refine Kept.ite (fun _ => Kept.of_port { s.link with erCtl := s.link.erCtl &&& 6 } rfl fun h =>
    ⟨h.aperture, h.order, ?_, h.bar0, h.bar2, h.bar4⟩) fun _ => Kept.of_standing rfl
  rw [BitVec.and_assoc]; rfl

theorem decoderCommit_kept (dec base units ways skip : Nat) (bi : Bool) (s : State) :
    Kept s (decoderCommit dec base units ways skip bi s) := by
  unfold decoderCommit
  dsimp only
  refine Kept.ite (fun h0 => ?_) fun _ => Kept.when fun h1 => ?_
  · subst h0
    split
    · rename_i hok
      refine Kept.of_port _ rfl fun h => ⟨?_, fun _ => rfl, h.erReserved, h.bar0, h.bar2, h.bar4⟩
      simp only [decoderOk, Bool.and_eq_true, decide_eq_true_eq] at hok
      exact hok.2.2.1
    · exact Kept.of_standing rfl
  · subst h1
    split
    · rename_i hok
      simp only [decoderOk, Bool.and_eq_true, decide_eq_true_eq] at hok
      obtain ⟨_, hs, _, hle⟩ := hok
      exact Kept.of_port _ rfl fun h => ⟨hle, fun _ => hs, h.erReserved, h.bar0, h.bar2, h.bar4⟩
    · exact Kept.of_standing rfl

/-! ### Configuration writes (02 Table 14) -/

/-- A BAR that configuration writes set lies at a multiple of its size. -/
theorem barValue_aligned (size : Nat) (hi : Bool) (m v : Nat) (old : Option (BitVec 64)) (hd : size ∣ 2 ^ 64) (a : BitVec 64)
    (h : barValue size hi m v old = some a) : a.toNat % size = 0 := by
  unfold barValue at h
  dsimp only at h
  rw [← Option.some.inj h, BitVec.toNat_ofNat, Nat.mod_mod_of_dvd _ hd]
  exact Nat.mul_mod_left ..

theorem foldl_standing {α : Type} (f : State → α → State) (hf : ∀ s a, standing (f s a) = standing s) (l : List α) (s : State) :
    standing (l.foldl f s) = standing s := by
  induction l generalizing s with
  | nil => rfl
  | cons a l ih => rw [List.foldl_cons, ih, hf]

@[simp] theorem standing_flushVectors (s : State) : standing (flushVectors s) = standing s := by
  unfold flushVectors
  split
  · exact foldl_standing _ (fun s v => by split <;> rfl) _ _
  · rfl

theorem cfgWord_kept (a m v : Nat) (s : State) : Kept s (cfgWord a m v s) := by
  unfold cfgWord
  dsimp only
  refine Kept.ite (fun _ => Kept.of_standing (standing_flushVectors _)) fun _ => ?_
  refine Kept.ite (fun _ => Kept.of_port _ rfl fun h =>
    ⟨h.aperture, h.order, h.erReserved, fun b hb => barValue_aligned _ _ _ _ _ (by decide) b hb, h.bar2, h.bar4⟩) fun _ => ?_
  refine Kept.ite (fun _ => Kept.of_port _ rfl fun h =>
    ⟨h.aperture, h.order, h.erReserved, h.bar0, fun b hb => barValue_aligned _ _ _ _ _ (by decide) b hb, h.bar4⟩) fun _ => ?_
  refine Kept.ite (fun _ => Kept.of_port _ rfl fun h =>
    ⟨h.aperture, h.order, h.erReserved, h.bar0, h.bar2, fun b hb => barValue_aligned _ _ _ _ _ (by decide) b hb⟩) fun _ => ?_
  refine Kept.ite (fun _ => Kept.of_standing (standing_flushVectors _)) fun _ => ?_
  refine Kept.ite (fun _ => Kept.of_standing (standing_flushVectors _)) fun _ => ?_
  exact Kept.ite (fun _ => Kept.of_standing rfl) fun _ => Kept.ite (fun _ => Kept.of_standing rfl) fun _ =>
    Kept.when fun _ => Kept.of_standing rfl

theorem dvsecWrite_kept (off v : Nat) (s : State) : Kept s (dvsecWrite off v s) := by
  unfold dvsecWrite
  exact Kept.ite (fun _ => erCtlWrite_kept ..) fun _ => Kept.when fun _ => Kept.of_standing rfl

theorem configWrite_kept (off w v : Nat) (rid : BitVec 16) (s : State) : Kept s (configWrite off w v rid s) := by
  have h0 : Kept s { s with link := { s.link with cfg := { s.link.cfg with devId := rid } } } := Kept.of_standing rfl
  unfold configWrite
  dsimp only
  exact Kept.ite (fun _ => (h0.trans (cfgWord_kept ..)).trans (cfgWord_kept ..)) fun _ =>
    Kept.ite (fun _ => Kept.ite (fun _ => h0.trans (dvsecWrite_kept ..)) fun _ => h0.trans (cfgWord_kept ..)) fun _ => h0

/-! ### BAR0 and the register windows (02 Tables 14, 15) -/

@[simp] theorem standing_tbSet (off w : Nat) (v : BitVec 64) (s : State) : standing (tbSet off w v s) = standing s := by
  unfold tbSet
  split
  · rfl
  · split
    · rfl
    · split <;> rfl

@[simp] theorem standing_setMsix (n : Nat) (m : MsixEntry) (s : State) : standing (setMsix n m s) = standing s := by
  unfold setMsix; dsimp only; split <;> rfl

@[simp] theorem standing_msixWrite (n w : Nat) (v : BitVec 32) (s : State) : standing (msixWrite n w v s) = standing s := by
  unfold msixWrite; dsimp only; split <;> exact standing_setMsix ..

@[simp] theorem standing_bar0Write (off w : Nat) (v : BitVec 512) (s : State) : standing (bar0Write off w v s) = standing s := by
  unfold bar0Write
  split
  · exact standing_tbSet ..
  · split
    · rfl
    · split
      · exact standing_msixWrite ..
      · split
        · exact (standing_msixWrite ..).trans (standing_msixWrite ..)
        · rfl

theorem registerWrite_kept (bar off w : Nat) (v : BitVec 512) (rid : BitVec 16) (s : State) : Kept s (registerWrite bar off w v rid s) := by
  unfold registerWrite
  split
  · exact Kept.when fun _ => Kept.of_standing (standing_bar0Write ..)
  · exact Kept.of_standing rfl
  · exact Kept.of_standing rfl
  · exact Kept.when fun _ => configWrite_kept ..
  · exact Kept.when fun _ => dvsecWrite_kept ..
  · exact Kept.refl s

@[simp] theorem standing_bar0Read (off w : Nat) (s : State) : standing (bar0Read off w s) = standing s := by
  unfold bar0Read; split <;> rfl

@[simp] theorem standing_tbNowRead (off w : Nat) (s : State) : standing (tbNowRead off w s) = standing s := by
  unfold tbNowRead
  split
  · exact (standing_bar0Read ..).trans rfl
  · split
    · rfl
    · exact standing_bar0Read ..

@[simp] theorem standing_dvsecRead (off w : Nat) (s : State) : standing (dvsecRead off w s) = standing s := by
  unfold dvsecRead; dsimp only; split <;> rfl

@[simp] theorem standing_configRead (off w : Nat) (s : State) : standing (configRead off w s) = standing s := by
  unfold configRead
  split
  · exact standing_dvsecRead ..
  · rfl

@[simp] theorem standing_registerRead (bar off w : Nat) (s : State) : standing (registerRead bar off w s) = standing s := by
  unfold registerRead
  split
  · split
    · exact standing_tbNowRead ..
    · rfl
  · split <;> rfl
  · split
    · exact standing_configRead ..
    · rfl
  · split
    · exact standing_dvsecRead ..
    · rfl
  · rfl

/-! ### The hold-up bank in service (17 R489) -/

theorem cellMeasured_kept (cap res : Nat) (s : State) : Kept s (cellMeasured cap res s) := by
  unfold cellMeasured
  refine Kept.ite (fun _ => Kept.refl s) fun _ => ?_
  dsimp only
  generalize hs1 : State.mk _ _ _ _ _ _ _ _ _ _ _ _ _ _ _ _ _ _ _ _ _ = s1
  have h1 : standing s1 = standing s := hs1 ▸ rfl
  have h2 : standing (if bankState s1 = bankState s then s1 else platform 64 (bankState s1) s1) = standing s := by
    split
    · exact h1
    · exact (standing_platform ..).trans h1
  generalize (if bankState s1 = bankState s then s1 else platform 64 (bankState s1) s1) = s2 at h2 ⊢
  refine Kept.ite (fun _ => ?_) fun _ => Kept.of_standing h2
  exact Kept.to_fettle 7 0 (by decide) (by decide) ((standing_fenced ..).trans h2)

end Sys2Proof.Machine

/-! PROOFS. Every command: it stops exactly where an address it names does not exist, and keeps the queue and the standing rules where it
goes on. -/
namespace Sys2Proof.Machine

/-! ### The shapes of a row -/

/-- A row goes on and keeps the queue and the standing rules where its addresses exist, and stops with noSuchAddress elsewhere. -/
def Runs (reaches : Bool) (s : State) (r : Result) : Prop :=
  (reaches = true → ∃ t, r = .next t ∧ Kept s t) ∧ (reaches = false → r = .fault .noSuchAddress)

theorem runs_next {s t : State} (h : Kept s t) : Runs true s (.next t) := ⟨fun _ => ⟨t, rfl, h⟩, nofun⟩

theorem runs_when {s t : State} {c : Prop} [Decidable c] (h : Kept s t) : Runs true s (.next (if c then t else s)) :=
  runs_next (Kept.when fun _ => h)

theorem runs_fenced (f : State → State) (s : State) : Runs true s (.next (fenced f s)) := runs_next (Kept.of_standing (standing_fenced f s))

/-- A row that names addresses, in range or not. -/
theorem runs_guarded {c : Prop} [Decidable c] {s : State} {r : Result} (h : Runs true s r) :
    Runs (decide c) s (if c then r else .fault .noSuchAddress) := by
  by_cases hc : c
  · rw [if_pos hc, decide_eq_true hc]; exact h
  · rw [if_neg hc, decide_eq_false hc]; exact ⟨nofun, fun _ => rfl⟩

theorem runs_whenServing (f : State → State) (s : State) : Runs true s (whenServing f s) := runs_when (Kept.of_standing (standing_fenced f s))

theorem runs_whenAlive (f : State → State) (s : State) : Runs true s (whenAlive f s) := runs_when (Kept.of_standing (standing_fenced f s))

theorem runs_onMailbox (f : State → State) (s : State) : Runs true s (onMailbox f s) := runs_when (Kept.of_standing (standing_fenced f s))

theorem runs_servingOr (f g : State → State) (s : State) : Runs true s (servingOr f g s) :=
  runs_next (Kept.ite (fun _ => Kept.of_standing (standing_fenced f s)) fun _ => Kept.when fun _ => Kept.of_standing (standing_fenced g s))

theorem runs_onTarget (f : State → State) (s : State) : Runs true s (onTarget f s) :=
  runs_next (Kept.ite (fun _ => Kept.of_standing (standing_fenced f s)) fun _ => Kept.when fun _ => Kept.of_standing (standing_emit _ s))

theorem runs_onLink {f : State → State} {s : State} (h : Kept s (f s)) : Runs true s (onLink f s) := runs_when h

theorem runs_onTrs (t : Nat) (f : State → State) (s : State) : Runs (decide (t < 4096)) s (onTrs t f s) := runs_guarded (runs_fenced f s)

theorem runs_onTrsServing (t : Nat) (f : State → State) (s : State) : Runs (decide (t < 4096)) s (onTrsServing t f s) :=
  runs_guarded (runs_whenServing f s)

/-! ### Rows of their own shape -/

theorem runs_linkReset (e : LinkEvent) (tr : Training) (s : State) : Runs true s (execLinkReset e tr s) := by
  cases e with
  | hotReset | linkDown | linkDisable => exact runs_when (linkReset_kept tr s)

theorem runs_uncorrectableError (region : Nat) (place : UePlace) (s : State) : Runs true s (execUncorrectableError region place s) := by
  refine runs_when ?_
  split
  · exact Kept.trans (Kept.of_standing (standing_fenced (countUe region 10) s)) (procFault_kept ..)
  · exact Kept.of_standing (standing_fenced ..)

/-! ### Every command -/

theorem exec_runs (i : Instr) (s : State) : Runs i.reaches s (exec i s) := by
  cases i with
  | porAssert => exact runs_next (porOn_kept s)
  | porRelease => exact runs_next (porOff_kept ..)
  | perstAssert => exact runs_next (pinOn_kept ..)
  | perstRelease => exact runs_next (pinOff_kept ..)
  | inputLossDeclared => exact runs_next (inputLoss_kept ..)
  | inputRestored => exact runs_next (inputBack_kept ..)
  | flushComplete => exact runs_next (flushEnds_kept s)
  | linkReset => exact runs_linkReset ..
  | islandRelease => exact runs_next (islandRelease_kept ..)
  | islandClockGoodTimeout => exact runs_next (islandTimeout_kept ..)
  | stageS0 => exact runs_next (endS0_kept s)
  | stageS1 => exact runs_next (endS1_kept ..)
  | stageS2 => exact runs_next (endS2_kept s)
  | stageS3 => exact runs_next (endS3_kept ..)
  | stageS4 => exact runs_next (endS4_kept ..)
  | holdupBankCharged => exact runs_next (bankCharged_kept ..)
  | stageS5 => exact runs_next (endS5_kept s)
  | stageTimeout => exact runs_next (stageTimeout_kept ..)
  | watchdogExpiry => exact runs_when (expire_kept ..)
  | tbSetWrite => exact runs_when (Kept.of_standing (standing_tbSet ..))
  | setTimestamp => exact runs_when (Kept.of_standing rfl)
  | hdmDecoderCommit => exact runs_when (decoderCommit_kept ..)
  | processorFault | processorProgressTimeout => exact runs_when (procFault_kept ..)
  | uncorrectableError => exact runs_uncorrectableError ..
  | holdupCellMeasurement => exact runs_when (cellMeasured_kept ..)
  | doeDiscovery | cdatTableAccess => exact runs_when (Kept.of_standing (standing_emit ..))
  | doeAttestation => exact runs_when (Kept.of_standing (standing_fenced ..))
  | timebaseFullValue => exact runs_next (Kept.of_standing (standing_fullValue s))
  | goSubmitNop | read | write | flush | release | park | extend | recallContext | attend | drop | search | insert | delete | merge
  | filter | embed | counters | digestRead | bind | warmFrames | collectionCreate | chainFilterEmbedInsert | unbind | warmPromote
  | collectionDestroy | collectionDescribe | chainEmbedSearch | next | qreset | qresetComplete | dmaCompletionArrival
  | completionTimeout | invalidOpcode => exact runs_onTrs ..
  | conflictCleared | commandFinish | inactivityTimeout | heatLayerComplete | joinDeferralTimeout => exact runs_onTrsServing ..
  | lockEntryFreed | acceptanceWaitEnd | frameFillComplete | heatWindowClose | warmFrameExpiry | transientFramePlaced | flatScanEnd
  | annealRoundStart | annealRoundCommit | epochPagesFreed | batchComplete | tileDispatch | tileComplete | stationarySwap
  | semaphoreAcquire | semaphoreRelease | semaphoreHoldTimeout | preemptionEscalation | engineLevelSave | engineIdleStop
  | partitionFaultDetected | onlineCheckComplete | coreControlFault | engineKatTimer | promotionCommit | lowWaterEviction
  | idleDemotion | t2Fold | collectionReload | demotedDramFreed | journalFlushTimer | nandProgramComplete | nandProgramFail
  | nandReadComplete | nandEraseComplete | nandOperationTimeout | suspendMinRunReached | readServiceExpiry | flushReserveRestored
  | gcStart | slcFold | checkpointCycle | wearLevelCheck | flashScanRead | writeOriginWindowExpiry | quenchOvercurrent
  | quenchExcursion | sanitizeDrained => exact runs_whenServing ..
  | dramCorrectableError | sramCorrectableError | bucketLeak | dramPatrolRead | sramPatrol | laneRetrain => exact runs_whenAlive ..
  | governorSample | governorDecision => exact runs_servingOr ..
  | holdoffExpiry | bisnpResponse | pwKey | pwProgram | pwErase | norProgramComplete | norEraseComplete | norEraseSuspend
  | norEraseResume => exact runs_fenced ..
  | msixUnmask => exact runs_guarded (runs_when (Kept.of_standing (standing_fenced ..)))
  | tbNowRead => exact runs_guarded (runs_next (Kept.of_standing (standing_registerRead ..)))
  | registerWrite => exact runs_guarded (runs_next (registerWrite_kept ..))
  | cxlMemWrite | cxlMemRead | refusedBar2Access => exact runs_guarded (runs_fenced ..)
  | stepDoorbell | stageDoorbell => exact runs_guarded (runs_whenServing ..)
  | erCtlWrite => exact runs_onLink (erCtlWrite_kept ..)
  | erOffer => exact runs_onLink (Kept.of_standing (standing_erOffered ..))
  | erAccept => exact runs_onLink (Kept.of_standing (standing_erAccepted ..))
  | erOfferTimeout => exact runs_onLink (Kept.of_standing (standing_erSilent s))
  | erRecoverySpeed => exact runs_onLink (Kept.of_standing (standing_erRecovery s))
  | erLockAchieved => exact runs_onLink (Kept.of_standing (standing_erLocked ..))
  | erEqTimeout => exact runs_onLink (Kept.of_standing (standing_erEqFails ..))
  | erErrorRateFallback => exact runs_onLink (erErrorRate_kept ..)
  | erMarkerLossFallback => exact runs_onLink (Kept.of_standing (standing_erMarkerLoss ..))
  | partnerErFallback => exact runs_onLink (Kept.of_standing (standing_erPartnerLeaves s))
  | getEventRecords | clearEventRecords | getEventInterruptPolicy | setEventInterruptPolicy | getTimestamp | getSupportedLogs | getLog
  | identifyMemoryDevice | sanitize | claimOwner | releaseOwner | patternStageBegin | patternStageData | patternStageCommit | attest
  | startLogRead | countersGlobal | patternWindow | unsupportedMailboxOpcode => exact runs_onMailbox ..
  | setEndpointId | getTid | getPldmVersion | getPldmTypes | getPldmCommands | getPdrRepositoryInfo | getPdr | getSensorReading
  | getStateSensorReadings | setEventReceiver | entdaa | setdasa => exact runs_onTarget ..

/-- Settles O2: the guard of each row is the command's own addresses. -/
theorem commandsGoOnExactlyWhereAddressesExist : Obligations.CommandsGoOnExactlyWhereAddressesExist := by
  intro i s
  obtain ⟨hgo, hstop⟩ := exec_runs i s
  refine ⟨fun h => ?_, hstop⟩
  obtain ⟨t, ht, hk⟩ := hgo h
  exact ⟨t, ht, hk.pending⟩

/-- Settles O4: the invariant through an idle cycle and through every command that goes on. -/
theorem lawfulKeptByEveryStep : Obligations.LawfulKeptByEveryStep := by
  intro s t hs ht
  unfold step at ht
  split at ht
  · obtain rfl := Host.Outcome.next.inj ht
    exact lawful_of_standing_eq (standing_idleCycle s) hs
  · rename_i c rest _
    have hs' : Lawful { s with pending := rest } := ⟨hs.port, hs.start, hs.cause⟩
    obtain ⟨hgo, hstop⟩ := exec_runs c { s with pending := rest }
    cases hr : c.reaches with
    | true =>
      obtain ⟨u, hu, hk⟩ := hgo hr
      obtain rfl := Host.Outcome.next.inj (hu.symm.trans ht)
      exact hk.lawful hs'
    | false => exact absurd (ht.symm.trans (hstop hr)) nofun

end Sys2Proof.Machine

/-! PROOFS. What a link reset leaves (02 R37, R41, R62). -/
namespace Sys2Proof.Machine

/-- What holds of the unlisted value and of every image holds of every value of the image. -/
theorem SMap.find_mapVals_of {α : Type} [DecidableEq α] {d : α} {f : Nat → α → α} {P : α → Prop} (hd : P d) (hf : ∀ k x, P (f k x))
    (m : SMap α) (k : Nat) : P (SMap.find d (SMap.mapVals d f m) k) := by
  unfold SMap.mapVals
  induction m with
  | nil => exact hd
  | cons a m ih =>
    rw [List.map_cons, List.filter_cons]
    split
    · simp only [SMap.find]
      split
      · exact hf ..
      · exact ih
    · exact ih

/-! ### Ending every command leaves the port's counts, the always-on island and the mode -/

@[simp] theorem endAll_erCounts (s : State) : (endAll s).link.erCounts = s.link.erCounts := by
  unfold endAll; split <;> rfl

@[simp] theorem endAll_aon (s : State) : (endAll s).aon = s.aon := by
  unfold endAll; split <;> rfl

@[simp] theorem endAll_mode (s : State) : (endAll s).boot.mode = s.boot.mode := by
  unfold endAll; split <;> rfl

/-- After a reset of the link no vector has anything pending. -/
theorem vec_resetLink (l : Link) (v : Nat) :
    (SMap.find {} (resetLink l).vec v).pend = 0 ∧ (SMap.find {} (resetLink l).vec v).timer = none
      ∧ (SMap.find {} (resetLink l).vec v).pba = false :=
  SMap.find_mapVals_of (d := {}) (f := fun _ (x : Vec) => { x with pend := 0, timer := none, pba := false })
    (P := fun x : Vec => x.pend = 0 ∧ x.timer = none ∧ x.pba = false) ⟨rfl, rfl, rfl⟩ (fun _ _ => ⟨rfl, rfl, rfl⟩) l.vec v

/-- The three link events have one effect. -/
theorem exec_linkReset (e : LinkEvent) (tr : Training) (s : State) :
    exec (.linkReset e tr) s = .next (if configUp s then linkReset tr s else s) := by
  cases e with
  | hotReset | linkDown | linkDisable => rfl

/-- Settles O8: every field is read off the reset's state; ending the held commands leaves the fields that stay. -/
theorem linkResetClearsPortAndTundish : Obligations.LinkResetClearsPortAndTundish := by
  intro e tr s
  rw [exec_linkReset]
  refine ⟨fun h => ⟨linkReset tr s, by rw [if_pos h], rfl, rfl, rfl, rfl, rfl, rfl, rfl, rfl, rfl, rfl, rfl, rfl, rfl, rfl, rfl, ?_, ?_,
    rfl, rfl, rfl, ?_, ?_, rfl, rfl, rfl⟩, fun h => by simp [h]⟩
  · exact endAll_erCounts _
  · exact fun v => vec_resetLink _ v
  · exact congrArg (fun a : Aon => { a with tbHeldLow := none }) (endAll_aon _)
  · exact endAll_mode _

end Sys2Proof.Machine

/-! PROOFS. Task register pages and the commands they hold: reading after writing, a submission up to its checks, and endings. -/
namespace Sys2Proof.Machine

/-! ### Writing a map twice -/

theorem SMap.erase_erase {α : Type} (m : SMap α) (k : Nat) : SMap.erase (SMap.erase m k) k = SMap.erase m k := by
  simp [SMap.erase_eq_filter]

theorem SMap.erase_place {α : Type} (m : SMap α) (k : Nat) (v : α) : SMap.erase (SMap.place m k v) k = SMap.erase m k := by
  induction m with
  | nil => simp [SMap.place, SMap.erase]
  | cons a m ih =>
    by_cases h : k < a.1
    · simp [SMap.place, SMap.erase, h]
    · simp [SMap.place, SMap.erase, h, ih]

/-- The second write of a place wins. -/
@[simp] theorem SMap.put_put {α : Type} [DecidableEq α] (d : α) (m : SMap α) (k : Nat) (v w : α) :
    SMap.put d (SMap.put d m k v) k w = SMap.put d m k w := by
  have h : SMap.erase (SMap.put d m k v) k = SMap.erase m k := by
    unfold SMap.put
    split
    · exact SMap.erase_erase m k
    · rw [SMap.erase_place, SMap.erase_erase]
  rw [SMap.put, h, SMap.put]

/-! ### Counters (16 R463) -/

theorem counted_of_tele_eq {s t : State} (h : t.tele = s.tele) (k i : Nat) : counted k i t = counted k i s := by simp only [counted, h]

theorem counted_bump_self (k i n : Nat) (s : State) : counted k i (bump k i n s) = counted k i s + BitVec.ofNat 64 n := by
  simp only [counted, bump, SMap.find_modify_self]

/-- An increment of one instance leaves every other count alone. -/
theorem counted_bump_other (k i k' i' n : Nat) (s : State) (h : k * 65536 + i ≠ k' * 65536 + i') :
    counted k i (bump k' i' n s) = counted k i s := by
  simp only [counted, bump, SMap.find_modify_other _ _ _ _ h]

/-! ### Pages -/

@[simp] theorem getTrs_setTrs_self (p : Nat) (x : Trs) (s : State) : getTrs (setTrs p x s) p = x := SMap.find_put_self ..

theorem getTrs_setTrs_other (p q : Nat) (x : Trs) (s : State) (h : q ≠ p) : getTrs (setTrs p x s) q = getTrs s q :=
  SMap.find_put_other _ _ _ _ h

@[simp] theorem setTrs_setTrs (p : Nat) (x y : Trs) (s : State) : setTrs p y (setTrs p x s) = setTrs p y s := by simp [setTrs]

@[simp] theorem getTrs_modTrs_self (p : Nat) (f : Trs → Trs) (s : State) : getTrs (modTrs p f s) p = f (getTrs s p) := getTrs_setTrs_self ..

theorem modTrs_setTrs (p : Nat) (f : Trs → Trs) (x : Trs) (s : State) : modTrs p f (setTrs p x s) = setTrs p (f x) s := by simp [modTrs]

theorem getTrs_of_trs_eq {s t : State} (h : t.trs = s.trs) (p : Nat) : getTrs t p = getTrs s p := by simp only [getTrs, h]

theorem heldOf_of_trs_eq {s t : State} (h : t.trs = s.trs) (p id : Nat) : heldOf t p id = heldOf s p id := by
  simp only [heldOf, getTrs_of_trs_eq h]

theorem otherPages_of_trs_eq {s t u : State} {p : Nat} (h : t.trs = u.trs) (hu : OtherPages s u p) : OtherPages s t p :=
  fun q hq => (getTrs_of_trs_eq h q).trans (hu q hq)

theorem otherPages_setTrs (p : Nat) (x : Trs) (s : State) : OtherPages s (setTrs p x s) p := fun q hq => getTrs_setTrs_other p q x s hq

theorem otherPages_modTrs (p : Nat) (f : Trs → Trs) (s : State) : OtherPages s (modTrs p f s) p := otherPages_setTrs p _ s

theorem otherPages_modHeld (p id : Nat) (f : Held → Held) (s : State) : OtherPages s (modHeld p id f s) p := otherPages_modTrs p _ s

theorem OtherPages.refl (s : State) (p : Nat) : OtherPages s s p := fun _ _ => rfl

theorem OtherPages.trans {s t u : State} {p : Nat} (h : OtherPages s t p) (g : OtherPages t u p) : OtherPages s u p :=
  fun q hq => (g q hq).trans (h q hq)

/-! ### Held commands -/

/-- Changing the command of a number, its number kept, in a list of held commands. -/
theorem find_map_held (l : List Held) (id : Nat) (f : Held → Held) (hf : ∀ h, h.id = id → (f h).id = id) :
    (l.map (fun h => if h.id = id then f h else h)).find? (fun h => h.id == id) = (l.find? (fun h => h.id == id)).map f := by
  induction l with
  | nil => rfl
  | cons a l ih =>
    by_cases h : a.id = id
    · simp [h, hf a h]
    · simp [h, ih]

theorem heldOf_modHeld_self (p id : Nat) (f : Held → Held) (s : State) (hf : ∀ h, h.id = id → (f h).id = id) :
    heldOf (modHeld p id f s) p id = (heldOf s p id).map f := by
  unfold heldOf modHeld
  rw [getTrs_modTrs_self]
  exact find_map_held _ id f hf

theorem heldOf_id {s : State} {p id : Nat} {h : Held} (hh : heldOf s p id = some h) : h.id = id := by
  simpa using List.find?_some hh

/-! ### Endings (03 R76, R83) -/

@[simp] theorem settleElapsed_held (t : BitVec 64) (p : Trs) : (settleElapsed t p).held = p.held := by
  unfold settleElapsed; split <;> rfl

@[simp] theorem takeDeferred_held (pick : Option Nat) (p : Trs) : (takeDeferred pick p).2.held = p.held := by
  unfold takeDeferred; dsimp only; split <;> rfl

/-- A held command as its ending leaves it, with the deferred error that its report carries. -/
def Held.endedWith (h : Held) (st : Byte) (res : BitVec 64) (e : Option (BitVec 64)) : Held :=
  { h with phase := endPhase st, status := st, result := res, deferred := e, ending := none, resv := none, reads := [], rx := [], rxAt := [],
           waitRes := false, waitLock := false, step := none, stage := none, search := none }

/-- What an ending does to the page, the lock table and the other pages. -/
theorem finishWith_page (pick : Option Nat) (quiet : Bool) (p id : Nat) (st : Byte) (res : BitVec 64) (s : State) {h : Held}
    (hh : heldOf s p id = some h) :
    (∃ e, heldOf (finishWith pick quiet p id st res s) p id = some (h.endedWith st res e))
      ∧ OtherPages s (finishWith pick quiet p id st res s) p
      ∧ (finishWith pick quiet p id st res s).cmd = { s.cmd with
          locks := s.cmd.locks.filter (fun l => l.id != id),
          stalled := if st = stInputStalled then s.cmd.stalled ++ [id] else s.cmd.stalled } := by
  unfold finishWith
  rw [hh]
  dsimp only
  generalize hp3 : Trs.mk _ _ _ _ _ _ _ _ _ _ _ = p3
  generalize hs1 : setTrs p p3 _ = s1
  have hheld : p3.held = (getTrs s p).held.map (fun x => if x.id = id
      then h.endedWith st res (takeDeferred pick (settleElapsed (now s) (getTrs s p))).1 else x) := by
    simp only [← hp3, takeDeferred_held, settleElapsed_held, Held.endedWith]
  have hfind : heldOf s1 p id = some (h.endedWith st res (takeDeferred pick (settleElapsed (now s) (getTrs s p))).1) := by
    rw [← hs1, heldOf, getTrs_setTrs_self, hheld,
      find_map_held _ id (fun _ => h.endedWith st res _) (fun _ _ => show h.id = id from heldOf_id hh)]
    exact congrArg (Option.map _) hh
  have hother : OtherPages s s1 p := by
    rw [← hs1]
    exact fun q hq => (getTrs_setTrs_other p q p3 _ hq).trans (getTrs_of_trs_eq (by simp) q)
  have hcmd : s1.cmd = { s.cmd with
      locks := s.cmd.locks.filter (fun l => l.id != id),
      stalled := if st = stInputStalled then s.cmd.stalled ++ [id] else s.cmd.stalled } := by
    rw [← hs1]; simp
  split
  · exact ⟨⟨_, (heldOf_of_trs_eq (addCompletion_trs ..) p id).trans hfind⟩, otherPages_of_trs_eq (addCompletion_trs ..) hother,
      (addCompletion_cmd ..).trans hcmd⟩
  · exact ⟨⟨_, hfind⟩, hother, hcmd⟩

/-- An ended command is reported. -/
theorem reported_of_ended {t : State} {p id : Nat} {h : Held} {st : Byte} {res : BitVec 64} {e : Option (BitVec 64)}
    (hh : heldOf t p id = some (h.endedWith st res e)) : Reported t p id st res := ⟨_, hh, rfl, rfl, rfl, rfl, rfl⟩

end Sys2Proof.Machine

/-! PROOFS. A submission and the checks of 03 Table 27. -/
namespace Sys2Proof.Machine

/-! ### The rows that submit a command -/

/-- Each of these rows writes its descriptor to COMMAND and 1 to GO. -/
theorem exec_command {i : Instr} {p : Nat} {rid : BitVec 16} {c : Desc} (s : State) (h : i.command = some (p, rid, c)) (hp : p < 4096) :
    exec i s = .next (fenced (goSubmit p rid c) s) := by
  cases i with
  | goSubmitNop | read | write | flush | release | park | extend | recallContext | attend | drop | search | insert | delete | merge
  | filter | embed | counters | digestRead | bind | warmFrames | collectionCreate | chainFilterEmbedInsert | unbind | warmPromote
  | collectionDestroy | collectionDescribe | chainEmbedSearch | invalidOpcode => cases h; exact if_pos hp
  | _ => exact absurd h nofun

/-- Work that changes nothing changes nothing behind the fence either. -/
theorem fenced_of_eq {f : State → State} {s : State} (h : f s = s) : fenced f s = s := by simp only [fenced, h]

theorem alive_of_service {s : State} (h : s.boot.mode = .service) : alive s = true := by simp [alive, h]

theorem bar2Writable_of {s : State} (hd : decodes s s.link.bar2 = true) (hm : s.boot.mode = .service) : bar2Writable s = true := by
  simp [bar2Writable, hd, alive_of_service hm]

theorem goSubmit_admitted {s : State} {p : Nat} {rid : BitVec 16} (c : Desc) (hd : decodes s s.link.bar2 = true)
    (hm : s.boot.mode = .service) (ha : admits s p rid = true) :
    goSubmit p rid c s = goArrived p (modTrs p (fun q => { q with command := c }) s) := by
  simp [goSubmit, bar2Writable_of hd hm, ha]

/-- A page with nothing held takes the command as PENDING to its checks. -/
theorem goSubmit_idle {s : State} {p : Nat} {rid : BitVec 16} (c : Desc) (hd : decodes s s.link.bar2 = true) (hm : s.boot.mode = .service)
    (ha : admits s p rid = true) (hh : (getTrs s p).held = []) (hr : (getTrs s p).resetting = false) :
    goSubmit p rid c s = admitHeld p s.cmd.goCount c (arrived s p c) := by
  have h : modTrs p (fun q => { q with busy := false, held := q.held ++ [{ id := s.cmd.goCount, desc := c }] })
      { modTrs p (fun q => { q with command := c }) s with cmd := { s.cmd with goCount := s.cmd.goCount + 1 } } = arrived s p c := by
    unfold arrived
    refine (modTrs_setTrs p _ { getTrs s p with command := c } { s with cmd := { s.cmd with goCount := s.cmd.goCount + 1 } }).trans ?_
    simp [hh]
  rw [goSubmit_admitted c hd hm ha]
  unfold goArrived
  rw [getTrs_modTrs_self, if_neg (by simp [hh, hr])]
  exact congrArg (admitHeld p s.cmd.goCount c) h

/-! ### The command as it has arrived -/

@[simp] theorem getTrs_arrived (s : State) (p : Nat) (c : Desc) :
    getTrs (arrived s p c) p = { getTrs s p with command := c, busy := false, held := [{ id := s.cmd.goCount, desc := c }] } :=
  getTrs_setTrs_self ..

@[simp] theorem heldOf_arrived (s : State) (p : Nat) (c : Desc) :
    heldOf (arrived s p c) p s.cmd.goCount = some { id := s.cmd.goCount, desc := c } := by simp [heldOf]

theorem otherPages_arrived (s : State) (p : Nat) (c : Desc) : OtherPages s (arrived s p c) p := fun q hq => getTrs_setTrs_other p q _ _ hq

/-- Changing the command that has arrived. -/
theorem modHeld_arrived (s : State) (p : Nat) (c : Desc) (f : Held → Held) :
    modHeld p s.cmd.goCount f (arrived s p c) = setTrs p
      { getTrs s p with command := c, busy := false, held := [f { id := s.cmd.goCount, desc := c }] }
      { s with cmd := { s.cmd with goCount := s.cmd.goCount + 1 } } := by
  unfold modHeld arrived
  rw [modTrs_setTrs]
  simp

/-! ### The statuses of the checks are none that a stalled input gives -/

@[simp] theorem invalid_code (b : Bool) (n : Nat) : (invalid b n).code = stInvalidField := rfl

@[simp] theorem tooLong_code (b : Bool) (n : Nat) : (tooLong b n).code = stLength := rfl

/-- No row of a check list has the status INPUT_STALLED. -/
def NoStall (rs : List Row) : Prop := ∀ r ∈ rs, r.code ≠ stInputStalled

@[simp] theorem noStall_nil : NoStall [] := nofun

@[simp] theorem noStall_cons (r : Row) (rs : List Row) : NoStall (r :: rs) ↔ r.code ≠ stInputStalled ∧ NoStall rs := List.forall_mem_cons

@[simp] theorem noStall_append (a b : List Row) : NoStall (a ++ b) ↔ NoStall a ∧ NoStall b := List.forall_mem_append

@[simp] theorem noStall_map {α : Type} (f : α → Row) (l : List α) : NoStall (l.map f) ↔ ∀ x ∈ l, (f x).code ≠ stInputStalled :=
  List.forall_mem_map

@[simp] theorem invalidField_ne_stalled : stInvalidField ≠ stInputStalled := by decide

@[simp] theorem length_ne_stalled : stLength ≠ stInputStalled := by decide

@[simp] theorem notPermitted_ne_stalled : stNotPermitted ≠ stInputStalled := by decide

@[simp] theorem stale_ne_stalled : stStale ≠ stInputStalled := by decide

@[simp] theorem noStall_blockRows (a b c d : Nat) : NoStall (blockRows a b c d) := by simp [blockRows]

@[simp] theorem chkRow_code (d : Desc) (b : Nat) : (chkRow d b).code = stInvalidField := rfl

@[simp] theorem tenantRow_code (s : State) (t v b : Nat) : (tenantRow s t v b).code = stInvalidField := rfl

@[simp] theorem noStall_sourceRows (x : Shape) (d : Desc) : NoStall (sourceRows x d) := by simp [sourceRows]

@[simp] theorem noStall_layerRows (c : Ctx) (d : Desc) : NoStall (layerRows c d) := by simp [layerRows]

@[simp] theorem noStall_tokenRows (c : Ctx) (d : Desc) (w : Bool) : NoStall (tokenRows c d w) := by simp [tokenRows]

@[simp] theorem noStall_regionRows (a b c d e : Nat) : NoStall (regionRows a b c d e) := by simp [regionRows]

@[simp] theorem noStall_embedColl (s : State) (t : Nat) (x : FnSlot) (d : Desc) : NoStall (embedColl s t x d) := by
  unfold embedColl; dsimp only; split <;> simp

theorem noStall_embedRows (s : State) (t : Nat) (b : Bool) (d : Desc) : NoStall (embedRows s t b d) := by
  unfold embedRows
  simp only [noStall_append]
  refine ⟨⟨⟨?_, ?_⟩, ?_⟩, ?_⟩
  · simp
  · split <;> simp
  · split
    · simp
    · split <;> simp
  · simp

theorem noStall_collectionRows (s : State) (t : Nat) (d : Desc) : NoStall (collectionRows s t d) := by
  simp only [collectionRows, noStall_cons, invalid_code, noStall_nil]
  split <;> simp

theorem noStall_fieldRows (s : State) (t : Nat) (d : Desc) : NoStall (fieldRows s t d) := by
  unfold fieldRows
  dsimp only
  split
  · simp [rwRows]
  · simp [rwRows]
  · simp [releaseRows]
  · simp [parkRows]
  · simp [extendRows]
  · simp [recallRows]
  · simp [attendRows]
  · simp [warmRows]
  · simp [searchRows]
  · simp [insertRows]
  · simp [insertRows]
  · exact noStall_collectionRows s t d
  · simp [filterRows]
  · exact noStall_embedRows s t true d
  · simp
  · simp [counterRows]
  · simp [digestRows]
  · simp [bindRows]
  · simp

theorem firstBad_mem {rs : List Row} {r : Row} (h : firstBad rs = some r) : r ∈ rs := by
  induction rs with
  | nil => exact absurd h nofun
  | cons a rs ih =>
    unfold firstBad at h
    split at h
    · exact Option.some.inj h ▸ List.mem_cons_self
    · exact List.mem_cons_of_mem _ (ih h)

theorem volCheck_ne_stalled (s : State) (t v b : Nat) : ∀ f ∈ volCheck s t v b, f.1 ≠ stInputStalled := by
  unfold volCheck; split
  · simp
  · split <;> simp

theorem ctxCheck_ne_stalled (s : State) (t h : Nat) : ∀ f ∈ ctxCheck s t h, f.1 ≠ stInputStalled := by
  unfold ctxCheck; split
  · simp
  · split <;> simp

theorem collCheck_ne_stalled (s : State) (t c b : Nat) : ∀ f ∈ collCheck s t c b, f.1 ≠ stInputStalled := by
  unfold collCheck; split
  · simp
  · split <;> simp

theorem zeroCheck_ne_stalled (d : Desc) : ∀ f ∈ zeroCheck d, f.1 ≠ stInputStalled := by
  unfold zeroCheck; split <;> simp

theorem objectCheck_ne_stalled (s : State) (t : Nat) (d : Desc) : ∀ f ∈ objectCheck s t d, f.1 ≠ stInputStalled := by
  have hv := volCheck_ne_stalled s t (objOf d)
  have hc := ctxCheck_ne_stalled s t (objOf d)
  have hk := collCheck_ne_stalled s t (objOf d)
  have hz := zeroCheck_ne_stalled d
  have hf : ∀ n : Nat, ∀ f ∈ (some (stInvalidField, some n) : Option ObjFail), f.1 ≠ stInputStalled := by simp
  have hn : ∀ f ∈ (some (stNotPermitted, none) : Option ObjFail), f.1 ≠ stInputStalled := by simp
  have h0 : ∀ f ∈ (none : Option ObjFail), f.1 ≠ stInputStalled := nofun
  unfold objectCheck
  dsimp only
  split <;> (try split_ifs) <;> solve_by_elim

/-- The early checks give no INPUT_STALLED. -/
theorem earlyFail_ne_stalled {s : State} {t : Nat} {d : Desc} {f : Byte × Option Nat} (h : earlyFail s t d = some f) :
    f.1 ≠ stInputStalled := by
  unfold earlyFail at h
  dsimp only at h
  split_ifs at h
  · exact Option.some.inj h ▸ (by decide : stFettle ≠ stInputStalled)
  · exact Option.some.inj h ▸ notPermitted_ne_stalled
  · split at h
    · exact Option.some.inj h ▸ invalidField_ne_stalled
    · split at h
      · exact Option.some.inj h ▸ objectCheck_ne_stalled s t d _ ‹_›
      · obtain ⟨r, hr, rfl⟩ := Option.map_eq_some_iff.1 h
        exact noStall_fieldRows s t d r (firstBad_mem hr)
  · exact Option.some.inj h ▸ (by decide : stInvalidOpcode ≠ stInputStalled)

theorem resourceFail_ne_stalled {s : State} {t : Nat} {d : Desc} {st : Byte} (h : resourceFail s t d = some st) : st ≠ stInputStalled := by
  unfold resourceFail at h
  split_ifs at h
  · exact Option.some.inj h ▸ notPermitted_ne_stalled
  · exact Option.some.inj h ▸ (by decide : stMediaWorn ≠ stInputStalled)
  · exact Option.some.inj h ▸ (by decide : stCapacity ≠ stInputStalled)

/-! ### A command that fails a check (03 R76, R77) -/

/-- A command that has just arrived ends, with no range locked: its report is formed, and nothing but its page and its number is taken. -/
theorem finish_arrived (s : State) (p : Nat) (c : Desc) (f : Held → Held) (st : Byte) (hf : ∀ h, (f h).id = h.id) (hl : s.cmd.locks = [])
    (hst : st ≠ stInputStalled) :
    (∃ e, heldOf (finish p s.cmd.goCount st 0 (modHeld p s.cmd.goCount f (arrived s p c))) p s.cmd.goCount
        = some ((f { id := s.cmd.goCount, desc := c }).endedWith st 0 e))
      ∧ OtherPages s (finish p s.cmd.goCount st 0 (modHeld p s.cmd.goCount f (arrived s p c))) p
      ∧ (finish p s.cmd.goCount st 0 (modHeld p s.cmd.goCount f (arrived s p c))).cmd
          = { s.cmd with goCount := s.cmd.goCount + 1 } := by
  have hh : heldOf (modHeld p s.cmd.goCount f (arrived s p c)) p s.cmd.goCount = some (f { id := s.cmd.goCount, desc := c }) := by
    rw [heldOf_modHeld_self _ _ _ _ (fun h e => (hf h).trans e), heldOf_arrived]; rfl
  obtain ⟨he, ho, hc⟩ := finishWith_page none false p s.cmd.goCount st 0 _ hh
  refine ⟨he, ((otherPages_arrived s p c).trans (otherPages_modHeld p _ _ _)).trans ho, hc.trans ?_⟩
  rw [modHeld_arrived]
  simp [setTrs, hl, hst]

/-- Settles O13, check by check in the order of 03 Table 27. -/
theorem checksRunInOrder : Obligations.ChecksRunInOrder := by
  intro i s p rid c hi hp
  rw [exec_command s hi hp]
  refine ⟨fun hd => ?_, fun hd hm ha => ?_, fun hd hm ha hfull => ?_, fun f ho hf => ?_, fun ho he hw => ?_, fun st ho he hw hr => ?_,
    fun hd hm ha hh hrs he hw hr hlk hfull => ?_⟩
  · exact congrArg _ (fenced_of_eq (by simp [goSubmit, bar2Writable, hd]))
  · have h : goSubmit p rid c s = refuseWrite s := by simp [goSubmit, bar2Writable_of hd hm, ha]
    simp only [fenced, h]; rfl
  · have h : goSubmit p rid c s = setTrs p { getTrs s p with command := c, busy := true } s := by
      rw [goSubmit_admitted c hd hm ha]
      unfold goArrived
      rw [getTrs_modTrs_self, if_pos hfull]
      exact modTrs_setTrs ..
    simp only [fenced, h]; rfl
  · obtain ⟨_, hm, hd, ha, hh, hr, hl, _⟩ := ho
    obtain ⟨⟨e, hend⟩, hother, hcmd⟩ := finish_arrived s p c (fun y => { y with byte := f.2.getD 0, byteValid := f.2.isSome }) f.1
      (fun _ => rfl) hl (earlyFail_ne_stalled hf)
    have h : goSubmit p rid c s = finish p s.cmd.goCount f.1 0
        (modHeld p s.cmd.goCount (fun y => { y with byte := f.2.getD 0, byteValid := f.2.isSome }) (arrived s p c)) := by
      rw [goSubmit_idle c hd hm ha hh hr]; unfold admitHeld; rw [hf]
    have ht := (fenced_trs (goSubmit p rid c) s).trans (congrArg State.trs h)
    exact ⟨_, _, rfl, reported_of_ended ((heldOf_of_trs_eq ht ..).trans hend), (heldOf_of_trs_eq ht ..).trans hend, rfl, rfl,
      (congrArg State.cmd h).trans hcmd, otherPages_of_trs_eq ht hother⟩
  · obtain ⟨_, hm, hd, ha, hh, hr, hl, _⟩ := ho
    have h : goSubmit p rid c s = modHeld p s.cmd.goCount (fun y => { y with waitRes := true }) (arrived s p c) := by
      rw [goSubmit_idle c hd hm ha hh hr]
      unfold admitHeld fromSeven
      rw [he, heldOf_arrived]
      exact if_pos hw
    rw [modHeld_arrived] at h
    simp only [fenced, h]; rfl
  · obtain ⟨_, hm, hd, ha, hh, hrs, hl, _⟩ := ho
    obtain ⟨⟨e, hend⟩, hother, hcmd⟩ := finish_arrived s p c id st (fun _ => rfl) hl (resourceFail_ne_stalled hr)
    have hid : modHeld p s.cmd.goCount id (arrived s p c) = arrived s p c := by
      rw [modHeld_arrived]; rfl
    rw [hid] at hend hother hcmd
    have h : goSubmit p rid c s = finish p s.cmd.goCount st 0 (arrived s p c) := by
      rw [goSubmit_idle c hd hm ha hh hrs]
      unfold admitHeld fromSeven
      rw [he, heldOf_arrived]
      dsimp only
      rw [if_neg (by rw [show waitsAtSeven (arrived s p c) c = false from hw]; decide), hr]
    have ht := (fenced_trs (goSubmit p rid c) s).trans (congrArg State.trs h)
    exact ⟨_, rfl, reported_of_ended ((heldOf_of_trs_eq ht ..).trans hend), (congrArg State.cmd h).trans hcmd,
      otherPages_of_trs_eq ht hother⟩
  · have h : goSubmit p rid c s
        = bump 0x60 4 1 (modHeld p s.cmd.goCount (fun y => { y with waitRes := false, waitLock := true }) (arrived s p c)) := by
      rw [goSubmit_idle c hd hm ha hh hrs]
      unfold admitHeld fromSeven takeLock
      rw [he, heldOf_arrived]
      dsimp only
      rw [if_neg (by rw [show waitsAtSeven (arrived s p c) c = false from hw]; decide), hr]
      exact if_pos ⟨hlk, Or.inl hfull⟩
    rw [modHeld_arrived] at h
    refine ⟨_, rfl, by rw [fenced_trs, h]; rfl, ?_, by rw [fenced_cmd, h]; rfl⟩
    rw [counted_of_tele_eq ((fenced_tele _ s).trans (congrArg State.tele h)), counted_bump_self]
    rfl

end Sys2Proof.Machine

/-! PROOFS. A command that starts, and the host input that it fetches. -/
namespace Sys2Proof.Machine

/-! ### Descriptor bytes -/

/-- OPCODE reads back. -/
@[simp] theorem fld_setDescByte_opcode (d : Desc) (v : Byte) : fld (setDescByte d 0 v) 0 1 = v.toNat := by
  have hd := d.isLt
  have hv := v.isLt
  simp only [fld, setDescByte, BitVec.toNat_ofNat]
  omega

/-- Setting OPCODE leaves every later field. -/
theorem fld_setDescByte_after (d : Desc) (v : Byte) (b n : Nat) (hb : 1 ≤ b) : fld (setDescByte d 0 v) b n = fld d b n := by
  have hd := d.isLt
  have hv := v.isLt
  obtain ⟨b, rfl⟩ := Nat.exists_eq_add_of_le hb
  have h : (setDescByte d 0 v).toNat / 2 ^ 8 = d.toNat / 2 ^ 8 := by
    simp only [fld, setDescByte, BitVec.toNat_ofNat]
    omega
  have e : 2 ^ (8 * (1 + b)) = 2 ^ 8 * 2 ^ (8 * b) := by rw [← Nat.pow_add]; congr 1; omega
  simp only [fld, e, ← Nat.div_div_eq_div_mul, h]

/-- The selector at byte 8 reads back. -/
@[simp] theorem fld_setDescByte_eight (d : Desc) (v : Byte) : fld (setDescByte d 8 v) 8 1 = v.toNat := by
  have hd := d.isLt
  have hv := v.isLt
  simp only [fld, setDescByte, BitVec.toNat_ofNat]
  omega

/-- A row of the first selector carries 0, or one out of range. -/
theorem fld_firstSelector_ne_one (d : Desc) : fld (firstSelector d 8 1) 8 1 ≠ 1 := by
  unfold firstSelector
  split
  · simp
  · omega

theorem SMap.mem_put {α : Type} [DecidableEq α] {d : α} {m : SMap α} {k : Nat} {v : α} {e : Nat × α} (h : e ∈ SMap.put d m k v) :
    e = (k, v) ∨ e ∈ m := by
  unfold SMap.put at h
  rw [SMap.erase_eq_filter] at h
  split at h
  · exact Or.inr (List.mem_of_mem_filter h)
  · exact ((SMap.mem_place _ k v e).1 h).imp_right List.mem_of_mem_filter

/-! ### From arrival to the start (03 R76, R77) -/

/-- The held command as acceptance leaves it. -/
def acceptedHeld (s : State) (p : Nat) (c : Desc) : Held :=
  let x := getColl s (objOf c)
  { id := s.cmd.goCount, desc := c, phase := .accepted, acceptNo := s.cmd.acceptCount + 1, resv := resvOf (arrived s p c) p c,
    search := if fld c 0 1 = 0x20 ∨ fld c 0 1 = 0x32 ∧ fld c 8 1 = 1
              then some { coll := objOf c, epoch := x.epochNo, commitSeq := x.commitSeq } else none,
    mergeSeq := x.commitSeq }

/-- The state as acceptance leaves it, before the start. -/
def accepted (s : State) (p : Nat) (c : Desc) : State :=
  setTrs p { getTrs s p with command := c, busy := false, held := [acceptedHeld s p c] }
    { s with
      cmd := { s.cmd with goCount := s.cmd.goCount + 1, acceptCount := s.cmd.acceptCount + 1,
                          locks := (match lockOf s c with
                            | some l => [{ trs := p, id := s.cmd.goCount, acceptNo := s.cmd.acceptCount + 1, excl := l.1, ranges := l.2 }]
                            | none => []) },
      ctx := { s.ctx with accepts := if fld c 0 1 = 0x13 then s.ctx.accepts ++ [(handleIdx (objOf c), now s)] else s.ctx.accepts } }

theorem accept_arrived {s : State} (p : Nat) (c : Desc) (hl : s.cmd.locks = []) :
    accept p s.cmd.goCount (arrived s p c) = tryStart p s.cmd.goCount (accepted s p c) := by
  unfold accept
  rw [heldOf_arrived]
  dsimp only
  rw [modHeld_arrived]
  refine congrArg (tryStart p s.cmd.goCount) ?_
  have hla : (arrived s p c).cmd.locks = [] := hl
  have hlk : lockOf (arrived s p c) c = lockOf s c := rfl
  rw [hla, hlk]
  unfold accepted
  cases lockOf s c <;> rfl

/-- With no other lock taken nothing blocks the command. -/
theorem not_blocked_accepted (s : State) (p : Nat) (c : Desc) (h : Held) : blocked (accepted s p c) h = false := by
  have hl : (accepted s p c).cmd.locks = (match lockOf s c with
      | some l => [{ trs := p, id := s.cmd.goCount, acceptNo := s.cmd.acceptCount + 1, excl := l.1, ranges := l.2 }]
      | none => []) := rfl
  unfold blocked
  rw [hl]
  cases lockOf s c with
  | none => rfl
  | some l =>
    by_cases e : s.cmd.goCount = h.id
    · simp [e]
    · simp [e]

theorem heldOf_accepted (s : State) (p : Nat) (c : Desc) : heldOf (accepted s p c) p s.cmd.goCount = some (acceptedHeld s p c) := by
  unfold heldOf accepted
  rw [getTrs_setTrs_self]
  exact List.find?_cons_of_pos (by simp [acceptedHeld])

theorem settleElapsed_with (t : BitVec 64) (g : Trs) (c : Desc) (b : Bool) (l : List Held) :
    settleElapsed t { g with command := c, busy := b, held := l } = { settleElapsed t g with command := c, busy := b, held := l } := by
  obtain ⟨_, _, _, _, _, _, _, _, _, _, r⟩ := g
  cases r <;> rfl

/-- The start event makes the accepted command RUNNING. -/
theorem startEvent_accepted (s : State) (p : Nat) (c : Desc) : startEvent p s.cmd.goCount (accepted s p c) = begun s p c := by
  unfold startEvent
  have hn : now (accepted s p c) = now s := rfl
  rw [hn]
  unfold accepted
  rw [modTrs_setTrs]
  unfold begun
  refine congrArg (fun g => setTrs p g _) ?_
  have hf : [acceptedHeld s p c].find? (fun h => h.id == s.cmd.goCount) = some (acceptedHeld s p c) :=
    List.find?_cons_of_pos (by simp [acceptedHeld])
  have hm : [acceptedHeld s p c].map (fun h => if h.id = s.cmd.goCount then { h with phase := .running } else h)
      = [{ acceptedHeld s p c with phase := .running }] := by simp [acceptedHeld]
  rw [settleElapsed_with]
  dsimp only
  rw [hf, hm]
  dsimp only
  rw [show quietOp (acceptedHeld s p c).op = decide (fld c 0 1 = 0x40 ∨ fld c 0 1 = 0x41) from rfl]
  by_cases hq : fld c 0 1 = 0x40 ∨ fld c 0 1 = 0x41
  · simp only [hq, decide_true, if_true]; rfl
  · simp only [hq, decide_false]; rfl

theorem allHeld_arrived_waits {s : State} {p : Nat} {c : Desc} (h : (allHeld s).all (fun e => !e.2.waitLock) = true) :
    (allHeld (arrived s p c)).any (fun e => e.2.waitLock) = false := by
  have hs : ∀ e ∈ s.trs, ∀ y ∈ e.2.held, y.waitLock = false := by
    intro e he y hy
    have := List.all_eq_true.1 h (e.1, y) (List.mem_flatMap.2 ⟨e, he, List.mem_map.2 ⟨y, hy, rfl⟩⟩)
    simpa using this
  rw [List.any_eq_false]
  rintro ⟨q, y⟩ hmem
  obtain ⟨e, he, hy⟩ := List.mem_flatMap.1 hmem
  obtain ⟨z, hz, hzy⟩ := List.mem_map.1 hy
  obtain ⟨-, rfl⟩ := Prod.mk.inj hzy
  rcases SMap.mem_put he with rfl | he
  · simp at hz
    simp [hz]
  · simp [hs e he z hz]

/-- A command that passes its checks and starts at once runs its body in `begun`. -/
theorem goSubmit_starts {s : State} {p : Nat} {rid : BitVec 16} {c : Desc} (h : Starts s p rid c) :
    goSubmit p rid c s = startBody p s.cmd.goCount (s.cmd.acceptCount + 1) c (begun s p c) := by
  obtain ⟨⟨_, hm, hd, ha, hh, hr, hl, hw⟩, he, hseven, hres, hgone, hstart⟩ := h
  have hany := allHeld_arrived_waits (p := p) (c := c) hw
  rw [goSubmit_idle c hd hm ha hh hr]
  unfold admitHeld fromSeven takeLock
  rw [he, heldOf_arrived]
  dsimp only
  have hla : (arrived s p c).cmd.locks = [] := hl
  rw [if_neg (by rw [show waitsAtSeven (arrived s p c) c = false from hseven]; decide), hres, hla, hany]
  dsimp only
  rw [if_neg (by simp [lockEntries]), accept_arrived p c hl]
  unfold tryStart
  rw [heldOf_accepted]
  dsimp only
  rw [if_pos ⟨rfl, rfl, not_blocked_accepted s p c _⟩, startEvent_accepted, show (acceptedHeld s p c).desc = c from rfl, hstart,
    show objectGone (accepted s p c) c = none from hgone]
  rfl

/-! ### Reads under way (02 R51) -/

/-- The command runs with the reads `rs` under way and the cores `k`. -/
def reading (s : State) (p : Nat) (c : Desc) (rs : List (Nat × Nat)) (k : Cores) : State :=
  { begun s p c with
    core := k,
    outbox := s.outbox ++ hostReads s rs,
    trs := SMap.modify {} (begun s p c).trs p (fun g => { g with held := g.held.map (fun h => { h with reads := rs }) }) }

theorem getTrs_begun_held (s : State) (p : Nat) (c : Desc) :
    (getTrs (begun s p c) p).held = [{ acceptedHeld s p c with phase := .running }] := by
  unfold begun
  rw [getTrs_setTrs_self]
  rfl

theorem getTrs_begun_bind (s : State) (p : Nat) (c : Desc) : (getTrs (begun s p c) p).bind = (getTrs s p).bind := by
  unfold begun
  rw [getTrs_setTrs_self]
  unfold settleElapsed
  dsimp only
  split <;> rfl

@[simp] theorem tenantOf_begun (s : State) (p : Nat) (c : Desc) : tenantOf (begun s p c) p = tenantOf s p :=
  congrArg Binding.tenant (getTrs_begun_bind s p c)

/-- The running command with the reads `rs` under way. -/
def readingHeld (s : State) (p : Nat) (c : Desc) (rs : List (Nat × Nat)) : Held := { acceptedHeld s p c with phase := .running, reads := rs }

/-- Its page. -/
def readingPage (s : State) (p : Nat) (c : Desc) (rs : List (Nat × Nat)) : Trs :=
  { getTrs (begun s p c) p with held := [readingHeld s p c rs] }

/-- The rest of the state around that page. -/
def readingRest (s : State) (p : Nat) (c : Desc) (rs : List (Nat × Nat)) (k : Cores) : State :=
  { begun s p c with core := k, outbox := s.outbox ++ hostReads s rs }

theorem reading_eq (s : State) (p : Nat) (c : Desc) (rs : List (Nat × Nat)) (k : Cores) :
    reading s p c rs k = setTrs p (readingPage s p c rs) (readingRest s p c rs k) := by
  have hp : (fun g : Trs => { g with held := g.held.map (fun h => { h with reads := rs }) }) (getTrs (begun s p c) p)
      = readingPage s p c rs := by
    dsimp only
    rw [getTrs_begun_held]
    rfl
  exact congrArg (fun g => setTrs p g (readingRest s p c rs k)) hp

theorem begun_eq_reading (s : State) (p : Nat) (c : Desc) : begun s p c = reading s p c [] s.core := by
  have hp : readingPage s p c [] = getTrs (begun s p c) p := by
    have h : (getTrs (begun s p c) p).held = [readingHeld s p c []] := getTrs_begun_held s p c
    unfold readingPage
    rw [← h]
  have ho : readingRest s p c [] s.core = begun s p c := by
    have : s.outbox ++ hostReads s [] = s.outbox := by unfold hostReads; split <;> simp
    unfold readingRest
    rw [this]
    rfl
  rw [reading_eq, hp, ho]
  unfold begun
  rw [getTrs_setTrs_self, setTrs_setTrs]

theorem heldOf_reading (s : State) (p : Nat) (c : Desc) (rs : List (Nat × Nat)) (k : Cores) :
    heldOf (reading s p c rs k) p s.cmd.goCount = some (readingHeld s p c rs) := by
  rw [reading_eq]
  unfold heldOf
  rw [getTrs_setTrs_self]
  exact List.find?_cons_of_pos (by simp [readingHeld, acceptedHeld])

theorem hostReads_append (s : State) (a b : List (Nat × Nat)) : hostReads s (a ++ b) = hostReads s a ++ hostReads s b := by
  unfold hostReads
  split <;> simp

/-- One more read issued. -/
theorem issueRead_reading (s : State) (p : Nat) (c : Desc) (rs : List (Nat × Nat)) (k : Cores) (a n : Nat) :
    issueRead p s.cmd.goCount a n (reading s p c rs k) = reading s p c (rs ++ fetch a n) k := by
  rw [reading_eq, reading_eq]
  unfold issueRead modHeld
  dsimp only
  rw [modTrs_setTrs]
  have hp : (fun q : Trs => { q with held := q.held.map (fun h => if h.id = s.cmd.goCount
      then { h with reads := h.reads ++ dmaReads a n } else h) }) (readingPage s p c rs) = readingPage s p c (rs ++ fetch a n) := by
    simp [readingPage, readingHeld, acceptedHeld, fetch]
  have ho : s.outbox ++ hostReads s rs ++ hostReads s (fetch a n) = s.outbox ++ hostReads s (rs ++ fetch a n) := by
    rw [hostReads_append, List.append_assoc]
  unfold readingRest
  rw [← ho, ← hp]
  rfl

/-- Several more reads issued, in order. -/
theorem foldl_issueRead_reading (s : State) (p : Nat) (c : Desc) (k : Cores) (l rs : List (Nat × Nat)) :
    l.foldl (fun s' r => issueRead p s.cmd.goCount r.1 r.2 s') (reading s p c rs k)
      = reading s p c (rs ++ l.flatMap (fun r => fetch r.1 r.2)) k := by
  induction l generalizing rs with
  | nil => simp
  | cons r l ih => rw [List.foldl_cons, issueRead_reading, ih, List.flatMap_cons, List.append_assoc]

/-- A command fetches where its body, run from `begun`, leaves just those reads under way. -/
theorem fetches_of_body {i : Instr} {s : State} {p : Nat} {rid : BitVec 16} {c : Desc} {rs : List (Nat × Nat)} {k : Cores}
    (hi : i.command = some (p, rid, c)) (h : Starts s p rid c)
    (hb : startBody p s.cmd.goCount (s.cmd.acceptCount + 1) c (begun s p c) = reading s p c rs k) : Fetches (exec i s) s p c rs k := by
  rw [exec_command s hi h.1.1]
  have hg := (goSubmit_starts h).trans hb
  simp only [Fetches, fenced, hg]
  rfl

/-! ### Jobs on the cores (07 R225) -/

/-- Placing jobs reads and changes nothing but the cores. -/
theorem placeJob_core (cls t id tn no : Nat) (x : FnSlot) (c : Nat) (u s : State) (h : u.core = s.core) :
    placeJob cls t id tn no x c u = { u with core := (placeJob cls t id tn no x c s).core } := by
  unfold placeJob modCore
  dsimp only
  rw [h]

theorem foldl_placeJob_core (cls t id tn no : Nat) (x : FnSlot) (l : List Nat) (u s : State) (h : u.core = s.core) :
    l.foldl (fun s' c => if (getCore s' c).engines.any (fun e => inService e.2) then placeJob cls t id tn no x c s' else s') u
      = { u with core := (l.foldl (fun s' c =>
          if (getCore s' c).engines.any (fun e => inService e.2) then placeJob cls t id tn no x c s' else s') s).core } := by
  induction l generalizing u s with
  | nil => rw [List.foldl_nil, List.foldl_nil, ← h]
  | cons c l ih =>
    rw [List.foldl_cons, List.foldl_cons]
    have hg : getCore u c = getCore s c := by simp only [getCore, h]
    rw [hg]
    split
    · rw [placeJob_core cls t id tn no x c u s h]
      exact ih _ _ rfl
    · exact ih u s h

theorem placeJobs_core (cores : List Nat) (cls t id tn items : Nat) (x : Option FnSlot) (u s : State) (h : u.core = s.core) :
    placeJobs cores cls t id tn items x u = { u with core := (placeJobs cores cls t id tn items x s).core } := by
  cases x with
  | none => exact h ▸ rfl
  | some x =>
    unfold placeJobs placeBatch
    have hm : multsNow u x tn = multsNow s x tn := by simp only [multsNow, h]
    dsimp only
    rw [hm, h]
    exact foldl_placeJob_core _ _ _ _ _ _ _ _ _ rfl

theorem placeJobs_reading (cores : List Nat) (cls t id tn items : Nat) (x : Option FnSlot) (s : State) (p : Nat) (c : Desc)
    (rs : List (Nat × Nat)) :
    placeJobs cores cls t id tn items x (reading s p c rs s.core) = reading s p c rs (placeJobs cores cls t id tn items x s).core :=
  placeJobs_core cores cls t id tn items x (reading s p c rs s.core) s rfl

/-! ### What the checks have made sure of -/

theorem firstBad_none {rs : List Row} (h : firstBad rs = none) : ∀ r ∈ rs, r.bad = false := by
  induction rs with
  | nil => nofun
  | cons a rs ih =>
    unfold firstBad at h
    split at h
    · exact absurd h nofun
    · rename_i ha
      intro r hr
      rcases List.mem_cons.1 hr with rfl | hr
      · simpa using ha
      · exact ih h r hr

theorem rows_of_earlyFail_none {s : State} {t : Nat} {d : Desc} (h : earlyFail s t d = none) :
    objectCheck s t d = none ∧ ∀ r ∈ fieldRows s t d, r.bad = false := by
  unfold earlyFail at h
  dsimp only at h
  split_ifs at h
  split at h
  · exact absurd h nofun
  · split at h
    · exact absurd h nofun
    · exact ⟨‹_›, firstBad_none (Option.map_eq_none_iff.1 h)⟩

/-- An EMBED of text has passed COUNT ≥ 1 and DATA_LEN ≥ 24 COUNT (06 Table 61). -/
theorem embedText_of_checks {s : State} {t : Nat} {d : Desc} (h : earlyFail s t d = none) (hop : fld d 0 1 = 0x31)
    (htext : bitOf (fld d 1 1) 2 = true) : 1 ≤ fld d 40 4 ∧ 24 ≤ fld d 24 8 := by
  have hrows := (rows_of_earlyFail_none h).2
  have he : fieldRows s t d = embedRows s t true d := by simp only [fieldRows, hop]
  rw [he] at hrows
  have hn := hrows (invalid (decide (fld d 40 4 = 0 ∨ 1048576 < fld d 40 4)) 40) (by simp [embedRows])
  have hl := hrows (tooLong (decide (fld d 24 8 < 24 * fld d 40 4)) 24) (by simp [embedRows, htext])
  simp only [invalid, tooLong, decide_eq_false_iff_not] at hn hl
  omega

/-- A CHAIN has a FORM of 06 Table 64. -/
theorem chainForm_of_checks {s : State} {t : Nat} {d : Desc} (h : earlyFail s t d = none) (hop : fld d 0 1 = 0x32) : fld d 8 1 ≤ 1 := by
  have ho := (rows_of_earlyFail_none h).1
  by_contra hc
  simp only [objectCheck, hop, if_pos (show 1 < fld d 8 1 by omega)] at ho
  exact absurd ho nofun

/-! ### What FILTER, EMBED and CHAIN read first (06 R193) -/

/-- Nothing has been received yet. -/
theorem received_readingHeld (s : State) (p : Nat) (c : Desc) (rs : List (Nat × Nat)) (a n : Nat) (hn : n ≠ 0) :
    received (readingHeld s p c rs) a n = false := decide_eq_false hn

theorem issueNeeds_begun (s : State) (p : Nat) (c : Desc) (k : Cores) (l : List (Nat × Nat))
    (hl : needsOf (reading s p c [] k) p (readingHeld s p c []) = l) (hn : ∀ r ∈ l, r.2 ≠ 0) :
    issueNeeds p s.cmd.goCount (reading s p c [] k) = reading s p c (l.flatMap (fun r => fetch r.1 r.2)) k := by
  have hf : l.filter (fun r => !received (readingHeld s p c []) r.1 r.2) = l :=
    List.filter_eq_self.2 fun r hr => by rw [received_readingHeld _ _ _ _ _ _ (hn r hr)]; rfl
  unfold issueNeeds
  rw [heldOf_reading]
  dsimp only
  rw [if_pos (by rfl), hl, hf, foldl_issueRead_reading]
  rfl

theorem fmtNeeds_readingHeld (s : State) (p : Nat) (c : Desc) (a : Nat) : fmtNeeds (readingHeld s p c []) a = [(a, 64)] := by
  unfold fmtNeeds; rw [received_readingHeld _ _ _ _ _ _ (by decide)]; rfl

theorem predNeeds_readingHeld (s : State) (p : Nat) (c : Desc) (a : Nat) : predNeeds (readingHeld s p c []) a = [(a, 16)] := by
  unfold predNeeds; rw [received_readingHeld _ _ _ _ _ _ (by decide)]; rfl

/-- The first item header of a text source. -/
theorem itemNeeds_readingHeld (s : State) (p : Nat) (c d : Desc) (hn : 1 ≤ fld d 40 4) (hl : 24 ≤ fld d 24 8) :
    itemNeeds (readingHeld s p c []) d = [(fld d 32 8, 24)] := by
  have hw : itemWalk (readingHeld s p c []) (fld d 32 8) (fld d 24 8) (fld d 40 4) 0 = ([(fld d 32 8, 24)], [], false) := by
    obtain ⟨n, h⟩ := Nat.exists_eq_add_of_le' hn
    rw [h]
    unfold itemWalk
    rw [if_neg (by omega), received_readingHeld _ _ _ _ _ _ (by decide)]
    rfl
  unfold itemNeeds
  dsimp only
  rw [hw]
  dsimp only
  rw [if_neg (by simp), if_neg (by simp; omega)]

theorem needsOf_filter (s u : State) (p : Nat) (c : Desc) (hop : fld c 0 1 = 0x30) :
    needsOf u p (readingHeld s p c []) = [(fld c 32 8, 64), (fld c 40 8, 16)] := by
  have hd : (readingHeld s p c []).desc = c := rfl
  simp only [needsOf, Held.op, hd, hop, fmtNeeds_readingHeld, predNeeds_readingHeld]
  rfl

theorem needsOf_embed (s u : State) (p : Nat) (c : Desc) (hop : fld c 0 1 = 0x31)
    (htext : bitOf (fld c 1 1) 2 = true → 1 ≤ fld c 40 4 ∧ 24 ≤ fld c 24 8) :
    needsOf u p (readingHeld s p c []) = [(fld c 32 8, if bitOf (fld c 1 1) 2 then 24 else 64)] := by
  have hd : (readingHeld s p c []).desc = c := rfl
  simp only [needsOf, Held.op, hd, hop]
  by_cases ht : bitOf (fld c 1 1) 2 = true
  · rw [if_pos ht, if_pos ht, itemNeeds_readingHeld s p c c (htext ht).1 (htext ht).2]
  · rw [if_neg ht, if_neg ht, fmtNeeds_readingHeld]

theorem needsOf_chain (s u : State) (p : Nat) (c : Desc) (hop : fld c 0 1 = 0x32) :
    needsOf u p (readingHeld s p c []) = [(fld c 16 8, 128)] := by
  have hd : (readingHeld s p c []).desc = c := rfl
  simp only [needsOf, Held.op, hd, hop, chainNeeds]
  rw [received_readingHeld _ _ _ _ _ _ (by decide)]
  rfl

/-! ### The bodies -/

/-- A body that issues one read. -/
theorem issueRead_begun (s : State) (p : Nat) (c : Desc) (a n : Nat) :
    issueRead p s.cmd.goCount a n (begun s p c) = reading s p c (fetch a n) s.core := by
  rw [begun_eq_reading, issueRead_reading]; rfl

theorem writeStart_begun (s : State) (p : Nat) (c : Desc) :
    writeStart p s.cmd.goCount c (begun s p c) = reading s p c (fetch (fld c 24 8) (fld c 16 4 * 4096)
      ++ if bitOf (fld c 1 1) 1 then fetch (fld c 40 8) (fld c 16 4 * 8) else []) s.core := by
  unfold writeStart
  dsimp only
  rw [issueRead_begun]
  split
  · rw [issueRead_reading]
  · rw [List.append_nil]

/-- PARK and EXTEND without staging. -/
theorem parkStart_begun (s : State) (p : Nat) (c : Desc) (x : Shape) (hst : isStaged c = false) (hx : sourceShape (begun s p c) c = x) :
    parkStart p s.cmd.goCount c (begun s p c) = reading s p c (fetch (fld c 32 8) (srcLen x c) ++ checkReads x c) s.core := by
  unfold parkStart
  dsimp only
  rw [hst, hx, if_neg (by decide), issueRead_begun]
  unfold parkChecks checkReads
  split
  · rw [issueRead_reading]
  · rw [List.append_nil]

/-- The cores' work after the reads, for the commands of 06. -/
theorem placeJobs_issueNeeds_begun (cores : List Nat) (cls tn items : Nat) (x : Option FnSlot) (s : State) (p : Nat) (c : Desc)
    (l : List (Nat × Nat)) (hl : ∀ u, needsOf u p (readingHeld s p c []) = l) (hn : ∀ r ∈ l, r.2 ≠ 0) :
    placeJobs cores cls p s.cmd.goCount tn items x (issueNeeds p s.cmd.goCount (begun s p c))
      = reading s p c (l.flatMap (fun r => fetch r.1 r.2)) (placeJobs cores cls p s.cmd.goCount tn items x s).core := by
  rw [begun_eq_reading, issueNeeds_begun s p c s.core l (hl _) hn, placeJobs_reading]

/-! ### Pieces of a read (02 Table 13) -/

/-- No piece crosses a 4,096-byte boundary, and none is empty. -/
theorem pieces_within (f a n : Nat) : ∀ r ∈ pieces 4096 f a n, r.1 / 4096 = (r.1 + r.2 - 1) / 4096 ∧ 0 < r.2 := by
  induction f generalizing a n with
  | zero => nofun
  | succ f ih =>
    unfold pieces
    split
    · nofun
    · intro r hr
      rcases List.mem_cons.1 hr with rfl | hr
      · dsimp only
        omega
      · exact ih _ _ r hr

/-! ### The statement -/

theorem fetches_write (s : State) (p : Nat) (rid : BitVec 16) (d c : Desc) (hc : c = setDescByte d 0 0x02) (h : Starts s p rid c) :
    Fetches (exec (.write p rid d) s) s p c (fetch (fld c 24 8) (fld c 16 4 * 4096)
      ++ if bitOf (fld c 1 1) 1 then fetch (fld c 40 8) (fld c 16 4 * 8) else []) s.core := by
  have hop : fld c 0 1 = 0x02 := hc ▸ fld_setDescByte_opcode ..
  refine fetches_of_body (congrArg (fun x => some (p, rid, x)) hc.symm) h ?_
  simp only [startBody, hop]
  exact writeStart_begun s p c

theorem fetches_insert (s : State) (p : Nat) (rid : BitVec 16) (d c : Desc) (hc : c = setDescByte d 0 0x21) (h : Starts s p rid c) :
    Fetches (exec (.insert p rid d) s) s p c
      (fetch (fld c 24 8) (fld c 8 4 * recordBytesOf (getColl s (objOf c)).width)) s.core := by
  have hop : fld c 0 1 = 0x21 := hc ▸ fld_setDescByte_opcode ..
  refine fetches_of_body (congrArg (fun x => some (p, rid, x)) hc.symm) h ?_
  simp only [startBody, hop]
  exact issueRead_begun ..

theorem fetches_delete (s : State) (p : Nat) (rid : BitVec 16) (d c : Desc) (hc : c = setDescByte d 0 0x22) (h : Starts s p rid c) :
    Fetches (exec (.delete p rid d) s) s p c (fetch (fld c 24 8) (8 * fld c 8 4)) s.core := by
  have hop : fld c 0 1 = 0x22 := hc ▸ fld_setDescByte_opcode ..
  refine fetches_of_body (congrArg (fun x => some (p, rid, x)) hc.symm) h ?_
  simp only [startBody, hop]
  exact issueRead_begun ..

/-- FLUSH only starts. -/
theorem exec_flush_starts (s : State) (p : Nat) (rid : BitVec 16) (d c : Desc) (hc : c = setDescByte d 0 0x03) (h : Starts s p rid c) :
    exec (.flush p rid d) s = .next (begun s p c) := by
  have hop : fld c 0 1 = 0x03 := hc ▸ fld_setDescByte_opcode ..
  have hg : goSubmit p rid c s = begun s p c := by
    rw [goSubmit_starts h]
    simp only [startBody, hop]
  rw [exec_command (i := .flush p rid d) s (congrArg (fun x => some (p, rid, x)) hc.symm) h.1.1]
  simp only [fenced, hg]
  rfl

theorem fetches_search (s : State) (p : Nat) (rid : BitVec 16) (d c : Desc) (hc : c = setDescByte d 0 0x20) (h : Starts s p rid c) :
    Fetches (exec (.search p rid d) s) s p c
      (fetch (fld c 24 8) (fld c 10 1 * (codeBits (getColl s (objOf c)).width / 8)))
      (placeJobs (collCores s (objOf c)) 2 p s.cmd.goCount (tenantOf s p) 1 (kindSlot s 3) s).core := by
  have hop : fld c 0 1 = 0x20 := hc ▸ fld_setDescByte_opcode ..
  refine fetches_of_body (congrArg (fun x => some (p, rid, x)) hc.symm) h ?_
  simp only [startBody, hop, tenantOf_begun, searchStart]
  rw [issueRead_begun, placeJobs_reading]
  rfl

theorem fetches_filter (s : State) (p : Nat) (rid : BitVec 16) (d c : Desc) (hc : c = setDescByte d 0 0x30) (h : Starts s p rid c) :
    Fetches (exec (.filter p rid d) s) s p c (fetch (fld c 32 8) 64 ++ fetch (fld c 40 8) 16)
      (placeJobs allCores 3 p s.cmd.goCount (tenantOf s p) 1 (kindSlot s 4) s).core := by
  have hop : fld c 0 1 = 0x30 := hc ▸ fld_setDescByte_opcode ..
  refine fetches_of_body (congrArg (fun x => some (p, rid, x)) hc.symm) h ?_
  simp only [startBody, hop, tenantOf_begun]
  rw [placeJobs_issueNeeds_begun _ _ _ _ _ _ _ _ _ (fun u => needsOf_filter s u p c hop) (by simp)]
  simp only [List.flatMap_cons, List.flatMap_nil, List.append_nil]
  rfl

theorem fetches_embed (s : State) (p : Nat) (rid : BitVec 16) (d c : Desc) (hc : c = setDescByte d 0 0x31) (h : Starts s p rid c) :
    Fetches (exec (.embed p rid d) s) s p c (fetch (fld c 32 8) (if bitOf (fld c 1 1) 2 then 24 else 64))
      (placeJobs allCores 3 p s.cmd.goCount (tenantOf s p) (fld c 40 4) (embedSlot s c) s).core := by
  have hop : fld c 0 1 = 0x31 := hc ▸ fld_setDescByte_opcode ..
  refine fetches_of_body (congrArg (fun x => some (p, rid, x)) hc.symm) h ?_
  simp only [startBody, hop, tenantOf_begun]
  rw [placeJobs_issueNeeds_begun _ _ _ _ _ _ _ _ _ (fun u => needsOf_embed s u p c hop (embedText_of_checks h.2.1 hop))
    (by simp; split <;> decide)]
  simp only [List.flatMap_cons, List.flatMap_nil, List.append_nil]
  rfl

theorem fetches_chainFilterEmbedInsert (s : State) (p : Nat) (rid : BitVec 16) (d c : Desc)
    (hc : c = setDescByte (firstSelector d 8 1) 0 0x32) (h : Starts s p rid c) :
    Fetches (exec (.chainFilterEmbedInsert p rid d) s) s p c (fetch (fld c 16 8) 128)
      (placeJobs allCores 3 p s.cmd.goCount (tenantOf s p) 1 (kindSlot s 4) s).core := by
  have hop : fld c 0 1 = 0x32 := hc ▸ fld_setDescByte_opcode ..
  have hne : fld c 8 1 ≠ 1 := by
    rw [hc, fld_setDescByte_after _ _ _ _ (by decide)]
    exact fld_firstSelector_ne_one d
  have hform : fld c 8 1 = 0 := by
    have := chainForm_of_checks h.2.1 hop
    omega
  refine fetches_of_body (congrArg (fun x => some (p, rid, x)) hc.symm) h ?_
  simp only [startBody, hop, tenantOf_begun, hform, if_true, slotKind]
  rw [placeJobs_issueNeeds_begun _ _ _ _ _ _ _ _ _ (fun u => needsOf_chain s u p c hop) (by simp)]
  simp only [List.flatMap_cons, List.flatMap_nil, List.append_nil]
  rfl

theorem fetches_chainEmbedSearch (s : State) (p : Nat) (rid : BitVec 16) (d c : Desc)
    (hc : c = setDescByte (setDescByte d 8 1) 0 0x32) (h : Starts s p rid c) :
    Fetches (exec (.chainEmbedSearch p rid d) s) s p c (fetch (fld c 16 8) 128)
      (placeJobs (collCores s (objOf c)) 2 p s.cmd.goCount (tenantOf s p) 1 (kindSlot s 3) s).core := by
  have hop : fld c 0 1 = 0x32 := hc ▸ fld_setDescByte_opcode ..
  have hform : fld c 8 1 = 1 := by
    rw [hc, fld_setDescByte_after _ _ _ _ (by decide), fld_setDescByte_eight]
    rfl
  refine fetches_of_body (congrArg (fun x => some (p, rid, x)) hc.symm) h ?_
  simp only [startBody, hop, tenantOf_begun, hform, slotKind]
  rw [if_neg (by decide), if_neg (by decide), if_neg (by decide),
    placeJobs_issueNeeds_begun _ _ _ _ _ _ _ _ _ (fun u => needsOf_chain s u p c hop) (by simp)]
  simp only [List.flatMap_cons, List.flatMap_nil, List.append_nil]
  rfl

theorem fetches_park (s : State) (p : Nat) (rid : BitVec 16) (d c : Desc) (hc : c = setDescByte d 0 0x10) (hst : isStaged c = false)
    (h : Starts s p rid c) :
    Fetches (exec (.park p rid d) s) s p c (fetch (fld c 32 8) (srcLen (parkShape c) c) ++ checkReads (parkShape c) c) s.core := by
  have hop : fld c 0 1 = 0x10 := hc ▸ fld_setDescByte_opcode ..
  refine fetches_of_body (congrArg (fun x => some (p, rid, x)) hc.symm) h ?_
  simp only [startBody, hop]
  exact parkStart_begun s p c _ hst (if_pos hop)

theorem fetches_extend (s : State) (p : Nat) (rid : BitVec 16) (d c : Desc) (x : Ctx) (hc : c = setDescByte d 0 0x11)
    (hst : isStaged c = false) (h : Starts s p rid c) (hx : ctxOf s (objOf c) = some x) :
    Fetches (exec (.extend p rid d) s) s p c (fetch (fld c 32 8) (srcLen x.shape c) ++ checkReads x.shape c) s.core := by
  have hop : fld c 0 1 = 0x11 := hc ▸ fld_setDescByte_opcode ..
  have hshape : sourceShape (begun s p c) c = x.shape := by
    have hb : ctxOf (begun s p c) (objOf c) = some x := hx
    rw [sourceShape, hb, if_neg (by rw [hop]; decide)]
    rfl
  refine fetches_of_body (congrArg (fun x => some (p, rid, x)) hc.symm) h ?_
  simp only [startBody, hop]
  exact parkStart_begun s p c _ hst hshape

/-- Settles O18: each command's body, run from the state that its start leaves. -/
theorem commandsFetchTheirInput : Obligations.CommandsFetchTheirInput :=
  ⟨⟨exec_flush_starts, fetches_write, fetches_insert, fetches_delete, fun a n => pieces_within _ a n⟩,
    ⟨fetches_search, fetches_filter, fetches_embed, fetches_chainFilterEmbedInsert, fetches_chainEmbedSearch⟩,
    ⟨fetches_park, fun s p rid d c x hc hst h hx => fetches_extend s p rid d c x hc hst h hx⟩⟩

end Sys2Proof.Machine

/-! PROOFS. Host data, failures and timers at the command that waits for them (02 R52, 03 R91, R92). -/
namespace Sys2Proof.Machine

/-! ### Accounting keeps the held commands -/

@[simp] theorem getTrs_addCurrent_self (p : Nat) (f : CtrSet → CtrSet) (s : State) :
    getTrs (addCurrent p f s) p = { getTrs s p with current := f (getTrs s p).current } := getTrs_modTrs_self ..

theorem otherPages_addCurrent (p : Nat) (f : CtrSet → CtrSet) (s : State) : OtherPages s (addCurrent p f s) p := otherPages_modTrs p _ s

theorem heldOf_of_held_eq {s t : State} {p : Nat} (h : (getTrs t p).held = (getTrs s p).held) (id : Nat) :
    heldOf t p id = heldOf s p id := by simp only [heldOf, h]

/-! ### What the leading blocks of a stopped WRITE touch -/

/-- Buffered blocks leave the held commands of the page, the other pages, the tundish, contexts, collections, what was sent, and the count
of timed-out reads. -/
structure Buffers (p : Nat) (s t : State) : Prop where
  held : (getTrs t p).held = (getTrs s p).held
  others : OtherPages s t p
  tun : t.tun = s.tun
  ctx : t.ctx = s.ctx
  coll : t.coll = s.coll
  outbox : t.outbox = s.outbox
  timeouts : counted 0x20 3 t = counted 0x20 3 s

theorem Buffers.refl (p : Nat) (s : State) : Buffers p s s := ⟨rfl, OtherPages.refl s p, rfl, rfl, rfl, rfl, rfl⟩

theorem Buffers.trans {p : Nat} {s t u : State} (h : Buffers p s t) (g : Buffers p t u) : Buffers p s u :=
  ⟨g.held.trans h.held, h.others.trans g.others, g.tun.trans h.tun, g.ctx.trans h.ctx, g.coll.trans h.coll, g.outbox.trans h.outbox,
    g.timeouts.trans h.timeouts⟩

/-- Changes of the flash and the tiers alone. -/
theorem Buffers.of_flash (p : Nat) (s : State) (f : Flash) (x : Tiers) : Buffers p s { s with fl := f, tier := x } :=
  ⟨rfl, OtherPages.refl s p, rfl, rfl, rfl, rfl, rfl⟩

theorem Buffers.addCurrent (p : Nat) (f : CtrSet → CtrSet) (s : State) : Buffers p s (addCurrent p f s) :=
  ⟨by rw [getTrs_addCurrent_self], otherPages_addCurrent p f s, rfl, rfl, rfl, rfl, rfl⟩

theorem Buffers.foldl {α : Type} {p : Nat} {f : State → α → State} (hf : ∀ s a, Buffers p s (f s a)) (l : List α) (s : State) :
    Buffers p s (l.foldl f s) := by
  induction l generalizing s with
  | nil => exact Buffers.refl p s
  | cons a l ih => exact (hf s a).trans (ih _)

theorem buffers_countFlashRead (p u : Nat) (s : State) : Buffers p s (countFlashRead p u s) := by
  unfold countFlashRead
  dsimp only
  generalize faChan _ = ch
  have hb : Buffers p s (bump 0x30 ch 1 s) :=
    ⟨rfl, fun _ _ => rfl, rfl, rfl, rfl, rfl, counted_bump_other 0x20 3 0x30 ch 1 s (by omega)⟩
  exact hb.trans (Buffers.addCurrent p _ _)

theorem buffers_mergeUnit (p u : Nat) (part : Bool) (s : State) : Buffers p s (mergeUnit p u part s) := by
  unfold mergeUnit
  split
  · exact Buffers.of_flash p s _ s.tier
  · split
    · exact buffers_countFlashRead p u s
    · exact Buffers.refl p s

theorem buffers_bufferBlocks (p v lba n acc : Nat) (s : State) : Buffers p s (bufferBlocks p v lba n acc s) := by
  unfold bufferBlocks
  split
  · exact Buffers.refl p s
  · exact Buffers.foldl (fun s' q => (buffers_mergeUnit p _ _ s').trans (Buffers.of_flash p _ _ _)) _ s

theorem buffers_putBlock (p v k : Nat) (bytes : List Byte) (chk : Option (BitVec 64)) (s : State) :
    Buffers p s (putBlock v k bytes chk s) := Buffers.of_flash p s _ s.tier

theorem buffers_cacheDrop (p key n : Nat) (s : State) : Buffers p s (cacheDrop key n s) := Buffers.of_flash p s s.fl _

theorem buffers_overwrite (p v lba n : Nat) (s : State) : Buffers p s (overwrite v lba n s) := Buffers.of_flash p s _ s.tier

/-- Applying blocks of a WRITE. -/
theorem buffers_applyWrite (p : Nat) (h : Held) (n : Nat) (s : State) : Buffers p s (applyWrite p h n s) := by
  unfold applyWrite
  dsimp only
  have h1 := (buffers_overwrite p (objOf h.desc) (fld h.desc 8 8) n s).trans
    (buffers_bufferBlocks p (objOf h.desc) (fld h.desc 8 8) n h.acceptNo _)
  generalize bufferBlocks p _ _ n _ _ = s1 at h1 ⊢
  have h2 : ∀ (l : List Nat) (f : Nat → List Byte) (g : Nat → Option (BitVec 64)),
      Buffers p s (l.foldl (fun s' i => putBlock (objOf h.desc) (fld h.desc 8 8 + i) (f i) (g i) s') s1) :=
    fun l f g => h1.trans (Buffers.foldl (fun s' i => buffers_putBlock p _ _ _ _ s') l s1)
  have h4 := fun f g => ((h2 (List.range n) f g).trans (buffers_cacheDrop p (volBase s (objOf h.desc) * 4 + fld h.desc 8 8) n _)).trans
    (Buffers.addCurrent p (fun c => { c with buffer := c.buffer + BitVec.ofNat 64 (n * 4096) }) _)
  split
  · exact h4 _ _
  · exact (h4 _ _).trans (Buffers.of_flash p _ _ _)

/-- What a stopped command has applied, and its RESULT. -/
theorem applyStopped_frame (p : Nat) (h : Held) (s : State) :
    Buffers p s (applyStopped p h s).1
      ∧ (h.op ≠ 0x02 → h.op ≠ 0x15 → (applyStopped p h s).2 = 0)
      ∧ (h.op = 0x02 → h.applied = false → h.phase = .running → (applyStopped p h s).2 = writtenPrefix h 0 (fld h.desc 16 4)) := by
  unfold applyStopped
  split
  · rename_i hop
    refine ⟨?_, fun hne => absurd hop hne, fun _ ha hp => ?_⟩
    · split_ifs
      · exact Buffers.refl p s
      · exact buffers_applyWrite ..
      · exact Buffers.refl p s
    · rw [if_neg (by simp [ha]), if_pos hp]
  · rename_i hop
    refine ⟨?_, fun _ hne => absurd hop hne, fun h2 => absurd (hop.symm.trans h2) (by decide)⟩
    split
    · split <;> exact Buffers.refl p s
    · exact Buffers.refl p s
  · exact ⟨Buffers.refl p s, fun _ _ => rfl, fun h2 => absurd h2 ‹_›⟩

/-! ### A failing input -/

/-- The command `h` as its failed input leaves it. -/
def Held.failed (h : Held) (st : Byte) (res : Nat) : Held := { h with ending := some ⟨st, BitVec.ofNat 64 res⟩, reads := [] }

/-- A failed input decides its command's ending, and buffers what it had applied. -/
theorem failInput_frame {p id : Nat} {st : Byte} {s : State} {h : Held} (hh : heldOf s p id = some h) (hu : h.undecided = true)
    (hst : st ≠ stPoisoned ∨ h.op ∉ [0x20, 0x30, 0x31, 0x32]) :
    ∃ res, heldOf (failInput p id st s) p id = some (h.failed st res)
      ∧ (h.op ≠ 0x02 → h.op ≠ 0x15 → res = 0)
      ∧ (h.op = 0x02 → h.applied = false → h.phase = .running → res = writtenPrefix h 0 (fld h.desc 16 4))
      ∧ OtherPages s (failInput p id st s) p
      ∧ (failInput p id st s).tun = s.tun ∧ (failInput p id st s).ctx = s.ctx ∧ (failInput p id st s).coll = s.coll
      ∧ (failInput p id st s).outbox = s.outbox ∧ counted 0x20 3 (failInput p id st s) = counted 0x20 3 s := by
  obtain ⟨hb, hres0, hresw⟩ := applyStopped_frame p h s
  have hc : failInput p id st s
      = modHeld p id (fun y => { y with reads := [] }) (decideEnd p id st (applyStopped p h s).2 (applyStopped p h s).1) := by
    unfold failInput stopCommand
    rw [hh, if_neg (fun ⟨h1, h2⟩ => hst.elim (fun e => e h1) (fun e => e (of_decide_eq_true h2)))]
    dsimp only
    rw [if_pos hu]
  have hheld : heldOf (applyStopped p h s).1 p id = some h := (heldOf_of_held_eq hb.held id).trans hh
  rw [hc]
  unfold decideEnd
  refine ⟨_, ?_, hres0, hresw, (hb.others.trans (otherPages_modHeld p _ _ _)).trans (otherPages_modHeld p _ _ _), hb.tun, hb.ctx, hb.coll,
    hb.outbox, hb.timeouts⟩
  rw [heldOf_modHeld_self, heldOf_modHeld_self, hheld, Option.map_some, Option.map_some, if_pos hu]
  · rfl
  · intro y e
    split <;> exact e
  · exact fun y e => e

theorem decided_of_failed {t : State} {p id : Nat} {h : Held} {st : Byte} {res : Nat} (hh : heldOf t p id = some (h.failed st res)) :
    Decided t p id st res := by
  unfold Decided
  rw [hh]
  rfl

/-! ### The rows -/

theorem exec_dmaCompletionArrival {p : Nat} {s : State} (id a : Nat) (o : DmaOutcome) (hp : p < 4096) (hm : s.boot.mode = .service) :
    exec (.dmaCompletionArrival p id a o) s = .next (fenced (dmaArrive p id a o) s) := by
  refine (if_pos hp).trans (congrArg _ ?_)
  simp only [fenced, alive_of_service hm, if_true]

theorem exec_completionTimeout {p : Nat} {s : State} (id : Nat) (hp : p < 4096) (hm : s.boot.mode = .service) :
    exec (.completionTimeout p id) s = .next (fenced (readTimeout p id) s) := by
  refine (if_pos hp).trans (congrArg _ ?_)
  simp only [fenced, alive_of_service hm, if_true]

theorem exec_inactivityTimeout {p : Nat} {s : State} (id : Nat) (hp : p < 4096) (hm : s.boot.mode = .service) :
    exec (.inactivityTimeout p id) s = .next (fenced (inactive p id) s) :=
  (if_pos hp).trans (congrArg _ (if_pos hm))

/-- A failing input seen through the fence. -/
theorem fenced_failInput {p id : Nat} {st : Byte} {s : State} {h : Held} {f : State → State} (hh : heldOf s p id = some h)
    (hu : h.undecided = true) (hst : st ≠ stPoisoned ∨ h.op ∉ [0x20, 0x30, 0x31, 0x32]) (hf : f s = failInput p id st s) :
    ∃ res, Decided (fenced f s) p id st res ∧ heldOf (fenced f s) p id = some (h.failed st res)
      ∧ (h.op ≠ 0x02 → h.op ≠ 0x15 → res = 0)
      ∧ (h.op = 0x02 → h.applied = false → h.phase = .running → res = writtenPrefix h 0 (fld h.desc 16 4))
      ∧ OtherPages s (fenced f s) p ∧ (fenced f s).tun = s.tun ∧ (fenced f s).ctx = s.ctx ∧ (fenced f s).coll = s.coll
      ∧ (fenced f s).outbox = s.outbox := by
  obtain ⟨res, hheld, h0, hw, hother, htun, hctx, hcoll, hout, _⟩ := failInput_frame hh hu hst
  have ht := (fenced_trs f s).trans (congrArg State.trs hf)
  have hheld' := (heldOf_of_trs_eq ht p id).trans hheld
  exact ⟨res, decided_of_failed hheld', hheld', h0, hw, otherPages_of_trs_eq ht hother, by rw [fenced_tun, hf, htun], by rw [fenced_ctx, hf, hctx],
    by rw [fenced_coll, hf, hcoll], by rw [fenced_outbox, hf, hout]⟩

/-! ### Data that arrive -/

/-- The command `h` after `n` bytes for the address `a`. -/
def Held.taking (h : Held) (a n : Nat) (bytes : List Byte) : Held :=
  { h with reads := h.reads.filter (fun r => r.1 != a), rx := SMap.putList 0 h.rx a (sliceBytes bytes 0 n), rxAt := h.rxAt ++ [(a, n)] }

/-- The state after that: the command has the bytes, and they are counted. -/
def taken (p id a n : Nat) (bytes : List Byte) (s : State) : State := countHostRead p n (modHeld p id (fun h => h.taking a n bytes) s)

theorem heldOf_taken {p id : Nat} {s : State} {h : Held} (a n : Nat) (bytes : List Byte) (hh : heldOf s p id = some h) :
    heldOf (taken p id a n bytes s) p id = some (h.taking a n bytes) := by
  have h1 : heldOf (modHeld p id (fun h => h.taking a n bytes) s) p id = some (h.taking a n bytes) := by
    rw [heldOf_modHeld_self, hh]
    · rfl
    · exact fun y e => e
  refine (heldOf_of_held_eq ?_ id).trans h1
  unfold taken countHostRead
  rw [getTrs_addCurrent_self]
  rfl

theorem getTrs_modHeld_current (p id : Nat) (f : Held → Held) (s : State) :
    (getTrs (modHeld p id f s) p).current = (getTrs s p).current := by
  unfold modHeld
  rw [getTrs_modTrs_self]

theorem getTrs_decideEnd_current (p id : Nat) (st : Byte) (res : Nat) (s : State) :
    (getTrs (decideEnd p id st res s) p).current = (getTrs s p).current := getTrs_modHeld_current ..

theorem otherPages_decideEnd (p id : Nat) (st : Byte) (res : Nat) (s : State) : OtherPages s (decideEnd p id st res s) p :=
  otherPages_modHeld p id _ s

theorem taken_frame (p id a n : Nat) (bytes : List Byte) (s : State) :
    (getTrs (taken p id a n bytes s) p).current.hostRd = (getTrs s p).current.hostRd + BitVec.ofNat 64 n
      ∧ OtherPages s (taken p id a n bytes s) p
      ∧ counted 0x40 0 (taken p id a n bytes s) = counted 0x40 0 s + BitVec.ofNat 64 n := by
  refine ⟨?_, ?_, ?_⟩
  · unfold taken countHostRead
    rw [getTrs_addCurrent_self]
    exact congrArg (fun c : CtrSet => c.hostRd + BitVec.ofNat 64 n) (getTrs_modHeld_current ..)
  · exact fun q hq => (otherPages_addCurrent p _ _ q hq).trans (otherPages_modHeld p id (fun h => h.taking a n bytes) s q hq)
  · unfold taken countHostRead
    rw [counted_of_tele_eq (addCurrent_tele ..), counted_bump_other 0x40 0 0x56 _ n _ (by omega), counted_bump_self]
    rfl

/-- The check values of a PARK or EXTEND decide CHECK_MISMATCH, or nothing. -/
theorem checkArrival_eq {p id : Nat} {s : State} {h : Held} (hh : heldOf s p id = some h) :
    checkArrival p id s = s ∨ (bitOf (fld h.desc 1 1) 1 = true ∧ h.undecided = true
      ∧ checkArrival p id s = decideEnd p id stCheckMismatch 0 s) := by
  unfold checkArrival
  rw [hh]
  dsimp only
  split
  · rename_i hc
    simp only [Bool.and_eq_true] at hc
    exact Or.inr ⟨hc.1.1.2, hc.1.1.1, rfl⟩
  · exact Or.inl rfl

/-- What data do to a command that is no SEARCH and none of 06. -/
theorem takeData_eq {p id : Nat} {s : State} {h : Held} (a n : Nat) (bytes : List Byte) (hh : heldOf s p id = some h)
    (hop : h.op ∈ [0x02, 0x10, 0x11, 0x21, 0x22]) :
    takeData p id a n bytes s = taken p id a n bytes s
      ∨ (h.op ∈ [0x10, 0x11] ∧ bitOf (fld h.desc 1 1) 1 = true ∧ (h.taking a n bytes).undecided = true
        ∧ takeData p id a n bytes s = decideEnd p id stCheckMismatch 0 (taken p id a n bytes s)) := by
  have ht : takeData p id a n bytes s = (if h.op ∈ [0x10, 0x11] then checkArrival p id (taken p id a n bytes s) else taken p id a n bytes s) := by
    unfold takeData
    dsimp only
    rw [show countHostRead p n (modHeld p id (fun (h : Held) => { h with
      reads := h.reads.filter (fun r => r.1 != a), rx := SMap.putList 0 h.rx a (sliceBytes bytes 0 n),
      rxAt := h.rxAt ++ [(a, n)] }) s) = taken p id a n bytes s from rfl, heldOf_taken a n bytes hh]
    dsimp only
    rw [show (h.taking a n bytes).op = h.op from rfl]
    simp only [List.mem_cons, List.not_mem_nil, or_false] at hop
    rcases hop with e | e | e | e | e <;> simp [e]
  rw [ht]
  split
  · rename_i hpark
    rcases checkArrival_eq (heldOf_taken a n bytes hh) with h1 | ⟨hb, hu, h1⟩
    · exact Or.inl h1
    · exact Or.inr ⟨hpark, hb, hu, h1⟩
  · exact Or.inl rfl

/-- `t` differs from `s` in pages and telemetry only. -/
def PagesOnly (s t : State) : Prop := ∃ m e, t = { s with trs := m, tele := e }

theorem pagesOnly_taken (p id a n : Nat) (bytes : List Byte) (s : State) : PagesOnly s (taken p id a n bytes s) := ⟨_, _, rfl⟩

theorem PagesOnly.decideEnd {s u : State} (h : PagesOnly s u) (p id : Nat) (st : Byte) (res : Nat) :
    PagesOnly s (decideEnd p id st res u) := by
  obtain ⟨m, e, rfl⟩ := h
  exact ⟨_, _, rfl⟩

theorem fenced_of_pagesOnly {f : State → State} {s : State} (h : PagesOnly s (f s)) :
    fenced f s = { s with trs := (fenced f s).trs, tele := (fenced f s).tele } := by
  obtain ⟨m, e, h⟩ := h
  rw [fenced_trs, fenced_tele]
  unfold fenced
  dsimp only
  rw [h]

/-- Data of an outstanding read. -/
theorem dmaArrive_data {p id a n : Nat} {s : State} {h : Held} (bytes : List Byte) (hh : heldOf s p id = some h) (hu : h.undecided = true)
    (hr : h.reads.find? (fun r => r.1 == a) = some (a, n)) : dmaArrive p id a (.data bytes) s = takeData p id a n bytes s := by
  unfold dmaArrive
  rw [hh]
  dsimp only
  rw [hr, hu]

/-- A failure of an outstanding read. -/
theorem dmaArrive_fails {p id a n : Nat} {s : State} {h : Held} {o : DmaOutcome} (hh : heldOf s p id = some h) (hu : h.undecided = true)
    (hr : h.reads.find? (fun r => r.1 == a) = some (a, n)) (ho : ∀ l, o ≠ .data l) :
    dmaArrive p id a o s = failInput p id (if o = .poisoned then stPoisoned else stHostAccess) s := by
  unfold dmaArrive
  rw [hh]
  dsimp only
  rw [hr, hu]
  cases o with
  | data l => exact absurd rfl (ho l)
  | poisoned | unsupported | aborted => rfl

theorem data_reaches {s : State} {p id a n : Nat} {bytes : List Byte} {h : Held} (hp : p < 4096) (hm : s.boot.mode = .service)
    (hh : heldOf s p id = some h) (hu : h.undecided = true) (hr : h.reads.find? (fun r => r.1 == a) = some (a, n))
    (hop : h.op ∈ [0x02, 0x10, 0x11, 0x21, 0x22]) :
    ∃ t g, exec (.dmaCompletionArrival p id a (.data bytes)) s = .next t ∧ heldOf t p id = some g
      ∧ g = { h with reads := h.reads.filter (fun r => r.1 != a), rx := SMap.putList 0 h.rx a (sliceBytes bytes 0 n),
                     rxAt := h.rxAt ++ [(a, n)], ending := g.ending }
      ∧ (g.ending = none ∨ (h.op ∈ [0x10, 0x11] ∧ bitOf (fld h.desc 1 1) 1 = true ∧ g.ending = some ⟨stCheckMismatch, 0⟩))
      ∧ (getTrs t p).current.hostRd = (getTrs s p).current.hostRd + BitVec.ofNat 64 n ∧ OtherPages s t p
      ∧ counted 0x40 0 t = counted 0x40 0 s + BitVec.ofNat 64 n ∧ t = { s with trs := t.trs, tele := t.tele } := by
  have hend : h.ending = none := by
    simp only [Held.undecided, Bool.and_eq_true, Option.isNone_iff_eq_none] at hu
    exact hu.2
  obtain ⟨hcur, hoth, hcnt⟩ := taken_frame p id a n bytes s
  have hheld := heldOf_taken a n bytes hh
  have harr := dmaArrive_data bytes hh hu hr
  rw [exec_dmaCompletionArrival id a (.data bytes) hp hm]
  rcases takeData_eq a n bytes hh hop with ht | ⟨hpark, hbit, hu1, ht⟩
  · have hf := harr.trans ht
    have htrs := (fenced_trs (dmaArrive p id a (.data bytes)) s).trans (congrArg State.trs hf)
    refine ⟨_, _, rfl, (heldOf_of_trs_eq htrs p id).trans hheld, rfl, Or.inl hend, ?_, otherPages_of_trs_eq htrs hoth, ?_, ?_⟩
    · rw [getTrs_of_trs_eq htrs, hcur]
    · rw [counted_of_tele_eq ((fenced_tele _ s).trans (congrArg State.tele hf)), hcnt]
    · exact fenced_of_pagesOnly (hf ▸ pagesOnly_taken ..)
  · have hf := harr.trans ht
    have htrs := (fenced_trs (dmaArrive p id a (.data bytes)) s).trans (congrArg State.trs hf)
    have hg : heldOf (decideEnd p id stCheckMismatch 0 (taken p id a n bytes s)) p id
        = some { h.taking a n bytes with ending := some ⟨stCheckMismatch, 0⟩ } := by
      unfold decideEnd
      rw [heldOf_modHeld_self, hheld, Option.map_some, if_pos hu1]
      · rfl
      · intro y e
        split <;> exact e
    refine ⟨_, _, rfl, (heldOf_of_trs_eq htrs p id).trans hg, rfl, Or.inr ⟨hpark, hbit, rfl⟩, ?_,
      otherPages_of_trs_eq htrs (hoth.trans (otherPages_decideEnd p id _ _ _)), ?_, ?_⟩
    · rw [getTrs_of_trs_eq htrs, getTrs_decideEnd_current, hcur]
    · rw [counted_of_tele_eq ((fenced_tele _ s).trans (congrArg State.tele hf))]
      exact hcnt
    · exact fenced_of_pagesOnly (hf ▸ (pagesOnly_taken ..).decideEnd ..)

/-! ### A poisoned SEARCH reports at once (05 R174) -/

/-- Writing to host memory leaves the held commands. -/
theorem held_dmaWrite (p a : Nat) (bytes : List Byte) (r : Bool) (s : State) :
    (getTrs (dmaWrite p a bytes r s) p).held = (getTrs s p).held := by
  unfold dmaWrite
  split
  · rw [getTrs_addCurrent_self]; rfl
  · rfl

theorem held_searchBlocks (p : Nat) (d : Desc) (r : SearchRec) (s : State) :
    (getTrs (searchBlocks p d r s) p).held = (getTrs s p).held := by
  unfold searchBlocks
  dsimp only
  generalize List.range r.queries.length = l
  induction l generalizing s with
  | nil => rfl
  | cons n l ih => rw [List.foldl_cons, ih, held_dmaWrite]

theorem finish_reported {p id : Nat} {s : State} {h : Held} (st : Byte) (res : BitVec 64) (hh : heldOf s p id = some h) :
    Reported (finish p id st res s) p id st res := by
  obtain ⟨⟨e, he⟩, -⟩ := finishWith_page none false p id st res s hh
  exact reported_of_ended he

theorem searchStop_reported {p id : Nat} {s : State} {h : Held} (st : Byte) (hh : heldOf s p id = some h) :
    ∃ st' res, Reported (searchStop p id st h s) p id st' res := by
  unfold searchStop
  split
  · exact ⟨_, _, finish_reported st 0 hh⟩
  · refine ⟨_, _, finish_reported (h := h) _ _ ?_⟩
    split
    · exact (heldOf_of_held_eq (held_searchBlocks ..) id).trans hh
    · exact hh

theorem search_poisoned {s : State} {p id a n : Nat} {h : Held} (hp : p < 4096) (hm : s.boot.mode = .service)
    (hh : heldOf s p id = some h) (hu : h.undecided = true) (hr : h.reads.find? (fun r => r.1 == a) = some (a, n)) (hop : h.op = 0x20) :
    ∃ t st res, exec (.dmaCompletionArrival p id a .poisoned) s = .next t ∧ Reported t p id st res := by
  have hf : dmaArrive p id a .poisoned s = searchStop p id stPoisoned h s := by
    rw [dmaArrive_fails hh hu hr (by simp), if_pos rfl]
    unfold failInput mediaStop
    rw [hh, if_pos ⟨rfl, by simp [hop]⟩]
    dsimp only
    simp only [hu, hop]
    rfl
  obtain ⟨st, res, y, hy, hrep⟩ := searchStop_reported stPoisoned hh
  rw [exec_dmaCompletionArrival id a .poisoned hp hm]
  exact ⟨_, st, res, rfl, y, (heldOf_of_trs_eq ((fenced_trs _ s).trans (congrArg State.trs hf)) p id).trans hy, hrep⟩

/-! ### The statement -/

theorem failure_reaches {s : State} {p id a n : Nat} {o : DmaOutcome} {h : Held} (hp : p < 4096) (hm : s.boot.mode = .service)
    (hh : heldOf s p id = some h) (hu : h.undecided = true) (hr : h.reads.find? (fun r => r.1 == a) = some (a, n))
    (ho : ∀ l, o ≠ .data l) (hs : o ≠ .poisoned ∨ h.op ∉ [0x20, 0x30, 0x31, 0x32]) :
    ∃ t g res, exec (.dmaCompletionArrival p id a o) s = .next t ∧ Decided t p id (if o = .poisoned then 0x0B else 0x0F) res
      ∧ heldOf t p id = some g ∧ g.reads = [] ∧ (h.op ≠ 0x02 → h.op ≠ 0x15 → res = 0) ∧ OtherPages s t p
      ∧ t.tun = s.tun ∧ t.ctx = s.ctx ∧ t.coll = s.coll ∧ t.outbox = s.outbox := by
  have hst : (if o = .poisoned then stPoisoned else stHostAccess) ≠ stPoisoned ∨ h.op ∉ [0x20, 0x30, 0x31, 0x32] :=
    hs.imp_left fun hne => by rw [if_neg hne]; decide
  obtain ⟨res, hd, hg, h0, -, hoth, htun, hctx, hcoll, hout⟩ := fenced_failInput hh hu hst (dmaArrive_fails hh hu hr ho)
  rw [exec_dmaCompletionArrival id a o hp hm]
  exact ⟨_, _, res, rfl, hd, hg, rfl, h0, hoth, htun, hctx, hcoll, hout⟩

/-- A completion that nothing awaits is dropped and counted. -/
theorem dropped_counted {s : State} {p id a n : Nat} {o : DmaOutcome} (hp : p < 4096) (hm : s.boot.mode = .service)
    (h : dmaArrive p id a o s = bump 0x60 n 1 s) :
    ∃ t, exec (.dmaCompletionArrival p id a o) s = .next t ∧ counted 0x60 n t = counted 0x60 n s + 1 ∧ t = { s with tele := t.tele } := by
  rw [exec_dmaCompletionArrival id a o hp hm]
  refine ⟨_, rfl, ?_, ?_⟩
  · rw [counted_of_tele_eq ((fenced_tele _ s).trans (congrArg State.tele h)), counted_bump_self]
    rfl
  · simp only [fenced, h]
    rfl

theorem readTimeout_reaches {s : State} {p id : Nat} {h : Held} (hp : p < 4096) (hm : s.boot.mode = .service)
    (hh : heldOf s p id = some h) (hu : h.undecided = true) (hr : h.reads ≠ []) (hd : timeoutDisabled s = false) :
    ∃ t g res, exec (.completionTimeout p id) s = .next t ∧ Decided t p id 0x0F res ∧ heldOf t p id = some g ∧ g.reads = []
      ∧ counted 0x20 3 t = counted 0x20 3 s + 1
      ∧ (h.op = 0x02 → h.applied = false → h.phase = .running → res = writtenPrefix h 0 (fld h.desc 16 4))
      ∧ OtherPages s t p ∧ t.tun = s.tun ∧ t.ctx = s.ctx ∧ t.coll = s.coll ∧ t.outbox = s.outbox := by
  have hf : readTimeout p id s = bump 0x20 3 1 (failInput p id stHostAccess s) := by
    unfold readTimeout
    rw [hh]
    dsimp only
    rw [if_pos (by simp [hu, hr, hd])]
  obtain ⟨res, hheld, -, hw, hoth, htun, hctx, hcoll, hout, hcnt⟩ := failInput_frame hh hu (Or.inl (by decide : stHostAccess ≠ stPoisoned))
  have htrs : (fenced (readTimeout p id) s).trs = (failInput p id stHostAccess s).trs := by rw [fenced_trs, hf]; rfl
  have hg := (heldOf_of_trs_eq htrs p id).trans hheld
  rw [exec_completionTimeout id hp hm]
  refine ⟨_, _, res, rfl, decided_of_failed hg, hg, rfl, ?_, hw, otherPages_of_trs_eq htrs hoth, ?_, ?_, ?_, ?_⟩
  · rw [counted_of_tele_eq ((fenced_tele _ s).trans (congrArg State.tele hf)), counted_bump_self, hcnt]
    rfl
  · rw [fenced_tun, hf]; exact htun
  · rw [fenced_ctx, hf]; exact hctx
  · rw [fenced_coll, hf]; exact hcoll
  · rw [fenced_outbox, hf]; exact hout

theorem inactivity_reaches {s : State} {p id : Nat} {h : Held} (hp : p < 4096) (hm : s.boot.mode = .service)
    (hh : heldOf s p id = some h) (hu : h.undecided = true) (hph : h.phase = .running) (hw : waitsForHost h = true) :
    ∃ t g res, exec (.inactivityTimeout p id) s = .next t ∧ Decided t p id 0x06 res ∧ heldOf t p id = some g ∧ g.reads = []
      ∧ (h.op = 0x02 → h.applied = false → res = writtenPrefix h 0 (fld h.desc 16 4))
      ∧ OtherPages s t p ∧ t.tun = s.tun ∧ t.ctx = s.ctx ∧ t.coll = s.coll ∧ t.outbox = s.outbox := by
  have hf : inactive p id s = failInput p id stInputStalled s := by
    unfold inactive
    rw [hh]
    dsimp only
    rw [if_pos (by simp [hu, hph, hw])]
  obtain ⟨res, hd, hg, -, hwr, hoth, htun, hctx, hcoll, hout⟩ :=
    fenced_failInput hh hu (Or.inl (by decide : stInputStalled ≠ stPoisoned)) hf
  rw [exec_inactivityTimeout id hp hm]
  exact ⟨_, _, res, rfl, hd, hg, rfl, fun h2 ha => hwr h2 ha hph, hoth, htun, hctx, hcoll, hout⟩

/-- Settles O29: data, failures and the two timers, each through what the row does to the command that waits. -/
theorem hostDataAndTimersReachTheirCommand : Obligations.HostDataAndTimersReachTheirCommand := by
  refine ⟨⟨fun s p id a n bytes h hp hm hh hu hr hop => data_reaches hp hm hh hu hr hop, fun s p id a n o h hp hm hh hu hr ho => ⟨fun hs => ?_,
    fun he hop => ?_⟩, fun s p id a o hp hm hh => ?_, fun s p id a o h hp hm hh hn => ?_⟩,
    fun s p id h hp hm hh hu hr hd => readTimeout_reaches hp hm hh hu hr hd, fun s p id hp hm hd => ?_,
    fun s p id h hp hm hh hu hph hw => inactivity_reaches hp hm hh hu hph hw, fun s p id h hp hm hh hw => ⟨?_, fun hr => ?_⟩⟩
  · exact failure_reaches hp hm hh hu hr ho hs
  · subst he
    exact search_poisoned hp hm hh hu hr hop
  · obtain ⟨t, ht⟩ := dropped_counted (n := if id ∈ s.cmd.stalled then 0 else 1) hp hm (o := o) (a := a) (id := id) (by unfold dmaArrive; rw [hh])
    exact ⟨t, _, ht.1, rfl, ht.2⟩
  · obtain ⟨t, ht⟩ := dropped_counted (n := if h.status = 0x06 ∨ h.ending.map (fun e => e.status) = some 0x06 then 0 else 1) hp hm
      (o := o) (a := a) (id := id) (by
        unfold dmaArrive
        rw [hh]
        dsimp only
        rcases hn with hn | hn
        · rw [hn]
          cases h.reads.find? (fun r => r.1 == a) <;> rfl
        · rw [hn]
          cases h.undecided <;> rfl)
    exact ⟨t, _, ht.1, rfl, ht.2⟩
  · rw [exec_completionTimeout id hp hm]
    refine congrArg _ (fenced_of_eq ?_)
    unfold readTimeout
    split
    · rfl
    · rw [if_neg (by simp [hd])]
  · rw [exec_inactivityTimeout id hp hm]
    refine congrArg _ (fenced_of_eq ?_)
    unfold inactive
    rw [hh]
    exact if_neg (by simp [hw])
  · rw [exec_completionTimeout id hp hm]
    refine congrArg _ (fenced_of_eq ?_)
    unfold readTimeout
    rw [hh]
    exact if_neg (by simp [hr])

end Sys2Proof.Machine

/-! PROOFS. The vectors: one message for all that is pending (02 R53, R54, Table 17). -/
namespace Sys2Proof.Machine

/-! ### Reading a vector after the operations on it -/

@[simp] theorem vecOf_setVec_self (v : Nat) (x : Vec) (s : State) : vecOf (setVec v x s) v = x := SMap.find_put_self ..

@[simp] theorem vecOf_setVec_other (v w : Nat) (x : Vec) (s : State) (h : w ≠ v) : vecOf (setVec v x s) w = vecOf s w :=
  SMap.find_put_other _ _ _ _ h

@[simp] theorem setVec_setVec (v : Nat) (x y : Vec) (s : State) : setVec v y (setVec v x s) = setVec v y s := by simp [setVec]

@[simp] theorem msixEntry_setVec (v w : Nat) (x : Vec) (s : State) : msixEntry (setVec v x s) w = msixEntry s w := rfl

@[simp] theorem msixOn_setVec (v : Nat) (x : Vec) (s : State) : msixOn (setVec v x s) = msixOn s := rfl

@[simp] theorem vecOf_emit (o : Out) (s : State) (v : Nat) : vecOf (emit o s) v = vecOf s v := rfl

/-! ### Sending a message (02 R54) -/

theorem signal_of_unmasked {v : Nat} {s : State} (hm : (msixEntry s v).mask = false) (ho : msixOn s = true) : signal v s = emit (.msix v) s := by
  simp [signal, hm, ho]

theorem signal_of_masked {v : Nat} {s : State} (hm : (msixEntry s v).mask = true) :
    signal v s = setVec v { vecOf s v with pba := true } s := by
  simp [signal, hm]

theorem vecOf_signal_other {v w : Nat} (h : w ≠ v) (s : State) : vecOf (signal v s) w = vecOf s w := by
  unfold signal
  split <;> simp [h]

/-- Sending changes nothing of a vector but its PBA bit. -/
theorem vecOf_signal_self (v : Nat) (s : State) : ∃ b, vecOf (signal v s) v = { vecOf s v with pba := b } := by
  unfold signal
  split
  · exact ⟨true, vecOf_setVec_self ..⟩
  · exact ⟨_, rfl⟩

/-! ### A completion on a vector -/

/-- The message of a completion goes now: enough are pending, no hold-off, or an error that bypasses it. -/
def sendsNow (x : Vec) (err : Bool) : Prop :=
  x.coal.toNat % 2 ^ 8 + 1 ≤ x.pend + 1 ∨ x.coal.toNat / 2 ^ 8 % 2 ^ 16 = 0 ∨ (err = true ∧ x.coal.toNat.testBit 24 = true)

theorem addCompletion_of_sendsNow {v : Nat} {err : Bool} {s : State} (h : sendsNow (vecOf s v) err) :
    addCompletion v err s = signal v (setVec v { vecOf s v with pend := 0, timer := none } s) :=
  if_pos (by simpa [sendsNow, bitsOf, bitOf, Nat.testBit_eq_decide_div_mod_eq] using h)

theorem addCompletion_of_not_sendsNow {v : Nat} {err : Bool} {s : State} (h : ¬ sendsNow (vecOf s v) err) :
    addCompletion v err s = setVec v
      { vecOf s v with pend := (vecOf s v).pend + 1, timer := some ((vecOf s v).timer.getD ((vecOf s v).coal.toNat / 2 ^ 8 % 2 ^ 16)) } s :=
  if_neg (by simpa [sendsNow, bitsOf, bitOf, Nat.testBit_eq_decide_div_mod_eq] using h)

theorem vecOf_addCompletion_other {v w : Nat} (h : w ≠ v) (err : Bool) (s : State) : vecOf (addCompletion v err s) w = vecOf s w := by
  by_cases hs : sendsNow (vecOf s v) err
  · rw [addCompletion_of_sendsNow hs, vecOf_signal_other h, vecOf_setVec_other _ _ _ _ h]
  · rw [addCompletion_of_not_sendsNow hs, vecOf_setVec_other _ _ _ _ h]

/-! ### The rows of a vector -/

/-- A row that touches the MSI-X table, the vectors and the messages alone passes the fence. -/
theorem fenced_of_vectors {f : State → State} {s : State} {m : SMap MsixEntry} {x : SMap Vec} {o : List Out}
    (h : f s = { s with link := { s.link with msix := m, vec := x }, outbox := o }) :
    fenced f s = { s with link := { s.link with msix := m, vec := x }, outbox := o } := by
  simp only [fenced, h]

theorem holdoff_of_pending {v : Nat} {s : State} (ht : (vecOf s v).timer.isSome = true) (hp : 0 < (vecOf s v).pend) :
    holdoff v s = signal v (setVec v { vecOf s v with pend := 0, timer := none } s) := by
  simp only [holdoff, if_pos ht, if_pos hp]

theorem holdoff_of_idle {v : Nat} {s : State} (ht : (vecOf s v).timer = none) : holdoff v s = s := if_neg (by simp [ht])

theorem exec_holdoffExpiry (v : Nat) (s : State) : exec (.holdoffExpiry v) s = .next (fenced (holdoff v) s) := rfl

theorem exec_msixUnmask {v : Nat} (h : v < 2048) (s : State) : exec (.msixUnmask v) s =
    .next (if bar0Up s = true then fenced (setMsix v { msixEntry s v with mask := false }) s else s) := if_pos h

/-- An entry that is unmasked sends the message its PBA bit holds. -/
theorem setMsix_of_pba {v : Nat} {m : MsixEntry} {s : State} (hp : (vecOf s v).pba = true) (hm : m.mask = false) (ho : msixOn s = true) :
    setMsix v m s = emit (.msix v) { s with
      link := { s.link with msix := SMap.put {} s.link.msix v m, vec := SMap.put {} s.link.vec v { vecOf s v with pba := false } } } :=
  if_pos (by simp [hp, hm, ho])

theorem setMsix_of_no_pba {v : Nat} {m : MsixEntry} {s : State} (hp : (vecOf s v).pba = false) :
    setMsix v m s = { s with link := { s.link with msix := SMap.put {} s.link.msix v m } } := if_neg (by simp [hp])

/-- Settles O30: a completion by whether its message goes now, then the two rows by the mask and the PBA bit. -/
theorem vectorsSendOneMessageForAllPending : Obligations.VectorsSendOneMessageForAllPending := by
  refine ⟨?_, ?_, ?_, ?_, ?_, ?_⟩
  · rintro v err s x rfl ho
    refine ⟨fun h => ?_, fun h => ?_, fun w hw => vecOf_addCompletion_other hw err s⟩
    · rw [addCompletion_of_sendsNow h]
      obtain ⟨b, hb⟩ := vecOf_signal_self v (setVec v { vecOf s v with pend := 0, timer := none } s)
      refine ⟨by rw [hb, vecOf_setVec_self], by rw [hb, vecOf_setVec_self], fun hm => ?_, fun hm => ?_⟩
      · rw [signal_of_unmasked (by simpa using hm) (by simpa using ho), emit_outbox, setVec_outbox]
      · rw [signal_of_masked (by simpa using hm)]
        simp
    · rw [addCompletion_of_not_sendsNow h]
      simp
  · rintro v s x rfl ht hp hm ho
    refine congrArg _ (fenced_of_vectors (m := s.link.msix) ?_)
    rw [holdoff_of_pending ht hp, signal_of_unmasked (by simpa using hm) (by simpa using ho)]
    rfl
  · rintro v s x rfl ht hp hm
    have h : holdoff v s = setVec v { vecOf s v with pend := 0, timer := none, pba := true } s := by
      rw [holdoff_of_pending ht hp, signal_of_masked (by simpa using hm), vecOf_setVec_self, setVec_setVec]
    rw [exec_holdoffExpiry, fenced_of_vectors (m := s.link.msix) h]
    exact ⟨_, rfl, SMap.find_put_self .., rfl⟩
  · intro v s ht
    exact congrArg _ (fenced_of_eq (holdoff_of_idle ht))
  · intro v s hv hb ho
    rw [exec_msixUnmask hv, if_pos hb]
    by_cases hp : (vecOf s v).pba = true
    · rw [fenced_of_vectors (setMsix_of_pba hp rfl ho)]
      refine ⟨_, rfl, SMap.find_put_self .., ?_, by rw [if_pos hp], rfl⟩
      exact congrArg Vec.pba (SMap.find_put_self ..)
    · have hp' : (vecOf s v).pba = false := by simpa using hp
      rw [fenced_of_vectors (x := s.link.vec) (setMsix_of_no_pba hp')]
      exact ⟨_, rfl, SMap.find_put_self .., hp', by rw [if_neg hp, List.append_nil], rfl⟩
  · intro v s hv hb
    rw [exec_msixUnmask hv, if_neg (by simp [hb])]

end Sys2Proof.Machine

/-! PROOFS. Windows of the port (02 R42, R53, R57, 03 R66): a read at the ER DVSEC of an active ER link is no plain read. -/
namespace Sys2Proof.Machine

theorem exec_tbNowRead_of {bar off w : Nat} (h : off + w ≤ readBytes bar) (s : State) :
    exec (.tbNowRead bar off w) s = .next (registerRead bar off w s) := if_pos h

/-- A configuration read that begins at the ER DVSEC reads the DVSEC, of whatever width. -/
theorem configRead_erDvsec {off : Nat} (h : 0x300 ≤ off ∧ off < 0x324) (w : Nat) (s : State) :
    configRead off w s = dvsecRead (off - 0x300) w s := if_pos h

/-- Each read of the ER DVSEC on an active ER link draws a count of corrected symbols (log 87). -/
theorem dvsecRead_freeCount {s : State} (h : erActive s = true) (off w : Nat) : (dvsecRead off w s).freeCount = s.freeCount + 1 := by
  simp only [dvsecRead, if_pos h, emit_freeCount, bump_freeCount, drawn_freeCount]

/-- In service on an active ER link. -/
def erServing : State :=
  { State.reset with boot := { State.reset.boot with mode := .service, stage := 5 },
                     link := { State.reset.link with up := true, rate := .er, erStatus := 1 } }

/-- Refutes O31: its last clause takes a read of configuration space that ends at or below 0x300 to leave all but the answer alone. At offset
0x300 a read of width 0 ends there too, and begins in the ER DVSEC; on an active ER link (`erServing`) that read draws a free number. -/
theorem not_windowsWriteAndReadRegisters : ¬ Obligations.WindowsWriteAndReadRegisters := by
  rintro ⟨-, -, hread⟩
  have h := hread erServing 0x300 0 (by decide) (by decide)
  rw [exec_tbNowRead_of (by decide), show registerRead 7 0x300 0 erServing = configRead 0x300 0 erServing from rfl,
    configRead_erDvsec (by decide)] at h
  have hn := congrArg State.freeCount (Host.Outcome.next.inj h)
  rw [dvsecRead_freeCount (by decide)] at hn
  exact absurd hn (Nat.succ_ne_self _)

end Sys2Proof.Machine

/-! PROOFS. The timebase's registers and the HDM decoders' commits (02 R43, 15 R448). -/
namespace Sys2Proof.Machine

theorem exec_tbSetWrite {s : State} (hb : bar0Up s = true) (off w : Nat) (v : BitVec 64) :
    exec (.tbSetWrite off w v) s = .next (tbSet off w v s) := congrArg _ (if_pos hb)

theorem exec_hdmDecoderCommit {s : State} (hb : bar0Up s = true) (d base units ways skip : Nat) (bi : Bool) :
    exec (.hdmDecoderCommit d base units ways skip bi) s = .next (decoderCommit d base units ways skip bi s) := congrArg _ (if_pos hb)

theorem exec_tbNowRead_bar0 {s : State} {off w : Nat} (hw : off + w ≤ 0x80000) (hb : bar0Up s = true) :
    exec (.tbNowRead 0 off w) s = .next (tbNowRead off w s) :=
  (exec_tbNowRead_of (bar := 0) hw s).trans (congrArg _ (if_pos hb))

/-! ### TB_SET -/

/-- An access that is none of the three that TB_SET takes changes nothing. -/
theorem tbSet_of_other {off w : Nat} (h : (off, w) ∉ [(0x20, 8), (0x20, 4), (0x24, 4)]) (v : BitVec 64) (s : State) : tbSet off w v s = s := by
  simp only [List.mem_cons, Prod.mk.injEq, List.not_mem_nil, or_false, not_or] at h
  simp only [tbSet, h, if_false]

/-! ### TB_NOW -/

/-- The head of BAR0 up to TB_NOW: three words of grade and causes, three of the start. -/
def bar0Registers (s : State) : List Byte :=
  bytesOf 4 s.boot.grade.toNat ++ bytesOf 4 s.boot.patternGen.toNat ++ bytesOf 4 s.aon.rstLastCause.toNat
  ++ bytesOf 4 s.boot.stage ++ bytesOf 4 s.boot.fettleReason.toNat ++ bytesOf 4 0

/-- The bytes at TB_NOW are those of the timebase. -/
theorem bar0Byte_tbNow (s : State) {i : Nat} (h : i < 8) : bar0Byte s (0x18 + i) = (bytesOf 8 (now s).toNat).getD i 0 := by
  have hb : bar0Head s = bar0Registers s ++ (bytesOf 8 (now s).toNat ++ bytesOf 8 0) := by simp only [bar0Head, bar0Registers, List.append_assoc]
  rw [bar0Byte, if_pos (by omega), hb]
  interval_cases i <;> rfl

/-- A read that begins at TB_NOW and stays within it returns the leading bytes of the timebase. -/
theorem bar0Read_tbNow (s : State) {w : Nat} (h : w ≤ 8) :
    bar0Read 0x18 w s = emit (.completion ((List.range w).map (fun i => (bytesOf 8 (now s).toNat).getD i 0)) false false) s := by
  have hm : (List.range w).map (fun i => bar0Byte s (0x18 + i)) = (List.range w).map (fun i => (bytesOf 8 (now s).toNat).getD i 0) :=
    List.map_congr_left fun i hi => bar0Byte_tbNow s (by rw [List.mem_range] at hi; omega)
  rw [← hm]
  rfl

/-! ### Commits -/

theorem decoderOk_zero (s : State) (base units ways skip : Nat) : decoderOk s 0 base units ways skip = true ↔
    base = 0 ∧ ways = 1 ∧ skip = 0 ∧ 1 ≤ units ∧ units + s.link.dec1.getD 0 ≤ 954 ∧ (s.link.dec1.isSome = true → s.link.dec0 = some units) := by
  simp only [decoderOk, Bool.and_eq_true, decide_eq_true_eq]
  tauto

theorem decoderOk_one (s : State) (base units ways skip : Nat) : decoderOk s 1 base units ways skip = true ↔
    ∃ n, s.link.dec0 = some n ∧ base = n * 2 ^ 28 ∧ ways = 1 ∧ skip = 0 ∧ 1 ≤ units ∧ n + units ≤ 954 := by
  simp only [decoderOk, Bool.and_eq_true, decide_eq_true_eq]
  cases h : s.link.dec0 with
  | none => simp
  | some n =>
    simp only [Option.isSome_some, Option.getD_some, Option.some.injEq, true_and, exists_eq_left']
    tauto

/-- A good setting commits decoder 0 and settles how back-invalidates are used. -/
theorem decoderCommit_zero_of_ok {s : State} {base units ways skip : Nat} (h : decoderOk s 0 base units ways skip = true) (bi : Bool) :
    decoderCommit 0 base units ways skip bi s
      = { s with link := { s.link with dec0 := some units, biEnable := bi, biUsed := bi, commitErr0 := false } } := by
  simp only [decoderCommit, h, if_true]

theorem decoderCommit_zero_of_bad {s : State} {base units ways skip : Nat} (h : decoderOk s 0 base units ways skip = false) (bi : Bool) :
    decoderCommit 0 base units ways skip bi s = { s with link := { s.link with biEnable := bi, commitErr0 := true } } := by
  simp [decoderCommit, h]

theorem decoderCommit_one_of_ok {s : State} {base units ways skip : Nat} (h : decoderOk s 1 base units ways skip = true) (bi : Bool) :
    decoderCommit 1 base units ways skip bi s
      = { s with link := { s.link with dec1 := some units, biEnable := bi, commitErr1 := false } } := by
  simp [decoderCommit, h]

theorem decoderCommit_one_of_bad {s : State} {base units ways skip : Nat} (h : decoderOk s 1 base units ways skip = false) (bi : Bool) :
    decoderCommit 1 base units ways skip bi s = { s with link := { s.link with biEnable := bi, commitErr1 := true } } := by
  simp [decoderCommit, h]

theorem decoderCommit_of_two_le {d : Nat} (h : 2 ≤ d) (base units ways skip : Nat) (bi : Bool) (s : State) :
    decoderCommit d base units ways skip bi s = s := by
  simp only [decoderCommit, show d ≠ 0 by omega, show d ≠ 1 by omega, if_false]

/-! ### BAR0 off -/

theorem bar0_off {s : State} (hb : bar0Up s = false) :
    (∀ off w v, exec (.tbSetWrite off w v) s = .next s) ∧ (∀ off w, off + w ≤ 0x80000 → exec (.tbNowRead 0 off w) s = .next s)
    ∧ (∀ d base units ways skip bi, exec (.hdmDecoderCommit d base units ways skip bi) s = .next s) := by
  have hn : ¬ bar0Up s = true := by simp [hb]
  exact ⟨fun off w v => congrArg _ (if_neg hn), fun off w hw => (exec_tbNowRead_of (bar := 0) hw s).trans (congrArg _ (if_neg hn)),
    fun d base units ways skip bi => congrArg _ (if_neg hn)⟩

/-- Settles O32: TB_SET by its three accesses, TB_NOW byte for byte, and each decoder by whether its setting keeps the rules. -/
theorem timebaseAndDecodersAreSet : Obligations.TimebaseAndDecodersAreSet := by
  refine ⟨fun s hb => ⟨fun v => ?_, fun v => exec_tbSetWrite hb 0x20 4 v, fun v => ?_, fun off w v h => ?_, ?_, ?_, ?_⟩,
    fun s base units ways skip bi hb => ⟨fun h => ?_, fun h => ?_, fun h => ?_, fun h => ?_, fun d hd => ?_⟩, fun s hb => bar0_off hb⟩
  · exact ⟨_, exec_tbSetWrite hb 0x20 8 v, rfl, rfl, rfl⟩
  · exact ⟨_, exec_tbSetWrite hb 0x24 4 v, rfl⟩
  · rw [exec_tbSetWrite hb, tbSet_of_other h]
  · rw [exec_tbNowRead_bar0 (by omega) hb]
    exact congrArg _ (bar0Read_tbNow s (by omega))
  · rw [exec_tbNowRead_bar0 (by omega) hb]
    exact congrArg _ (bar0Read_tbNow { s with aon := { s.aon with tbCapture := now s } } (by omega))
  · exact exec_tbNowRead_bar0 (by omega) hb
  · rw [exec_hdmDecoderCommit hb, decoderCommit_zero_of_ok ((decoderOk_zero ..).2 h)]
  · rw [exec_hdmDecoderCommit hb, decoderCommit_zero_of_bad (Bool.eq_false_iff.2 (mt (decoderOk_zero ..).1 h))]
  · rw [exec_hdmDecoderCommit hb, decoderCommit_one_of_ok ((decoderOk_one ..).2 h)]
  · rw [exec_hdmDecoderCommit hb, decoderCommit_one_of_bad (Bool.eq_false_iff.2 (mt (decoderOk_one ..).1 h))]
  · rw [exec_hdmDecoderCommit hb, decoderCommit_of_two_le hd]

end Sys2Proof.Machine

/-! PROOFS. The CXL.mem window: stores, reads and the answer to a back-invalidate (02 R45, R47, 03 R91). -/
namespace Sys2Proof.Machine

/-- A row that leaves the queue, the always-on island, the islands, the start and the link alone passes the fence as it is. -/
theorem fenced_of_keeps {f : State → State} {s t : State} (h : f s = t) (hp : t.pending = s.pending) (ha : t.aon = s.aon)
    (hi : t.isl = s.isl) (hb : t.boot = s.boot) (hl : t.link = s.link) : fenced f s = t := by
  simp only [fenced, h, ← hp, ← ha, ← hi, ← hb, ← hl]

theorem exec_cxlMemWrite {a : Nat} {bytes : List Byte} (h : a + bytes.length ≤ tundishSize) (x : Bool) (s : State) :
    exec (.cxlMemWrite a bytes x) s = .next (fenced (memWrite a bytes x) s) := if_pos h

theorem exec_bisnpResponse (b : Nat) (s : State) : exec (.bisnpResponse b) s = .next (snoopDone b s) :=
  congrArg Host.Outcome.next (fenced_of_keeps (f := snoopDone b) (s := s) rfl rfl rfl rfl rfl rfl)

theorem exec_cxlMemRead {a n : Nat} (h : a + n ≤ tundishSize) (s : State) :
    exec (.cxlMemRead a n) s = .next (fenced (memRead a n) s) := if_pos h

/-! ### Poisoned lines -/

theorem poison_setPoison_self (l : Nat) (p : Bool) (s : State) : SMap.find false (setPoison l p s).tun.poison l = p := SMap.find_put_self ..

theorem poison_setPoison_other {l k : Nat} (h : l ≠ k) (p : Bool) (s : State) :
    SMap.find false (setPoison k p s).tun.poison l = SMap.find false s.tun.poison l := SMap.find_put_other _ _ _ _ h

/-- Marking lines changes the poison of the tundish alone. -/
theorem foldl_setPoison_eq (ls : List Nat) (s : State) : ls.foldl (fun s' l => setPoison l true s') s
    = { s with tun := { s.tun with poison := (ls.foldl (fun s' l => setPoison l true s') s).tun.poison } } := by
  induction ls generalizing s with
  | nil => rfl
  | cons l ls ih =>
    rw [List.foldl_cons, ih]
    rfl

/-- A line once marked stays marked. -/
theorem foldl_setPoison_keeps {l : Nat} (ls : List Nat) {s : State} (h : SMap.find false s.tun.poison l = true) :
    SMap.find false (ls.foldl (fun s' l => setPoison l true s') s).tun.poison l = true := by
  induction ls generalizing s with
  | nil => exact h
  | cons k ls ih =>
    refine ih ?_
    by_cases hk : l = k
    · subst hk
      exact poison_setPoison_self ..
    · exact (poison_setPoison_other hk true s).trans h

/-- Every line of the list is marked. -/
theorem foldl_setPoison_marks {l : Nat} {ls : List Nat} (h : l ∈ ls) (s : State) :
    SMap.find false (ls.foldl (fun s' l => setPoison l true s') s).tun.poison l = true := by
  induction ls generalizing s with
  | nil => exact absurd h List.not_mem_nil
  | cons k ls ih =>
    rcases List.mem_cons.1 h with rfl | h
    · exact foldl_setPoison_keeps ls (poison_setPoison_self ..)
    · exact ih h _

/-! ### A host write by its branches -/

/-- No placed region begins at the address. -/
def beginsNowhere (s : State) (a : Nat) : Bool := s.tun.regions.all (fun r => decide (r.base ≠ a))

theorem bellRegion_of_beginsNowhere {s : State} {a : Nat} (h : beginsNowhere s a = true) (k : RegionKind) : bellRegion s k a = none := by
  simp only [beginsNowhere, List.all_eq_true, decide_eq_true_eq] at h
  simpa [bellRegion] using fun r hr _ => h r hr

theorem ringStepAt_of_beginsNowhere {s : State} {a : Nat} (h : beginsNowhere s a = true) (v : BitVec 32) : ringStepAt a v s = s := by
  simp only [ringStepAt, bellRegion_of_beginsNowhere h]

theorem ringStageAt_of_beginsNowhere {s : State} {a : Nat} (h : beginsNowhere s a = true) (v : BitVec 32) : ringStageAt a v s = s := by
  simp only [ringStageAt, bellRegion_of_beginsNowhere h]

section
variable {s : State} {a : Nat} {bytes : List Byte}

theorem memWrite_of_late (hm : s.boot.memActive = true) (hd : decoded s a bytes.length = true) (hl : lateInput s a bytes.length = true) (x : Bool) :
    memWrite a bytes x s = dropLate s := by
  rw [memWrite, if_pos (by simp [hm, hd]), if_pos hl]

theorem memWrite_of_closed (h : s.boot.memActive = false ∨ decoded s a bytes.length = false) (x : Bool) : memWrite a bytes x s = s :=
  if_neg (by rcases h with h | h <;> simp [h])

variable (hm : s.boot.memActive = true) (hd : decoded s a bytes.length = true) (hl : lateInput s a bytes.length = false)
include hm hd hl

/-- A write that reaches no placed region's first byte rings no doorbell: it is stored. -/
theorem memWrite_of_plain (hb : beginsNowhere s a = true) : memWrite a bytes false s = hostStore a bytes s := by
  have hb' : beginsNowhere (hostStore a bytes s) a = true := hb
  rw [memWrite, if_pos (by simp [hm, hd]), if_neg (by simp [hl])]
  dsimp only
  rw [if_neg (by decide)]
  split
  · rw [ringStepAt_of_beginsNowhere hb', ringStageAt_of_beginsNowhere hb']
  · rfl

theorem memWrite_of_poison : memWrite a bytes true s
    = (linesOf a bytes.length).foldl (fun s' l => setPoison l true s') (hostStore a bytes s) := by
  rw [memWrite, if_pos (by simp [hm, hd]), if_neg (by simp [hl])]
  exact if_pos rfl

end

/-! ### A stored write of the host -/

theorem tunRead_hostStore_self (a : Nat) (bytes : List Byte) (s : State) : tunRead (hostStore a bytes s) a bytes.length = bytes :=
  tunRead_tunWrite_self a bytes s

theorem counted_hostStore (a : Nat) (bytes : List Byte) (s : State) :
    counted 0x40 3 (hostStore a bytes s) = counted 0x40 3 s + BitVec.ofNat 64 bytes.length := counted_bump_self ..

/-! ### A host read by its branches -/

theorem memRead_of_active {s : State} {a n : Nat} (hd : decoded s a n = true) (hm : s.boot.memActive = true) :
    memRead a n s = bump 0x40 2 n (emit (.readData (tunRead s a n) (poisonedAt s a n)) s) := by
  rw [memRead, if_pos hd, if_pos hm]

theorem memRead_of_fettle {s : State} {a n : Nat} (hd : decoded s a n = true) (hm : s.boot.memActive = false) (hf : s.boot.mode = .fettle) :
    memRead a n s = emit (.readData ((List.range n).map (fun i => Config.freeByte (draw s) (a + i))) true) (drawn 1 s) := by
  rw [memRead, if_pos hd, if_neg (by simp [hm]), if_pos hf]

/-- Settles O33: the write by poison, lateness and decoding, the read by Memory_Active, each through its equation. -/
theorem memoryWindowStoresAndReads : Obligations.MemoryWindowStoresAndReads := by
  refine ⟨fun s a bytes hw hm hd hl hb => ?_, fun s a bytes hw hm hd hl => ?_, fun s a bytes x hw hm hd hl => ?_, fun s a bytes x hw h => ?_,
    fun s a n hw hd hm => ?_, fun s a n hw hd hm hf => ?_, fun s b => ?_⟩
  · rw [exec_cxlMemWrite hw, fenced_of_keeps (memWrite_of_plain hm hd hl hb) rfl rfl rfl rfl rfl]
    exact ⟨_, rfl, tunRead_hostStore_self a bytes s, fun b h => tun_byte_outside a b bytes s h, counted_hostStore a bytes s, rfl⟩
  · have h : memWrite a bytes true s = _ := (memWrite_of_poison hm hd hl).trans (foldl_setPoison_eq _ _)
    rw [exec_cxlMemWrite hw, fenced_of_keeps h rfl rfl rfl rfl rfl]
    exact ⟨_, rfl, tunRead_hostStore_self a bytes s, fun l hl' => foldl_setPoison_marks hl' _, fun b h => tun_byte_outside a b bytes s h, rfl⟩
  · rw [exec_cxlMemWrite hw, fenced_of_keeps (memWrite_of_late hm hd hl x) rfl rfl rfl rfl rfl]
    exact ⟨_, rfl, counted_bump_self 0x60 0 1 s, rfl⟩
  · rw [exec_cxlMemWrite hw, fenced_of_eq (memWrite_of_closed h x)]
  · rw [exec_cxlMemRead hw, fenced_of_keeps (memRead_of_active hd hm) rfl rfl rfl rfl rfl]
    exact ⟨_, rfl, rfl, counted_bump_self 0x40 2 n _, rfl⟩
  · rw [exec_cxlMemRead hw, fenced_of_keeps (memRead_of_fettle hd hm hf) rfl rfl rfl rfl rfl]
    exact ⟨_, _, rfl, rfl, by simp, rfl⟩
  · exact exec_bisnpResponse b s

end Sys2Proof.Machine

/-! PROOFS. Extended Rate: the handshake, entry to ER and the fallback to 64 GT/s (02 R56 to R62). -/
namespace Sys2Proof.Machine

/-! ### Fields of ER_STATUS and ER_COUNTS (02 Table 20) -/

/-- An ER_STATUS as a number of its fields. -/
theorem erStatusOf_toNat (active agreed failed precode : Bool) (cause : Nat) : (erStatusOf active agreed failed precode cause).toNat
    = active.toNat + 2 * agreed.toNat + 4 * failed.toNat + 8 * precode.toNat + cause % 16 * 16 := by
  have ha := active.toNat_le
  have hg := agreed.toNat_le
  have hf := failed.toNat_le
  have hp := precode.toNat_le
  rw [erStatusOf, BitVec.toNat_ofNat, Nat.mod_eq_of_lt (by omega)]

section
variable (a g f p : Bool) (c : Nat)

/-- A bit of an ER_STATUS, from its number. -/
theorem erStatusOf_getLsbD (i : Nat) : (erStatusOf a g f p c).getLsbD i
    = decide ((a.toNat + 2 * g.toNat + 4 * f.toNat + 8 * p.toNat + c % 16 * 16) / 2 ^ i % 2 = 1) := by
  rw [← erStatusOf_toNat, BitVec.getLsbD, Nat.testBit_eq_decide_div_mod_eq]

@[simp] theorem erStatusOf_active : (erStatusOf a g f p c).getLsbD 0 = a := by
  have := a.toNat_le
  rw [erStatusOf_getLsbD]
  cases a <;> simp <;> omega

@[simp] theorem erStatusOf_agreed : (erStatusOf a g f p c).getLsbD 1 = g := by
  have := a.toNat_le
  rw [erStatusOf_getLsbD]
  cases g <;> simp <;> omega

@[simp] theorem erStatusOf_failed : (erStatusOf a g f p c).getLsbD 2 = f := by
  have := a.toNat_le
  have := g.toNat_le
  rw [erStatusOf_getLsbD]
  cases f <;> simp <;> omega

@[simp] theorem erStatusOf_precode : (erStatusOf a g f p c).getLsbD 3 = p := by
  have := a.toNat_le
  have := g.toNat_le
  have := f.toNat_le
  rw [erStatusOf_getLsbD]
  cases p <;> simp <;> omega

theorem erStatusOf_cause : bitsOf (erStatusOf a g f p c).toNat 4 4 = c % 16 := by
  have := a.toNat_le
  have := g.toNat_le
  have := f.toNat_le
  have := p.toNat_le
  rw [erStatusOf_toNat, bitsOf]
  omega
end

/-- The entries are the low half of ER_COUNTS. -/
theorem erCount_entries (e b : Nat) (v : BitVec 32) : (erCount e b v).toNat % 2 ^ 16 = (v.toNat % 2 ^ 16 + e) % 2 ^ 16 := by
  simp only [erCount, bitsOf, BitVec.toNat_ofNat]
  omega

/-- The fallbacks are its high half. -/
theorem erCount_fallbacks (e b : Nat) (v : BitVec 32) : (erCount e b v).toNat / 2 ^ 16 = (v.toNat / 2 ^ 16 + b) % 2 ^ 16 := by
  have := v.isLt
  simp only [erCount, bitsOf, BitVec.toNat_ofNat]
  omega

theorem satAdd_toNat (v : BitVec 32) (n : Nat) : (satAdd v n).toNat = min (v.toNat + n) (2 ^ 32 - 1) := by
  rw [satAdd, BitVec.toNat_ofNat, Nat.mod_eq_of_lt (by omega)]

/-! ### Handshake -/

theorem onLink_of_up {s : State} (h : portUp s = true) (f : State → State) : onLink f s = .next (f s) := congrArg _ (if_pos h)

/-- A row that would change nothing changes nothing, whether the link is up or down. -/
theorem onLink_of_eq {f : State → State} {s : State} (h : f s = s) : onLink f s = .next s := by
  simp only [onLink, h, ite_self]

theorem erOpen_of {s : State} (ha : erArmed s = true) (hd : s.link.erDead = false) : erOpen s = true := by simp [erOpen, ha, hd]

/-- ER_AGREED is set exactly when both ends have accepted. -/
theorem erAgreed_erSettle (s : State) : erAgreed (erSettle s) = (erAgreed s || (s.link.erAcceptSent && s.link.erAcceptRecv)) := by
  unfold erSettle
  split <;> simp_all [erAgreed]

theorem erSettle_eq (s : State) : erSettle s = { s with link := { s.link with erStatus := (erSettle s).link.erStatus } } := by
  unfold erSettle
  split <;> rfl

/-- ER_ARM becoming 1 at 64 GT/s opens a handshake with an offer. -/
theorem erCtlWrite_of_arms {v : BitVec 32} {s : State} (ha : erArmed s = false) (hv : v.getLsbD 0 = true) (h6 : at64 s = true) :
    erCtlWrite v s = { s with
      link := { s.link with erCtl := v &&& 7, erDead := false, erAcceptSent := false, erAcceptRecv := false, erOfferSent := true },
      outbox := s.outbox ++ [handshake 1 1 (v.getLsbD 1)] } := by
  have hc : erArmed { s with link := { s.link with erCtl := v &&& 7 } } = true := by simp [erArmed, hv]
  have hp : erPrecodeReq { s with link := { s.link with erCtl := v &&& 7 } } = v.getLsbD 1 := by simp [erPrecodeReq]
  simp only [erCtlWrite, hc, ha, h6, hp, Bool.not_false, Bool.and_self, if_true]
  rfl

/-- A failed handshake: silent, with the cause, and nothing else changed. -/
structure HandshakeFailed (s t : State) (cause : Nat) : Prop where
  dead : t.link.erDead = true
  failed : erFailed t = true
  cause : erCause t = cause
  agreed : erAgreed t = false
  counts : t.link.erCounts = s.link.erCounts
  outbox : t.outbox = s.outbox
  rate : t.link.rate = s.link.rate

theorem handshakeFailed_erRefuse {c : Nat} (h : c < 16) (s : State) : HandshakeFailed s (erRefuse c s) c :=
  ⟨rfl, erStatusOf_failed .., (erStatusOf_cause ..).trans (Nat.mod_eq_of_lt h), erStatusOf_agreed .., rfl, rfl, rfl⟩

theorem erOffered_of_closed {s : State} (h : erOpen s = false) (v : BitVec 8) (pc : Bool) : erOffered v pc s = s := if_neg (by simp [h])

theorem erAccepted_of_closed {s : State} (h : erOpen s = false) (v : BitVec 8) (pc : Bool) : erAccepted v pc s = s := if_neg (by simp [h])

theorem erSilent_of_closed {s : State} (h : erOpen s = false) : erSilent s = s := if_neg (by simp [h])

theorem erOffered_of_version {s : State} (h : erOpen s = true) (pc : Bool) : erOffered 1 pc s
    = erSettle (emit (handshake 2 1 (erPrecodeReq s)) { s with link := { s.link with erAcceptSent := true, erTxPrecode := pc } }) := if_pos h

theorem erOffered_of_other {s : State} {v : BitVec 8} (h : erOpen s = true) (hv : v ≠ 1) (pc : Bool) : erOffered v pc s = erRefuse 2 s := by
  rw [erOffered, if_pos h]
  exact if_neg hv

section
variable {s : State} (h : erOpen s = true) (ho : s.link.erOfferSent = true) (hg : erAgreed s = false)
include h ho hg

theorem erAccepted_of_version (pc : Bool) :
    erAccepted 1 pc s = erSettle { s with link := { s.link with erAcceptRecv := true, erTxPrecode := pc } } :=
  (if_pos (by simp [h, ho, hg])).trans (if_pos rfl)

theorem erAccepted_of_other {v : BitVec 8} (hv : v ≠ 1) (pc : Bool) : erAccepted v pc s = erRefuse 2 s :=
  (if_pos (by simp [h, ho, hg])).trans (if_neg hv)

theorem erSilent_of_waiting : erSilent s = erRefuse 1 s := if_pos (by simp [h, ho, hg])
end

/-! ### An event only adds to what is sent -/

theorem signal_outbox_prefix (v : Nat) {l : List Out} {s : State} (h : l <+: s.outbox) : l <+: (signal v s).outbox := by
  unfold signal
  split
  · exact h
  · exact h.trans (List.prefix_append ..)

theorem logRecord_outbox_prefix (log : Nat) (m : Bool) (d : List Byte) {l : List Out} {s : State} (h : l <+: s.outbox) :
    l <+: (logRecord log m d s).outbox := by
  unfold logRecord
  dsimp only
  split
  · split
    · exact signal_outbox_prefix 0 h
    · exact h
  · exact h

theorem raise_outbox_prefix (ev log w d0 d1 : Nat) {l : List Out} {s : State} (h : l <+: s.outbox) :
    l <+: (raise ev log w d0 d1 s).outbox := by
  unfold raise
  dsimp only
  split
  · split
    · exact logRecord_outbox_prefix log false _ h
    · exact logRecord_outbox_prefix log false _ h
  · exact h

/-! ### Entry and fallback -/

theorem link_mem_erRetrained (s : State) : Island.link ∈ (erRetrained s).isl.approx := by
  unfold erRetrained
  dsimp only
  split
  · assumption
  · simp

/-- The fallback brings the link back to 64 GT/s with its cause, counted once. -/
theorem fellBack_erFallback {c : Nat} (h : c < 16) (lane : Nat) (s : State) : FellBack s (erFallback c lane s) c := by
  refine ⟨rfl, rfl, erStatusOf_active .., erStatusOf_agreed .., erStatusOf_failed .., (erStatusOf_cause ..).trans (Nat.mod_eq_of_lt h), rfl,
    ?_, erCount_fallbacks .., link_mem_erRetrained _, raise_outbox_prefix _ _ _ _ _ (List.prefix_refl _), raise_trs .., raise_fl .., raise_tun ..⟩
  exact (erCount_entries ..).trans (by omega)

theorem erFallback_erCtl (c lane : Nat) (s : State) : (erFallback c lane s).link.erCtl = s.link.erCtl := rfl

/-- The link at ER after its lanes have locked. -/
def enteredEr (s : State) : State :=
  erRetrained { s with link := { s.link with
    rate := .er, recovery := false, erStatus := erStatusOf true true (erFailed s) (erPrecodeReq s) (erCause s),
    erFecCorr := 0, erFecUncorr := 0, erCounts := erCount 1 0 s.link.erCounts } }

/-- The link at 64 GT/s after the partner has left ER. -/
def leftEr (s : State) : State :=
  erRetrained { s with link := { s.link with
    rate := .gt64, recovery := false, erStatus := erStatusOf false (erAgreed s) (erFailed s) false (erCause s) } }

section
variable {s : State} (hr : s.link.recovery = true) (hg : erAgreed s = true)
include hr hg

theorem erLocked_of_locked {ms : List Nat} (hw : s.link.width ≤ ms.length) (hm : ∀ m ∈ ms, 3 ≤ m) : erLocked ms s = enteredEr s := by
  rw [erLocked, if_pos (by simp [hr, hg]), if_neg (by omega), if_pos]
  · rfl
  · simpa using fun m h => hm m (List.mem_of_mem_take h)

theorem erLocked_of_narrow {ms : List Nat} (hw : ms.length < s.link.width) : erLocked ms s = erFallback 6 ms.length s := by
  rw [erLocked, if_pos (by simp [hr, hg]), if_pos hw]

theorem erEqFails_of_recovery (lock : Bool) :
    erEqFails lock s = erFallback (if lock then 4 else 3) (Config.freeNat (draw s) % 8) (drawn 1 s) := if_pos (by simp [hr, hg])
end

/-- Uncorrectable codewords counted, on the lane and in the port. -/
def codewordsCounted (n : Nat) (s : State) : State := bump 0x20 2 n { s with link := { s.link with erFecUncorr := satAdd s.link.erFecUncorr n } }

section
variable {s : State} {lane n : Nat} (ha : erActive s = true)
include ha

theorem erErrorRate_of_many (hd : erAutoDowngrade s = true) (hn : 8 < n) : erErrorRate lane n s
    = erFallback 5 lane { codewordsCounted n s with link := { (codewordsCounted n s).link with erCtl := s.link.erCtl &&& 6 } } := by
  rw [erErrorRate, if_pos ha]
  exact if_pos ⟨hd, hn⟩

theorem erErrorRate_of_few (h : erAutoDowngrade s = false ∨ n ≤ 8) : erErrorRate lane n s = codewordsCounted n s := by
  rw [erErrorRate, if_pos ha]
  refine if_neg fun hc => ?_
  rcases h with h | h
  · exact absurd hc.1 (by simp [h])
  · omega

theorem erMarkerLoss_of_four (hn : 4 ≤ n) : erMarkerLoss lane n s = erFallback 4 lane s := if_pos ⟨ha, hn⟩
end

theorem erMarkerLoss_of_fewer {n : Nat} (hn : n < 4) (lane : Nat) (s : State) : erMarkerLoss lane n s = s := if_neg (by omega)

theorem erPartnerLeaves_of_er {s : State} (hu : s.link.up = true) (h : erActive s = true ∨ (s.link.recovery = true ∧ erAgreed s = true)) :
    erPartnerLeaves s = leftEr s := if_pos ⟨hu, h⟩

theorem erRecovery_of_agreed {s : State} (h6 : at64 s = true) (hg : erAgreed s = true) :
    erRecovery s = { s with link := { s.link with recovery := true }, outbox := s.outbox ++ [.recoverySpeed true] } :=
  if_pos (by simp [h6, hg])

theorem erRecovery_of_not {s : State} (h : at64 s = false ∨ erAgreed s = false) : erRecovery s = s :=
  if_neg (by rcases h with h | h <;> simp [h])

/-! ### The rows -/

/-- A failed handshake's row: an offer or an answer of another version. -/
theorem exec_of_other_version {i : Instr} {s : State} {v : BitVec 8} {pc : Bool} (hp : portUp s = true) (ho : erOpen s = true) (hv : v ≠ 1)
    (hi : i = .erOffer v pc ∨ (i = .erAccept v pc ∧ s.link.erOfferSent = true ∧ erAgreed s = false)) : exec i s = .next (erRefuse 2 s) := by
  rcases hi with rfl | ⟨rfl, hs, hg⟩
  · exact (onLink_of_up hp _).trans (congrArg _ (erOffered_of_other ho hv pc))
  · exact (onLink_of_up hp _).trans (congrArg _ (erAccepted_of_other ho hs hg hv pc))

/-- A port that is not armed, or has failed, stays silent. -/
theorem exec_of_closed {i : Instr} {s : State} {v : BitVec 8} {pc : Bool} (hi : i = .erOffer v pc ∨ i = .erAccept v pc ∨ i = .erOfferTimeout)
    (h : erOpen s = false) : exec i s = .next s := by
  rcases hi with rfl | rfl | rfl
  · exact onLink_of_eq (erOffered_of_closed h v pc)
  · exact onLink_of_eq (erAccepted_of_closed h v pc)
  · exact onLink_of_eq (erSilent_of_closed h)

/-- Settles O34: the handshake's rows by whether the port is open and the version its own, entry by the lanes' lock, and each way out
through the one fallback. -/
theorem extendedRateAgreesEntersAndFallsBack : Obligations.ExtendedRateAgreesEntersAndFallsBack := by
  refine ⟨⟨fun s v hp ha hv h6 => ?_, fun s pc hp ha hd => ?_, fun s pc hp ha hd ho hg => ?_, fun i s v pc hp ha hd hv hi => ?_,
      fun s hp ha hd ho hg => ?_, fun i s v pc hi h => exec_of_closed hi ?_⟩,
    ⟨fun s hp h6 hg => ?_, fun s ms hp hr hg hw hm => ?_, fun s hp h => ?_⟩,
    ⟨fun s lock hp hr hg => ?_, fun s ms hp hr hg hw => ?_, fun s lane n hp ha hd hn => ?_, fun s lane n hp ha h => ?_,
      fun s lane n hp ha => ⟨fun hn => ?_, fun hn => ?_⟩, fun s hp h => ?_⟩⟩
  · exact (onLink_of_up hp _).trans (congrArg _ (erCtlWrite_of_arms ha hv h6))
  · refine ⟨_, (onLink_of_up hp _).trans (congrArg _ ((erOffered_of_version (erOpen_of ha hd) pc).trans (erSettle_eq _))), rfl, rfl, rfl, ?_, rfl⟩
    exact erAgreed_erSettle _
  · refine ⟨_, (onLink_of_up hp _).trans (congrArg _ ((erAccepted_of_version (erOpen_of ha hd) ho hg pc).trans (erSettle_eq _))), rfl, rfl, ?_, rfl⟩
    refine (erAgreed_erSettle _).trans ?_
    rw [show erAgreed { s with link := { s.link with erAcceptRecv := true, erTxPrecode := pc } } = false from hg]
    simp
  · have h := handshakeFailed_erRefuse (by decide : 2 < 16) s
    exact ⟨_, exec_of_other_version hp (erOpen_of ha hd) hv hi, h.dead, h.failed, h.cause, h.agreed, h.counts, h.outbox, h.rate⟩
  · have h := handshakeFailed_erRefuse (by decide : 1 < 16) s
    exact ⟨_, (onLink_of_up hp _).trans (congrArg _ (erSilent_of_waiting (erOpen_of ha hd) ho hg)), h.dead, h.failed, h.cause, h.counts,
      h.outbox, h.rate⟩
  · rcases h with h | h <;> simp [erOpen, h]
  · exact (onLink_of_up hp _).trans (congrArg _ (erRecovery_of_agreed h6 hg))
  · exact ⟨_, (onLink_of_up hp _).trans (congrArg _ (erLocked_of_locked hr hg hw hm)), rfl, rfl, erStatusOf_active .., erStatusOf_agreed ..,
      erStatusOf_failed .., erStatusOf_precode .., rfl, rfl, erCount_entries ..,
      (erCount_fallbacks ..).trans (Nat.mod_eq_of_lt (by have := s.link.erCounts.isLt; omega)), link_mem_erRetrained _, rfl⟩
  · exact onLink_of_eq (erRecovery_of_not h)
  · exact ⟨_, (onLink_of_up hp _).trans (congrArg _ (erEqFails_of_recovery hr hg lock)),
      fellBack_erFallback (by split <;> decide) _ (drawn 1 s), rfl⟩
  · exact ⟨_, (onLink_of_up hp _).trans (congrArg _ (erLocked_of_narrow hr hg hw)), fellBack_erFallback (by decide) _ s, rfl⟩
  · refine ⟨_, (onLink_of_up hp _).trans (congrArg _ (erErrorRate_of_many ha hd hn)), fellBack_erFallback (by decide) lane
      { codewordsCounted n s with link := { (codewordsCounted n s).link with erCtl := s.link.erCtl &&& 6 } }, ?_, satAdd_toNat ..⟩
    rw [erArmed, erFallback_erCtl]
    simp
  · exact ⟨_, (onLink_of_up hp _).trans (congrArg _ (erErrorRate_of_few ha h)), rfl, rfl, satAdd_toNat .., rfl⟩
  · exact ⟨_, (onLink_of_up hp _).trans (congrArg _ (erMarkerLoss_of_four ha hn)), fellBack_erFallback (by decide) lane s, rfl⟩
  · exact onLink_of_eq (erMarkerLoss_of_fewer hn lane s)
  · have hu : s.link.up = true := by simpa [portUp] using (Bool.and_eq_true_iff.1 hp).2
    exact ⟨_, (onLink_of_up hp _).trans (congrArg _ (erPartnerLeaves_of_er hu h)), rfl, rfl, erStatusOf_active .., erStatusOf_failed ..,
      erStatusOf_agreed .., rfl, rfl, rfl, link_mem_erRetrained _⟩

end Sys2Proof.Machine

/-! PROOFS. The mailbox's events, timestamps and logs, and DOE's descriptions (02 R48, R55, 15 R448, 16 R479). -/
namespace Sys2Proof.Machine

/-! ### Bytes -/

@[simp] theorem bytesOf_length (n v : Nat) : (bytesOf n v).length = n := by
  induction n generalizing v with
  | zero => rfl
  | succ n ih => rw [bytesOf, List.length_cons, ih]

@[simp] theorem sliceBytes_length (l : List Byte) (off n : Nat) : (sliceBytes l off n).length = n := by
  simp only [sliceBytes, List.length_append, List.length_take, List.length_replicate]
  omega

/-- A field that lies whole in a list of bytes is cut out whole. -/
theorem sliceBytes_append {a b c : List Byte} {off n : Nat} (ha : a.length = off) (hb : b.length = n) : sliceBytes (a ++ (b ++ c)) off n = b := by
  subst ha hb
  simp [sliceBytes]

/-! ### A mailbox command's answer -/

/-- Where the mailbox responds, a command that changes nothing the fence guards ends in its answer. -/
theorem onMailbox_of_answered {f : State → State} {s u : State} {rc : Rc} {p : List Byte} (hm : mailboxUp s = true)
    (h : f s = answered u rc p) (hp : u.pending = s.pending) (ha : u.aon = s.aon) (hi : u.isl = s.isl) (hb : u.boot = s.boot)
    (hl : u.link = s.link) : onMailbox f s = .next (answered u rc p) := by
  rw [onMailbox, if_pos hm, fenced_of_keeps h hp ha hi hb hl]

/-- An answer that changes nothing else. -/
theorem onMailbox_of_answer {f : State → State} {s : State} {rc : Rc} {p : List Byte} (hm : mailboxUp s = true)
    (h : f s = answered s rc p) : onMailbox f s = .next (answered s rc p) := onMailbox_of_answered hm h rfl rfl rfl rfl rfl

/-! ### Events (16 R479) -/

/-- The header of an answer with event records: flags, the overflow's count and times, the number of records. -/
def recordsHeader (log : Nat) (s : State) : List Byte :=
  let q := s.tele.logs.getD log []
  let k := min q.length 511
  let lostN := s.tele.overflow.getD log 0
  let ts := s.tele.overTimes.getD log (0, 0)
  bytesOf 1 ((decide (0 < lostN)).toNat + 2 * (decide (k < q.length)).toNat) ++ [0] ++ bytesOf 2 (min lostN 65535)
    ++ bytesOf 8 ts.1.toNat ++ bytesOf 8 ts.2.toNat ++ bytesOf 2 k ++ bytesOf 10 0

theorem recordsHeader_length (log : Nat) (s : State) : (recordsHeader log s).length = 32 := by simp [recordsHeader]

theorem recordsHeader_count (log : Nat) (s : State) :
    sliceBytes (recordsHeader log s) 20 2 = bytesOf 2 (min (s.tele.logs.getD log []).length 511) := by
  simp only [recordsHeader, List.append_assoc]
  rfl

theorem getRecords_of_log {log : Nat} (h : log < 4) (s : State) : getRecords log s
    = answered s .success (recordsHeader log s ++ ((s.tele.logs.getD log []).take 511).flatMap recordBytes) := by
  have ht : (s.tele.logs.getD log []).take 511 = (s.tele.logs.getD log []).take (min (s.tele.logs.getD log []).length 511) := by
    rw [List.take_eq_take_min, Nat.min_comm]
  rw [getRecords, if_neg (by omega), ht]
  rfl

section
variable {log : Nat} (h : log < 4) {s : State} {hs : List (BitVec 16)}
include h

theorem clearRecords_of_oldest (hh : ((s.tele.logs.getD log []).take hs.length).map (·.handle) = hs) :
    clearRecords log false hs s = answered (dropRecords log hs.length s) .success [] := by
  rw [clearRecords, if_neg (by omega)]
  exact if_pos hh

theorem clearRecords_of_other (hh : ((s.tele.logs.getD log []).take hs.length).map (·.handle) ≠ hs) :
    clearRecords log false hs s = answered s .invalidHandle [] := by
  rw [clearRecords, if_neg (by omega)]
  exact if_neg hh

/-- After an overflow a log is cleared at once. -/
theorem clearRecords_all (ho : s.tele.overflow.getD log 0 ≠ 0) : clearRecords log true hs s = answered { s with tele := { s.tele with
    logs := s.tele.logs.set log [], overflow := s.tele.overflow.set log 0, overTimes := s.tele.overTimes.set log (0, 0) } } .success [] := by
  rw [clearRecords, if_neg (by omega), if_pos rfl]
  dsimp only
  rw [if_neg ho, dropRecords, List.drop_length]
  rfl
end

theorem setPolicy_of_good {p : List Byte} (hl : p.length = 4) (hp : p.all (fun b => decide (b.toNat % 4 ≤ 1)) = true) (s : State) :
    setPolicy p s = answered { s with tele := { s.tele with intPolicy := p.map (fun b => b &&& 3) } } .success [] := by
  rw [setPolicy, if_neg (by omega), if_pos hp]
  rfl

theorem setPolicy_of_length {p : List Byte} (hl : p.length ≠ 4) (s : State) : setPolicy p s = answered s .invalidPayloadLength [] := if_pos hl

theorem exec_setTimestamp {s : State} (hm : mailboxUp s = true) (v : BitVec 64) :
    exec (.setTimestamp v) s = .next (answer .success [] (setTimebase v s)) := congrArg _ (if_pos hm)

/-! ### Logs and identity -/

theorem getLog_of_celUuid {off n : Nat} (h : off + n ≤ 76) (s : State) : getLog celUuid off n s
    = answered s .success (sliceBytes celBytes off n) := if_pos ⟨rfl, h⟩

theorem getLog_of_other {u : List Byte} (h : u ≠ celUuid) (off n : Nat) (s : State) : getLog u off n s = answered s .invalidInput [] :=
  if_neg fun hc => h hc.1

/-- The capacities stand in the identity after its 16 bytes of firmware revision. -/
theorem identity_capacities : sliceBytes identity 16 8 = bytesOf 8 954 ∧ sliceBytes identity 24 8 = bytesOf 8 954
    ∧ sliceBytes identity 32 8 = bytesOf 8 0 := by
  have h16 := sliceBytes_length Config.fwRevision 0 16
  simp only [identity, List.append_assoc]
  refine ⟨sliceBytes_append h16 rfl, ?_, ?_⟩
  · rw [← List.append_assoc]
    exact sliceBytes_append (by simp) rfl
  · rw [← List.append_assoc, ← List.append_assoc]
    exact sliceBytes_append (by simp) rfl

/-! ### DOE -/

theorem discovery_next {i : Nat} (h : i < 3) : sliceBytes (discovery i) 11 1 = bytesOf 1 ((i + 1) % 3) := by
  interval_cases i <;> rfl

theorem cdatAnswer_next {e : Nat} (h : e < 7) : sliceBytes (cdatAnswer e) 10 2 = bytesOf 2 (if e = 6 then 0xFFFF else e + 1) := by
  interval_cases e <;> rfl

theorem cdatAnswer_entry (e : Nat) : (cdatAnswer e).drop 12 = cdatTable.getD e [] := rfl

theorem exec_doeDiscovery {s : State} (h : configUp s = true) (i : Nat) :
    exec (.doeDiscovery i) s = .next { s with outbox := s.outbox ++ [.doe (discovery i)] } := congrArg _ (if_pos h)

theorem exec_cdatTableAccess {s : State} (h : configUp s = true) {e : Nat} (he : e < 7) :
    exec (.cdatTableAccess e) s = .next { s with outbox := s.outbox ++ [.doe (cdatAnswer e)] } := congrArg _ (if_pos (by simp [h, he]))

/-- Settles O54: each mailbox command through the equation of its answer, and DOE's two protocols field by field. -/
theorem eventsTimesLogsAndDescriptions : Obligations.EventsTimesLogsAndDescriptions := by
  refine ⟨⟨fun s log hm hl => ⟨recordsHeader log s, onMailbox_of_answer hm (getRecords_of_log hl s), recordsHeader_length log s,
      recordsHeader_count log s⟩, fun s log hs hm hl => ⟨fun hh => ?_, fun hh => ?_, fun ho => ?_⟩, fun s p hm => ⟨?_, fun hl hp => ?_, fun hl => ?_⟩⟩,
    fun s hm => ⟨?_, fun v => ?_, ?_, fun off n h => ?_, fun u off n h => ?_, ⟨identity, ?_, identity_capacities⟩, fun op p ho hp => ?_⟩,
    fun s hc => ⟨fun i hi => ⟨_, exec_doeDiscovery hc i, discovery_next hi⟩,
      fun e he => ⟨_, exec_cdatTableAccess hc he, cdatAnswer_next he, cdatAnswer_entry e⟩, fun e he => ?_⟩⟩
  · exact onMailbox_of_answered hm (clearRecords_of_oldest hl hh) rfl rfl rfl rfl rfl
  · exact onMailbox_of_answer hm (clearRecords_of_other hl hh)
  · exact onMailbox_of_answered hm (clearRecords_all hl ho) rfl rfl rfl rfl rfl
  · exact onMailbox_of_answer hm rfl
  · exact onMailbox_of_answered hm (setPolicy_of_good hl hp s) rfl rfl rfl rfl rfl
  · exact onMailbox_of_answer hm (setPolicy_of_length hl s)
  · exact onMailbox_of_answer hm rfl
  · exact ⟨_, exec_setTimestamp hm v, rfl, rfl, rfl, rfl⟩
  · exact onMailbox_of_answer hm rfl
  · exact onMailbox_of_answer hm (getLog_of_celUuid h s)
  · exact onMailbox_of_answer hm (getLog_of_other h off n s)
  · exact onMailbox_of_answer hm rfl
  · exact onMailbox_of_answer hm (if_neg (by simp [ho, hp]))
  · exact congrArg _ (if_neg (by simp [he]))

end Sys2Proof.Machine

/-! PROOFS. The pattern window and the NOR's operations (02 R41, 14 R408 to R410, R429 to R431). -/
namespace Sys2Proof.Machine

/-! ### An erased range -/

/-- Outside the range an erase leaves what was there. -/
theorem SMap.find_clearRange_outside {α : Type} {d : α} (m : SMap α) {base len k : Nat} (h : k < base ∨ base + len ≤ k) :
    SMap.find d (SMap.clearRange m base len) k = SMap.find d m k := by
  unfold SMap.clearRange
  induction m with
  | nil => rfl
  | cons a m ih =>
    by_cases ha : a.1 < base ∨ base + len ≤ a.1
    · rw [List.filter_cons_of_pos (by simpa using ha), SMap.find, SMap.find, ih]
    · have hk : a.1 ≠ k := by rintro rfl; exact ha h
      rw [List.filter_cons_of_neg (by simpa using ha), ih, SMap.find, if_neg hk]

/-- Within the range nothing is listed. -/
theorem SMap.find_clearRange_inside {α : Type} {d : α} (m : SMap α) {base len k : Nat} (h : base ≤ k ∧ k < base + len) :
    SMap.find d (SMap.clearRange m base len) k = d := by
  unfold SMap.clearRange
  induction m with
  | nil => rfl
  | cons a m ih =>
    by_cases ha : a.1 < base ∨ base + len ≤ a.1
    · have hk : a.1 ≠ k := by omega
      rw [List.filter_cons_of_pos (by simpa using ha), SMap.find, if_neg hk, ih]
    · rw [List.filter_cons_of_neg (by simpa using ha), ih]

/-! ### The open window (14 R429 to R431) -/

/-- A row of the NOR or the window alone passes the fence. -/
theorem fenced_of_nor {f : State → State} {s : State} {x : Nor} (h : f s = { s with nor := x }) : fenced f s = { s with nor := x } :=
  fenced_of_keeps h rfl rfl rfl rfl rfl

section
variable {s : State}

theorem bar4Write_of_decoded (hc : configUp s = true) (hd : decodes s s.link.bar4 = true) (off w v : Nat) :
    bar4Write off w v s = windowWrite off w v s := if_pos (by simp [hc, hd])

theorem windowWrite_of_closed (ho : windowOpen s = false) (off w v : Nat) : windowWrite off w v s = s := if_pos (by simp [ho])

theorem bar4Write_of_closed (ho : windowOpen s = false) (off w v : Nat) : bar4Write off w v s = s := by
  rw [bar4Write, windowWrite_of_closed ho, ite_self]

theorem windowWrite_key (ho : windowOpen s = true) (v : Nat) : windowWrite 0x00 4 v s = windowKey v s := if_neg (by simp [ho])

theorem windowWrite_cmd (ho : windowOpen s = true) (v : Nat) : windowWrite 0x10 4 v s = windowCmd v s := if_neg (by simp [ho])

theorem windowCmd_of_unarmed (ha : s.nor.armed = false) (c : Nat) :
    windowCmd c s = { s with nor := { s.nor with keyHalf := false, lastResult := 1 } } := by
  rw [windowCmd, if_pos (by simp [ha]), ← ha]
  rfl

theorem windowCmd_of_no_session (ha : s.nor.armed = true) (hx : s.nor.session = none) (c : Nat) :
    windowCmd c s = { s with nor := { s.nor with armed := false, keyHalf := false, lastResult := 2 } } := by
  rw [windowCmd, if_neg (by simp [ha]), hx]
  rfl

section
variable {x : Session} (ha : s.nor.armed = true) (hx : s.nor.session = some x) (hb : windowBusy s = false)
include ha hx hb

theorem windowCmd_program (ht : inTarget x s.nor.pwAddr.toNat s.nor.pwLen.toNat = true) (hn : 1 ≤ s.nor.pwLen.toNat)
    (hp : s.nor.pwAddr.toNat % 256 + s.nor.pwLen.toNat ≤ 256)
    (hr : bitRise s s.nor.pwAddr.toNat ((bytesOf 256 s.nor.pwBuf.toNat).take s.nor.pwLen.toNat) = false) :
    windowCmd 1 s = { s with nor := { s.nor with
      armed := false, keyHalf := false,
      ops := s.nor.ops ++ [.program s.nor.pwAddr.toNat ((bytesOf 256 s.nor.pwBuf.toNat).take s.nor.pwLen.toNat) true],
      session := some { x with written := x.written ++ [(s.nor.pwAddr.toNat - slotBase x.target, s.nor.pwLen.toNat)] } } } := by
  rw [windowCmd, if_neg (by simp [ha]), hx]
  dsimp only
  rw [if_neg (by simp [hb]), if_pos rfl, if_neg (by simp [ht]), if_neg (by omega), if_neg (by simp [hr])]

theorem windowCmd_erase (ht : inTarget x s.nor.pwAddr.toNat 65536 = true) (hm : s.nor.pwAddr.toNat % 65536 = 0) :
    windowCmd 2 s = { s with nor := { s.nor with
      armed := false, keyHalf := false, ops := s.nor.ops ++ [.erasing (s.nor.pwAddr.toNat / 65536) true] } } := by
  rw [windowCmd, if_neg (by simp [ha]), hx]
  dsimp only
  rw [Nat.div_mul_cancel (Nat.dvd_of_mod_eq_zero hm), if_neg (by simp [hb]), if_neg (by decide), if_pos rfl, if_neg (by simp [ht]),
    if_neg (by simp [hm])]
end

theorem windowKey_first (s : State) : windowKey 0x50574B31 s = { s with nor := { s.nor with keyHalf := true, armed := false } } := rfl

/-- The second key arms after the first; any other word disarms. -/
theorem windowKey_of_other {v : BitVec 32} (h : v ≠ 0x50574B31) (s : State) : windowKey v.toNat s
    = { s with nor := { s.nor with armed := s.nor.keyHalf && decide (v = 0xAFA8B4CE), keyHalf := false } } := by
  have hv : v.toNat ≠ 0x50574B31 := fun e => h (BitVec.eq_of_toNat_eq e)
  have h2 : (v.toNat = 0xAFA8B4CE) ↔ (v = 0xAFA8B4CE) := ⟨fun e => BitVec.eq_of_toNat_eq e, fun e => e ▸ rfl⟩
  rw [windowKey, if_neg hv, decide_eq_decide.2 h2]

section
variable (hc : configUp s = true) (hd : decodes s s.link.bar4 = true) (ho : windowOpen s = true)
include hc hd ho

theorem exec_pwKey (v : BitVec 32) {x : Nor} (h : windowKey v.toNat s = { s with nor := x }) :
    exec (.pwKey v) s = .next { s with nor := x } :=
  congrArg Host.Outcome.next (fenced_of_nor (((bar4Write_of_decoded hc hd ..).trans (windowWrite_key ho _)).trans h))

theorem exec_pwProgram {x : Nor} (h : windowCmd 1 s = { s with nor := x }) : exec .pwProgram s = .next { s with nor := x } :=
  congrArg Host.Outcome.next (fenced_of_nor (((bar4Write_of_decoded hc hd ..).trans (windowWrite_cmd ho _)).trans h))

theorem exec_pwErase {x : Nor} (h : windowCmd 2 s = { s with nor := x }) : exec .pwErase s = .next { s with nor := x } :=
  congrArg Host.Outcome.next (fenced_of_nor (((bar4Write_of_decoded hc hd ..).trans (windowWrite_cmd ho _)).trans h))

/-- What holds of both commands' writes holds of both rows. -/
theorem exec_window_command {i : Instr} (hi : i = .pwProgram ∨ i = .pwErase) {x : Nor} (h : ∀ c, windowCmd c s = { s with nor := x }) :
    exec i s = .next { s with nor := x } := by
  rcases hi with rfl | rfl
  · exact exec_pwProgram hc hd ho (h 1)
  · exact exec_pwErase hc hd ho (h 2)
end

theorem exec_bar4_read {off w : Nat} (hw : off + w ≤ 0x10000000) (hc : configUp s = true) (hd : decodes s s.link.bar4 = true) :
    exec (.tbNowRead 4 off w) s
      = .next (emit (.completion (if windowOpen s = true then norRaw s off w else List.replicate w 0) false false) s) :=
  (exec_tbNowRead_of (bar := 4) hw s).trans (congrArg _ (if_pos (by simp [hc, hd])))

theorem exec_bar4_write {off w : Nat} (hw : off + w ≤ 0x10000000) (v : BitVec 512) (rid : BitVec 16) :
    exec (.registerWrite 4 off w v rid) s = .next (fenced (bar4Write off w v.toNat) s) := if_pos hw

/-! ### Operations of the NOR (14 R408 to R410) -/

section
variable {a : Nat} {bytes : List Byte} {w : Bool} (ho : s.nor.ops = [.program a bytes w]) (hg : s.nor.bg = none)
include ho

theorem programHead_of_program : programHead s = some (.program a bytes w) := by
  simp only [programHead, norHead, ho, List.head?_cons, Option.some_or]

include hg

/-- A program that succeeds clears the bits of its bytes and, in a window command, reports no error. -/
theorem norProgramComplete_ok : norProgramComplete true s = { s with nor := { s.nor with
    ops := [], mem := programBytes (norAddr s a) bytes s.nor.mem, lastResult := if w then 0 else s.nor.lastResult } } := by
  rw [norProgramComplete, programHead_of_program ho]
  cases w <;> simp [ho, hg, bgProgrammed, norProgram, removeOp, setResult] <;> rfl

/-- One that fails outside the logged regions changes no byte. -/
theorem norProgramComplete_failed (hl : loggedOf a = none) : norProgramComplete false s = { s with nor := { s.nor with
    ops := [], lastResult := if w then 7 else s.nor.lastResult } } := by
  rw [norProgramComplete, programHead_of_program ho]
  cases w <;> simp [ho, hg, hl, bgProgrammed, removeOp, setResult]
end

section
variable {k : Nat} {w : Bool} (ho : s.nor.ops = [.erasing k w])
include ho

theorem norHead_of_erasing : norHead s = some (.erasing k w) := by simp only [norHead, ho, List.head?_cons, Option.some_or]

/-- An erase outside the start log clears its sector and nothing else. -/
theorem norEraseComplete_ok (hg : s.nor.bg = none) (hs : s.nor.suspended = false) (hk : k < 3073 ∨ 3089 ≤ k) :
    norEraseComplete true s = { s with nor := { s.nor with
      ops := [], mem := SMap.clearRange s.nor.mem (norAddr s (k * 65536)) 65536, lastResult := if w then 0 else s.nor.lastResult } } := by
  have hl : ¬ (loggedBase ≤ k ∧ k < loggedBase + 16) := by simp only [loggedBase]; omega
  rw [norEraseComplete, norHead_of_erasing ho, hs]
  cases w <;> simp [ho, hg, hl, bgErased, norErase, removeOp, setResult] <;> rfl

theorem norSuspend_of_erasing (n : Nat) :
    norSuspend n s = if 1000000 ≤ n then { s with nor := { s.nor with suspended := true } } else s := by
  rw [norSuspend, norHead_of_erasing ho]
end

theorem norResume_eq (rd : Bool) (n : Nat) (s : State) :
    norResume rd n s = if rd = false ∨ 200000 ≤ n then { s with nor := { s.nor with suspended := false } } else s := by
  cases rd <;> simp [norResume]

end

/-- A choice between a change of the NOR and none passes the fence. -/
theorem fenced_of_nor_ite {f : State → State} {s : State} {x : Nor} {c : Prop} [Decidable c]
    (h : f s = if c then { s with nor := x } else s) : fenced f s = if c then { s with nor := x } else s := by
  by_cases hc : c
  · rw [if_pos hc] at h ⊢
    exact fenced_of_nor h
  · rw [if_neg hc] at h ⊢
    exact fenced_of_eq h

/-- Settles O59: the window's keys and commands by what a command finds, BAR4 by whether the window is open, and each NOR operation by its
equation. -/
theorem patternWindowAndNor : Obligations.PatternWindowAndNor := by
  refine ⟨⟨fun s hm => ?_, fun s hc hd ho => ⟨?_, fun v hv => ?_, fun i hi ha => ?_, fun i hi ha hx => ?_,
      fun x ha hx hb => ⟨fun ht hn hp hr => ?_, fun ht hz => ?_⟩⟩, fun s off w hc hd hw => ⟨fun ho => ?_, fun ho => ⟨?_, fun v rid => ?_⟩⟩⟩,
    fun s a bytes w ho hg => ⟨?_, fun hl => ?_⟩, fun s k w ho hg hs hk => ⟨?_, fun n => ?_⟩, fun s rd n => ?_⟩
  · exact onMailbox_of_answered hm rfl rfl rfl rfl rfl rfl
  · exact exec_pwKey hc hd ho _ (windowKey_first s)
  · exact exec_pwKey hc hd ho v (windowKey_of_other hv s)
  · exact exec_window_command hc hd ho hi (windowCmd_of_unarmed ha)
  · exact exec_window_command hc hd ho hi (windowCmd_of_no_session ha hx)
  · exact exec_pwProgram hc hd ho (windowCmd_program ha hx hb ht hn hp hr)
  · exact exec_pwErase hc hd ho (windowCmd_erase ha hx hb ht hz)
  · rw [exec_bar4_read hw hc hd, if_pos ho]
    rfl
  · rw [exec_bar4_read hw hc hd, if_neg (by simp [ho])]
    rfl
  · rw [exec_bar4_write hw, fenced_of_eq (bar4Write_of_closed ho ..)]
  · exact ⟨_, congrArg Host.Outcome.next (fenced_of_nor (norProgramComplete_ok ho hg)), fun i hi => find_programBytes_inside bytes _ i _ hi,
      fun b hb => find_programBytes_outside bytes _ b _ hb, rfl⟩
  · exact congrArg Host.Outcome.next (fenced_of_nor (norProgramComplete_failed ho hg hl))
  · exact ⟨_, congrArg Host.Outcome.next (fenced_of_nor (norEraseComplete_ok ho hg hs hk)),
      fun b hb hb' => SMap.find_clearRange_inside _ ⟨hb, hb'⟩, fun b hb => SMap.find_clearRange_outside _ hb, rfl⟩
  · exact congrArg Host.Outcome.next (fenced_of_nor_ite (norSuspend_of_erasing ho n))
  · exact congrArg Host.Outcome.next (fenced_of_nor_ite (norResume_eq rd n s))

end Sys2Proof.Machine

/-! PROOFS. A command that starts at once, one that a check ends, and what an ending leaves of its page (03 R76, R77, R82, R83). -/
namespace Sys2Proof.Machine

theorem fenced_congr {f g : State → State} {s : State} (h : f s = g s) : fenced f s = fenced g s := by simp only [fenced, h]

/-! ### A started command -/

/-- A command that starts at once runs its body behind the fence. -/
theorem exec_of_starts {i : Instr} {s : State} {p : Nat} {rid : BitVec 16} {c : Desc} (hi : i.command = some (p, rid, c))
    (h : Starts s p rid c) :
    exec i s = .next (fenced (fun x => startBody p s.cmd.goCount (s.cmd.acceptCount + 1) c (begun x p c)) s) :=
  (exec_command s hi h.1.1).trans (congrArg Host.Outcome.next (fenced_congr (goSubmit_starts h)))

/-- Settles O14. -/
theorem acceptedCommandStarts : Obligations.AcceptedCommandStarts := fun _ _ _ _ _ hi h => exec_of_starts hi h

theorem heldOf_begun (s : State) (p : Nat) (c : Desc) : heldOf (begun s p c) p s.cmd.goCount = some (readingHeld s p c []) := by
  rw [begun_eq_reading]
  exact heldOf_reading s p c [] s.core

theorem otherPages_begun (s : State) (p : Nat) (c : Desc) : OtherPages s (begun s p c) p := fun q hq => getTrs_setTrs_other p q _ _ hq

/-- Only ATTEND leaves a trace in the contexts as it is accepted. -/
theorem begun_ctx {s : State} {c : Desc} (p : Nat) (h : fld c 0 1 ≠ 0x13) : (begun s p c).ctx = s.ctx := by
  simp [begun, setTrs, h]

/-! ### The page after an ending -/

@[simp] theorem settleElapsed_defer (t : BitVec 64) (g : Trs) : (settleElapsed t g).defer = g.defer := by
  unfold settleElapsed; split <;> rfl

@[simp] theorem settleElapsed_deferOver (t : BitVec 64) (g : Trs) : (settleElapsed t g).deferOver = g.deferOver := by
  unfold settleElapsed; split <;> rfl

@[simp] theorem settleElapsed_sampleSeq (t : BitVec 64) (g : Trs) : (settleElapsed t g).sampleSeq = g.sampleSeq := by
  unfold settleElapsed; split <;> rfl

@[simp] theorem settleElapsed_lastSet (t : BitVec 64) (g : Trs) : (settleElapsed t g).lastSet = g.lastSet := by
  unfold settleElapsed; split <;> rfl

@[simp] theorem takeDeferred_sampleSeq (pick : Option Nat) (g : Trs) : (takeDeferred pick g).2.sampleSeq = g.sampleSeq := by
  unfold takeDeferred; dsimp only; split <;> rfl

@[simp] theorem takeDeferred_lastSet (pick : Option Nat) (g : Trs) : (takeDeferred pick g).2.lastSet = g.lastSet := by
  unfold takeDeferred; dsimp only; split <;> rfl

/-- The first pending deferred error is the one a report carries (03 R88). -/
theorem takeDeferred_first (g : Trs) : (takeDeferred none g).1 = g.defer.head?.map (fun x => deferredWord x
    (!((g.defer.filter (fun y => y.no != x.no)).isEmpty)) (!g.deferOver.isEmpty)) := by
  unfold takeDeferred
  cases g.defer.head? <;> rfl

/-- The page `g` as the ending of its command `h` at the instant `n` leaves it. -/
def endedPage (pick : Option Nat) (n : BitVec 64) (st : Byte) (res : BitVec 64) (h : Held) (g : Trs) : Trs :=
  let td := takeDeferred pick (settleElapsed n g)
  let q : Trs := { td.2 with held := td.2.held.map (fun (x : Held) => if x.id = h.id then h.endedWith st res td.1 else x) }
  { q with runSince := if anyRunning q then q.runSince else none }

/-- The deferred error that an ending's report carries. -/
def carried (pick : Option Nat) (g : Trs) : Option (BitVec 64) := (takeDeferred pick g).1

theorem endedPage_held (pick : Option Nat) (n : BitVec 64) (st : Byte) (res : BitVec 64) (h : Held) (g : Trs) :
    (endedPage pick n st res h g).held
      = g.held.map (fun x => if x.id = h.id then h.endedWith st res (carried pick (settleElapsed n g)) else x) := by
  simp [endedPage, carried]

theorem endedPage_sampleSeq (pick : Option Nat) (n : BitVec 64) (st : Byte) (res : BitVec 64) (h : Held) (g : Trs) :
    (endedPage pick n st res h g).sampleSeq = g.sampleSeq := by simp [endedPage]

theorem endedPage_lastSet (pick : Option Nat) (n : BitVec 64) (st : Byte) (res : BitVec 64) (h : Held) (g : Trs) :
    (endedPage pick n st res h g).lastSet = g.lastSet := by simp [endedPage]

section
variable {s : State} {p id : Nat} {h : Held} (pick : Option Nat) (quiet : Bool) (st : Byte) (res : BitVec 64) (hh : heldOf s p id = some h)
include hh

theorem getTrs_finishWith :
    getTrs (finishWith pick quiet p id st res s) p = endedPage pick (now s) st res h (getTrs s p) := by
  have hid := heldOf_id hh
  subst hid
  unfold finishWith
  rw [hh]
  dsimp only
  split
  · rw [getTrs_of_trs_eq (addCompletion_trs ..), getTrs_setTrs_self]; rfl
  · rw [getTrs_setTrs_self]; rfl

/-- An ending drops the buffered units that its command had not committed, and nothing else of the flash. -/
theorem finishWith_fl : (finishWith pick quiet p id st res s).fl = withoutEarly id s.fl := by
  unfold finishWith
  rw [hh]
  dsimp only
  split <;> simp [withoutEarly, setTrs]

theorem heldOf_finishWith :
    heldOf (finishWith pick quiet p id st res s) p id = some (h.endedWith st res (carried pick (settleElapsed (now s) (getTrs s p)))) := by
  have hid := heldOf_id hh
  subst hid
  unfold heldOf
  rw [getTrs_finishWith pick quiet st res hh, endedPage_held, find_map_held _ h.id (fun _ => h.endedWith st res _) (fun _ _ => rfl)]
  exact congrArg (Option.map _) hh

theorem finishWith_held_length :
    (getTrs (finishWith pick quiet p id st res s) p).held.length = (getTrs s p).held.length := by
  rw [getTrs_finishWith pick quiet st res hh, endedPage_held, List.length_map]
end

theorem otherPages_finishWith (pick : Option Nat) (quiet : Bool) (p id : Nat) (st : Byte) (res : BitVec 64) (s : State) :
    OtherPages s (finishWith pick quiet p id st res s) p := by
  cases hh : heldOf s p id with
  | some h => exact (finishWith_page pick quiet p id st res s hh).2.1
  | none => unfold finishWith; rw [hh]; exact OtherPages.refl s p

/-! ### A command that an early check ends -/

/-- A page that admits the requester and holds nothing takes the command to its checks, in service or not. -/
theorem goSubmit_of_empty {s : State} {p : Nat} {rid : BitVec 16} (c : Desc) (hw : bar2Writable s = true)
    (ha : admits s p rid = true) (hh : (getTrs s p).held = []) (hr : (getTrs s p).resetting = false) :
    goSubmit p rid c s = admitHeld p s.cmd.goCount c (arrived s p c) := by
  have h : modTrs p (fun q => { q with busy := false, held := q.held ++ [{ id := s.cmd.goCount, desc := c }] })
      { modTrs p (fun q => { q with command := c }) s with cmd := { s.cmd with goCount := s.cmd.goCount + 1 } } = arrived s p c := by
    refine (modTrs_setTrs p _ { getTrs s p with command := c } { s with cmd := { s.cmd with goCount := s.cmd.goCount + 1 } }).trans ?_
    simp [arrived, hh]
  have hg : goSubmit p rid c s = goArrived p (modTrs p (fun q => { q with command := c }) s) := by simp [goSubmit, hw, ha]
  rw [hg]
  unfold goArrived
  rw [getTrs_modTrs_self, if_neg (by simp [hh, hr])]
  exact congrArg (admitHeld p s.cmd.goCount c) h

/-- The state in which a command that fails an early check is reported. -/
def refused (s : State) (p : Nat) (c : Desc) (f : Byte × Option Nat) : State :=
  finish p s.cmd.goCount f.1 0 (modHeld p s.cmd.goCount (fun y => { y with byte := f.2.getD 0, byteValid := f.2.isSome }) (arrived s p c))

theorem heldOf_modHeld_arrived (s : State) (p : Nat) (c : Desc) (f : Held → Held) (hf : ∀ h, (f h).id = h.id) :
    heldOf (modHeld p s.cmd.goCount f (arrived s p c)) p s.cmd.goCount = some (f { id := s.cmd.goCount, desc := c }) := by
  rw [heldOf_modHeld_self _ _ _ _ (fun h e => (hf h).trans e), heldOf_arrived, Option.map_some]

/-- Such a command is reported, and nothing but its page, its number and its early units is touched. -/
theorem exec_refused {i : Instr} {s : State} {p : Nat} {rid : BitVec 16} {c : Desc} {st : Byte} {b : Option Nat}
    (hi : i.command = some (p, rid, c)) (hp : p < 4096) (hw : bar2Writable s = true) (ha : admits s p rid = true)
    (hh : (getTrs s p).held = []) (hr : (getTrs s p).resetting = false) (he : earlyFail (arrived s p c) p c = some (st, b)) :
    ∃ t, exec i s = .next t ∧ Reported t p s.cmd.goCount st 0 ∧ OtherPages s t p ∧ t.fl = withoutEarly s.cmd.goCount s.fl ∧ t.tun = s.tun
      ∧ t.ctx = s.ctx ∧ t.coll = s.coll ∧ t.nor = s.nor ∧ t.cmd = (refused s p c (st, b)).cmd := by
  have hheld := heldOf_modHeld_arrived s p c (fun y => { y with byte := b.getD 0, byteValid := b.isSome }) (fun _ => rfl)
  have hg : goSubmit p rid c s = refused s p c (st, b) := by
    rw [goSubmit_of_empty c hw ha hh hr]
    unfold admitHeld
    rw [he]
    rfl
  obtain ⟨⟨e, hend⟩, hother, -⟩ := finishWith_page none false p s.cmd.goCount st 0 _ hheld
  have hoth := ((otherPages_arrived s p c).trans (otherPages_modHeld p _ _ _)).trans hother
  rw [exec_command s hi hp]
  have ht := (fenced_trs (goSubmit p rid c) s).trans (congrArg State.trs hg)
  refine ⟨_, rfl, reported_of_ended ((heldOf_of_trs_eq ht ..).trans hend), otherPages_of_trs_eq ht hoth, ?_, ?_, ?_, ?_, ?_,
    (congrArg State.cmd hg : _)⟩
  · rw [fenced_fl, hg]; exact finishWith_fl none false st 0 hheld
  · rw [fenced_tun, hg]; exact finish_tun ..
  · rw [fenced_ctx, hg]; exact finish_ctx ..
  · rw [fenced_coll, hg]; exact finish_coll ..
  · rw [fenced_nor, hg]; exact finish_nor ..

/-! ### NOP, undefined opcodes and Fettle mode (03 R77, R82, R94) -/

/-- A started command that ends at once. -/
theorem finish_begun {s : State} (p : Nat) (c : Desc) {st : Byte} (hl : s.cmd.locks = []) (hst : st ≠ stInputStalled) :
    (finish p s.cmd.goCount st 0 (begun s p c)).cmd
      = { s.cmd with goCount := s.cmd.goCount + 1, acceptCount := s.cmd.acceptCount + 1 } := by
  obtain ⟨-, -, hcmd⟩ := finishWith_page none false p s.cmd.goCount st 0 _ (heldOf_begun s p c)
  refine hcmd.trans ?_
  have hlk : (begun s p c).cmd.locks.filter (fun l => l.id != s.cmd.goCount) = [] := by
    unfold begun
    simp only [setTrs_cmd]
    cases lockOf s c <;> simp
  rw [hlk, if_neg hst, ← hl]
  rfl

theorem nop_ends (s : State) (p : Nat) (rid : BitVec 16) (d c : Desc) (hc : c = setDescByte d 0 0) (h : Starts s p rid c) :
    ∃ t, exec (.goSubmitNop p rid d) s = .next t ∧ Reported t p s.cmd.goCount 0x00 0 ∧ OtherPages s t p
      ∧ t.fl = withoutEarly s.cmd.goCount s.fl ∧ t.tun = s.tun ∧ t.ctx = s.ctx ∧ t.coll = s.coll ∧ t.nor = s.nor
      ∧ t.cmd = { s.cmd with goCount := s.cmd.goCount + 1, acceptCount := s.cmd.acceptCount + 1 } := by
  have hop : fld c 0 1 = 0x00 := hc ▸ fld_setDescByte_opcode ..
  have hb : ∀ u, startBody p s.cmd.goCount (s.cmd.acceptCount + 1) c u = finish p s.cmd.goCount stOk 0 u := by
    intro u; simp only [startBody, hop]
  have hheld := heldOf_begun s p c
  obtain ⟨⟨e, hend⟩, hother, -⟩ := finishWith_page none false p s.cmd.goCount stOk 0 _ hheld
  have hl : s.cmd.locks = [] := h.1.2.2.2.2.2.2.1
  rw [exec_of_starts (i := .goSubmitNop p rid d) (congrArg (fun x => some (p, rid, x)) hc.symm) h]
  simp only [hb]
  refine ⟨_, rfl, reported_of_ended hend, (otherPages_begun s p c).trans hother, finishWith_fl none false stOk 0 hheld, finish_tun ..,
    (finish_ctx ..).trans (begun_ctx p (by simp [hop])), finish_coll .., finish_nor .., finish_begun p c hl (by decide)⟩

/-- An opcode outside Table 28 ends with INVALID_OPCODE. -/
theorem earlyFail_of_undefined {s : State} {p : Nat} {c : Desc} (hm : s.boot.mode = .service) (ho : fld c 0 1 ∉ opcodes) :
    earlyFail (arrived s p c) p c = some (stInvalidOpcode, none) := by
  have hm' : (arrived s p c).boot.mode = .service := hm
  unfold earlyFail
  dsimp only
  rw [hm', if_neg (by decide), if_pos ho]

theorem earlyFail_of_fettle {s : State} (p : Nat) (c : Desc) (hm : s.boot.mode = .fettle) :
    earlyFail (arrived s p c) p c = some (stFettle, none) := if_pos hm

/-- Settles O15. -/
theorem nopInvalidAndFettleEnd : Obligations.NopInvalidAndFettleEnd := by
  refine ⟨nop_ends, fun s p rid d ho => ?_, fun i s p rid c hi hp hm hd ha hh hr => ?_⟩
  · obtain ⟨hp, hm, hd, ha, hh, hr, hl, -⟩ := ho
    have hundef : fld (if fld d 0 1 ∈ opcodes then setDescByte d 0 0xFF else d) 0 1 ∉ opcodes := by
      split
      · rw [fld_setDescByte_opcode]; decide
      · assumption
    obtain ⟨t, he, hrep, hoth, hfl, htun, hctx, hcoll, hnor, hcmd⟩ := exec_refused (i := .invalidOpcode p rid d) rfl hp
      (bar2Writable_of hd hm) ha hh hr (earlyFail_of_undefined hm hundef)
    obtain ⟨-, -, hcmd'⟩ := finish_arrived s p (if fld d 0 1 ∈ opcodes then setDescByte d 0 0xFF else d)
      (fun y => { y with byte := (none : Option Nat).getD 0, byteValid := (none : Option Nat).isSome }) stInvalidOpcode (fun _ => rfl) hl (by decide)
    exact ⟨t, he, hrep, hoth, hfl, htun, hctx, hcoll, hnor, hcmd.trans hcmd'⟩
  · have hw : bar2Writable s = true := by simp [bar2Writable, hd, alive, hm]
    obtain ⟨t, he, hrep, hoth, hfl, htun, hctx, hcoll, -⟩ := exec_refused hi hp hw ha hh hr (earlyFail_of_fettle p c hm)
    exact ⟨t, he, hrep, hoth, hfl, htun, hctx, hcoll⟩

end Sys2Proof.Machine

/-! PROOFS. What the shared operations on stored data, tier pages and steps can change: the store alone, one page's counters, output, or
the steps of held commands (10, 11, 04 R134 to R140). -/
namespace Sys2Proof.Machine

/-! ### Work on the store -/

/-- The flash, the tier pages and the telemetry change at most. -/
def StoreOnly (s t : State) : Prop := ∃ f x e, t = { s with fl := f, tier := x, tele := e }

theorem StoreOnly.refl (s : State) : StoreOnly s s := ⟨_, _, _, rfl⟩

theorem StoreOnly.trans {s t u : State} (h : StoreOnly s t) (g : StoreOnly t u) : StoreOnly s u := by
  obtain ⟨f, x, e, rfl⟩ := h
  obtain ⟨f', x', e', rfl⟩ := g
  exact ⟨f', x', e', rfl⟩

theorem StoreOnly.foldl {α : Type} {f : State → α → State} (hf : ∀ s a, StoreOnly s (f s a)) (l : List α) (s : State) :
    StoreOnly s (l.foldl f s) :=
  List.foldlRecOn l f (motive := StoreOnly s) (StoreOnly.refl s) fun t ht a _ => ht.trans (hf t a)

section
variable {s t : State} (h : StoreOnly s t)
include h

theorem StoreOnly.trs : t.trs = s.trs := by obtain ⟨f, x, e, rfl⟩ := h; rfl

theorem StoreOnly.ctx : t.ctx = s.ctx := by obtain ⟨f, x, e, rfl⟩ := h; rfl

theorem StoreOnly.coll : t.coll = s.coll := by obtain ⟨f, x, e, rfl⟩ := h; rfl

theorem StoreOnly.tun : t.tun = s.tun := by obtain ⟨f, x, e, rfl⟩ := h; rfl
end

theorem storeOnly_journalFlush (s : State) : StoreOnly s (journalFlush s) := by
  unfold journalFlush
  split
  · exact StoreOnly.refl s
  · exact ⟨_, _, _, rfl⟩

theorem storeOnly_commitEntry (rs : List Rec) (s : State) : StoreOnly s (commitEntry rs s) := by
  unfold commitEntry commitAs
  dsimp only
  split
  · exact StoreOnly.trans ⟨_, _, _, rfl⟩ (storeOnly_journalFlush _)
  · exact ⟨_, _, _, rfl⟩

theorem storeOnly_bufferMany (u acc group n : Nat) (s : State) : StoreOnly s (bufferMany u acc group n s) := by
  induction n generalizing u s with
  | zero => exact StoreOnly.refl s
  | succ n ih => exact StoreOnly.trans ⟨_, _, _, rfl⟩ (ih (u + 1) (bufferUnit u acc group s))

theorem storeOnly_demotePage (k : Nat) (evict : Bool) (s : State) : StoreOnly s (demotePage k evict s) := by
  unfold demotePage
  split
  · exact StoreOnly.refl s
  · split
    · dsimp only
      split <;> split <;> exact ⟨_, _, _, rfl⟩
    · exact StoreOnly.refl s

theorem storeOnly_evictUntil (enough : State → Bool) (st : Nat) (chs : List Nat) (n : Nat) (s : State) :
    StoreOnly s (evictUntil enough st chs n s) := by
  induction n generalizing s with
  | zero => exact StoreOnly.refl s
  | succ n ih =>
    unfold evictUntil
    split
    · exact StoreOnly.refl s
    · split
      · exact StoreOnly.refl s
      · exact (storeOnly_demotePage ..).trans (ih _)

theorem storeOnly_makeRoom (g : Bool) (st tenant n : Nat) (s : State) : StoreOnly s (makeRoom g st tenant n s) := by
  unfold makeRoom
  split
  · exact storeOnly_evictUntil ..
  · exact StoreOnly.refl s

theorem storeOnly_placeFrame (st tenant n : Nat) (s : State) : StoreOnly s (placeFrame st tenant n s).1 := by
  unfold placeFrame
  split
  · exact StoreOnly.refl s
  · dsimp only
    split
    · exact StoreOnly.refl s
    · exact storeOnly_makeRoom ..

theorem storeOnly_placePinned (st tenant : Nat) (s : State) : StoreOnly s (placePinned st tenant s).1 := by
  unfold placePinned
  split
  · exact StoreOnly.refl s
  · dsimp only
    split
    · exact storeOnly_makeRoom true st tenant 1 s
    · exact StoreOnly.refl s

theorem storeOnly_placeKept (st tenant n : Nat) (s : State) : StoreOnly s (placeKept st tenant n s).1 := by
  induction n generalizing st s with
  | zero => exact StoreOnly.refl s
  | succ n ih =>
    unfold placeKept
    dsimp only
    split
    · exact storeOnly_placePinned ..
    · exact (storeOnly_placePinned ..).trans (ih _ _)

theorem storeOnly_createAt (o : Owner) (tenant acc : Nat) (home : Home) (slc : Bool) (bytes : List Byte) (s : State) :
    StoreOnly s (createAt o tenant acc home slc bytes s) :=
  StoreOnly.trans ⟨_, _, _, rfl⟩ (storeOnly_bufferMany ..)

theorem storeOnly_createPage (o : Owner) (tenant acc : Nat) (bytes : List Byte) (s : State) :
    StoreOnly s (createPage o tenant acc bytes s) := by
  unfold createPage
  split
  · split
    · dsimp only
      split
      · exact (storeOnly_placeKept ..).trans (storeOnly_createAt ..)
      · exact (storeOnly_placeKept ..).trans (storeOnly_createAt ..)
    · exact storeOnly_createAt ..
  · split
    · exact storeOnly_createAt ..
    · exact storeOnly_createAt ..

theorem storeOnly_modPage (k : Nat) (f : Page → Page) (s : State) : StoreOnly s (modPage k f s) := ⟨_, _, _, rfl⟩

/-- A read of a page for no page of registers counts on the flash channels alone. -/
theorem storeOnly_readFor (k : Nat) (s : State) : StoreOnly s (readFor none k s) := by
  have htouch : StoreOnly s (touchPage k s) := storeOnly_modPage ..
  unfold readFor
  dsimp only
  split
  · exact htouch
  · split
    · exact htouch
    · refine htouch.trans (StoreOnly.foldl (fun s' i => ?_) _ _)
      split
      · exact StoreOnly.refl s'
      · exact ⟨_, _, _, rfl⟩

theorem storeOnly_syncPage (cid tenant acc born : Nat) (img : Nat × Nat × List Byte) (s : State) :
    StoreOnly s (syncPage cid tenant acc born img s) := by
  unfold syncPage
  dsimp only
  split
  · split
    · exact StoreOnly.refl s
    · exact StoreOnly.trans ⟨_, _, _, rfl⟩ (storeOnly_bufferMany ..)
  · split
    · exact (storeOnly_createPage ..).trans (storeOnly_modPage ..)
    · exact storeOnly_createPage ..

theorem storeOnly_syncColl (cid acc : Nat) (s : State) : StoreOnly s (syncColl cid acc s) :=
  StoreOnly.foldl (fun s' img => storeOnly_syncPage _ _ _ _ img s') _ s

/-! ### Accounting on one page -/

/-- CURRENT of the page `p`, the flash, the tier pages and the telemetry change at most. -/
structure Accounts (p : Nat) (s t : State) : Prop where
  page : ∃ cur, getTrs t p = { getTrs s p with current := cur }
  others : OtherPages s t p
  rest : ∃ m f x e, t = { s with trs := m, fl := f, tier := x, tele := e }

theorem Accounts.refl (p : Nat) (s : State) : Accounts p s s := ⟨⟨_, rfl⟩, OtherPages.refl s p, _, _, _, _, rfl⟩

theorem Accounts.trans {p : Nat} {s t u : State} (h : Accounts p s t) (g : Accounts p t u) : Accounts p s u := by
  obtain ⟨⟨c, hc⟩, ho, m, f, x, e, rfl⟩ := h
  obtain ⟨⟨c', hc'⟩, ho', m', f', x', e', rfl⟩ := g
  exact ⟨⟨c', by rw [hc', hc]⟩, ho.trans ho', m', f', x', e', rfl⟩

theorem StoreOnly.accounts {s t : State} (p : Nat) (h : StoreOnly s t) : Accounts p s t := by
  obtain ⟨f, x, e, rfl⟩ := h
  exact ⟨⟨_, rfl⟩, fun _ _ => rfl, _, f, x, e, rfl⟩

theorem accounts_addCurrent (p : Nat) (f : CtrSet → CtrSet) (s : State) : Accounts p s (addCurrent p f s) :=
  ⟨⟨_, getTrs_addCurrent_self p f s⟩, otherPages_addCurrent p f s, _, _, _, _, rfl⟩

theorem Accounts.foldl {α : Type} {p : Nat} {f : State → α → State} (hf : ∀ s a, Accounts p s (f s a)) (l : List α) (s : State) :
    Accounts p s (l.foldl f s) :=
  List.foldlRecOn l f (motive := Accounts p s) (Accounts.refl p s) fun t ht a _ => ht.trans (hf t a)

section
variable {p : Nat} {s t : State} (h : Accounts p s t)
include h

theorem Accounts.held : (getTrs t p).held = (getTrs s p).held := by obtain ⟨⟨c, hc⟩, -⟩ := h; rw [hc]

theorem Accounts.resetting : (getTrs t p).resetting = (getTrs s p).resetting := by obtain ⟨⟨c, hc⟩, -⟩ := h; rw [hc]

theorem Accounts.tun : t.tun = s.tun := by obtain ⟨-, -, m, f, x, e, rfl⟩ := h; rfl

theorem Accounts.ctx : t.ctx = s.ctx := by obtain ⟨-, -, m, f, x, e, rfl⟩ := h; rfl

theorem Accounts.coll : t.coll = s.coll := by obtain ⟨-, -, m, f, x, e, rfl⟩ := h; rfl

theorem Accounts.outbox : t.outbox = s.outbox := by obtain ⟨-, -, m, f, x, e, rfl⟩ := h; rfl

theorem Accounts.pol : t.pol = s.pol := by obtain ⟨-, -, m, f, x, e, rfl⟩ := h; rfl
end

theorem accounts_countFlashRead (p u : Nat) (s : State) : Accounts p s (countFlashRead p u s) :=
  (StoreOnly.accounts p ⟨_, _, _, rfl⟩ : Accounts p s (bump 0x30 (faChan (mapOf s u).addr) 1 s)).trans
    (accounts_addCurrent p (fun c => { c with flashRd := c.flashRd + 16384 }) _)

theorem accounts_mergeUnit (p u : Nat) (part : Bool) (s : State) : Accounts p s (mergeUnit p u part s) := by
  unfold mergeUnit
  split
  · exact StoreOnly.accounts p ⟨_, _, _, rfl⟩
  · split
    · exact accounts_countFlashRead p u s
    · exact Accounts.refl p s

/-- Merging a unit and buffering it. -/
theorem accounts_bufferUnit_mergeUnit (p u acc : Nat) (part : Bool) (s : State) :
    Accounts p s (bufferUnit u acc 0 (mergeUnit p u part s)) :=
  (accounts_mergeUnit p u part s).trans (StoreOnly.accounts p ⟨_, _, _, rfl⟩)

theorem accounts_bufferBlocks (p v lba n acc : Nat) (s : State) : Accounts p s (bufferBlocks p v lba n acc s) := by
  unfold bufferBlocks
  split
  · exact Accounts.refl p s
  · exact Accounts.foldl (fun s' q => accounts_bufferUnit_mergeUnit p _ acc _ s') _ s

theorem accounts_putBlock (p v k : Nat) (bytes : List Byte) (chk : Option (BitVec 64)) (s : State) :
    Accounts p s (putBlock v k bytes chk s) := StoreOnly.accounts p ⟨_, _, _, rfl⟩

theorem accounts_applyWrite (p : Nat) (h : Held) (n : Nat) (s : State) : Accounts p s (applyWrite p h n s) := by
  unfold applyWrite
  dsimp only
  have hbuf := (StoreOnly.accounts p ⟨_, _, _, rfl⟩ : Accounts p s (overwrite (objOf h.desc) (fld h.desc 8 8) n s)).trans
    (accounts_bufferBlocks p (objOf h.desc) (fld h.desc 8 8) n h.acceptNo _)
  have hblocks := hbuf.trans (Accounts.foldl (fun s' i => accounts_putBlock p (objOf h.desc) (fld h.desc 8 8 + i)
    (rxBytes h (fld h.desc 24 8 + i * 4096) 4096) (if bitOf (fld h.desc 1 1) 1
      then some (BitVec.ofNat 64 (natOf (rxBytes h (fld h.desc 40 8 + i * 8) 8))) else none) s') (List.range n) _)
  have hcount := (hblocks.trans (StoreOnly.accounts p ⟨_, _, _, rfl⟩ : Accounts p _
    (cacheDrop (volBase s (objOf h.desc) * 4 + fld h.desc 8 8) n _))).trans
    (accounts_addCurrent p (fun c => { c with buffer := c.buffer + BitVec.ofNat 64 (n * 4096) }) _)
  split
  · exact hcount
  · exact hcount.trans (StoreOnly.accounts p ⟨_, _, _, rfl⟩)

theorem accounts_applyStopped (p : Nat) (h : Held) (s : State) : Accounts p s (applyStopped p h s).1 := by
  unfold applyStopped
  split
  · split
    · exact Accounts.refl p s
    · split
      · exact accounts_applyWrite ..
      · exact Accounts.refl p s
  · split
    · split <;> exact Accounts.refl p s
    · exact Accounts.refl p s
  · exact Accounts.refl p s

/-! ### Output to host memory -/

/-- The page `p` sends `out`; its CURRENT, the hub cache and the telemetry change beside. -/
structure Delivers (p : Nat) (out : List Out) (s t : State) : Prop where
  page : ∃ cur, getTrs t p = { getTrs s p with current := cur }
  others : OtherPages s t p
  rest : ∃ m k e, t = { s with trs := m, tier := { s.tier with cache := k }, tele := e, outbox := s.outbox ++ out }

theorem Delivers.nothing (p : Nat) (s : State) : Delivers p [] s s :=
  ⟨⟨_, rfl⟩, OtherPages.refl s p, s.trs, s.tier.cache, s.tele, by rw [List.append_nil]⟩

theorem Delivers.trans {p : Nat} {a b : List Out} {s t u : State} (h : Delivers p a s t) (g : Delivers p b t u) :
    Delivers p (a ++ b) s u := by
  obtain ⟨⟨c, hc⟩, ho, m, k, e, rfl⟩ := h
  obtain ⟨⟨c', hc'⟩, ho', m', k', e', rfl⟩ := g
  exact ⟨⟨c', by rw [hc', hc]⟩, ho.trans ho', m', k', e', by simp⟩

theorem Delivers.foldl_nothing {α : Type} {p : Nat} {f : State → α → State} (hf : ∀ s a, Delivers p [] s (f s a)) (l : List α) (s : State) :
    Delivers p [] s (l.foldl f s) :=
  List.foldlRecOn l f (motive := Delivers p [] s) (Delivers.nothing p s) fun t ht a _ => ht.trans (hf t a)

theorem Delivers.held {p : Nat} {out : List Out} {s t : State} (h : Delivers p out s t) : (getTrs t p).held = (getTrs s p).held := by
  obtain ⟨⟨c, hc⟩, -⟩ := h
  rw [hc]

theorem delivers_addCurrent (p : Nat) (f : CtrSet → CtrSet) (s : State) : Delivers p [] s (addCurrent p f s) :=
  ⟨⟨_, getTrs_addCurrent_self p f s⟩, otherPages_addCurrent p f s, (addCurrent p f s).trs, s.tier.cache, s.tele,
    by rw [List.append_nil]; rfl⟩

theorem delivers_bump (p k i n : Nat) (s : State) : Delivers p [] s (bump k i n s) :=
  ⟨⟨_, rfl⟩, fun _ _ => rfl, s.trs, s.tier.cache, (bump k i n s).tele, by rw [List.append_nil]; rfl⟩

theorem delivers_emitAll (p : Nat) (os : List Out) (s : State) : Delivers p os s (emitAll os s) :=
  ⟨⟨_, rfl⟩, fun _ _ => rfl, s.trs, s.tier.cache, s.tele, rfl⟩

/-- A write to host memory sends its requests; a device that cannot send writes nothing. -/
theorem delivers_dmaWrite (p a : Nat) (bytes : List Byte) (r : Bool) (s : State) :
    Delivers p (hostWrites s a bytes r) s (dmaWrite p a bytes r s) := by
  unfold dmaWrite
  split
  · have h := (((delivers_emitAll p (hostWrites s a bytes r) s).trans (delivers_bump p 0x40 1 bytes.length _)).trans
      (delivers_bump p 0x57 (tenantOf s p) bytes.length _)).trans
      (delivers_addCurrent p (fun c => { c with hostWr := c.hostWr + BitVec.ofNat 64 bytes.length }) _)
    simpa only [List.append_nil] using h
  · rename_i hm
    have h : hostWrites s a bytes r = [] := if_neg hm
    rw [h]
    exact Delivers.nothing p s

/-- Output does not change what a device that writes to host memory sends. -/
theorem Delivers.hostWrites_eq {p : Nat} {out : List Out} {s t : State} (h : Delivers p out s t) (a : Nat) (bytes : List Byte) (r : Bool) :
    hostWrites t a bytes r = hostWrites s a bytes r := by
  obtain ⟨-, -, m, k, e, rfl⟩ := h
  rfl

theorem delivers_cacheFill (p tenant key : Nat) (s : State) : Delivers p [] s (cacheFill tenant key s) := by
  have h : ∀ k, Delivers p [] s { s with tier := { s.tier with cache := k } } := fun k =>
    ⟨⟨_, rfl⟩, fun _ _ => rfl, s.trs, k, s.tele, by rw [List.append_nil]⟩
  unfold cacheFill
  split
  · exact h _
  · dsimp only
    split
    · exact h _
    · split
      · exact Delivers.nothing p s
      · exact h _

theorem delivers_countFlashRead (p u : Nat) (s : State) : Delivers p [] s (countFlashRead p u s) :=
  (delivers_bump p 0x30 (faChan (mapOf s u).addr) 1 s).trans
    (delivers_addCurrent p (fun c => { c with flashRd := c.flashRd + 16384 }) _)

theorem delivers_touchUnit (p u : Nat) (cws : List Nat) (s : State) : Delivers p [] s (touchUnit p u cws s) := by
  unfold touchUnit
  split
  · exact Delivers.nothing p s
  · dsimp only
    have hfill := fun s' : State => Delivers.foldl_nothing
      (fun s'' c => delivers_cacheFill p (unitTenant s u) (u * 4 + c) s'') cws s'
    split
    · exact hfill s
    · exact (delivers_countFlashRead p u s).trans (hfill _)

theorem delivers_touchRange (p v lba n : Nat) (s : State) : Delivers p [] s (touchRange p v lba n s) := by
  unfold touchRange
  split
  · exact Delivers.nothing p s
  · exact Delivers.foldl_nothing (fun s' q => delivers_touchUnit p _ _ s') _ s

/-! ### Heats, joins and the riser (04 R134 to R138) -/

/-- A held command without its step. -/
def Held.withoutStep (h : Held) : Held := { h with step := none }

/-- Of the held commands only their steps change, and the contexts stay. -/
structure StepsOnly (s t : State) : Prop where
  held : ∀ p, (getTrs t p).held.map Held.withoutStep = (getTrs s p).held.map Held.withoutStep
  ctx : t.ctx = s.ctx

theorem StepsOnly.refl (s : State) : StepsOnly s s := ⟨fun _ => rfl, rfl⟩

theorem StepsOnly.trans {s t u : State} (h : StepsOnly s t) (g : StepsOnly t u) : StepsOnly s u :=
  ⟨fun p => (g.held p).trans (h.held p), g.ctx.trans h.ctx⟩

theorem StepsOnly.foldl {α : Type} {f : State → α → State} (hf : ∀ s a, StepsOnly s (f s a)) (l : List α) (s : State) :
    StepsOnly s (l.foldl f s) :=
  List.foldlRecOn l f (motive := StepsOnly s) (StepsOnly.refl s) fun t ht a _ => ht.trans (hf t a)

theorem StepsOnly.of_trs {s t : State} (h : t.trs = s.trs) (hc : t.ctx = s.ctx) : StepsOnly s t :=
  ⟨fun p => by rw [getTrs_of_trs_eq h], hc⟩

theorem StoreOnly.stepsOnly {s t : State} (h : StoreOnly s t) : StepsOnly s t := StepsOnly.of_trs h.trs h.ctx

theorem StepsOnly.length {s t : State} (h : StepsOnly s t) (p : Nat) : (getTrs t p).held.length = (getTrs s p).held.length := by
  simpa using congrArg List.length (h.held p)

/-- A command stands where it stood, with another step at most. -/
theorem StepsOnly.heldOf {s t : State} (h : StepsOnly s t) {p id : Nat} {x : Held} (hx : heldOf s p id = some x) :
    ∃ y, Machine.heldOf t p id = some y ∧ y.withoutStep = x.withoutStep := by
  have hmap : ∀ l : List Held, (l.map Held.withoutStep).find? (fun y => y.id == id) = (l.find? (fun y => y.id == id)).map Held.withoutStep :=
    fun l => List.find?_map
  have he := congrArg (fun l : List Held => l.find? (fun y => y.id == id)) (h.held p)
  rw [hmap, hmap] at he
  have hx' : (getTrs s p).held.find? (fun y => y.id == id) = some x := hx
  rw [hx', Option.map_some, Option.map_eq_some_iff] at he
  exact he

theorem stepsOnly_modStep (p id : Nat) (f : Step → Step) (s : State) : StepsOnly s (modStep p id f s) := by
  refine ⟨fun q => ?_, rfl⟩
  by_cases hq : q = p
  · subst hq
    unfold modStep modHeld
    rw [getTrs_modTrs_self, List.map_map]
    refine List.map_congr_left fun h _ => ?_
    simp only [Function.comp_apply]
    split <;> rfl
  · exact congrArg (fun g : Trs => g.held.map Held.withoutStep) (otherPages_modHeld p id _ s q hq)

theorem stepsOnly_checkWindow (s : State) : StepsOnly s (checkWindow s) := by
  unfold checkWindow
  split
  · exact StepsOnly.refl s
  · split
    · exact StepsOnly.of_trs rfl rfl
    · exact StepsOnly.refl s

/-- An all-or-nothing run over pages, where it comes through. -/
theorem stepsOnly_bindFold {α : Type} {f : State → α → Option State} (hf : ∀ s a t, f s a = some t → StepsOnly s t) (l : List α)
    {s t : State} (h : l.foldl (fun acc a => acc.bind (fun s' => f s' a)) (some s) = some t) : StepsOnly s t := by
  induction l generalizing s with
  | nil => exact Option.some.inj h ▸ StepsOnly.refl s
  | cons a l ih =>
    rw [List.foldl_cons, Option.bind_some] at h
    cases hs : f s a with
    | none =>
      have hnone : ∀ l : List α, l.foldl (fun acc a => acc.bind (fun s' => f s' a)) none = none := by
        intro l
        induction l with
        | nil => rfl
        | cons b l ihl => exact ihl
      rw [hs, hnone] at h
      exact absurd h nofun
    | some u =>
      rw [hs] at h
      exact (hf s a u hs).trans (ih h)

theorem stepsOnly_putFrame (kind : FrameKind) (k st ch tenant : Nat) (s : State) : StepsOnly s (putFrame kind k st ch tenant s) :=
  StepsOnly.of_trs rfl rfl

theorem stepsOnly_riserPage {t id l idx : Nat} {o : Owner} {k : Nat} {p : Page} {s u : State}
    (h : riserPage t id l idx o k p s = some u) : StepsOnly s u := by
  unfold riserPage at h
  dsimp only at h
  split at h
  · exact Option.some.inj h ▸ (storeOnly_readFor k s).stepsOnly.trans (storeOnly_modPage ..).stepsOnly
  · split at h
    · exact absurd h nofun
    · split at h
      · exact absurd h nofun
      · obtain ⟨ch, -, rfl⟩ := Option.map_eq_some_iff.1 h
        exact (storeOnly_readFor k s).stepsOnly.trans (stepsOnly_putFrame ..)

theorem stepsOnly_riserLayer {t id l idx : Nat} {os : List Owner} {s u : State} (h : riserLayer t id l idx os s = some u) :
    StepsOnly s u := by
  refine stepsOnly_bindFold (fun s' o v hv => ?_) os h
  split at hv
  · exact Option.some.inj hv ▸ StepsOnly.refl s'
  · exact stepsOnly_riserPage hv

theorem stepsOnly_riserLayers (t id idx : Nat) (p : Step) (ls : List Nat) (s : State) : StepsOnly s (riserLayers t id idx p ls s) := by
  induction ls generalizing s with
  | nil => exact StepsOnly.refl s
  | cons l ls ih =>
    unfold riserLayers
    split
    · exact StepsOnly.refl s
    · exact (stepsOnly_riserLayer ‹_›).trans (ih _)

theorem stepsOnly_riserCommit (t id : Nat) (s : State) : StepsOnly s (riserCommit t id s) := by
  unfold riserCommit
  split
  · exact StepsOnly.refl s
  · dsimp only
    split
    · exact stepsOnly_riserLayers ..
    · exact StepsOnly.refl s

theorem stepsOnly_joinFrames {t id l : Nat} {os : List Owner} {s u : State} (h : joinFrames t id l os s = some u) : StepsOnly s u := by
  refine stepsOnly_bindFold (fun s' o v hv => ?_) os h
  split at hv
  · exact Option.some.inj hv ▸ StepsOnly.refl s'
  · obtain ⟨ch, -, rfl⟩ := Option.map_eq_some_iff.1 hv
    exact ((storeOnly_placeFrame ..).stepsOnly.trans (storeOnly_readFor ..).stepsOnly).trans (stepsOnly_putFrame ..)

theorem stepsOnly_tryJoin {t id : Nat} {p : Step} {s u : State} (h : tryJoin t id p s = some u) : StepsOnly s u := by
  unfold tryJoin at h
  dsimp only at h
  split at h
  · exact absurd h nofun
  · obtain ⟨v, hv, rfl⟩ := Option.map_eq_some_iff.1 h
    exact (((storeOnly_placeFrame ..).stepsOnly.trans (stepsOnly_modStep ..)).trans (stepsOnly_joinFrames hv)).trans (stepsOnly_modStep ..)

theorem stepsOnly_considerJoins (es : List (Nat × Nat × Step)) (s : State) : StepsOnly s (considerJoins es s).1 := by
  induction es generalizing s with
  | nil => exact StepsOnly.refl s
  | cons e es ih =>
    unfold considerJoins
    split
    · exact ih s
    · split
      · exact stepsOnly_modStep ..
      · exact (stepsOnly_tryJoin ‹_›).trans (ih _)

theorem stepsOnly_joinAll (s : State) : StepsOnly s (joinAll s) :=
  (stepsOnly_considerJoins ..).trans (StepsOnly.foldl (fun s' (e : Nat × Nat) => stepsOnly_riserCommit e.1 e.2 s') _ _)

theorem stepsOnly_leaveAll (s : State) : StepsOnly s (leaveAll s) :=
  (StepsOnly.foldl (f := fun s' (e : Nat × Nat × Nat × Step) => releaseFrames e.2.1 e.2.2.1 s')
    (fun _ _ => StepsOnly.of_trs rfl rfl) _ s).trans (StepsOnly.of_trs rfl rfl)

theorem stepsOnly_settleLeaves (s : State) : StepsOnly s (settleLeaves s) := by
  unfold settleLeaves
  split
  · exact StepsOnly.refl s
  · split
    · exact StepsOnly.refl s
    · exact ((stepsOnly_leaveAll s).trans (stepsOnly_joinAll _)).trans (stepsOnly_checkWindow _)

end Sys2Proof.Machine

/-! PROOFS. Stopped commands, reports of decided endings, NEXT and QRESET, and the counters that commands read (03 R75, R83, R93, 16 R469,
R476). -/
namespace Sys2Proof.Machine

/-! ### Held commands beside the changed one -/

theorem find_map_held_other (l : List Held) {id j : Nat} (hj : j ≠ id) (f : Held → Held) (hf : ∀ h, h.id = id → (f h).id = id) :
    (l.map (fun h => if h.id = id then f h else h)).find? (fun h => h.id == j) = l.find? (fun h => h.id == j) := by
  induction l with
  | nil => rfl
  | cons a l ih =>
    by_cases h : a.id = id
    · simp [h, hf a h, Ne.symm hj, ih]
    · simp [h, ih, List.find?_cons]

theorem heldOf_modHeld_other {p id j : Nat} (hj : j ≠ id) (f : Held → Held) (s : State) (hf : ∀ h, h.id = id → (f h).id = id) :
    heldOf (modHeld p id f s) p j = heldOf s p j := by
  unfold heldOf modHeld
  rw [getTrs_modTrs_self]
  exact find_map_held_other _ hj f hf

theorem heldOf_of_otherPages {s t : State} {p q : Nat} (h : OtherPages s t p) (hq : q ≠ p) (id : Nat) : heldOf t q id = heldOf s q id := by
  simp only [heldOf, h q hq]

/-! ### Deciding an ending -/

/-- The command `h` with its ending decided. -/
def Held.decided (h : Held) (st : Byte) (res : Nat) : Held := { h with ending := some ⟨st, BitVec.ofNat 64 res⟩ }

theorem heldOf_decideEnd_self {p id : Nat} {s : State} {h : Held} (st : Byte) (res : Nat) (hh : heldOf s p id = some h)
    (hu : h.undecided = true) : heldOf (decideEnd p id st res s) p id = some (h.decided st res) := by
  unfold decideEnd
  rw [heldOf_modHeld_self, hh, Option.map_some, if_pos hu]
  · rfl
  · intro y e
    split <;> exact e

theorem heldOf_decideEnd_other {p id j : Nat} (hj : j ≠ id) (st : Byte) (res : Nat) (s : State) :
    heldOf (decideEnd p id st res s) p j = heldOf s p j := by
  refine heldOf_modHeld_other hj _ s fun y e => ?_
  split <;> exact e

theorem decided_of_heldOf {t : State} {p id : Nat} {h : Held} {st : Byte} {res : Nat} (hh : heldOf t p id = some (h.decided st res)) :
    Decided t p id st res := by
  unfold Decided
  rw [hh]
  rfl

/-- An undecided command is decided. -/
theorem decided_decideEnd {p id : Nat} {s : State} {h : Held} (st : Byte) (res : Nat) (hh : heldOf s p id = some h)
    (hu : h.undecided = true) : Decided (decideEnd p id st res s) p id st res := decided_of_heldOf (heldOf_decideEnd_self st res hh hu)

theorem undecided_readingHeld (s : State) (p : Nat) (c : Desc) (rs : List (Nat × Nat)) : (readingHeld s p c rs).undecided = true := rfl

/-! ### Stopping commands (03 R92, R93) -/

/-- Commands of the page `p` are stopped with `st`: what they have written is kept, and their endings are decided. -/
structure Stops (st : Byte) (p : Nat) (s t : State) : Prop where
  others : OtherPages s t p
  tun : t.tun = s.tun
  ctx : t.ctx = s.ctx
  coll : t.coll = s.coll
  outbox : t.outbox = s.outbox
  resetting : (getTrs t p).resetting = (getTrs s p).resetting
  length : (getTrs t p).held.length = (getTrs s p).held.length
  held : ∀ id, heldOf t p id = heldOf s p id
    ∨ ∃ h res, heldOf s p id = some h ∧ h.undecided = true ∧ heldOf t p id = some (h.decided st res)

theorem Stops.refl (st : Byte) (p : Nat) (s : State) : Stops st p s s := ⟨OtherPages.refl s p, rfl, rfl, rfl, rfl, rfl, rfl, fun _ => Or.inl rfl⟩

theorem decided_undecided (h : Held) (st : Byte) (res : Nat) : (h.decided st res).undecided = false := Bool.and_false _

theorem Stops.trans {st : Byte} {p : Nat} {s t u : State} (h : Stops st p s t) (g : Stops st p t u) : Stops st p s u := by
  refine ⟨h.others.trans g.others, g.tun.trans h.tun, g.ctx.trans h.ctx, g.coll.trans h.coll, g.outbox.trans h.outbox,
    g.resetting.trans h.resetting, g.length.trans h.length, fun id => ?_⟩
  rcases h.held id with h1 | ⟨x, res, hx, hu, h1⟩
  · rcases g.held id with g1 | ⟨y, res, hy, hu, g1⟩
    · exact Or.inl (g1.trans h1)
    · exact Or.inr ⟨y, res, h1 ▸ hy, hu, g1⟩
  · rcases g.held id with g1 | ⟨y, res', hy, hu', -⟩
    · exact Or.inr ⟨x, res, hx, hu, g1.trans h1⟩
    · rw [h1, Option.some.injEq] at hy
      rw [← hy, decided_undecided] at hu'
      exact absurd hu' nofun

/-- One command stops, and is decided afterwards. -/
theorem stops_stopCommand (st : Byte) (p id : Nat) (s : State) : Stops st p s (stopCommand p id st s)
    ∧ ∀ h, heldOf s p id = some h → h.undecided = true → ∃ res, heldOf (stopCommand p id st s) p id = some (h.decided st res) := by
  unfold stopCommand
  cases hh : heldOf s p id with
  | none => exact ⟨Stops.refl st p s, fun _ he => absurd he.symm (Option.some_ne_none _)⟩
  | some x =>
    dsimp only
    split
    · rename_i hu
      have ha := accounts_applyStopped p x s
      have hx : heldOf (applyStopped p x s).1 p id = some x := (heldOf_of_held_eq ha.held id).trans hh
      have hdec := heldOf_decideEnd_self st (applyStopped p x s).2 hx hu
      refine ⟨⟨ha.others.trans (otherPages_decideEnd p id _ _ _), ha.tun, ha.ctx, ha.coll, ha.outbox, ?_, ?_, fun j => ?_⟩, fun h he _ => ?_⟩
      · unfold decideEnd modHeld
        rw [getTrs_modTrs_self]
        exact ha.resetting
      · unfold decideEnd modHeld
        rw [getTrs_modTrs_self, List.length_map, ha.held]
      · by_cases hj : j = id
        · subst hj
          exact Or.inr ⟨x, _, hh, hu, hdec⟩
        · exact Or.inl ((heldOf_decideEnd_other hj ..).trans (heldOf_of_held_eq ha.held j))
      · exact ⟨(applyStopped p x s).2, (Option.some.inj he : x = h) ▸ hdec⟩
    · rename_i hu
      exact ⟨Stops.refl st p s, fun h he hu' => absurd ((congrArg Held.undecided (Option.some.inj he)).trans hu') hu⟩

/-- Every undecided command of a list of numbers is decided in turn. -/
theorem stops_foldl (st : Byte) (p : Nat) (ids : List Nat) (s : State) :
    Stops st p s (ids.foldl (fun s' id => stopCommand p id st s') s)
    ∧ ∀ id ∈ ids, ∀ h, heldOf s p id = some h → h.undecided = true →
        ∃ res, heldOf (ids.foldl (fun s' id => stopCommand p id st s') s) p id = some (h.decided st res) := by
  induction ids generalizing s with
  | nil => exact ⟨Stops.refl st p s, nofun⟩
  | cons i ids ih =>
    obtain ⟨hi, hdec⟩ := stops_stopCommand st p i s
    obtain ⟨hrest, hall⟩ := ih (stopCommand p i st s)
    refine ⟨hi.trans hrest, fun id hid h hh hu => ?_⟩
    have hkept : ∀ res, heldOf (stopCommand p i st s) p id = some (h.decided st res) →
        ∃ res, heldOf (List.foldl (fun s' id => stopCommand p id st s') (stopCommand p i st s) ids) p id = some (h.decided st res) := by
      intro res hres
      rcases hrest.held id with he | ⟨y, _, hy, hu', -⟩
      · exact ⟨res, he.trans hres⟩
      · rw [hres, Option.some.injEq] at hy
        rw [← hy, decided_undecided] at hu'
        exact absurd hu' nofun
    rcases hi.held id with he | ⟨y, res, hy, -, hres⟩
    · rcases List.mem_cons.1 hid with rfl | hid
      · obtain ⟨res, hres⟩ := hdec h hh hu
        exact hkept res hres
      · exact hall id hid h (he.trans hh) hu
    · rw [hh, Option.some.injEq] at hy
      exact hkept res (hy ▸ hres)

/-! ### Reports (03 R76, R83, 04 R132) -/

theorem ended_of_endPhase {h : Held} {st : Byte} (hp : h.phase = endPhase st) : h.ended = true := by
  unfold endPhase at hp
  unfold Held.ended
  split at hp <;> simp [hp]

/-- The held command `g` reports what `h` was decided to report. -/
def ReportOf (e : Ending) (g : Held) : Prop := g.ended = true ∧ g.status = e.status

/-- Decided endings of the page `p` are reported: each still stands as decided, or is reported; none comes or goes. -/
structure Reports (p : Nat) (s t : State) : Prop where
  ctx : t.ctx = s.ctx
  length : (getTrs t p).held.length = (getTrs s p).held.length
  reported : ∀ id h e, heldOf s p id = some h → ReportOf e h → ∃ g, heldOf t p id = some g ∧ ReportOf e g
  decided : ∀ id h e, heldOf s p id = some h → h.ending = some e → h.ended = false →
    ∃ g, heldOf t p id = some g ∧ ((g.ending = some e ∧ g.ended = false) ∨ ReportOf e g)

theorem Reports.refl (p : Nat) (s : State) : Reports p s s :=
  ⟨rfl, rfl, fun _ h _ hh hr => ⟨h, hh, hr⟩, fun _ h _ hh he hn => ⟨h, hh, Or.inl ⟨he, hn⟩⟩⟩

theorem Reports.trans {p : Nat} {s t u : State} (h : Reports p s t) (g : Reports p t u) : Reports p s u := by
  refine ⟨g.ctx.trans h.ctx, g.length.trans h.length, fun id x e hx hr => ?_, fun id x e hx he hn => ?_⟩
  · obtain ⟨y, hy, hr'⟩ := h.reported id x e hx hr
    exact g.reported id y e hy hr'
  · obtain ⟨y, hy, ⟨he', hn'⟩ | hr'⟩ := h.decided id x e hx he hn
    · exact g.decided id y e hy he' hn'
    · obtain ⟨z, hz, hr''⟩ := g.reported id y e hy hr'
      exact ⟨z, hz, Or.inr hr''⟩

/-- What a report consists of does not depend on the step. -/
theorem report_of_withoutStep {x y : Held} (h : y.withoutStep = x.withoutStep) :
    y.ended = x.ended ∧ y.ending = x.ending ∧ y.status = x.status :=
  ⟨(congrArg Held.ended h :), (congrArg Held.ending h :), (congrArg Held.status h :)⟩

theorem StepsOnly.reports {s t : State} (h : StepsOnly s t) (p : Nat) : Reports p s t := by
  refine ⟨h.ctx, h.length p, fun id x e hx hr => ?_, fun id x e hx he hn => ?_⟩
  · obtain ⟨y, hy, hxy⟩ := h.heldOf hx
    obtain ⟨hended, -, hstatus⟩ := report_of_withoutStep hxy
    exact ⟨y, hy, hended.trans hr.1, hstatus.trans hr.2⟩
  · obtain ⟨y, hy, hxy⟩ := h.heldOf hx
    obtain ⟨hended, hending, -⟩ := report_of_withoutStep hxy
    exact ⟨y, hy, Or.inl ⟨hending.trans he, hended.trans hn⟩⟩

/-- The other commands of a page stand while one of them ends. -/
theorem heldOf_finishWith_other {p id j : Nat} {s : State} (hj : j ≠ id) (pick : Option Nat) (quiet : Bool) (st : Byte) (res : BitVec 64) :
    heldOf (finishWith pick quiet p id st res s) p j = heldOf s p j := by
  cases hh : heldOf s p id with
  | none => unfold finishWith; rw [hh]
  | some h =>
    have hid := heldOf_id hh
    subst hid
    unfold heldOf
    rw [getTrs_finishWith pick quiet st res hh, endedPage_held]
    exact find_map_held_other _ hj (fun _ => h.endedWith st res _) (fun _ _ => rfl)

/-- An ending with the decided status reports it. -/
theorem reports_finishWith {p id : Nat} {s : State} {h : Held} {e : Ending} (quiet : Bool) (res : BitVec 64) (hh : heldOf s p id = some h)
    (he : h.ending = some e) (hn : h.ended = false) :
    Reports p s (finishWith none quiet p id e.status res s)
      ∧ ∃ g, heldOf (finishWith none quiet p id e.status res s) p id = some g ∧ ReportOf e g := by
  have hend := heldOf_finishWith none quiet e.status res hh
  have hrep : ReportOf e (h.endedWith e.status res (carried none (settleElapsed (now s) (getTrs s p)))) :=
    ⟨ended_of_endPhase (st := e.status) rfl, rfl⟩
  refine ⟨⟨finishWith_ctx .., finishWith_held_length none quiet e.status res hh, fun j x e' hx hr => ?_, fun j x e' hx he' hn' => ?_⟩,
    _, hend, hrep⟩
  · by_cases hj : j = id
    · subst hj
      rw [hh, Option.some.injEq] at hx
      rw [← hx, ReportOf, hn] at hr
      exact absurd hr.1 nofun
    · exact ⟨x, (heldOf_finishWith_other hj ..).trans hx, hr⟩
  · by_cases hj : j = id
    · subst hj
      rw [hh, Option.some.injEq] at hx
      subst hx
      rw [he, Option.some.injEq] at he'
      exact ⟨_, hend, Or.inr (he' ▸ hrep)⟩
    · exact ⟨x, (heldOf_finishWith_other hj ..).trans hx, Or.inl ⟨he', hn'⟩⟩

/-- Before an ATTEND's ending: the completion word is written and the step leaves. -/
theorem stepsOnly_dmaWrite (p a : Nat) (bytes : List Byte) (r : Bool) (s : State) : StepsOnly s (dmaWrite p a bytes r s) := by
  have h := delivers_dmaWrite p a bytes r s
  refine ⟨fun q => ?_, ?_⟩
  · by_cases hq : q = p
    · rw [hq, h.held]
    · rw [h.others q hq]
  · obtain ⟨-, -, m, k, e, he⟩ := h
    rw [he]

/-- The state in which a step that ends with `code` has sent its completion line, where it sends one, and leaves its heat. -/
def stepLeft (p id : Nat) (code : Byte) (q : Step) (s : State) : State :=
  let l := q.layer0 + q.doneLayers
  let s1 := if code = stOk ∨ code = stShort then s
    else dmaWrite p (q.blockAt l + q.ls - 64) (completionLine l code false q.seq) false s
  { s1 with heat := { s1.heat with running := s1.heat.running.filter (fun r => !(r.1 == p && r.2.1 == id)),
                                   leaving := s1.heat.leaving ++ [(idxOf s p id, p, id, q)] } }

theorem attendEndWith_of_step {s : State} {p id : Nat} {q : Step} (quiet : Bool) (code : Byte)
    (hq : (heldOf s p id).bind (·.step) = some q) : attendEndWith quiet p id code s
      = settleLeaves (finishWith none quiet p id code (BitVec.ofNat 64 q.doneLayers) (stepLeft p id code q s)) := by
  unfold attendEndWith
  rw [hq]
  rfl

theorem held_stepLeft (p id : Nat) (code : Byte) (q : Step) (s : State) : (getTrs (stepLeft p id code q s) p).held = (getTrs s p).held := by
  unfold stepLeft
  dsimp only
  split
  · rfl
  · exact (delivers_dmaWrite p _ _ false s).held

theorem stepsOnly_stepLeft (p id : Nat) (code : Byte) (q : Step) (s : State) : StepsOnly s (stepLeft p id code q s) := by
  unfold stepLeft
  dsimp only
  split
  · exact StepsOnly.of_trs rfl rfl
  · exact (stepsOnly_dmaWrite ..).trans (StepsOnly.of_trs rfl rfl)

theorem reports_attendEndWith {p id : Nat} {s : State} {h : Held} {e : Ending} (hh : heldOf s p id = some h) (he : h.ending = some e)
    (hn : h.ended = false) :
    Reports p s (attendEndWith false p id e.status s) ∧ ∃ g, heldOf (attendEndWith false p id e.status s) p id = some g ∧ ReportOf e g := by
  cases hq : h.step with
  | none =>
    have hs : (heldOf s p id).bind (·.step) = none := by rw [hh]; exact hq
    unfold attendEndWith
    rw [hs]
    exact reports_finishWith false 0 hh he hn
  | some q =>
    rw [attendEndWith_of_step false e.status (by rw [hh]; exact hq : (heldOf s p id).bind (·.step) = some q)]
    have hx := (heldOf_of_held_eq (held_stepLeft p id e.status q s) id).trans hh
    obtain ⟨hrep, g, hg, hge⟩ := reports_finishWith false (BitVec.ofNat 64 q.doneLayers) hx he hn
    have hleave := (stepsOnly_settleLeaves (finishWith none false p id e.status (BitVec.ofNat 64 q.doneLayers)
      (stepLeft p id e.status q s))).reports p
    exact ⟨(((stepsOnly_stepLeft ..).reports p).trans hrep).trans hleave, hleave.reported id g e hg hge⟩

/-- A decided ending is reported, and every other command stands. -/
theorem reports_reportDecided (p id : Nat) (s : State) :
    Reports p s (reportDecided false p id s) ∧ ∀ h e, heldOf s p id = some h → h.ending = some e → h.ended = false →
      ∃ g, heldOf (reportDecided false p id s) p id = some g ∧ ReportOf e g := by
  unfold reportDecided
  cases hh : heldOf s p id with
  | none => exact ⟨Reports.refl p s, fun _ _ he => absurd he.symm (Option.some_ne_none _)⟩
  | some h =>
    cases he : h.ending with
    | none => exact ⟨by simpa [he] using Reports.refl p s, fun x e hx hxe => absurd (Option.some.inj hx ▸ hxe) (by simp [he])⟩
    | some e =>
      have hbind : (some h).bind (fun x => x.ending) = some e := he
      rw [hbind]
      dsimp only
      have hkey : ∀ t, (h.ended = false → Reports p s t ∧ ∃ g, heldOf t p id = some g ∧ ReportOf e g) → h.ended = false →
          Reports p s t ∧ ∀ x e', some h = some x → x.ending = some e' → x.ended = false → ∃ g, heldOf t p id = some g ∧ ReportOf e' g := by
        intro t ht hn
        refine ⟨(ht hn).1, fun x e' hx hxe _ => ?_⟩
        rw [← Option.some.inj hx, he, Option.some.injEq] at hxe
        exact hxe ▸ (ht hn).2
      unfold endCommand
      rw [hh]
      dsimp only
      split
      · rename_i hend
        exact ⟨Reports.refl p s, fun x e' hx _ hn => absurd (Option.some.inj hx ▸ hend) (by simp [hn])⟩
      · rename_i hend
        have hn : h.ended = false := by simpa using hend
        split
        · exact hkey _ (fun hn => reports_attendEndWith hh he hn) hn
        · refine hkey _ (fun hn => ?_) hn
          obtain ⟨hrep, g, hg, hge⟩ := reports_finishWith false e.result hh he hn
          exact ⟨hrep.trans ⟨rfl, rfl, fun _ h _ hh hr => ⟨h, hh, hr⟩, fun _ h _ hh he hn => ⟨h, hh, Or.inl ⟨he, hn⟩⟩⟩, g, hg, hge⟩

theorem reports_foldl (p : Nat) (ids : List Nat) (s : State) :
    Reports p s (ids.foldl (fun s' id => reportDecided false p id s') s)
    ∧ ∀ id ∈ ids, ∀ h e, heldOf s p id = some h → h.ending = some e → h.ended = false →
        ∃ g, heldOf (ids.foldl (fun s' id => reportDecided false p id s') s) p id = some g ∧ ReportOf e g := by
  induction ids generalizing s with
  | nil => exact ⟨Reports.refl p s, nofun⟩
  | cons i ids ih =>
    obtain ⟨hi, hrep⟩ := reports_reportDecided p i s
    obtain ⟨hrest, hall⟩ := ih (reportDecided false p i s)
    refine ⟨hi.trans hrest, fun id hid h e hh he hn => ?_⟩
    obtain ⟨g, hg, ⟨hge, hgn⟩ | hgr⟩ := hi.decided id h e hh he hn
    · rcases List.mem_cons.1 hid with rfl | hid
      · obtain ⟨g', hg', hr'⟩ := hrep h e hh he hn
        exact hrest.reported id g' e hg' hr'
      · exact hall id hid g e hg hge hgn
    · exact hrest.reported id g e hg hgr

/-! ### Retiring a report (03 R75, 04 R119, R125) -/

/-- Releasing what a report holds changes the placed regions and what was sent. -/
theorem releaseReport_frame (p id : Nat) (s : State) : releaseReport p id s = { s with
    tun := { s.tun with regions := (releaseReport p id s).tun.regions, dead := (releaseReport p id s).tun.dead,
                        snoops := (releaseReport p id s).tun.snoops },
    outbox := (releaseReport p id s).outbox } := by
  unfold releaseReport unmapRecall
  dsimp only
  split <;> rfl

theorem releaseReport_trs (p id : Nat) (s : State) : (releaseReport p id s).trs = s.trs := by
  rw [releaseReport_frame]

/-- No slot and no recall page of the report stays placed. -/
theorem regions_releaseReport {p id : Nat} {s : State} {r : Region} (hr : r ∈ (releaseReport p id s).tun.regions) :
    ¬(r.trs = p ∧ r.id = id ∧ (r.kind = .slot ∨ r.kind = .recalled)) := by
  have he : (releaseReport p id s).tun.regions
      = (s.tun.regions.filter (fun r => !(r.trs == p && r.id == id && r.kind == .slot))).filter
          (fun r => !(r.trs == p && r.id == id && r.kind == .recalled)) := by
    unfold releaseReport unmapRecall
    dsimp only
    split <;> rfl
  rw [he, List.mem_filter, List.mem_filter] at hr
  obtain ⟨⟨-, hslot⟩, hrec⟩ := hr
  rintro ⟨rfl, rfl, hk | hk⟩
  · simp [hk] at hslot
  · simp [hk] at hrec

theorem exec_next {p : Nat} (hp : p < 4096) (rid : BitVec 16) (v : BitVec 32) (s : State) :
    exec (.next p rid v) s = .next (fenced (ctlWrite p rid v (nextReport p)) s) := if_pos hp

theorem exec_qreset {p : Nat} (hp : p < 4096) (rid : BitVec 16) (v : BitVec 32) (s : State) :
    exec (.qreset p rid v) s = .next (fenced (ctlWrite p rid v (qreset p)) s) := if_pos hp

section
variable {s : State} {p : Nat} {rid : BitVec 16} {v : BitVec 32} (f : State → State) (hw : bar2Writable s = true)
include hw

theorem ctlWrite_set (ha : admits s p rid = true) (hv : v.getLsbD 0 = true) : ctlWrite p rid v f s = f s := by
  have hb : bitOf v.toNat 0 = true := hv
  simp [ctlWrite, hw, ha, hb]

theorem ctlWrite_clear (ha : admits s p rid = true) (hv : v.getLsbD 0 = false) : ctlWrite p rid v f s = s := by
  have hb : bitOf v.toNat 0 = false := hv
  simp [ctlWrite, hw, ha, hb]

theorem ctlWrite_refused (ha : admits s p rid = false) : ctlWrite p rid v f s = refuseWrite s := by
  simp [ctlWrite, hw, ha]
end

/-- A read of a page leaves every page as it is. -/
theorem bar2Read_trs (p o w : Nat) (rid : BitVec 16) (s : State) : (bar2Read p o w rid s).trs = s.trs := by
  unfold bar2Read
  split
  · split <;> rfl
  · rfl

/-- The head of the page `p` is retired. -/
def retired (p : Nat) (s : State) : State := modTrs p (fun g => { g with held := g.held.drop 1, busy := false }) s

/-- Settles O24. -/
theorem nextRetiresTheEndedHead : Obligations.NextRetiresTheEndedHead := by
  refine ⟨fun s p rid v h hp hw ha hv hh => ⟨fun hend => ?_, fun hend => ?_⟩, fun s p rid v hp hw ha hno => ?_,
    fun s p o w rid hp how => ⟨_, if_pos ⟨hp, how⟩, bar2Read_trs p o w rid s⟩⟩
  · have hn : ctlWrite p rid v (nextReport p) s = releaseReport p h.id (retired p s) := by
      rw [ctlWrite_set _ hw ha hv]
      unfold nextReport headOf
      rw [hh]
      exact if_pos hend
    have hframe := releaseReport_frame p h.id (retired p s)
    have hf : fenced (ctlWrite p rid v (nextReport p)) s = releaseReport p h.id (retired p s) := by
      refine fenced_of_keeps hn ?_ ?_ ?_ ?_ ?_ <;> rw [hframe] <;> rfl
    have htrs := releaseReport_trs p h.id (retired p s)
    rw [exec_next hp, hf]
    refine ⟨_, rfl, ?_, otherPages_of_trs_eq htrs (otherPages_modTrs p _ s), fun r hr => regions_releaseReport hr, ?_⟩
    · rw [getTrs_of_trs_eq htrs]
      exact getTrs_modTrs_self ..
    · rw [htrs]
      exact hframe
  · rw [exec_next hp, fenced_of_eq]
    rw [ctlWrite_set _ hw ha hv]
    unfold nextReport headOf
    rw [hh]
    exact if_neg (by simp [hend])
  · rw [exec_next hp, fenced_of_eq]
    cases hv : v.getLsbD 0 with
    | false => exact ctlWrite_clear _ hw ha hv
    | true =>
      have hnil : (getTrs s p).held = [] := hno.resolve_left (by simp [hv])
      rw [ctlWrite_set _ hw ha hv]
      unfold nextReport headOf
      rw [hnil]
      rfl

/-! ### COUNTERS and DIGEST_READ (16 R466, R469, R476) -/

/-- A change of a held command leaves the sets of its page. -/
theorem modHeld_sets (p id : Nat) (f : Held → Held) (s : State) : (getTrs (modHeld p id f s) p).sampleSeq = (getTrs s p).sampleSeq
    ∧ (getTrs (modHeld p id f s) p).lastSet = (getTrs s p).lastSet := by
  unfold modHeld
  rw [getTrs_modTrs_self]
  exact ⟨rfl, rfl⟩

section
variable {s : State} {p : Nat} {c : Desc} (hq : fld c 0 1 = 0x40 ∨ fld c 0 1 = 0x41)
include hq

/-- COUNTERS and DIGEST_READ make no start event. -/
theorem begun_quiet : (getTrs (begun s p c) p).sampleSeq = (getTrs s p).sampleSeq ∧ (getTrs (begun s p c) p).lastSet = (getTrs s p).lastSet
    ∧ (settleElapsed (now s) (getTrs (begun s p c) p)).current = (settleElapsed (now s) (getTrs s p)).current := by
  unfold begun
  rw [getTrs_setTrs_self]
  simp only [hq, decide_true, if_true]
  refine ⟨settleElapsed_sampleSeq .., settleElapsed_lastSet .., ?_⟩
  obtain ⟨_, _, _, _, _, _, _, _, _, _, r⟩ := getTrs s p
  cases r with
  | none => rfl
  | some t0 => simp [settleElapsed]

/-- A started command that writes `bytes` to the descriptor's address and decides its ending. -/
theorem quiet_delivers {i : Instr} {rid : BitVec 16} {a k : Nat} {st : Byte} {bytes : List Byte} (hi : i.command = some (p, rid, c))
    (h : Starts s p rid c) (hb : startBody p s.cmd.goCount (s.cmd.acceptCount + 1) c (begun s p c)
      = decideEnd p s.cmd.goCount st k (quietWrite p a bytes (begun s p c))) :
    ∃ t, exec i s = .next t ∧ OtherPages s t p ∧ (getTrs t p).sampleSeq = (getTrs s p).sampleSeq
      ∧ (getTrs t p).lastSet = (getTrs s p).lastSet ∧ t.fl = s.fl ∧ t.tier = s.tier ∧ t.tun = s.tun
      ∧ Decided t p s.cmd.goCount st k ∧ t.outbox = s.outbox ++ hostWrites s a bytes true := by
  obtain ⟨e, hw⟩ : ∃ e, quietWrite p a bytes (begun s p c)
      = { begun s p c with tele := e, outbox := s.outbox ++ hostWrites s a bytes true } := by
    unfold quietWrite
    split
    · exact ⟨_, rfl⟩
    · rename_i hm
      have hnone : hostWrites s a bytes true = [] := if_neg hm
      exact ⟨s.tele, by rw [hnone, List.append_nil]; rfl⟩
  rw [hw] at hb
  obtain ⟨hseq, hlast, -⟩ := begun_quiet (s := s) (p := p) hq
  rw [exec_of_starts hi h]
  simp only [fenced, hb]
  refine ⟨_, rfl, (otherPages_begun s p c).trans (otherPages_modHeld p s.cmd.goCount _ _), ?_, ?_, rfl, rfl, rfl, ?_, rfl⟩
  · exact (modHeld_sets p s.cmd.goCount _ _).1.trans hseq
  · exact (modHeld_sets p s.cmd.goCount _ _).2.trans hlast
  · exact decided_decideEnd st k ((heldOf_of_trs_eq rfl p _).trans (heldOf_begun s p c)) (undecided_readingHeld s p c [])
end

theorem counters_deliver (s : State) (p : Nat) (rid : BitVec 16) (d c : Desc) (hc : c = setDescByte d 0 0x40) (h : Starts s p rid c) :
    ∃ t, exec (.counters p rid d) s = .next t ∧ OtherPages s t p ∧ (getTrs t p).sampleSeq = (getTrs s p).sampleSeq
      ∧ (getTrs t p).lastSet = (getTrs s p).lastSet ∧ t.fl = s.fl ∧ t.tier = s.tier ∧ t.tun = s.tun
      ∧ (fld c 8 1 = 0 → Decided t p s.cmd.goCount 0x00 16
          ∧ t.outbox = s.outbox ++ hostWrites s (fld c 16 8) (counterHeader s (getTrs s p).sampleSeq.toNat 0 0 0 0 16
              ++ ctrBytes (getTrs s p).sampleSeq (getTrs s p).lastSet
              ++ ctrBytes (getTrs s p).sampleSeq (settleElapsed (now s) (getTrs s p)).current) true)
      ∧ (fld c 8 1 = 1 → ∀ n k, n = (kindInstances (fld c 10 2)).getD 0 - fld c 12 4 → k = min n ((fld c 24 8 - 64) / 8) →
          Decided t p s.cmd.goCount (if k = n then 0x00 else 0x01) k
          ∧ t.outbox = s.outbox ++ hostWrites s (fld c 16 8) (counterHeader s 0 (fld c 10 2) 1 (n + fld c 12 4) (fld c 12 4) k
              ++ (List.range' (fld c 12 4) k).flatMap (fun i => bytesOf 8 (counterValue (begun s p c) (fld c 10 2) i))) true)
      ∧ (fld c 8 1 = 2 → Decided t p s.cmd.goCount 0x00 8
          ∧ t.outbox = s.outbox ++ hostWrites s (fld c 16 8) (counterHeader s 0 0 2 8 0 8
              ++ (List.range 8).flatMap (fun i => bytesOf 8 (counterValue (begun s p c) (0x50 + i) (objOf c)))) true) := by
  have hop : fld c 0 1 = 0x40 := hc ▸ fld_setDescByte_opcode ..
  have hi : (Instr.counters p rid d).command = some (p, rid, c) := congrArg (fun x => some (p, rid, x)) hc.symm
  have hbody : ∀ u, startBody p s.cmd.goCount (s.cmd.acceptCount + 1) c u = countersBody p s.cmd.goCount c u := by
    intro u; simp only [startBody, hop]
  by_cases h0 : fld c 8 1 = 0
  · obtain ⟨hseq, hlast, hcur⟩ := begun_quiet (s := s) (p := p) (Or.inl hop)
    have hb : startBody p s.cmd.goCount (s.cmd.acceptCount + 1) c (begun s p c) = decideEnd p s.cmd.goCount stOk 16
        (quietWrite p (fld c 16 8) (counterHeader s (getTrs s p).sampleSeq.toNat 0 0 0 0 16
              ++ ctrBytes (getTrs s p).sampleSeq (getTrs s p).lastSet
              ++ ctrBytes (getTrs s p).sampleSeq (settleElapsed (now s) (getTrs s p)).current) (begun s p c)) := by
      rw [hbody, countersBody, h0]
      dsimp only
      rw [settleElapsed_sampleSeq, settleElapsed_lastSet, hseq, hlast, show now (begun s p c) = now s from rfl, hcur]
      rfl
    obtain ⟨t, he, hoth, hs, hl, hfl, htier, htun, hd, ho⟩ := quiet_delivers (Or.inl hop) hi h hb
    exact ⟨t, he, hoth, hs, hl, hfl, htier, htun, fun _ => ⟨hd, ho⟩, fun h1 => absurd (h0.symm.trans h1) (by decide),
      fun h2 => absurd (h0.symm.trans h2) (by decide)⟩
  · by_cases h1 : fld c 8 1 = 1
    · have hb : ∀ n k, n = (kindInstances (fld c 10 2)).getD 0 - fld c 12 4 → k = min n ((fld c 24 8 - 64) / 8) →
          startBody p s.cmd.goCount (s.cmd.acceptCount + 1) c (begun s p c) = decideEnd p s.cmd.goCount (if k = n then stOk else stShort) k
          (quietWrite p (fld c 16 8) (counterHeader s 0 (fld c 10 2) 1 (n + fld c 12 4) (fld c 12 4) k
              ++ (List.range' (fld c 12 4) k).flatMap (fun i => bytesOf 8 (counterValue (begun s p c) (fld c 10 2) i))) (begun s p c)) := by
        rintro n k rfl rfl
        rw [hbody, countersBody, h1]
        rfl
      obtain ⟨t, he, hoth, hs, hl, hfl, htier, htun, hd, ho⟩ := quiet_delivers (Or.inl hop) hi h (hb _ _ rfl rfl)
      refine ⟨t, he, hoth, hs, hl, hfl, htier, htun, fun h0' => absurd h0' h0, fun _ n k hn hk => ?_,
        fun h2 => absurd (h1.symm.trans h2) (by decide)⟩
      subst hn hk
      exact ⟨hd, ho⟩
    · have hb : startBody p s.cmd.goCount (s.cmd.acceptCount + 1) c (begun s p c) = decideEnd p s.cmd.goCount stOk 8
          (quietWrite p (fld c 16 8) (counterHeader s 0 0 2 8 0 8
              ++ (List.range 8).flatMap (fun i => bytesOf 8 (counterValue (begun s p c) (0x50 + i) (objOf c)))) (begun s p c)) := by
        rw [hbody]
        unfold countersBody
        dsimp only
        split
        · exact absurd ‹_› h0
        · exact absurd ‹_› h1
        · rfl
      obtain ⟨t, he, hoth, hs, hl, hfl, htier, htun, hd, ho⟩ := quiet_delivers (Or.inl hop) hi h hb
      exact ⟨t, he, hoth, hs, hl, hfl, htier, htun, fun h0' => absurd h0' h0, fun h1' => absurd h1' h1, fun _ => ⟨hd, ho⟩⟩

theorem digests_deliver (s : State) (p : Nat) (rid : BitVec 16) (d c : Desc) (ws : List Watch) (k : Nat) (hc : c = setDescByte d 0 0x41)
    (h : Starts s p rid c)
    (hws : ws = (if fld c 8 1 = 0 then (s.tele.watchLast.filter (fun e => e.1 == p)).map (·.2)
            else s.tele.watchCum.filter (fun w => w.tenant == objOf c)))
    (hk : k = min ws.length ((fld c 24 8 - 64) / 96)) :
    ∃ t, exec (.digestRead p rid d) s = .next t ∧ OtherPages s t p ∧ (getTrs t p).sampleSeq = (getTrs s p).sampleSeq
      ∧ t.fl = s.fl ∧ t.tier = s.tier ∧ t.tun = s.tun
      ∧ Decided t p s.cmd.goCount (if k = ws.length then 0x00 else 0x01) k
      ∧ t.outbox = s.outbox ++ hostWrites s (fld c 16 8)
          (counterHeader s (if fld c 8 1 = 0 then (getTrs s p).sampleSeq.toNat else 0) 0 (fld c 8 1) ws.length 0 k
            ++ (ws.take k).flatMap (watchBytes s)) true := by
  have hop : fld c 0 1 = 0x41 := hc ▸ fld_setDescByte_opcode ..
  obtain ⟨hseq, -⟩ := begun_quiet (s := s) (p := p) (Or.inr hop)
  have hb : startBody p s.cmd.goCount (s.cmd.acceptCount + 1) c (begun s p c)
      = decideEnd p s.cmd.goCount (if k = ws.length then stOk else stShort) k (quietWrite p (fld c 16 8)
          (counterHeader s (if fld c 8 1 = 0 then (getTrs s p).sampleSeq.toNat else 0) 0 (fld c 8 1) ws.length 0 k
            ++ (ws.take k).flatMap (watchBytes s)) (begun s p c)) := by
    simp only [startBody, hop, digestBody, hseq]
    subst hk hws
    rfl
  obtain ⟨t, he, hoth, hs, -, hfl, htier, htun, hd, ho⟩ :=
    quiet_delivers (i := .digestRead p rid d) (Or.inr hop) (congrArg (fun x => some (p, rid, x)) hc.symm) h hb
  exact ⟨t, he, hoth, hs, hfl, htier, htun, hd, ho⟩

/-! ### QRESET (03 R68, R93) -/

theorem qreset_decides {s : State} {p : Nat} (hr : (getTrs s p).resetting = false) :
    (getTrs (qreset p s) p).resetting = true ∧ OtherPages s (qreset p s) p
      ∧ (∀ id h, heldOf s p id = some h → h.undecided = true → ∃ res, Decided (qreset p s) p id stQueueReset res)
      ∧ (getTrs (qreset p s) p).held.length = (getTrs s p).held.length ∧ (qreset p s).tun = s.tun ∧ (qreset p s).ctx = s.ctx
      ∧ (qreset p s).coll = s.coll ∧ (qreset p s).outbox = s.outbox := by
  have hq : qreset p s = (((getTrs s p).held.filter (fun h => h.undecided)).map (·.id)).foldl
      (fun s' id => stopCommand p id stQueueReset s') (modTrs p (fun g => { g with resetting := true }) s) := by
    unfold qreset
    rw [if_neg (by simp [hr])]
  have hg : getTrs (modTrs p (fun g => { g with resetting := true }) s) p = { getTrs s p with resetting := true } := getTrs_modTrs_self ..
  have hheld : ∀ id, heldOf (modTrs p (fun g => { g with resetting := true }) s) p id = heldOf s p id := fun id => by simp only [heldOf, hg]
  obtain ⟨hstop, hall⟩ := stops_foldl stQueueReset p (((getTrs s p).held.filter (fun h => h.undecided)).map (·.id))
    (modTrs p (fun g => { g with resetting := true }) s)
  rw [← hq] at hstop hall
  refine ⟨by rw [hstop.resetting, hg], (otherPages_modTrs p _ s).trans hstop.others, fun id h hh hu => ?_, by rw [hstop.length, hg],
    hstop.tun, hstop.ctx, hstop.coll, hstop.outbox⟩
  have hmem : id ∈ ((getTrs s p).held.filter (fun h => h.undecided)).map (·.id) :=
    List.mem_map.2 ⟨h, List.mem_filter.2 ⟨List.mem_of_find?_eq_some hh, hu⟩, heldOf_id hh⟩
  obtain ⟨res, hres⟩ := hall id hmem h ((hheld id).trans hh) hu
  exact ⟨res, decided_of_heldOf hres⟩

theorem qresetEnd_reports {s : State} {p : Nat} (hr : (getTrs s p).resetting = true) :
    (getTrs (qresetEnd p s) p).resetting = false ∧ (getTrs (qresetEnd p s) p).busy = false
      ∧ (∀ id h e, heldOf s p id = some h → h.ending = some e → h.ended = false →
          ∃ g, heldOf (qresetEnd p s) p id = some g ∧ ReportOf e g)
      ∧ (getTrs (qresetEnd p s) p).held.length = (getTrs s p).held.length ∧ (qresetEnd p s).ctx = s.ctx := by
  obtain ⟨hrep, hall⟩ := reports_foldl p (((getTrs s p).held.filter (fun h => h.ending.isSome)).map (·.id)) s
  unfold qresetEnd
  rw [if_pos hr]
  dsimp only
  generalize List.foldl _ s _ = s1 at hrep hall ⊢
  have hg : getTrs (modTrs p (fun g => { g with resetting := false, busy := false }) s1) p
      = { getTrs s1 p with resetting := false, busy := false } := getTrs_modTrs_self ..
  refine ⟨by rw [hg], by rw [hg], fun id h e hh he hn => ?_, by rw [hg]; exact hrep.length, hrep.ctx⟩
  have hmem : id ∈ ((getTrs s p).held.filter (fun h => h.ending.isSome)).map (·.id) :=
    List.mem_map.2 ⟨h, List.mem_filter.2 ⟨List.mem_of_find?_eq_some hh, by simp [he]⟩, heldOf_id hh⟩
  obtain ⟨g, hgh, hr'⟩ := hall id hmem h e hh he hn
  exact ⟨g, by simpa only [heldOf, hg] using hgh, hr'⟩

theorem exec_qresetComplete {p : Nat} {s : State} (hp : p < 4096) (hm : s.boot.mode = .service) :
    exec (.qresetComplete p) s = .next (fenced (qresetEnd p) s) :=
  (if_pos hp).trans (congrArg Host.Outcome.next (fenced_congr (if_pos (alive_of_service hm))))

/-- A refused write of NEXT or QRESET, seen through the fence. -/
theorem fenced_refuseWrite {f : State → State} {s : State} (h : f s = refuseWrite s) : (fenced f s).trs = s.trs
    ∧ (fenced f s).link = aerLog 0x100000 0x2000 s.link ∧ counted 0x60 2 (fenced f s) = counted 0x60 2 s + 1 := by
  refine ⟨by rw [fenced_trs, h]; rfl, by simp only [fenced, h]; rfl, ?_⟩
  rw [counted_of_tele_eq ((fenced_tele f s).trans (congrArg State.tele h))]
  exact counted_bump_self 0x60 2 1 _

/-- Settles O25. -/
theorem countersAreDeliveredAndPagesReset : Obligations.CountersAreDeliveredAndPagesReset := by
  refine ⟨⟨counters_deliver, digests_deliver⟩, fun s p rid v hp hm hd ha hv hr => ?_, fun s p hp hm hr => ?_,
    fun i s p rid v hi hp hm hd => ⟨fun ha hv => ?_, fun ha => ?_⟩⟩
  · have hf := ctlWrite_set (qreset p) (bar2Writable_of hd hm) ha hv
    rw [exec_qreset hp]
    simp only [fenced, hf]
    exact ⟨_, rfl, qreset_decides hr⟩
  · rw [exec_qresetComplete hp hm]
    obtain ⟨hres, hbusy, hall, hlen, hctx⟩ := qresetEnd_reports hr
    exact ⟨_, rfl, hres, hbusy, hall, hlen, hctx⟩
  · have hn := ctlWrite_clear (nextReport p) (bar2Writable_of hd hm) ha hv
    have hq := ctlWrite_clear (qreset p) (bar2Writable_of hd hm) ha hv
    rcases hi with rfl | rfl
    · rw [exec_next hp, fenced_of_eq hn]
    · rw [exec_qreset hp, fenced_of_eq hq]
  · have hn := ctlWrite_refused (v := v) (nextReport p) (bar2Writable_of hd hm) ha
    have hq := ctlWrite_refused (v := v) (qreset p) (bar2Writable_of hd hm) ha
    rcases hi with rfl | rfl
    · exact ⟨_, exec_next hp rid v s, fenced_refuseWrite hn⟩
    · exact ⟨_, exec_qreset hp rid v s, fenced_refuseWrite hq⟩

end Sys2Proof.Machine

/-! PROOFS. The blocks of a volume: reading, writing and releasing them (03 R95 to R98, 11 R321). -/
namespace Sys2Proof.Machine

/-! ### Blocks as bytes of the flash -/

theorem SMap.length_getList {α : Type} (d : α) (m : SMap α) (a n : Nat) : (SMap.getList d m a n).length = n := by
  induction n generalizing a with
  | zero => rfl
  | succ n ih => simp [SMap.getList, ih]

theorem SMap.getList_congr {α : Type} {d : α} {m m' : SMap α} {a n : Nat} (h : ∀ b, a ≤ b → b < a + n → SMap.find d m b = SMap.find d m' b) :
    SMap.getList d m a n = SMap.getList d m' a n := by
  induction n generalizing a with
  | zero => rfl
  | succ n ih => rw [SMap.getList, SMap.getList, h a (by omega) (by omega), ih fun b h1 h2 => h b (by omega) (by omega)]

theorem SMap.getList_unlisted {α : Type} {d : α} {m : SMap α} {a n : Nat} (h : ∀ b, a ≤ b → b < a + n → SMap.find d m b = d) :
    SMap.getList d m a n = List.replicate n d := by
  induction n generalizing a with
  | zero => rfl
  | succ n ih => rw [SMap.getList, h a (by omega) (by omega), ih fun b h1 h2 => h b (by omega) (by omega), List.replicate_succ]

/-- The number of block `k` of a volume among the 4,096-byte blocks of the units. -/
def blockNo (s : State) (v k : Nat) : Nat := volBase s v * 4 + k

theorem blockUnit_bytes (s : State) (v k : Nat) : blockUnit s v k * 16384 + k % 4 * 4096 = blockNo s v k * 4096 := by
  have h : blockNo s v k = blockUnit s v k * 4 + k % 4 := by
    unfold blockNo blockUnit
    omega
  rw [h, Nat.add_mul, Nat.mul_assoc]

theorem blockNo_div (s : State) (v k : Nat) : blockNo s v k / 4 = blockUnit s v k := by
  unfold blockNo blockUnit
  omega

theorem unit_of_block (a : Nat) : a / 16384 = a / 4096 / 4 := by rw [Nat.div_div_eq_div_mul]

theorem block_eq_iff {a n : Nat} : a / 4096 = n ↔ n * 4096 ≤ a ∧ a < n * 4096 + 4096 := by
  rw [Nat.div_eq_iff (by decide)]
  omega

theorem blockBytes_eq (s : State) (v k : Nat) : blockBytes s v k = SMap.getList 0 s.fl.data (blockNo s v k * 4096) 4096 := by
  rw [← blockUnit_bytes]
  rfl

theorem putBlock_data (v k : Nat) (bytes : List Byte) (chk : Option (BitVec 64)) (s : State) :
    (putBlock v k bytes chk s).fl.data = SMap.putList 0 s.fl.data (blockNo s v k * 4096) bytes := by
  rw [← blockUnit_bytes]
  rfl

theorem blockNo_of_pol_eq {s t : State} (h : t.pol = s.pol) (v k : Nat) : blockNo t v k = blockNo s v k := by
  simp only [blockNo, volBase, h]

/-- Memories that agree on a block hold the same bytes there. -/
theorem getList_block_congr {m m' : Mem} {n : Nat} (h : ∀ b, b / 4096 = n → SMap.find 0 m b = SMap.find 0 m' b) :
    SMap.getList 0 m (n * 4096) 4096 = SMap.getList 0 m' (n * 4096) 4096 :=
  SMap.getList_congr fun b h1 h2 => h b (block_eq_iff.2 ⟨h1, h2⟩)

/-- Blocks written in turn: only content and check values of the flash change. -/
theorem foldl_putBlock_frame (v : Nat) (f : Nat → List Byte) (g : Nat → Option (BitVec 64)) (ks : List Nat) (s : State) :
    ∃ d c, ks.foldl (fun s' k => putBlock v k (f k) (g k) s') s = { s with fl := { s.fl with data := d, check := c } } := by
  induction ks generalizing s with
  | nil => exact ⟨_, _, rfl⟩
  | cons k ks ih =>
    obtain ⟨d, c, h⟩ := ih (putBlock v k (f k) (g k) s)
    exact ⟨d, c, h⟩

section
variable (v : Nat) (f : Nat → List Byte) (g : Nat → Option (BitVec 64)) (hf : ∀ k, (f k).length = 4096)
include hf

theorem find_putBlock_outside (k : Nat) (s : State) {a : Nat} (ha : a / 4096 ≠ blockNo s v k) :
    SMap.find 0 (putBlock v k (f k) (g k) s).fl.data a = SMap.find 0 s.fl.data a := by
  rw [putBlock_data, SMap.find_putList_outside]
  rw [Ne, block_eq_iff, not_and_or, not_le, not_lt] at ha
  rwa [hf k]

theorem find_foldl_putBlock_outside (ks : List Nat) (s : State) {a : Nat} (ha : ∀ k ∈ ks, a / 4096 ≠ blockNo s v k) :
    SMap.find 0 (ks.foldl (fun s' k => putBlock v k (f k) (g k) s') s).fl.data a = SMap.find 0 s.fl.data a := by
  induction ks generalizing s with
  | nil => rfl
  | cons k ks ih =>
    rw [List.foldl_cons, ih (putBlock v k (f k) (g k) s) fun j hj => ha j (List.mem_cons_of_mem k hj)]
    exact find_putBlock_outside v f g hf k s (ha k List.mem_cons_self)

/-- Each block of the list holds its bytes afterwards. -/
theorem getList_foldl_putBlock (ks : List Nat) (s : State) {k : Nat} (hk : k ∈ ks) :
    SMap.getList 0 (ks.foldl (fun s' k => putBlock v k (f k) (g k) s') s).fl.data (blockNo s v k * 4096) 4096 = f k := by
  induction ks generalizing s with
  | nil => exact absurd hk nofun
  | cons j ks ih =>
    rw [List.foldl_cons]
    by_cases hks : k ∈ ks
    · exact ih (putBlock v j (f j) (g j) s) hks
    · have hj : k = j := (List.mem_cons.1 hk).resolve_right hks
      subst hj
      refine (getList_block_congr fun b hb => find_foldl_putBlock_outside v f g hf ks _ fun i hi => ?_).trans ?_
      · have hne : i ≠ k := fun e => hks (e ▸ hi)
        have hi' : blockNo (putBlock v k (f k) (g k) s) v i = blockNo s v i := rfl
        rw [hi', hb]
        unfold blockNo
        omega
      · rw [putBlock_data]
        have h := SMap.getList_putList (d := (0 : Byte)) (f k) s.fl.data (blockNo s v k * 4096)
        rwa [hf k] at h
end

/-! ### Units merged into the write buffer (11 R320, R321) -/

/-- An image of the unit that belongs to no command alone is in the write buffer. -/
def Buffered (s : State) (u : Nat) : Prop := ∃ b ∈ s.fl.wbuf, b.unit = u ∧ b.cmd = none

theorem Buffered.inBuffer {s : State} {u : Nat} (h : Buffered s u) : inBuffer s u = true := by
  obtain ⟨b, hb, hu, -⟩ := h
  exact List.any_eq_true.2 ⟨b, hb, by simp [hu]⟩

/-- The units `us` enter the write buffer; only such of them as could not be read lose their content. -/
structure Merges (us : List Nat) (s t : State) : Prop where
  pol : t.pol = s.pol
  tier : t.tier = s.tier
  map : t.fl.map = s.fl.map
  journal : t.fl.journal = s.fl.journal
  inBuffer : ∀ u, inBuffer s u = true → inBuffer t u = true
  buffered : ∀ u, u ∈ us ∨ Buffered s u → Buffered t u
  data : ∀ a, (a / 16384 ∉ us ∨ unitStatus s (a / 16384) = stOk) → SMap.find 0 t.fl.data a = SMap.find 0 s.fl.data a

theorem mapOf_of_map_eq {s t : State} (h : t.fl.map = s.fl.map) (u : Nat) : mapOf t u = mapOf s u := by simp only [mapOf, h]

/-- A unit that reads as intact still does. -/
theorem Merges.status {us : List Nat} {s t : State} (h : Merges us s t) {u : Nat} (hu : unitStatus s u = stOk) : unitStatus t u = stOk := by
  by_cases hb : Machine.inBuffer t u = true
  · exact if_pos hb
  · have hs : ¬ Machine.inBuffer s u = true := fun e => hb (h.inBuffer u e)
    unfold unitStatus at hu ⊢
    rw [if_neg hs] at hu
    rw [if_neg hb, mapOf_of_map_eq h.map]
    exact hu

theorem Merges.trans {us vs : List Nat} {s t u : State} (h : Merges us s t) (g : Merges vs t u) : Merges (us ++ vs) s u := by
  refine ⟨g.pol.trans h.pol, g.tier.trans h.tier, g.map.trans h.map, g.journal.trans h.journal, fun w hw => g.inBuffer w (h.inBuffer w hw), fun w hw => ?_,
    fun a ha => ?_⟩
  · refine g.buffered w ?_
    rcases hw with hw | hw
    · exact (List.mem_append.1 hw).elim (fun hu => Or.inr (h.buffered w (Or.inl hu))) Or.inl
    · exact Or.inr (h.buffered w (Or.inr hw))
  · rw [List.mem_append, not_or] at ha
    exact (g.data a (ha.imp And.right h.status)).trans (h.data a (ha.imp_left And.left))

/-- Changing nothing of the flash but the origins of WRITEs. -/
theorem Merges.of_origins (s : State) (o : List Origin) : Merges [] s { s with fl := { s.fl with origins := o } } :=
  ⟨rfl, rfl, rfl, rfl, fun _ h => h, fun _ h => h.resolve_left nofun, fun _ _ => rfl⟩

/-- Cleared units lose their content, and others keep it. -/
theorem find_clearUnits_outside (u n : Nat) (s : State) {a : Nat} (h : a / 16384 < u ∨ u + n ≤ a / 16384) :
    SMap.find 0 (clearUnits u n s).fl.data a = SMap.find 0 s.fl.data a := by
  refine SMap.find_clearRange_outside _ (h.imp (fun h => ?_) fun h => ?_)
  · exact (Nat.div_lt_iff_lt_mul (by decide)).1 h
  · rw [← Nat.add_mul]
    exact (Nat.le_div_iff_mul_le (by decide)).1 h

theorem find_clearUnits_inside (u n : Nat) (s : State) {a : Nat} (h : u ≤ a / 16384 ∧ a / 16384 < u + n) :
    SMap.find 0 (clearUnits u n s).fl.data a = 0 := by
  refine SMap.find_clearRange_inside _ ⟨(Nat.le_div_iff_mul_le (by decide)).1 h.1, ?_⟩
  rw [← Nat.add_mul]
  exact (Nat.div_lt_iff_lt_mul (by decide)).1 h.2

/-- One unit is merged and enters the buffer. -/
theorem merges_unit (p u acc : Nat) (part : Bool) (s : State) : Merges [u] s (bufferUnit u acc 0 (mergeUnit p u part s)) := by
  have hm : (mergeUnit p u part s).pol = s.pol ∧ (mergeUnit p u part s).tier = s.tier ∧ (mergeUnit p u part s).fl.map = s.fl.map
      ∧ (mergeUnit p u part s).fl.journal = s.fl.journal ∧ (mergeUnit p u part s).fl.wbuf = s.fl.wbuf := by
    unfold mergeUnit
    split
    · exact ⟨rfl, rfl, rfl, rfl, rfl⟩
    · split <;> exact ⟨rfl, rfl, rfl, rfl, rfl⟩
  obtain ⟨hpol, htier, hmap, hjournal, hwbuf⟩ := hm
  have hmem : ∀ b, b ∈ (bufferUnit u acc 0 (mergeUnit p u part s)).fl.wbuf ↔ (b ∈ s.fl.wbuf ∧ b.unit ≠ u)
      ∨ b = { unit := u, accs := pendingAccs (mergeUnit p u part s) u
          ++ (if acc = 0 ∨ acc ∈ pendingAccs (mergeUnit p u part s) u then [] else [acc]), group := 0 } := by
    intro b
    simp [bufferUnit, hwbuf]
  refine ⟨hpol, htier, hmap, hjournal, fun w hw => ?_, fun w hw => ?_, fun a ha => ?_⟩
  · obtain ⟨b, hb, hbw⟩ := List.any_eq_true.1 hw
    by_cases hu : b.unit = u
    · exact List.any_eq_true.2 ⟨_, (hmem _).2 (Or.inr rfl), by simpa [← hu] using hbw⟩
    · exact List.any_eq_true.2 ⟨b, (hmem b).2 (Or.inl ⟨hb, hu⟩), hbw⟩
  · by_cases hu : w = u
    · exact ⟨_, (hmem _).2 (Or.inr rfl), hu.symm, rfl⟩
    · obtain ⟨b, hb, hbw, hbc⟩ := hw.resolve_left (by simpa using hu)
      exact ⟨b, (hmem b).2 (Or.inl ⟨hb, fun e => hu (hbw.symm.trans e)⟩), hbw, hbc⟩
  · have hd : (bufferUnit u acc 0 (mergeUnit p u part s)).fl.data = (mergeUnit p u part s).fl.data := rfl
    rw [hd]
    unfold mergeUnit
    split
    · rename_i hbad
      have hne : a / 16384 ≠ u := by
        rcases ha with ha | ha
        · simpa using ha
        · exact fun e => hbad (e ▸ ha)
      refine find_clearUnits_outside u 1 s ?_
      omega
    · split <;> rfl

/-- Units of a volume are merged and enter the buffer in turn. -/
theorem merges_foldl (p base acc : Nat) (part : Nat → Bool) (qs : List Nat) (s : State) :
    Merges (qs.map (base + ·)) s (qs.foldl (fun s' q => bufferUnit (base + q) acc 0 (mergeUnit p (base + q) (part q) s')) s) := by
  induction qs generalizing s with
  | nil => exact Merges.of_origins s s.fl.origins
  | cons q qs ih => exact (merges_unit p (base + q) acc (part q) s).trans (ih _)

/-! ### WRITE's blocks (03 R92, R95) -/

/-- The units that the blocks `[lba, lba + n)` of a volume touch. -/
def touchedUnits (s : State) (v lba n : Nat) : List Nat :=
  (List.range' (lba / 4) ((lba + n - 1) / 4 + 1 - lba / 4)).map (volBase s v + ·)

theorem mem_touchedUnits {s : State} {v lba n u : Nat} (hn : 0 < n) :
    u ∈ touchedUnits s v lba n ↔ blockUnit s v lba ≤ u ∧ u ≤ blockUnit s v (lba + n - 1) := by
  have hle : lba / 4 ≤ (lba + n - 1) / 4 := by omega
  unfold touchedUnits blockUnit
  rw [List.mem_map]
  constructor
  · rintro ⟨q, hq, rfl⟩
    rw [List.mem_range'_1] at hq
    omega
  · intro h
    refine ⟨u - volBase s v, ?_, by omega⟩
    rw [List.mem_range'_1]
    omega

/-- The state in which the units of a WRITE stand merged in the buffer. -/
def mergedFor (p : Nat) (h : Held) (n : Nat) (s : State) : State :=
  bufferBlocks p (objOf h.desc) (fld h.desc 8 8) n h.acceptNo (overwrite (objOf h.desc) (fld h.desc 8 8) n s)

theorem merges_mergedFor (p : Nat) (h : Held) {n : Nat} (hn : 0 < n) (s : State) :
    Merges (touchedUnits s (objOf h.desc) (fld h.desc 8 8) n) s (mergedFor p h n s) := by
  have hb : mergedFor p h n s = (List.range' (fld h.desc 8 8 / 4) ((fld h.desc 8 8 + n - 1) / 4 + 1 - fld h.desc 8 8 / 4)).foldl
      (fun s' q => bufferUnit (volBase s (objOf h.desc) + q) h.acceptNo 0 (mergeUnit p (volBase s (objOf h.desc) + q)
        (decide (4 * q < fld h.desc 8 8 ∨ fld h.desc 8 8 + n < 4 * q + 4)) s')) (overwrite (objOf h.desc) (fld h.desc 8 8) n s) :=
    if_neg (by omega)
  rw [hb]
  exact (Merges.of_origins s _).trans (merges_foldl p _ h.acceptNo _ _ _)

/-- The bytes that the host sent for block `k` of a WRITE's volume. -/
def sentBlock (h : Held) (k : Nat) : List Byte := rxBytes h (fld h.desc 24 8 + (k - fld h.desc 8 8) * 4096) 4096

/-- The check value that the host sent for it with PCHK = 1. -/
def sentCheck (h : Held) (k : Nat) : Option (BitVec 64) :=
  if bitOf (fld h.desc 1 1) 1 then some (BitVec.ofNat 64 (natOf (rxBytes h (fld h.desc 40 8 + (k - fld h.desc 8 8) * 8) 8))) else none

theorem length_sentBlock (h : Held) (k : Nat) : (sentBlock h k).length = 4096 := SMap.length_getList ..

/-- The state in which the blocks of a WRITE have been put. -/
def blocksPut (p : Nat) (h : Held) (n : Nat) (s : State) : State :=
  (List.range' (fld h.desc 8 8) n).foldl (fun s' k => putBlock (objOf h.desc) k (sentBlock h k) (sentCheck h k) s') (mergedFor p h n s)

/-- A WRITE's blocks are applied through its merged units; of the flash only the origins change beside. -/
theorem applyWrite_fl (p : Nat) (h : Held) (n : Nat) (s : State) :
    ∃ o, (applyWrite p h n s).fl = { (blocksPut p h n s).fl with origins := o } := by
  have hput : blocksPut p h n s = (List.range n).foldl (fun s' i => putBlock (objOf h.desc) (fld h.desc 8 8 + i)
      (rxBytes h (fld h.desc 24 8 + i * 4096) 4096) (if bitOf (fld h.desc 1 1) 1
        then some (BitVec.ofNat 64 (natOf (rxBytes h (fld h.desc 40 8 + i * 8) 8))) else none) s') (mergedFor p h n s) := by
    unfold blocksPut
    rw [List.range'_eq_map_range, List.foldl_map]
    simp only [sentBlock, sentCheck, Nat.add_sub_cancel_left]
  rw [hput]
  unfold applyWrite
  dsimp only
  split
  · exact ⟨_, rfl⟩
  · exact ⟨_, rfl⟩

/-- What a WRITE of `n` blocks leaves of the flash. -/
structure Wrote (h : Held) (n : Nat) (s t : State) : Prop where
  map : t.fl.map = s.fl.map
  journal : t.fl.journal = s.fl.journal
  buffered : ∀ u ∈ touchedUnits s (objOf h.desc) (fld h.desc 8 8) n, Buffered t u
  blocks : ∀ k, fld h.desc 8 8 ≤ k → k < fld h.desc 8 8 + n →
    SMap.getList 0 t.fl.data (blockNo s (objOf h.desc) k * 4096) 4096 = sentBlock h k
  data : ∀ a, (a / 4096 < blockNo s (objOf h.desc) (fld h.desc 8 8) ∨ blockNo s (objOf h.desc) (fld h.desc 8 8 + n) ≤ a / 4096) →
    (a / 16384 ∉ touchedUnits s (objOf h.desc) (fld h.desc 8 8) n ∨ unitStatus s (a / 16384) = stOk) →
    SMap.find 0 t.fl.data a = SMap.find 0 s.fl.data a

theorem wrote_applyWrite (p : Nat) (h : Held) {n : Nat} (hn : 0 < n) (s : State) : Wrote h n s (applyWrite p h n s) := by
  have hm := merges_mergedFor p h hn s
  obtain ⟨o, hfl⟩ := applyWrite_fl p h n s
  obtain ⟨d, c, hframe⟩ := foldl_putBlock_frame (objOf h.desc) (sentBlock h) (sentCheck h) (List.range' (fld h.desc 8 8) n) (mergedFor p h n s)
  have hput : (blocksPut p h n s).fl = { (mergedFor p h n s).fl with data := d, check := c } := congrArg State.fl hframe
  have hdata : (applyWrite p h n s).fl.data = (blocksPut p h n s).fl.data := by rw [hfl]
  have hwbuf : (applyWrite p h n s).fl.wbuf = (mergedFor p h n s).fl.wbuf := by rw [hfl, hput]
  refine ⟨by rw [hfl, hput]; exact hm.map, by rw [hfl, hput]; exact hm.journal, fun u hu => ?_, fun k h1 h2 => ?_, fun a ha hu => ?_⟩
  · obtain ⟨b, hb, hbu, hbc⟩ := hm.buffered u (Or.inl hu)
    exact ⟨b, hwbuf ▸ hb, hbu, hbc⟩
  · rw [hdata, ← blockNo_of_pol_eq hm.pol]
    exact getList_foldl_putBlock (objOf h.desc) (sentBlock h) (sentCheck h) (length_sentBlock h) _ _ (List.mem_range'_1.2 ⟨h1, h2⟩)
  · rw [hdata]
    refine (find_foldl_putBlock_outside (objOf h.desc) (sentBlock h) (sentCheck h) (length_sentBlock h) _ _ fun k hk => ?_).trans (hm.data a hu)
    rw [blockNo_of_pol_eq hm.pol]
    rw [List.mem_range'_1] at hk
    clear hu
    unfold blockNo at ha ⊢
    omega

/-! ### RELEASE's blocks (03 R98) -/

theorem mem_dedup {α : Type} [DecidableEq α] {l : List α} {a : α} : a ∈ dedup l ↔ a ∈ l := by
  induction l with
  | nil => rfl
  | cons b l ih =>
    rw [dedup, List.mem_cons, List.mem_filter, ih, List.mem_cons]
    by_cases h : a = b
    · simp [h]
    · simp [h]

theorem commitEntry_data (rs : List Rec) (s : State) : (commitEntry rs s).fl.data = s.fl.data := by
  have hj : ∀ u, (journalFlush u).fl.data = u.fl.data := by
    intro u; unfold journalFlush; split <;> rfl
  unfold commitEntry commitAs
  dsimp only
  split
  · exact hj _
  · rfl

theorem commitEntry_tier (rs : List Rec) (s : State) : (commitEntry rs s).tier = s.tier := by
  have hj : ∀ u, (journalFlush u).tier = u.tier := by
    intro u; unfold journalFlush; split <;> rfl
  unfold commitEntry commitAs
  dsimp only
  split
  · exact hj _
  · rfl

theorem commitEntry_pol (rs : List Rec) (s : State) : (commitEntry rs s).pol = s.pol :=
  ((storeOnly_commitEntry rs s).accounts 0).pol

/-- The end units of a RELEASE: those it covers in part, as numbers within the volume. -/
def endUnits (lba n : Nat) : List Nat :=
  dedup ((if lba % 4 ≠ 0 then [lba / 4] else []) ++ (if (lba + n) % 4 ≠ 0 then [(lba + n) / 4] else []))

theorem mem_endUnits {lba n q : Nat} : q ∈ endUnits lba n ↔ (lba % 4 ≠ 0 ∧ q = lba / 4) ∨ ((lba + n) % 4 ≠ 0 ∧ q = (lba + n) / 4) := by
  unfold endUnits
  rw [mem_dedup, List.mem_append]
  split <;> split <;> simp_all

/-- Units that a RELEASE covers completely. -/
def fullUnits (lba n : Nat) : Nat := if ceilDiv lba 4 < (lba + n) / 4 then (lba + n) / 4 - ceilDiv lba 4 else 0

/-- Released blocks in the end units. -/
def endBlocks (lba n : Nat) : List Nat :=
  ((List.range 4).flatMap (fun i => (endUnits lba n).map (fun q => 4 * q + i))).filter (fun k => decide (lba ≤ k ∧ k < lba + n))

theorem mem_endBlocks {lba n k : Nat} : k ∈ endBlocks lba n ↔ k / 4 ∈ endUnits lba n ∧ lba ≤ k ∧ k < lba + n := by
  unfold endBlocks
  rw [List.mem_filter, List.mem_flatMap, decide_eq_true_eq]
  refine and_congr_left fun _ => ⟨?_, fun h => ⟨k % 4, List.mem_range.2 (Nat.mod_lt _ (by decide)), List.mem_map.2 ⟨k / 4, h, by omega⟩⟩⟩
  rintro ⟨i, hi, hk⟩
  obtain ⟨q, hq, rfl⟩ := List.mem_map.1 hk
  rw [List.mem_range] at hi
  rwa [show (4 * q + i) / 4 = q by omega]

/-- The state in which the end units of a RELEASE stand merged in the buffer. -/
def endsMerged (p acc v lba n : Nat) (s : State) : State :=
  (endUnits lba n).foldl (fun s' q => bufferUnit (volBase s v + q) acc 0 (mergeUnit p (volBase s v + q) true s')) (overwrite v lba n s)

/-- The state in which the released blocks of the end units are zeros. -/
def endsCleared (p acc v lba n : Nat) (s : State) : State :=
  (endBlocks lba n).foldl (fun s' k => putBlock v k (List.replicate 4096 0) none s') (endsMerged p acc v lba n s)

/-- The state after a RELEASE, before its ending is decided. -/
def released (p acc v lba n : Nat) (s : State) : State :=
  let s3 := clearUnits (volBase s v + ceilDiv lba 4) (fullUnits lba n) (endsCleared p acc v lba n s)
  let s4 := { s3 with fl := { s3.fl with wbuf := s3.fl.wbuf.filter (fun b =>
    decide (b.unit < volBase s v + ceilDiv lba 4 ∨ volBase s v + ceilDiv lba 4 + fullUnits lba n ≤ b.unit)) } }
  commitEntry [.unmap (volBase s v + ceilDiv lba 4) (fullUnits lba n)] (cacheDrop (volBase s v * 4 + lba) n s4)

theorem releaseBody_eq (p id acc : Nat) (d : Desc) (s : State) : releaseBody p id d acc s
    = decideEnd p id stOk (fld d 16 4) (released p acc (objOf d) (fld d 8 8) (fld d 16 4) s) := by
  have hends : ∀ (v lba n : Nat) (ends : List Nat) (s1 : State), (List.range 4).foldl (fun s' i => ends.foldl (fun s'' q =>
        if lba ≤ 4 * q + i ∧ 4 * q + i < lba + n then putBlock v (4 * q + i) (List.replicate 4096 0) none s'' else s'') s') s1
      = (((List.range 4).flatMap (fun i => ends.map (fun q => 4 * q + i))).filter (fun k => decide (lba ≤ k ∧ k < lba + n))).foldl
          (fun s' k => putBlock v k (List.replicate 4096 0) none s') s1 := by
    intro v lba n ends s1
    rw [List.foldl_filter, List.foldl_flatMap]
    simp only [List.foldl_map, decide_eq_true_eq]
  unfold releaseBody
  dsimp only
  rw [hends]
  rfl

section
variable (p acc v lba n : Nat) (s : State)

theorem merges_endsMerged : Merges ((endUnits lba n).map (volBase s v + ·)) s (endsMerged p acc v lba n s) :=
  (Merges.of_origins s _).trans (merges_foldl p (volBase s v) acc (fun _ => true) (endUnits lba n) _)

theorem endsCleared_frame : ∃ d c, endsCleared p acc v lba n s
    = { endsMerged p acc v lba n s with fl := { (endsMerged p acc v lba n s).fl with data := d, check := c } } :=
  foldl_putBlock_frame v (fun _ => List.replicate 4096 0) (fun _ => none) (endBlocks lba n) _

theorem released_pol : (released p acc v lba n s).pol = s.pol := by
  have hm := (merges_endsMerged p acc v lba n s).pol
  obtain ⟨d, c, hc⟩ := endsCleared_frame p acc v lba n s
  have hpol : (endsCleared p acc v lba n s).pol = s.pol := by rw [hc]; exact hm
  exact (commitEntry_pol ..).trans hpol

theorem released_data : (released p acc v lba n s).fl.data
    = (clearUnits (volBase s v + ceilDiv lba 4) (fullUnits lba n) (endsCleared p acc v lba n s)).fl.data := commitEntry_data ..

theorem released_pages : (released p acc v lba n s).tier.pages = s.tier.pages := by
  have hm := (merges_endsMerged p acc v lba n s).tier
  obtain ⟨d, c, hc⟩ := endsCleared_frame p acc v lba n s
  have htier : (endsCleared p acc v lba n s).tier = s.tier := by rw [hc]; exact hm
  exact (congrArg Tiers.pages (commitEntry_tier ..)).trans (congrArg Tiers.pages htier :)

theorem accounts_released : Accounts p s (released p acc v lba n s) := by
  have hmerge : Accounts p s (endsMerged p acc v lba n s) :=
    (StoreOnly.accounts p ⟨_, _, _, rfl⟩ : Accounts p s (overwrite v lba n s)).trans
      (Accounts.foldl (fun s' q => accounts_bufferUnit_mergeUnit p _ acc true s') _ _)
  obtain ⟨d, c, hc⟩ := endsCleared_frame p acc v lba n s
  have hclear : Accounts p (endsMerged p acc v lba n s) (endsCleared p acc v lba n s) := by
    rw [hc]
    exact StoreOnly.accounts p ⟨_, _, _, rfl⟩
  exact (hmerge.trans hclear).trans
    ((StoreOnly.trans ⟨_, _, _, rfl⟩ (storeOnly_commitEntry _ _) : StoreOnly (endsCleared p acc v lba n s) _).accounts p)

/-- A released block reads as zeros. -/
theorem released_zero {k : Nat} (hlo : lba ≤ k) (hhi : k < lba + n) :
    blockBytes (released p acc v lba n s) v k = List.replicate 4096 0 := by
  rw [blockBytes_eq, blockNo_of_pol_eq (released_pol p acc v lba n s), released_data]
  by_cases hq : k / 4 ∈ endUnits lba n
  · have hk : k ∈ endBlocks lba n := mem_endBlocks.2 ⟨hq, hlo, hhi⟩
    have hpol := (merges_endsMerged p acc v lba n s).pol
    have hz := getList_foldl_putBlock v (fun _ => List.replicate 4096 (0 : Byte)) (fun _ => none) (fun _ => List.length_replicate)
      (endBlocks lba n) (endsMerged p acc v lba n s) hk
    rw [blockNo_of_pol_eq hpol] at hz
    refine (getList_block_congr fun b hb => find_clearUnits_outside _ _ _ ?_).trans hz
    rw [mem_endUnits] at hq
    rw [unit_of_block, hb, blockNo_div]
    unfold blockUnit fullUnits ceilDiv
    split <;> omega
  · refine SMap.getList_unlisted fun b h1 h2 => find_clearUnits_inside _ _ _ ?_
    rw [mem_endUnits] at hq
    rw [unit_of_block, block_eq_iff.2 ⟨h1, h2⟩, blockNo_div]
    unfold blockUnit fullUnits ceilDiv
    split <;> omega

/-- A byte of no released block keeps its value where its unit is no end unit, or reads as intact. -/
theorem released_keeps {a : Nat} (ha : a / 4096 < blockNo s v lba ∨ blockNo s v (lba + n) ≤ a / 4096)
    (hu : a / 16384 ∉ (endUnits lba n).map (volBase s v + ·) ∨ unitStatus s (a / 16384) = stOk) :
    SMap.find 0 (released p acc v lba n s).fl.data a = SMap.find 0 s.fl.data a := by
  have hm := merges_endsMerged p acc v lba n s
  unfold blockNo at ha
  rw [released_data, find_clearUnits_outside]
  · refine (find_foldl_putBlock_outside v (fun _ => List.replicate 4096 (0 : Byte)) (fun _ => none) (fun _ => List.length_replicate) _ _
      fun k hk => ?_).trans (hm.data a hu)
    obtain ⟨-, h1, h2⟩ := mem_endBlocks.1 hk
    rw [blockNo_of_pol_eq hm.pol]
    clear hu
    unfold blockNo
    omega
  · clear hu
    rw [unit_of_block]
    unfold fullUnits ceilDiv
    split <;> omega
end

/-- A byte outside the units that a range of blocks touches lies in none of its blocks. -/
theorem outside_of_units {s : State} {v lba n a : Nat} (ha : a < blockUnit s v lba * 16384 ∨ (blockUnit s v (lba + n - 1) + 1) * 16384 ≤ a) :
    a / 4096 < blockNo s v lba ∨ blockNo s v (lba + n) ≤ a / 4096 := by
  rw [← Nat.div_lt_iff_lt_mul (by decide), ← Nat.le_div_iff_mul_le (by decide), unit_of_block] at ha
  unfold blockUnit at ha
  unfold blockNo
  omega

/-- Such a byte lies in no end unit. -/
theorem not_endUnit_of_outside {s : State} {v lba n a : Nat}
    (ha : a < blockUnit s v lba * 16384 ∨ (blockUnit s v (lba + n - 1) + 1) * 16384 ≤ a) :
    a / 16384 ∉ (endUnits lba n).map (volBase s v + ·) := by
  intro hu
  rw [← Nat.div_lt_iff_lt_mul (by decide), ← Nat.le_div_iff_mul_le (by decide)] at ha
  obtain ⟨q, hq, hqa⟩ := List.mem_map.1 hu
  rw [mem_endUnits] at hq
  unfold blockUnit at ha
  omega

/-! ### READ and RELEASE (03 R95, R96, R98) -/

/-- What READ finds does not depend on the page's registers. -/
theorem readPrefix_begun (s : State) (p : Nat) (c : Desc) (pchk : Bool) (v lba n : Nat) :
    readPrefix (begun s p c) pchk v lba n = readPrefix s pchk v lba n := by
  induction n generalizing lba with
  | zero => rfl
  | succ n ih =>
    unfold readPrefix
    dsimp only
    rw [ih]
    rfl

theorem hostWrites_nil (s : State) (a : Nat) (r : Bool) : hostWrites s a [] r = [] := by
  unfold hostWrites
  split <;> rfl

/-- What READ delivers: the leading `k` blocks, and with PCHK = 1 their check values. -/
theorem delivers_read (s : State) (p : Nat) (d : Desc) (k : Nat) (t : State) {out : List Out} (ht : Delivers p out s t) :
    Delivers p (out ++ hostWrites s (fld d 24 8) ((List.range' (fld d 8 8) k).flatMap (blockBytes s (objOf d))) true
        ++ (if bitOf (fld d 1 1) 1 = true then hostWrites s (fld d 40 8)
              ((List.range' (fld d 8 8) k).flatMap (fun b => bytesOf 8 (deliveredCheck s (objOf d) b).toNat)) true else [])) s
      (if bitOf (fld d 1 1) 1 && decide (0 < k) then dmaWrite p (fld d 40 8)
          ((List.range' (fld d 8 8) k).flatMap (fun b => bytesOf 8 (deliveredCheck s (objOf d) b).toNat)) true
          (if k = 0 then t else dmaWrite p (fld d 24 8) ((List.range' (fld d 8 8) k).flatMap (blockBytes s (objOf d))) true t)
        else if k = 0 then t else dmaWrite p (fld d 24 8) ((List.range' (fld d 8 8) k).flatMap (blockBytes s (objOf d))) true t) := by
  by_cases hk : k = 0
  · subst hk
    have hnone : (if bitOf (fld d 1 1) 1 = true then hostWrites s (fld d 40 8) [] true else []) = [] := by
      split
      · exact hostWrites_nil ..
      · rfl
    simpa [hostWrites_nil, hnone] using ht
  · have hdata := ht.trans (delivers_dmaWrite p (fld d 24 8) ((List.range' (fld d 8 8) k).flatMap (blockBytes s (objOf d))) true t)
    rw [ht.hostWrites_eq] at hdata
    by_cases hc : bitOf (fld d 1 1) 1 = true
    · have hchk := hdata.trans (delivers_dmaWrite p (fld d 40 8)
        ((List.range' (fld d 8 8) k).flatMap (fun b => bytesOf 8 (deliveredCheck s (objOf d) b).toNat)) true _)
      rw [hdata.hostWrites_eq] at hchk
      simpa [hc, hk, Nat.pos_of_ne_zero hk] using hchk
    · simpa [hc, hk] using hdata

/-- A page-check mismatch only adds to what is sent. -/
theorem pageCheckEvent_frame (u cw : Nat) (s : State) : (pageCheckEvent u cw s).trs = s.trs ∧ (pageCheckEvent u cw s).fl = s.fl
    ∧ (pageCheckEvent u cw s).tun = s.tun ∧ (pageCheckEvent u cw s).ctx = s.ctx ∧ (pageCheckEvent u cw s).coll = s.coll
    ∧ (pageCheckEvent u cw s).tier = s.tier ∧ s.outbox <+: (pageCheckEvent u cw s).outbox :=
  ⟨raise_trs .., raise_fl .., raise_tun .., raise_ctx .., raise_coll .., raise_tier .., raise_outbox_prefix _ _ _ _ _ (List.prefix_refl _)⟩

theorem read_serves (s : State) (p : Nat) (rid : BitVec 16) (d c : Desc) (k : Nat) (st : Byte) (hc : c = setDescByte d 0 0x01)
    (h : Starts s p rid c) (hr : readPrefix s (bitOf (fld c 1 1) 1) (objOf c) (fld c 8 8) (fld c 16 4) = (k, st)) :
    ∃ t rest, exec (.read p rid d) s = .next t ∧ Decided t p s.cmd.goCount st k
      ∧ t.outbox = s.outbox
          ++ hostWrites s (fld c 24 8) ((List.range' (fld c 8 8) k).flatMap (blockBytes s (objOf c))) true
          ++ (if bitOf (fld c 1 1) 1 = true then hostWrites s (fld c 40 8)
                ((List.range' (fld c 8 8) k).flatMap (fun b => bytesOf 8 (deliveredCheck s (objOf c) b).toNat)) true
              else [])
          ++ rest
      ∧ (st ≠ stCheckMismatch → rest = [])
      ∧ t.fl = s.fl ∧ t.tun = s.tun ∧ t.ctx = s.ctx ∧ t.coll = s.coll ∧ t.tier.pages = s.tier.pages ∧ OtherPages s t p := by
  have hop : fld c 0 1 = 0x01 := hc ▸ fld_setDescByte_opcode ..
  have hread := delivers_read (begun s p c) p c k _ (delivers_touchRange p (objOf c) (fld c 8 8) (min (fld c 16 4) (k + 1)) (begun s p c))
  generalize hs3 : (if bitOf (fld c 1 1) 1 && decide (0 < k) then _ else _ : State) = s3 at hread
  have hb : startBody p s.cmd.goCount (s.cmd.acceptCount + 1) c (begun s p c) = decideEnd p s.cmd.goCount st k
      (if st = stCheckMismatch then pageCheckEvent (blockUnit (begun s p c) (objOf c) (fld c 8 8 + k)) ((fld c 8 8 + k) % 4) s3 else s3) := by
    simp only [startBody, hop, readBody, readPrefix_begun, hr]
    rw [hs3]
  have hheld : heldOf s3 p s.cmd.goCount = some (readingHeld s p c []) :=
    (heldOf_of_held_eq hread.held _).trans (heldOf_begun s p c)
  obtain ⟨hpage, hoth, m, key, e, hrest⟩ := hread
  have hctx := begun_ctx (s := s) (c := c) p (by rw [hop]; decide)
  rw [exec_of_starts (i := .read p rid d) (congrArg (fun x => some (p, rid, x)) hc.symm) h]
  simp only [fenced, hb]
  by_cases hst : st = stCheckMismatch
  · rw [if_pos hst]
    obtain ⟨htrs, hfl, htun, hctx', hcoll, htier, rest, hout⟩ :=
      pageCheckEvent_frame (blockUnit (begun s p c) (objOf c) (fld c 8 8 + k)) ((fld c 8 8 + k) % 4) s3
    refine ⟨_, rest, rfl, decided_decideEnd st k ((heldOf_of_trs_eq htrs _ _).trans hheld) (undecided_readingHeld s p c []), ?_,
      fun hne => absurd hst hne, ?_, ?_, ?_, ?_, ?_, ?_⟩
    · refine hout.symm.trans (congrArg (· ++ rest) ?_)
      rw [hrest]
      simp only [List.nil_append, List.append_assoc]
      rfl
    · exact hfl.trans (by rw [hrest]; rfl)
    · exact htun.trans (by rw [hrest]; rfl)
    · exact (hctx'.trans (by rw [hrest])).trans hctx
    · exact hcoll.trans (by rw [hrest]; rfl)
    · exact (congrArg Tiers.pages htier).trans (by rw [hrest]; rfl)
    · exact ((otherPages_begun s p c).trans (otherPages_of_trs_eq htrs hoth)).trans (otherPages_decideEnd p s.cmd.goCount _ _ _)
  · rw [if_neg hst]
    refine ⟨_, [], rfl, decided_decideEnd st k hheld (undecided_readingHeld s p c []), ?_, fun _ => rfl, ?_, ?_, ?_, ?_, ?_, ?_⟩
    · rw [decideEnd_outbox, hrest]
      simp only [List.nil_append, List.append_assoc, List.append_nil]
      rfl
    · rw [decideEnd_fl, hrest]; rfl
    · rw [decideEnd_tun, hrest]; rfl
    · rw [decideEnd_ctx, hrest]; exact hctx
    · rw [decideEnd_coll, hrest]; rfl
    · rw [decideEnd_tier, hrest]; rfl
    · exact ((otherPages_begun s p c).trans hoth).trans (otherPages_decideEnd p s.cmd.goCount _ _ _)

theorem release_serves (s : State) (p : Nat) (rid : BitVec 16) (d c : Desc) (hc : c = setDescByte d 0 0x04) (h : Starts s p rid c) :
    (releaseRoom s c = false → exec (.release p rid d) s = .next (begun s p c))
    ∧ (releaseRoom s c = true →
    ∃ t, exec (.release p rid d) s = .next t ∧ Decided t p s.cmd.goCount 0x00 (fld c 16 4)
      ∧ (∀ k, fld c 8 8 ≤ k → k < fld c 8 8 + fld c 16 4 → blockBytes t (objOf c) k = List.replicate 4096 0)
      ∧ (∀ a, (a < blockUnit s (objOf c) (fld c 8 8) * 16384
            ∨ (blockUnit s (objOf c) (fld c 8 8 + fld c 16 4 - 1) + 1) * 16384 ≤ a) →
          SMap.find 0 t.fl.data a = SMap.find 0 s.fl.data a)
      ∧ (∀ k, k < fld c 8 8 ∨ fld c 8 8 + fld c 16 4 ≤ k → unitStatus s (blockUnit s (objOf c) k) = stOk →
          blockBytes t (objOf c) k = blockBytes s (objOf c) k)
      ∧ t.tun = s.tun ∧ t.ctx = s.ctx ∧ t.coll = s.coll ∧ t.tier.pages = s.tier.pages ∧ t.outbox = s.outbox ∧ OtherPages s t p) := by
  have hop : fld c 0 1 = 0x04 := hc ▸ fld_setDescByte_opcode ..
  have hb : startBody p s.cmd.goCount (s.cmd.acceptCount + 1) c (begun s p c)
      = releaseGo p s.cmd.goCount c (s.cmd.acceptCount + 1) (begun s p c) := by simp only [startBody, hop]
  have hexec := exec_of_starts (i := .release p rid d) (congrArg (fun x => some (p, rid, x)) hc.symm) h
  refine ⟨fun hroom => ?_, fun hroom => ?_⟩
  · have hgo : releaseGo p s.cmd.goCount c (s.cmd.acceptCount + 1) (begun s p c) = begun s p c :=
      if_neg (by rw [show releaseRoom (begun s p c) c = false from hroom]; decide)
    rw [hexec]
    simp only [fenced, hb, hgo]
    rfl
  · generalize hv : objOf c = v
    generalize hlba : fld c 8 8 = lba
    generalize hn : fld c 16 4 = n
    have hgo : releaseGo p s.cmd.goCount c (s.cmd.acceptCount + 1) (begun s p c)
        = decideEnd p s.cmd.goCount stOk n (released p (s.cmd.acceptCount + 1) v lba n (begun s p c)) := by
      subst hv hlba hn
      exact (if_pos hroom).trans (releaseBody_eq ..)
    have hacc := accounts_released p (s.cmd.acceptCount + 1) v lba n (begun s p c)
    have hzero := fun k => released_zero p (s.cmd.acceptCount + 1) v lba n (begun s p c) (k := k)
    have hkeeps := fun a => released_keeps p (s.cmd.acceptCount + 1) v lba n (begun s p c) (a := a)
    have hpages := released_pages p (s.cmd.acceptCount + 1) v lba n (begun s p c)
    generalize released p (s.cmd.acceptCount + 1) v lba n (begun s p c) = t at hgo hacc hzero hkeeps hpages
    have hheld := (heldOf_of_held_eq hacc.held s.cmd.goCount).trans (heldOf_begun s p c)
    rw [hexec]
    simp only [fenced, hb, hgo]
    refine ⟨_, rfl, decided_decideEnd stOk n hheld (undecided_readingHeld s p c []), hzero,
      fun a ha => hkeeps a (outside_of_units ha) (Or.inl (not_endUnit_of_outside ha)), fun k hk hok => ?_, hacc.tun,
      hacc.ctx.trans (begun_ctx p (by rw [hop]; decide)), hacc.coll, hpages, hacc.outbox,
      ((otherPages_begun s p c).trans hacc.others).trans (otherPages_decideEnd p s.cmd.goCount _ _ _)⟩
    refine (blockBytes_eq t v k).trans ?_
    rw [blockNo_of_pol_eq hacc.pol, blockBytes_eq]
    refine getList_block_congr fun b hb => hkeeps b ?_ (Or.inr ?_)
    · rw [hb]
      unfold blockNo
      omega
    · rw [unit_of_block, hb, blockNo_div]
      exact hok

/-- Settles O16. -/
theorem readAndReleaseServeTheirBlocks : Obligations.ReadAndReleaseServeTheirBlocks := ⟨read_serves, release_serves⟩

end Sys2Proof.Machine


/-! PROOFS. The finishing of commands: decided endings and WRITE (03 R83, R92, R97). -/
namespace Sys2Proof.Machine

/-! ### The row COMMAND_FINISH -/

theorem exec_commandFinish {p : Nat} (id : Nat) {s : State} (hp : p < 4096) (hm : s.boot.mode = .service) :
    exec (.commandFinish p id) s = .next (fenced (commandFinish p id) s) :=
  (if_pos hp).trans (congrArg Host.Outcome.next (if_pos hm))

theorem commandFinish_decided {s : State} {p id : Nat} {h : Held} {e : Ending} (hh : heldOf s p id = some h) (he : h.ending = some e) :
    commandFinish p id s = endCommand false p id e.status e.result s := by
  unfold commandFinish reportDecided
  rw [hh]
  simp [he]

/-- Where no ending is decided, a command that is not RUNNING waits. -/
theorem commandFinish_idle {s : State} {p id : Nat} {h : Held} (hh : heldOf s p id = some h) (he : h.ending = none) (hp : h.phase ≠ .running) :
    commandFinish p id s = s := by
  unfold commandFinish
  rw [hh]
  simp [he, hp]

section
variable {s : State} {p id : Nat} {h : Held} (hh : heldOf s p id = some h) (he : h.ending = none) (hp : h.phase = .running)
include hh he hp

theorem commandFinish_write (ho : h.op = 0x02) : commandFinish p id s = writeFinish p id h s := by
  unfold commandFinish
  rw [hh]
  simp [he, hp, ho]

theorem commandFinish_flush (ho : h.op = 0x03) : commandFinish p id s = flushFinish p id h s := by
  unfold commandFinish
  rw [hh]
  simp [he, hp, ho]

theorem commandFinish_park (ho : h.op = 0x10) : commandFinish p id s = parkFinish p id h s := by
  unfold commandFinish
  rw [hh]
  simp [he, hp, ho]

theorem commandFinish_insert (ho : h.op = 0x21) : commandFinish p id s = insertFinish p id h s := by
  unfold commandFinish
  rw [hh]
  simp [he, hp, ho]

theorem commandFinish_delete (ho : h.op = 0x22) : commandFinish p id s = deleteFinish p id h s := by
  unfold commandFinish
  rw [hh]
  simp [he, hp, ho]

/-- A FLUSH whose scope is not complete, and a PARK, INSERT or DELETE that still reads, wait. -/
theorem commandFinish_waits (hw : h.op = 0x03 ∧ flushReady s h = false ∨ (h.op = 0x10 ∨ h.op = 0x21 ∨ h.op = 0x22) ∧ h.reads ≠ []) :
    commandFinish p id s = s := by
  obtain ⟨ho, hready⟩ | ⟨ho, hreads⟩ := hw
  · rw [commandFinish_flush hh he hp ho]
    exact if_neg (by simp [hready])
  · have hin : inputsIn h = false := by simpa [inputsIn] using hreads
    obtain ho | ho | ho := ho
    · rw [commandFinish_park hh he hp ho]
      exact if_neg (by simp [sourceIn, hin])
    · rw [commandFinish_insert hh he hp ho]
      exact if_neg (by simp [hin])
    · rw [commandFinish_delete hh he hp ho]
      exact if_neg (by simp [hin])
end

/-! ### A decided ending -/

/-- What is not an ATTEND that has run ends by the common way, and its staging region is freed. -/
theorem endCommand_plain {s : State} {p id : Nat} {h : Held} (quiet : Bool) (st : Byte) (res : BitVec 64) (hh : heldOf s p id = some h)
    (hn : h.ended = false) (hs : h.op ≠ 0x13 ∨ h.step = none) :
    endCommand quiet p id st res s = freeRegions p id .stage (finishWith none quiet p id st res s) := by
  have hstep : ¬ (h.op = 0x13 ∧ h.step.isSome = true) := fun ⟨ho, hi⟩ => hs.elim (fun hne => hne ho) fun hs => by simp [hs] at hi
  unfold endCommand
  rw [hh]
  simp only [hn, if_neg hstep, Bool.false_eq_true, if_false]

/-- The deferred error of an ordinary report is the first pending one of the page. -/
theorem carried_first (t : BitVec 64) (g : Trs) : carried none (settleElapsed t g) = g.defer.head?.map (fun x => deferredWord x
    (!((g.defer.filter (fun y => y.no != x.no)).isEmpty)) (!g.deferOver.isEmpty)) := by
  unfold carried
  rw [takeDeferred_first, settleElapsed_defer, settleElapsed_deferOver]

theorem decided_finishes (s : State) (p id : Nat) (h : Held) (e : Ending) (hp : p < 4096) (hm : s.boot.mode = .service)
    (hh : heldOf s p id = some h) (he : h.ending = some e) (hn : h.ended = false) (hs : h.op ≠ 0x13 ∨ h.step = none) :
    ∃ t g, exec (.commandFinish p id) s = .next t ∧ Reported t p id e.status e.result ∧ heldOf t p id = some g
      ∧ g.deferred = (getTrs s p).defer.head?.map (fun x => deferredWord x
          (!((getTrs s p).defer.filter (fun y => y.no != x.no)).isEmpty) (!(getTrs s p).deferOver.isEmpty))
      ∧ t.cmd.locks = s.cmd.locks.filter (fun l => l.id != id) ∧ t.cmd.acceptCount = s.cmd.acceptCount
      ∧ t.fl = withoutEarly id s.fl ∧ t.ctx = s.ctx ∧ t.coll = s.coll ∧ t.tun.mem = s.tun.mem ∧ t.nor = s.nor ∧ OtherPages s t p := by
  have hend := (commandFinish_decided hh he).trans (endCommand_plain false e.status e.result hh hn hs)
  have hfin := heldOf_finishWith none false e.status e.result hh
  obtain ⟨-, hoth, hcmd⟩ := finishWith_page none false p id e.status e.result s hh
  rw [exec_commandFinish id hp hm]
  simp only [fenced, hend]
  refine ⟨_, _, rfl, reported_of_ended hfin, hfin, carried_first _ _, ?_, ?_, finishWith_fl none false e.status e.result hh,
    finishWith_ctx .., finishWith_coll .., ?_, finishWith_nor .., hoth⟩
  · exact (congrArg Intake.locks hcmd :)
  · exact (congrArg Intake.acceptCount hcmd :)
  · exact (congrArg Tundish.mem (finishWith_tun none false p id e.status e.result s) :)

/-! ### WRITE without FUA (03 R92, R97) -/

/-- The state in which a WRITE of `n` blocks has been applied and marked so. -/
def appliedWrite (p id : Nat) (h : Held) (n : Nat) (s : State) : State :=
  modHeld p id (fun x => { x with applied := true }) (applyWrite p h n s)

section
variable {s : State} {p id : Nat} {h : Held} (hh : heldOf s p id = some h)
include hh

theorem heldOf_appliedWrite (n : Nat) : heldOf (appliedWrite p id h n s) p id = some { h with applied := true } := by
  refine (heldOf_modHeld_self p id (fun x => { x with applied := true }) _ (fun _ e => e)).trans ?_
  rw [heldOf_of_held_eq (accounts_applyWrite p h n s).held id, hh]
  rfl

/-- With every block in and room for its units, a WRITE without FUA is applied and ends. -/
theorem writeFinish_buffered (ha : h.applied = false) (hr : h.reads = []) (hf : isFua h = false)
    (hroom : bufferRoom s (unitsTouched (fld h.desc 8 8) (fld h.desc 16 4)) = true) :
    writeFinish p id h s = finish p id stOk (BitVec.ofNat 64 (fld h.desc 16 4)) (appliedWrite p id h (fld h.desc 16 4) s) := by
  have hin : inputsIn h = true := by simp [inputsIn, hr]
  have hheld := heldOf_appliedWrite hh (fld h.desc 16 4)
  have hf' : isFua { h with applied := true } = false := hf
  unfold appliedWrite at hheld
  unfold writeFinish
  simp only [ha, hin, hroom, Bool.and_self, Bool.false_eq_true, if_false, if_true]
  rw [hheld]
  simp only [hf', not_true_eq_false, if_false, Bool.false_eq_true]
  rfl
end

/-- A command's ending keeps the buffered units that belong to no command alone. -/
theorem inBuffer_withoutEarly {s t : State} {u id : Nat} (h : Buffered s u) (ht : t.fl = withoutEarly id s.fl) : inBuffer t u = true := by
  obtain ⟨b, hb, hu, hc⟩ := h
  unfold inBuffer
  rw [ht]
  exact List.any_eq_true.2 ⟨b, List.mem_filter.2 ⟨hb, by simp [hc]⟩, by simp [hu]⟩

theorem write_finishes (s : State) (p id : Nat) (h : Held) (hp : p < 4096) (hm : s.boot.mode = .service) (hh : heldOf s p id = some h)
    (ho : h.op = 0x02) (hrun : h.phase = .running) (he : h.ending = none) (ha : h.applied = false) (hr : h.reads = [])
    (hf : isFua h = false) (hn : 0 < fld h.desc 16 4) (hroom : bufferRoom s (unitsTouched (fld h.desc 8 8) (fld h.desc 16 4)) = true) :
    ∃ t, exec (.commandFinish p id) s = .next t ∧ Reported t p id 0x00 (BitVec.ofNat 64 (fld h.desc 16 4))
      ∧ (∀ i, i < fld h.desc 16 4 →
          blockBytes t (objOf h.desc) (fld h.desc 8 8 + i) = rxBytes h (fld h.desc 24 8 + i * 4096) 4096)
      ∧ (∀ a, (a < blockUnit s (objOf h.desc) (fld h.desc 8 8) * 16384
            ∨ (blockUnit s (objOf h.desc) (fld h.desc 8 8 + fld h.desc 16 4 - 1) + 1) * 16384 ≤ a) →
          SMap.find 0 t.fl.data a = SMap.find 0 s.fl.data a)
      ∧ (∀ k, (k < fld h.desc 8 8 ∨ fld h.desc 8 8 + fld h.desc 16 4 ≤ k) → unitStatus s (blockUnit s (objOf h.desc) k) = stOk →
          blockBytes t (objOf h.desc) k = blockBytes s (objOf h.desc) k)
      ∧ (∀ i, i < fld h.desc 16 4 → inBuffer t (blockUnit s (objOf h.desc) (fld h.desc 8 8 + i)) = true)
      ∧ t.fl.map = s.fl.map ∧ t.fl.journal = s.fl.journal ∧ t.tun = s.tun ∧ t.ctx = s.ctx ∧ t.coll = s.coll := by
  have hend := (commandFinish_write hh he hrun ho).trans (writeFinish_buffered hh ha hr hf hroom)
  have hx := heldOf_appliedWrite hh (fld h.desc 16 4)
  have hw := wrote_applyWrite p h hn s
  have hacc := accounts_applyWrite p h (fld h.desc 16 4) s
  rw [exec_commandFinish id hp hm]
  simp only [fenced, hend]
  generalize ht : finish p id stOk (BitVec.ofNat 64 (fld h.desc 16 4)) (appliedWrite p id h (fld h.desc 16 4) s) = t
  have hrep : Reported t p id stOk (BitVec.ofNat 64 (fld h.desc 16 4)) := ht ▸ finish_reported stOk _ hx
  have hfl : t.fl = withoutEarly id (applyWrite p h (fld h.desc 16 4) s).fl := ht ▸ finishWith_fl none false stOk _ hx
  have hpol : t.pol = s.pol := ht ▸ (finishWith_pol ..).trans hacc.pol
  have hctx : t.ctx = s.ctx := ht ▸ (finishWith_ctx ..).trans hacc.ctx
  have hcoll : t.coll = s.coll := ht ▸ (finishWith_coll ..).trans hacc.coll
  have htun : t.tun = s.tun := ht ▸ (finishWith_tun ..).trans hacc.tun
  have hdata : t.fl.data = (applyWrite p h (fld h.desc 16 4) s).fl.data := (congrArg Flash.data hfl :)
  refine ⟨_, rfl, hrep, fun i hi => ?_, fun a ha => ?_, fun k hk hok => ?_, fun i hi => ?_, ?_, ?_, htun, hctx, hcoll⟩
  · refine (blockBytes_eq t _ _).trans ?_
    rw [blockNo_of_pol_eq hpol, hdata, hw.blocks _ (Nat.le_add_right ..) (Nat.add_lt_add_left hi _), sentBlock, Nat.add_sub_cancel_left]
  · refine (congrArg (fun d => SMap.find 0 d a) hdata :).trans (hw.data a (outside_of_units ha) (Or.inl fun hu => ?_))
    rw [mem_touchedUnits hn] at hu
    rw [← Nat.div_lt_iff_lt_mul (by decide), ← Nat.le_div_iff_mul_le (by decide)] at ha
    clear hw hdata hfl
    omega
  · refine (blockBytes_eq t _ _).trans ?_
    rw [blockNo_of_pol_eq hpol, hdata, blockBytes_eq]
    refine getList_block_congr fun b hb => hw.data b ?_ (Or.inr ?_)
    · rw [hb]
      unfold blockNo
      clear hw hdata hfl
      omega
    · rw [unit_of_block, hb, blockNo_div]
      exact hok
  · refine inBuffer_withoutEarly (hw.buffered _ ((mem_touchedUnits hn).2 ?_)) hfl
    unfold blockUnit
    clear hw hdata hfl
    omega
  · exact (congrArg Flash.map hfl :).trans hw.map
  · exact (congrArg Flash.journal hfl :).trans hw.journal

/-- Settles O27. -/
theorem decidedEndingsAndWritesFinish : Obligations.DecidedEndingsAndWritesFinish := by
  refine ⟨⟨decided_finishes, fun s p id hp hm hh => ?_, fun s p id h hp hm hh he hw => ?_⟩, write_finishes⟩
  · rw [exec_commandFinish id hp hm, fenced_of_eq]
    unfold commandFinish
    rw [hh]
  · have hwait : commandFinish p id s = s := by
      by_cases hrun : h.phase = .running
      · exact commandFinish_waits hh he hrun (hw.resolve_left (fun hne => hne hrun))
      · exact commandFinish_idle hh he hrun
    rw [exec_commandFinish id hp hm, fenced_of_eq hwait]

end Sys2Proof.Machine


/-! PROOFS. FLUSH, INSERT and DELETE finish (03 R87, R90, 05 R157, R159). -/
namespace Sys2Proof.Machine

/-! ### FLUSH -/

/-- What a flush of staging leaves of the flash. -/
theorem journalFlush_fl (s : State) : (journalFlush s).fl.journal.length = s.fl.journal.length ∧ (journalFlush s).fl.pendBytes = 0
    ∧ (journalFlush s).fl.data = s.fl.data ∧ (journalFlush s).fl.map = s.fl.map := by
  unfold journalFlush
  split
  · exact ⟨rfl, ‹_›, rfl, rfl⟩
  · exact ⟨List.length_map .., rfl, rfl, rfl⟩

/-- With something staged, a flush leaves every entry durable and no mapped unit in the buffer. -/
theorem journalFlush_durable {s : State} (hp : 0 < s.fl.pendBytes) :
    (∀ e ∈ (journalFlush s).fl.journal, e.durable = true) ∧ ∀ b ∈ (journalFlush s).fl.wbuf, b.mapSeq = none := by
  unfold journalFlush
  rw [if_neg (by omega)]
  refine ⟨fun e he => ?_, fun b hb => ?_⟩
  · obtain ⟨x, -, rfl⟩ := List.mem_map.1 he
    rfl
  · exact Option.isNone_iff_eq_none.1 (List.mem_filter.1 hb).2

theorem flushError_of_trs_eq {s t : State} (h : Held) (ht : t.trs = s.trs) : flushError t h = flushError s h := by
  unfold flushError outstanding
  rw [ht]

/-- A FLUSH whose scope is complete ends after a flush of staging, with OK or the first outstanding error of its scope. -/
theorem flushFinish_ready {s : State} {p id : Nat} {h : Held} (hr : flushReady s h = true) : ∃ pick, flushFinish p id h s
    = finishWith pick false p id ((flushError s h).elim stOk (fun e => e.2.code)) 0 (journalFlush s) := by
  unfold flushFinish
  rw [if_pos hr]
  dsimp only
  rw [flushError_of_trs_eq h (storeOnly_journalFlush s).trs]
  cases flushError s h with
  | none => exact ⟨none, rfl⟩
  | some e => exact ⟨_, rfl⟩

theorem flush_finishes (s : State) (p id : Nat) (h : Held) (hp : p < 4096) (hm : s.boot.mode = .service) (hh : heldOf s p id = some h)
    (ho : h.op = 0x03) (hrun : h.phase = .running) (he : h.ending = none) (hr : flushReady s h = true) :
    ∃ t, exec (.commandFinish p id) s = .next t
      ∧ Reported t p id ((flushError s h).elim 0x00 (fun e => e.2.code)) 0
      ∧ (0 < s.fl.pendBytes → (∀ e ∈ t.fl.journal, e.durable = true) ∧ (∀ b ∈ t.fl.wbuf, b.mapSeq = none))
      ∧ t.fl.journal.length = s.fl.journal.length ∧ t.fl.pendBytes = 0 ∧ t.fl.data = s.fl.data ∧ t.fl.map = s.fl.map ∧ t.tun = s.tun ∧ t.ctx = s.ctx ∧ t.coll = s.coll := by
  obtain ⟨pick, hfl⟩ := flushFinish_ready (p := p) (id := id) hr
  have hend := (commandFinish_flush hh he hrun ho).trans hfl
  have hstore := storeOnly_journalFlush s
  have hx : heldOf (journalFlush s) p id = some h := (heldOf_of_trs_eq hstore.trs p id).trans hh
  obtain ⟨hlen, hpend, hdata, hmap⟩ := journalFlush_fl s
  have hdur := fun hpos => journalFlush_durable (s := s) hpos
  generalize journalFlush s = u at hend hstore hx hlen hpend hdata hmap hdur
  have hf := finishWith_fl pick false ((flushError s h).elim stOk (fun e => e.2.code)) 0 hx
  rw [exec_commandFinish id hp hm]
  simp only [fenced, hend]
  refine ⟨_, rfl, reported_of_ended (heldOf_finishWith pick false _ 0 hx), fun hpos => ⟨?_, ?_⟩, ?_, ?_, ?_, ?_,
    (finishWith_tun ..).trans hstore.tun, (finishWith_ctx ..).trans hstore.ctx, (finishWith_coll ..).trans hstore.coll⟩
  · rw [hf]; exact (hdur hpos).1
  · rw [hf]; exact fun b hb => (hdur hpos).2 b (List.mem_filter.1 hb).1
  · rw [hf]; exact hlen
  · rw [hf]; exact hpend
  · rw [hf]; exact hdata
  · rw [hf]; exact hmap

/-! ### A commit to a collection -/

theorem getColl_setColl_self (c : Nat) (x : Coll) (s : State) : getColl (setColl c x s) c = x := by simp [getColl, setColl]

theorem getColl_setColl_other {c j : Nat} (x : Coll) (s : State) (h : j ≠ c) : getColl (setColl c x s) j = getColl s j := by
  simp [getColl, setColl, h]

/-- The state in which a collection has been replaced, its pages synchronized and its record committed. -/
def collCommitted (cid acc : Nat) (x : Coll) (s : State) : State := commitEntry [collObject cid] (syncColl cid acc (setColl cid x s))

theorem storeOnly_collCommitted (cid acc : Nat) (x : Coll) (s : State) : StoreOnly (setColl cid x s) (collCommitted cid acc x s) :=
  (storeOnly_syncColl cid acc _).trans (storeOnly_commitEntry _ _)

/-- A command that commits a collection and ends with OK. -/
theorem commit_finishes {s : State} {p id : Nat} {h : Held} (cid acc : Nat) (x : Coll) (n : Nat) (hp : p < 4096)
    (hm : s.boot.mode = .service) (hh : heldOf s p id = some h)
    (hc : commandFinish p id s = finish p id stOk (BitVec.ofNat 64 n) (collCommitted cid acc x s)) :
    ∃ t, exec (.commandFinish p id) s = .next t ∧ Reported t p id 0x00 (BitVec.ofNat 64 n) ∧ getColl t cid = x
      ∧ (∀ j, j ≠ cid → getColl t j = getColl s j) ∧ t.ctx = s.ctx ∧ t.tun.mem = s.tun.mem := by
  have hstore := storeOnly_collCommitted cid acc x s
  generalize collCommitted cid acc x s = u at hc hstore
  have hx : heldOf u p id = some h := (heldOf_of_trs_eq hstore.trs p id).trans hh
  have hcoll : (finish p id stOk (BitVec.ofNat 64 n) u).coll = (setColl cid x s).coll := (finishWith_coll ..).trans hstore.coll
  rw [exec_commandFinish id hp hm]
  simp only [fenced, hc]
  refine ⟨_, rfl, finish_reported stOk _ hx, ?_, fun j hj => ?_, (finishWith_ctx ..).trans hstore.ctx,
    (congrArg Tundish.mem ((finishWith_tun none false p id stOk (BitVec.ofNat 64 n) u).trans hstore.tun) :)⟩
  · exact (congrArg (fun m => SMap.find {} m cid) hcoll :).trans (getColl_setColl_self cid x s)
  · exact (congrArg (fun m => SMap.find {} m j) hcoll :).trans (getColl_setColl_other x s hj)

/-! ### INSERT -/

/-- The codes that an INSERT of the records `recs` appends to the collection `x`. -/
def insertedCodes (x : Coll) (recs : List (Nat × Nat × Nat)) : List Code :=
  (List.range recs.length).map (fun i =>
    let r := recs.getD i (0, 0, 0)
    { ord := x.nextOrd + i, cid := r.2.1, attr := r.2.2, bits := r.1, insSeq := x.commitSeq + 1 })

theorem insertedCodes_ords (x : Coll) (recs : List (Nat × Nat × Nat)) :
    (insertedCodes x recs).map (fun k => k.ord) = List.range' x.nextOrd recs.length := by
  rw [insertedCodes, List.map_map, List.range'_eq_map_range]
  rfl

theorem insertedCodes_records (x : Coll) (recs : List (Nat × Nat × Nat)) :
    (insertedCodes x recs).map (fun k => (k.bits, k.cid, k.attr)) = recs := by
  rw [insertedCodes, List.map_map]
  refine List.ext_getElem (by simp) fun i h1 h2 => ?_
  simp [h2]

theorem length_parseRecords (w n : Nat) (src : Nat → Nat → List Byte) : (parseRecords w n src).length = n := by simp [parseRecords]

/-- The collection `x` with the codes of the records `recs` appended. -/
def withInserted (x : Coll) (recs : List (Nat × Nat × Nat)) : Coll :=
  { x with codes := x.codes ++ insertedCodes x recs, commitSeq := (x.commitSeq + 1) % 2 ^ 64, nextOrd := x.nextOrd + recs.length }

theorem insertFinish_ready {s : State} {p id : Nat} {h : Held} (hr : h.reads = [])
    (hroom : bufferRoom s (4 * (fld h.desc 8 4 / sidePer (getColl s (objOf h.desc)).width + 2)) = true) :
    insertFinish p id h s = finish p id stOk (BitVec.ofNat 64 ((getColl s (objOf h.desc)).nextOrd % 2 ^ 48))
      (collCommitted (objOf h.desc) h.acceptNo (withInserted (getColl s (objOf h.desc)) (parseRecords (getColl s (objOf h.desc)).width
        (fld h.desc 8 4) (fun off k => rxBytes h (fld h.desc 24 8 + off) k))) s) := by
  unfold insertFinish
  rw [if_pos (by simp [inputsIn, hr, hroom])]
  rfl

theorem insert_finishes (s : State) (p id : Nat) (h : Held) (x : Coll) (n : Nat) (hp : p < 4096) (hm : s.boot.mode = .service)
    (hh : heldOf s p id = some h) (ho : h.op = 0x21) (hrun : h.phase = .running) (he : h.ending = none) (hr : h.reads = [])
    (hx : x = getColl s (objOf h.desc)) (hn : n = fld h.desc 8 4) (hroom : bufferRoom s (4 * (n / sidePer x.width + 2)) = true) :
    ∃ t, exec (.commandFinish p id) s = .next t ∧ Reported t p id 0x00 (BitVec.ofNat 64 (x.nextOrd % 2 ^ 48))
      ∧ (getColl t (objOf h.desc)).commitSeq = (x.commitSeq + 1) % 2 ^ 64 ∧ (getColl t (objOf h.desc)).nextOrd = x.nextOrd + n
      ∧ (∃ cs, (getColl t (objOf h.desc)).codes = x.codes ++ cs ∧ cs.map (fun k => k.ord) = List.range' x.nextOrd n
          ∧ cs.map (fun k => (k.bits, k.cid, k.attr))
              = parseRecords x.width n (fun off k => rxBytes h (fld h.desc 24 8 + off) k)
          ∧ ∀ k ∈ cs, k.insSeq = x.commitSeq + 1 ∧ k.folded = none ∧ k.tombSeq = none ∧ k.removed = none)
      ∧ (∀ j, j ≠ objOf h.desc → getColl t j = getColl s j) ∧ t.ctx = s.ctx ∧ t.tun.mem = s.tun.mem := by
  subst hx hn
  obtain ⟨t, hexec, hrep, hcoll, hothers, hctx, hmem⟩ := commit_finishes _ _ _ _ hp hm hh
    ((commandFinish_insert hh he hrun ho).trans (insertFinish_ready hr hroom))
  have hlen := length_parseRecords (getColl s (objOf h.desc)).width (fld h.desc 8 4) (fun off k => rxBytes h (fld h.desc 24 8 + off) k)
  refine ⟨t, hexec, hrep, by rw [hcoll]; rfl, by rw [hcoll]; exact congrArg (_ + ·) hlen, ⟨_, by rw [hcoll]; rfl, ?_,
    insertedCodes_records .., fun k hk => ?_⟩, hothers, hctx, hmem⟩
  · rw [insertedCodes_ords, hlen]
  · obtain ⟨i, -, rfl⟩ := List.mem_map.1 hk
    exact ⟨rfl, rfl, rfl, rfl⟩

/-! ### DELETE -/

/-- The collection `x` with the named codes tombstoned. -/
def withTombs (x : Coll) (named : List Nat) : Coll :=
  { x with commitSeq := (x.commitSeq + 1) % 2 ^ 64,
           codes := x.codes.map (fun k => if k.ord ∈ named then { k with tombSeq := some (x.commitSeq + 1) } else k) }

theorem deleteFinish_ready {s : State} {p id : Nat} {h : Held} {named : List Nat} (hr : h.reads = [])
    (hroom : bufferRoom s (4 * (fld h.desc 8 4 / 4096 + 2)) = true)
    (hnamed : named = deleteTargets (getColl s (objOf h.desc))
      ((List.range (fld h.desc 8 4)).map (fun i => numAt (rxBytes h (fld h.desc 24 8) (8 * fld h.desc 8 4)) (8 * i) 8))) :
    deleteFinish p id h s = finish p id stOk (BitVec.ofNat 64 named.length)
      (collCommitted (objOf h.desc) h.acceptNo (withTombs (getColl s (objOf h.desc)) named) s) := by
  unfold deleteFinish
  rw [if_pos (by simp [inputsIn, hr, hroom]), hnamed]
  rfl

/-- Settles O28. -/
theorem flushAndCollectionChangesCommit : Obligations.FlushAndCollectionChangesCommit := by
  refine ⟨flush_finishes, insert_finishes, fun s p id h x n named hp hm hh ho hrun he hr hx hn hroom hnamed => ?_⟩
  subst hx hn
  exact commit_finishes _ _ _ _ hp hm hh ((commandFinish_delete hh he hrun ho).trans (deleteFinish_ready hr hroom hnamed))

end Sys2Proof.Machine


/-! PROOFS. Waiting commands are accepted and start (03 R77, R85, R86). -/
namespace Sys2Proof.Machine

/-! ### The rows -/

theorem exec_lockEntryFreed {s : State} (hm : s.boot.mode = .service) : exec .lockEntryFreed s = .next (fenced lockFreed s) :=
  congrArg Host.Outcome.next (if_pos hm)

theorem exec_conflictCleared {p : Nat} (id : Nat) {s : State} (hp : p < 4096) (hm : s.boot.mode = .service) :
    exec (.conflictCleared p id) s = .next (fenced (tryStart p id) s) := (if_pos hp).trans (congrArg Host.Outcome.next (if_pos hm))

theorem exec_acceptanceWaitEnd {s : State} (hm : s.boot.mode = .service) : exec .acceptanceWaitEnd s = .next (fenced waitEnded s) :=
  congrArg Host.Outcome.next (if_pos hm)

/-! ### A lock entry is freed -/

/-- With nothing that waits, or a full table, nobody is accepted. -/
theorem lockFreed_none {s : State} (h : pendingBy (fun h => h.waitLock) s = [] ∨ 1024 ≤ s.cmd.locks.length) : lockFreed s = s := by
  unfold lockFreed
  cases hw : pendingBy (fun h => h.waitLock) s with
  | nil => rfl
  | cons e es => exact if_pos (h.resolve_left (by simp [hw]))

theorem lockFreed_one {s : State} {p id : Nat} (h : pendingBy (fun h => h.waitLock) s = [(p, id)]) (hl : s.cmd.locks.length < 1024) :
    lockFreed s = accept p id s := by
  unfold lockFreed
  rw [h]
  exact if_neg (Nat.not_le.2 hl)

/-- The command `h` with descriptor `d` as its acceptance leaves it. -/
def Held.acceptedAs (h : Held) (s : State) (p : Nat) (d : Desc) : Held :=
  let x := getColl s (objOf d)
  { h with phase := .accepted, waitRes := false, waitLock := false, acceptNo := s.cmd.acceptCount + 1, resv := resvOf s p d,
           search := if fld d 0 1 = 0x20 ∨ fld d 0 1 = 0x32 ∧ fld d 8 1 = 1
             then some { coll := objOf d, epoch := x.epochNo, commitSeq := x.commitSeq } else none,
           mergeSeq := x.commitSeq }

/-- The state in which the command `id`, which locks `l`, has been accepted and has not started. -/
def acceptedWith (p id : Nat) (d : Desc) (l : Bool × List LockRange) (s : State) : State :=
  { modHeld p id (fun y => y.acceptedAs s p d) s with
    cmd := { s.cmd with acceptCount := s.cmd.acceptCount + 1, locks := s.cmd.locks ++ [⟨p, id, s.cmd.acceptCount + 1, l.1, l.2⟩] } }

section
variable {s : State} {p id : Nat} {h : Held} {l : Bool × List LockRange} (hh : heldOf s p id = some h)
include hh

theorem accept_eq (hl : lockOf s h.desc = some l) (ho : h.op ≠ 0x13) : accept p id s = tryStart p id (acceptedWith p id h.desc l s) := by
  have ho' : ¬ fld h.desc 0 1 = 0x13 := ho
  unfold accept
  rw [hh]
  dsimp only
  rw [hl, if_neg ho']
  rfl

theorem heldOf_acceptedWith : heldOf (acceptedWith p id h.desc l s) p id = some (h.acceptedAs s p h.desc) := by
  refine (heldOf_modHeld_self p id (fun y => y.acceptedAs s p h.desc) s (fun _ e => e)).trans ?_
  rw [hh]
  rfl
end

/-- A command whose new entry an earlier one conflicts with stays where it is. -/
theorem tryStart_blocked {s : State} {p id : Nat} {h : Held} (hh : heldOf s p id = some h) (hb : blocked s h = true) : tryStart p id s = s := by
  unfold tryStart
  rw [hh]
  exact if_neg fun hc => by simp [hb] at hc

theorem blocked_acceptedWith {s : State} {p id : Nat} {h : Held} {l : Bool × List LockRange} (hid : h.id = id)
    (hnew : ∀ m ∈ s.cmd.locks, m.id ≠ id)
    (hb : s.cmd.locks.any (fun m => decide (m.acceptNo < s.cmd.acceptCount + 1) && locksConflict m ⟨p, id, s.cmd.acceptCount + 1, l.1, l.2⟩) = true) :
    blocked (acceptedWith p id h.desc l s) (h.acceptedAs s p h.desc) = true := by
  have hlocks : (acceptedWith p id h.desc l s).cmd.locks = s.cmd.locks ++ [⟨p, id, s.cmd.acceptCount + 1, l.1, l.2⟩] := rfl
  have hid' : (h.acceptedAs s p h.desc).id = id := hid
  have hfind : (s.cmd.locks ++ [(⟨p, id, s.cmd.acceptCount + 1, l.1, l.2⟩ : Lock)]).find? (fun m => m.id == id)
      = some ⟨p, id, s.cmd.acceptCount + 1, l.1, l.2⟩ := by
    rw [List.find?_append, List.find?_eq_none.2 (by simpa using hnew)]
    simp
  unfold blocked
  rw [hlocks, hid', hfind]
  dsimp only
  rw [List.any_append, hb]
  rfl

theorem waiter_accepted (s : State) (p id : Nat) (h : Held) (l : Bool × List LockRange) (hm : s.boot.mode = .service)
    (hlen : s.cmd.locks.length < 1024) (hw : pendingBy (fun h => h.waitLock) s = [(p, id)]) (hh : heldOf s p id = some h)
    (hid : h.id = id) (hl : lockOf s h.desc = some l) (ho : h.op ≠ 0x13) (hnew : ∀ m ∈ s.cmd.locks, m.id ≠ id)
    (hb : s.cmd.locks.any (fun m => decide (m.acceptNo < s.cmd.acceptCount + 1) && locksConflict m ⟨p, id, s.cmd.acceptCount + 1, l.1, l.2⟩) = true) :
    ∃ t g, exec .lockEntryFreed s = .next t ∧ heldOf t p id = some g ∧ g.phase = .accepted ∧ g.acceptNo = s.cmd.acceptCount + 1
      ∧ g.waitLock = false ∧ g.waitRes = false ∧ g.desc = h.desc ∧ g.resv = resvOf s p h.desc
      ∧ t = { s with trs := t.trs, cmd := { s.cmd with acceptCount := s.cmd.acceptCount + 1,
                                                       locks := s.cmd.locks ++ [⟨p, id, s.cmd.acceptCount + 1, l.1, l.2⟩] } }
      ∧ OtherPages s t p := by
  have hheld := heldOf_acceptedWith (l := l) hh
  have hf : lockFreed s = acceptedWith p id h.desc l s :=
    ((lockFreed_one hw hlen).trans (accept_eq hh hl ho)).trans (tryStart_blocked hheld (blocked_acceptedWith hid hnew hb))
  rw [exec_lockEntryFreed hm, fenced_of_keeps hf rfl rfl rfl rfl rfl]
  exact ⟨_, _, rfl, hheld, rfl, rfl, rfl, rfl, rfl, rfl, rfl, otherPages_modHeld p id _ s⟩

/-! ### The start event (16 R466) -/

section
variable {s : State} {p id : Nat} {h : Held} (hh : heldOf s p id = some h)
include hh

theorem getTrs_startEvent : getTrs (startEvent p id s) p =
    let g := settleElapsed (now s) (getTrs s p)
    let q : Trs := { g with held := g.held.map (fun x => if x.id = id then { x with phase := .running } else x) }
    if quietOp h.op then q else { q with runSince := some (now s), lastSet := q.current, current := {}, sampleSeq := q.sampleSeq + 1 } := by
  have hf : (settleElapsed (now s) (getTrs s p)).held.find? (fun y => y.id == id) = some h := by rw [settleElapsed_held]; exact hh
  unfold startEvent
  rw [getTrs_modTrs_self]
  dsimp only
  rw [hf]

theorem heldOf_startEvent : heldOf (startEvent p id s) p id = some { h with phase := .running } := by
  have hheld : (getTrs (startEvent p id s) p).held = (getTrs s p).held.map (fun x => if x.id = id then { x with phase := .running } else x) := by
    rw [getTrs_startEvent hh]
    dsimp only
    split <;> rw [settleElapsed_held]
  unfold heldOf
  rw [hheld, find_map_held _ id (fun x => { x with phase := .running }) (fun _ e => e)]
  exact congrArg (Option.map _) hh

theorem startEvent_sets (ho : h.op ≠ 0x40 ∧ h.op ≠ 0x41) :
    (getTrs (startEvent p id s) p).lastSet = (settleElapsed (now s) (getTrs s p)).current
      ∧ (getTrs (startEvent p id s) p).current = {} ∧ (getTrs (startEvent p id s) p).sampleSeq = (getTrs s p).sampleSeq + 1 := by
  have hq : quietOp h.op = false := by simp [quietOp, ho]
  rw [getTrs_startEvent hh]
  simp [hq]
end

theorem otherPages_startEvent (p id : Nat) (s : State) : OtherPages s (startEvent p id s) p := otherPages_modTrs p _ s

theorem fenced_startEvent {f : State → State} {p id : Nat} {s : State} (h : f s = startEvent p id s) : fenced f s = startEvent p id s :=
  fenced_of_keeps h (by simp) (by simp) (by simp) (by simp) (by simp)

/-! ### A conflict is cleared -/

section
variable {s : State} {p id : Nat} {h : Held} (hh : heldOf s p id = some h) (ha : h.phase = .accepted) (he : h.ending = none)
  (hb : blocked s h = false)
include hh ha he hb

theorem tryStart_gone {st : Byte} (hg : objectGone s h.desc = some st) : tryStart p id s = finish p id st 0 s := by
  unfold tryStart
  rw [hh]
  dsimp only
  rw [if_pos ⟨ha, by simp [he], hb⟩, hg]

theorem tryStart_starts (hg : objectGone s h.desc = none) (hf : startFail (startEvent p id s) h.desc = none) :
    tryStart p id s = startBody p id h.acceptNo h.desc (startEvent p id s) := by
  unfold tryStart
  rw [hh]
  dsimp only
  rw [if_pos ⟨ha, by simp [he], hb⟩, hg]
  dsimp only
  rw [hf]

theorem tryStart_fails {st : Byte} (hg : objectGone s h.desc = none) (hf : startFail (startEvent p id s) h.desc = some st) :
    tryStart p id s = startEnd p id st h.desc (startEvent p id s) := by
  unfold tryStart
  rw [hh]
  dsimp only
  rw [if_pos ⟨ha, by simp [he], hb⟩, hg]
  dsimp only
  rw [hf]
end

theorem finish_sets {s : State} {p id : Nat} {h : Held} (st : Byte) (res : BitVec 64) (hh : heldOf s p id = some h) :
    (getTrs (finish p id st res s) p).sampleSeq = (getTrs s p).sampleSeq ∧ (getTrs (finish p id st res s) p).lastSet = (getTrs s p).lastSet := by
  unfold finish
  rw [getTrs_finishWith none false st res hh]
  exact ⟨endedPage_sampleSeq .., endedPage_lastSet ..⟩

/-! ### A command that cannot start -/

/-- A BIND or UNBIND whose target does not fit it ends with INVALID_FIELD; another command without its program or weights, with
MEDIA_ERROR. -/
theorem startFail_some {s : State} {d : Desc} {st : Byte} (hf : startFail s d = some st) :
    (fld d 0 1 = 0x50 ∧ st = stInvalidField) ∨ (fld d 0 1 ∈ [0x13, 0x20, 0x23, 0x30, 0x31, 0x32] ∧ st = stMediaError) := by
  have hkind : slotKind d ≠ 0 → fld d 0 1 ∈ [0x13, 0x20, 0x23, 0x30, 0x31, 0x32] := by
    unfold slotKind
    split <;> simp_all
  unfold startFail at hf
  dsimp only at hf
  split at hf
  · rename_i hc
    exact Or.inl ⟨hc.1, (Option.some.inj hf).symm⟩
  · split at hf
    · rename_i hc
      exact Or.inr ⟨hkind hc.1, (Option.some.inj hf).symm⟩
    · split at hf
      · rename_i hc
        exact Or.inr ⟨by simp [hc.1], (Option.some.inj hf).symm⟩
      · exact absurd hf.symm (Option.some_ne_none st)

theorem reportDecided_reported {s : State} {p id : Nat} {h : Held} {e : Ending} (hh : heldOf s p id = some h) (he : h.ending = some e)
    (hn : h.ended = false) (hs : h.op ≠ 0x13) : Reported (reportDecided false p id s) p id e.status e.result := by
  have hd : reportDecided false p id s = freeRegions p id .stage (finishWith none false p id e.status e.result s) := by
    unfold reportDecided
    rw [hh]
    simp only [Option.bind_some, he]
    exact endCommand_plain false e.status e.result hh hn (Or.inl hs)
  rw [hd]
  exact reported_of_ended (heldOf_finishWith none false e.status e.result hh)

/-- A MERGE that meets poison or unreadable weights is stopped and reported, with RESULT 0. -/
theorem mediaStop_merge {s : State} {p id : Nat} {h : Held} (st : Byte) (hh : heldOf s p id = some h) (hu : h.undecided = true)
    (ho : h.op = 0x23) : Reported (mediaStop p id st s) p id st 0 := by
  have hstop : stopCommand p id st s = decideEnd p id st 0 s := by
    unfold stopCommand applyStopped
    rw [hh]
    simp only [hu, ho]
    rfl
  have hms : mediaStop p id st s = reportDecided false p id (decideEnd p id st 0 s) := by
    unfold mediaStop
    rw [hh]
    simp only [hu, ho, hstop]
    rfl
  have hended : h.ended = false := by
    unfold Held.undecided at hu
    simpa using (Bool.and_eq_true_iff.1 hu).1
  rw [hms]
  exact reportDecided_reported (heldOf_decideEnd_self st 0 hh hu) rfl hended (by rw [show (h.decided st 0).op = h.op from rfl, ho]; decide)

theorem mediaStop_search {s : State} {p id : Nat} {h : Held} (st : Byte) (hh : heldOf s p id = some h) (hu : h.undecided = true)
    (ho : h.op = 0x20) : ∃ st' res, Reported (mediaStop p id st s) p id st' res := by
  have hms : mediaStop p id st s = searchStop p id st h s := by
    unfold mediaStop
    rw [hh]
    simp only [hu, ho]
    rfl
  rw [hms]
  exact searchStop_reported st hh

/-- A report stands when only steps change. -/
theorem StepsOnly.reported {s t : State} {p id : Nat} {st : Byte} {res : BitVec 64} (h : StepsOnly s t) (hr : Reported s p id st res) :
    Reported t p id st res := by
  obtain ⟨x, hx, hphase, hstatus, hresult, hending, hresv⟩ := hr
  obtain ⟨y, hy, hxy⟩ := h.heldOf hx
  exact ⟨y, hy, (congrArg Held.phase hxy).trans hphase, (congrArg Held.status hxy).trans hstatus, (congrArg Held.result hxy).trans hresult,
    (congrArg Held.ending hxy).trans hending, (congrArg Held.resv hxy).trans hresv⟩

/-- A step that ends is reported with the layers it has done. -/
theorem attendEnd_reported {s : State} {p id : Nat} {h : Held} {q : Step} (code : Byte) (hh : heldOf s p id = some h)
    (hq : h.step = some q) : Reported (attendEnd p id code s) p id code (BitVec.ofNat 64 q.doneLayers) := by
  have hx := (heldOf_of_held_eq (held_stepLeft p id code q s) id).trans hh
  have hs : (heldOf s p id).bind (·.step) = some q := by rw [hh]; exact hq
  unfold attendEnd
  rw [attendEndWith_of_step false code hs]
  exact (stepsOnly_settleLeaves _).reported (reported_of_ended (heldOf_finishWith none false code _ hx))

theorem heldOf_modStep (p id : Nat) (f : Step → Step) (s : State) :
    heldOf (modStep p id f s) p id = (heldOf s p id).map (fun x => { x with step := x.step.map f }) :=
  heldOf_modHeld_self p id (fun x => { x with step := x.step.map f }) s (fun _ e => e)

/-- An ATTEND that cannot start ends as a step that has done no layer, or with CAPACITY where its slot has no place. -/
theorem attendStart_fails {s : State} {p id : Nat} {h : Held} (st : Byte) (d : Desc) (c : Ctx) (hh : heldOf s p id = some h) :
    ∃ st', Reported (attendStart p id (some st) d c s) p id st' 0 ∧ (st' = st ∨ st' = stCapacity) := by
  unfold attendStart
  dsimp only
  generalize hq : newStep d c (nextSeq s.cmd.seq) = q
  have hdone : q.doneLayers = 0 := by rw [← hq]; rfl
  generalize hs1 : modHeld p id (fun x => { x with step := some q }) { s with cmd := { s.cmd with seq := nextSeq s.cmd.seq } } = s1
  have h1 : heldOf s1 p id = some { h with step := some q } := by
    rw [← hs1, heldOf_modHeld_self p id (fun x => { x with step := some q }) _ (fun _ e => e)]
    exact congrArg (Option.map _) hh
  split
  · refine ⟨stCapacity, ?_, Or.inr rfl⟩
    have hr := attendEnd_reported stCapacity h1 rfl
    rwa [hdone] at hr
  · rename_i base _
    refine ⟨st, ?_, Or.inl rfl⟩
    have h2 : heldOf (addRegion { base := base, len := 64 + 2 * q.ds, kind := .slot, trs := p, id := id }
        (modStep p id (fun x => { x with slot := some base }) s1)) p id = some { h with step := some { q with slot := some base } } := by
      refine (heldOf_modStep p id (fun x => { x with slot := some base }) s1).trans ?_
      rw [h1]
      rfl
    have hr := attendEnd_reported st ((heldOf_of_held_eq (delivers_dmaWrite p q.resAddr (stepHeader d q base) false _).held id).trans h2) rfl
    rwa [show ({ q with slot := some base } : Step).doneLayers = q.doneLayers from rfl, hdone] at hr

section
variable {s : State} {p id : Nat} {h : Held} {st : Byte} (hh : heldOf s p id = some h) (hu : h.undecided = true)
include hh hu

theorem startEnd_plain (hf : startFail s h.desc = some st) (ho : h.op ∉ [0x13, 0x20, 0x30, 0x31, 0x32]) :
    Reported (startEnd p id st h.desc s) p id st 0 := by
  have hne : ¬ fld h.desc 0 1 = 0x13 := fun e => ho (by simp [Held.op, e])
  unfold startEnd
  rw [if_neg hne]
  rcases startFail_some hf with ⟨-, rfl⟩ | ⟨hop, rfl⟩
  · exact finish_reported stInvalidField 0 hh
  · refine mediaStop_merge stMediaError hh hu ?_
    unfold Held.op at ho ⊢
    simp only [List.mem_cons, List.not_mem_nil, or_false] at hop ho
    omega

theorem startEnd_search (ho : h.op = 0x20) : ∃ st' res, Reported (startEnd p id st h.desc s) p id st' res := by
  have hne : ¬ fld h.desc 0 1 = 0x13 := fun e => absurd (ho.symm.trans e) (by decide)
  unfold startEnd
  rw [if_neg hne]
  split
  · exact mediaStop_search st hh hu ho
  · exact ⟨_, _, finish_reported st 0 hh⟩
end

/-- What is reported behind the fence. -/
theorem reported_fenced {f : State → State} {s t : State} {p id : Nat} {st : Byte} {res : BitVec 64} (hf : f s = t)
    (hr : Reported t p id st res) : Reported (fenced f s) p id st res := by
  obtain ⟨x, hx, hrest⟩ := hr
  exact ⟨x, (heldOf_of_trs_eq ((fenced_trs f s).trans (congrArg State.trs hf)) p id).trans hx, hrest⟩

theorem conflict_cleared (s : State) (p id : Nat) (h : Held) (hp : p < 4096) (hm : s.boot.mode = .service) (hh : heldOf s p id = some h)
    (ha : h.phase = .accepted) (he : h.ending = none) (_hs : h.step = none) :
    (blocked s h = true → exec (.conflictCleared p id) s = .next s)
    ∧ (∀ st, blocked s h = false → objectGone s h.desc = some st →
        ∃ t, exec (.conflictCleared p id) s = .next t ∧ Reported t p id st 0 ∧ (getTrs t p).sampleSeq = (getTrs s p).sampleSeq
          ∧ (getTrs t p).lastSet = (getTrs s p).lastSet)
    ∧ (blocked s h = false → objectGone s h.desc = none → startFail (startEvent p id s) h.desc = none → h.op = 0x03 →
        exec (.conflictCleared p id) s = .next (startEvent p id s))
    ∧ (blocked s h = false → objectGone s h.desc = none → startFail (startEvent p id s) h.desc = none →
        exec (.conflictCleared p id) s = .next (fenced (fun x => startBody p id h.acceptNo h.desc (startEvent p id x)) s))
    ∧ (∀ st, blocked s h = false → objectGone s h.desc = none → startFail (startEvent p id s) h.desc = some st →
        (h.op ∉ [0x13, 0x20, 0x30, 0x31, 0x32] → ∃ t, exec (.conflictCleared p id) s = .next t ∧ Reported t p id st 0)
        ∧ (h.op = 0x20 → ∃ t st' res, exec (.conflictCleared p id) s = .next t ∧ Reported t p id st' res)
        ∧ (h.op = 0x13 → ∃ t st', exec (.conflictCleared p id) s = .next t ∧ Reported t p id st' 0 ∧ (st' = st ∨ st' = 0x07))) := by
  rw [exec_conflictCleared id hp hm]
  refine ⟨fun hb => ?_, fun st hb hg => ?_, fun hb hg hf ho => ?_, fun hb hg hf => ?_, fun st hb hg hf => ?_⟩
  · rw [fenced_of_eq (tryStart_blocked hh hb)]
  · have ht := tryStart_gone hh ha he hb hg
    obtain ⟨hseq, hset⟩ := finish_sets st 0 hh
    have htrs := (fenced_trs (tryStart p id) s).trans (congrArg State.trs ht)
    exact ⟨_, rfl, reported_fenced ht (finish_reported st 0 hh), by rw [getTrs_of_trs_eq htrs, hseq], by rw [getTrs_of_trs_eq htrs, hset]⟩
  · have hbody : startBody p id h.acceptNo h.desc (startEvent p id s) = startEvent p id s := by
      unfold startBody
      rw [show fld h.desc 0 1 = 0x03 from ho]
      rfl
    rw [fenced_startEvent ((tryStart_starts hh ha he hb hg hf).trans hbody)]
  · exact congrArg Host.Outcome.next (fenced_congr (tryStart_starts hh ha he hb hg hf))
  · have ht := tryStart_fails hh ha he hb hg hf
    have hrun := heldOf_startEvent hh
    have hu : ({ h with phase := .running } : Held).undecided = true := by simp [Held.undecided, Held.ended, he]
    refine ⟨fun ho => ⟨_, rfl, reported_fenced ht (startEnd_plain (h := { h with phase := .running }) hrun hu hf ho)⟩, fun ho => ?_, fun ho => ?_⟩
    · obtain ⟨st', res, hr⟩ := startEnd_search (st := st) (h := { h with phase := .running }) hrun hu ho
      exact ⟨_, st', res, rfl, reported_fenced ht hr⟩
    · have hst := attendStart_fails st h.desc ((ctxOf (startEvent p id s) (objOf h.desc)).getD {}) hrun
      obtain ⟨st', hr, hst'⟩ := hst
      exact ⟨_, st', rfl, reported_fenced (ht.trans (if_pos ho)) hr, hst'⟩

theorem start_event (s : State) (p id : Nat) (h : Held) (hh : heldOf s p id = some h) :
    heldOf (startEvent p id s) p id = some { h with phase := .running } ∧ OtherPages s (startEvent p id s) p
      ∧ ((h.op ≠ 0x40 ∧ h.op ≠ 0x41) → (getTrs (startEvent p id s) p).lastSet = (settleElapsed (now s) (getTrs s p)).current
          ∧ (getTrs (startEvent p id s) p).current = {} ∧ (getTrs (startEvent p id s) p).sampleSeq = (getTrs s p).sampleSeq + 1) :=
  ⟨heldOf_startEvent hh, otherPages_startEvent p id s, startEvent_sets hh⟩

/-! ### The acceptance wait ends -/

theorem waitEnded_one {s : State} {p id : Nat} (h : pendingBy (fun h => h.waitRes) s = [(p, id)]) : waitEnded s = fromSeven p id s := by
  unfold waitEnded
  rw [h]
  rfl

section
variable {s : State} {p id : Nat} {h : Held} (hh : heldOf s p id = some h)
include hh

/-- A full table makes a command that takes an entry wait for one, and counts it. -/
theorem takeLock_full (hl : (lockOf s h.desc).isSome = true) (hlen : 1024 ≤ s.cmd.locks.length) :
    takeLock p id s = bump 0x60 4 1 (modHeld p id (fun y => { y with waitRes := false, waitLock := true }) s) := by
  unfold takeLock
  rw [hh]
  exact if_pos ⟨hl, Or.inl hlen⟩

theorem takeLock_none (hl : lockOf s h.desc = none) : takeLock p id s = accept p id s := by
  unfold takeLock
  rw [hh]
  exact if_neg fun hc => by simp [hl] at hc

theorem fromSeven_waits (hseven : waitsAtSeven s h.desc = true) : fromSeven p id s = modHeld p id (fun y => { y with waitRes := true }) s := by
  unfold fromSeven
  rw [hh]
  exact if_pos hseven

theorem fromSeven_fails {st : Byte} (hseven : waitsAtSeven s h.desc = false) (hres : resourceFail s p h.desc = some st) :
    fromSeven p id s = finish p id st 0 s := by
  unfold fromSeven
  rw [hh]
  simp [hseven, hres]

theorem fromSeven_takes (hseven : waitsAtSeven s h.desc = false) (hres : resourceFail s p h.desc = none) :
    fromSeven p id s = takeLock p id s := by
  unfold fromSeven
  rw [hh]
  simp [hseven, hres]
end

theorem wait_ends (s : State) (p id : Nat) (h : Held) (hm : s.boot.mode = .service) (hw : pendingBy (fun h => h.waitRes) s = [(p, id)])
    (hh : heldOf s p id = some h) :
    (waitsAtSeven s h.desc = true →
      ∃ t g, exec .acceptanceWaitEnd s = .next t ∧ heldOf t p id = some g ∧ g = { h with waitRes := true } ∧ t.cmd = s.cmd
        ∧ OtherPages s t p)
    ∧ (∀ st, waitsAtSeven s h.desc = false → resourceFail s p h.desc = some st →
      ∃ t, exec .acceptanceWaitEnd s = .next t ∧ Reported t p id st 0)
    ∧ (waitsAtSeven s h.desc = false → resourceFail s p h.desc = none → (lockOf s h.desc).isSome = true →
        1024 ≤ s.cmd.locks.length →
      ∃ t g, exec .acceptanceWaitEnd s = .next t ∧ heldOf t p id = some g ∧ g = { h with waitRes := false, waitLock := true }
        ∧ t.cmd = s.cmd ∧ OtherPages s t p ∧ counted 0x60 4 t = counted 0x60 4 s + 1)
    ∧ (waitsAtSeven s h.desc = false → resourceFail s p h.desc = none → lockOf s h.desc = none →
      exec .acceptanceWaitEnd s = .next (fenced (accept p id) s)) := by
  have hone := waitEnded_one hw
  rw [exec_acceptanceWaitEnd hm]
  refine ⟨fun hseven => ?_, fun st hseven hres => ?_, fun hseven hres hl hlen => ?_, fun hseven hres hl => ?_⟩
  · have ht := hone.trans (fromSeven_waits hh hseven)
    simp only [fenced, ht]
    exact ⟨_, _, rfl, (heldOf_modHeld_self p id (fun y => { y with waitRes := true }) s (fun _ e => e)).trans (congrArg (Option.map _) hh),
      rfl, rfl, otherPages_modHeld p id _ s⟩
  · exact ⟨_, rfl, reported_fenced (hone.trans (fromSeven_fails hh hseven hres)) (finish_reported st 0 hh)⟩
  · have ht := (hone.trans (fromSeven_takes hh hseven hres)).trans (takeLock_full hh hl hlen)
    simp only [fenced, ht]
    exact ⟨_, _, rfl, (heldOf_modHeld_self p id (fun y => { y with waitRes := false, waitLock := true }) s (fun _ e => e)).trans
      (congrArg (Option.map _) hh), rfl, rfl, otherPages_modHeld p id _ s, counted_bump_self 0x60 4 1 _⟩
  · exact congrArg Host.Outcome.next (fenced_congr ((hone.trans (fromSeven_takes hh hseven hres)).trans (takeLock_none hh hl)))

/-- Settles O26. -/
theorem waitersAreAcceptedAndStart : Obligations.WaitersAreAcceptedAndStart :=
  ⟨⟨fun s hm hw => by rw [exec_lockEntryFreed hm, fenced_of_eq (lockFreed_none hw)], waiter_accepted⟩, ⟨conflict_cleared, start_event⟩, wait_ends⟩

end Sys2Proof.Machine


/-! PROOFS. BIND and UNBIND (03 R89, R99). -/
namespace Sys2Proof.Machine

/-! ### What their checks give -/

/-- BIND and UNBIND come from a privileged page. -/
theorem privileged_of_checks {s : State} {t : Nat} {d : Desc} (h : earlyFail s t d = none) (hop : fld d 0 1 = 0x50) : t < 16 := by
  unfold earlyFail at h
  dsimp only at h
  split_ifs at h with hf ho hp
  simpa [hop, privileged] using hp

/-- Their target is no privileged page. -/
theorem target_of_checks {s : State} {t : Nat} {d : Desc} (h : earlyFail s t d = none) (hop : fld d 0 1 = 0x50) : 16 ≤ objOf d := by
  have ho := (rows_of_earlyFail_none h).1
  by_contra hc
  simp only [objectCheck, hop, if_pos (Or.inl (show objOf d < 16 by omega))] at ho
  exact absurd ho nofun

/-- ACTION is 0 or 1. -/
theorem action_of_checks {s : State} {t : Nat} {d : Desc} (h : earlyFail s t d = none) (hop : fld d 0 1 = 0x50) : fld d 8 1 ≤ 1 := by
  have hrows := (rows_of_earlyFail_none h).2
  have he : fieldRows s t d = bindRows s d := by simp only [fieldRows, hop]
  have hrow := hrows (invalid (decide (1 < fld d 8 1)) 8) (by rw [he]; simp [bindRows])
  simpa [invalid] using hrow

/-- The target is another page than the one that names it. -/
theorem target_ne_page {s : State} {p : Nat} {rid : BitVec 16} {c : Desc} (h : Starts s p rid c) (hop : fld c 0 1 = 0x50) : objOf c ≠ p := by
  obtain ⟨-, he, -⟩ := h
  have hp := privileged_of_checks he hop
  have hg := target_of_checks he hop
  omega

/-! ### BIND -/

/-- The page `g` as BIND with descriptor `d` leaves it. -/
def boundPage (d : Desc) (g : Trs) : Trs :=
  { g with bind := { valid := true, priv := false, tenant := fld d 9 1, vector := fld d 10 2, rids := bindRids d },
           defer := [], deferOver := [], lastSet := {}, current := {}, sampleSeq := 0 }

theorem bind_sets (s : State) (p : Nat) (rid : BitVec 16) (d c : Desc) (hc : c = setDescByte (firstSelector d 8 1) 0 0x50)
    (h : Starts s p rid c) :
    ∃ t, exec (.bind p rid d) s = .next t ∧ Decided t p s.cmd.goCount 0x00 0
      ∧ getTrs t (objOf c) = { getTrs s (objOf c) with
          bind := { valid := true, priv := false, tenant := fld c 9 1, vector := fld c 10 2, rids := bindRids c },
          defer := [], deferOver := [], lastSet := {}, current := {}, sampleSeq := 0 }
      ∧ (∀ q, q ≠ p → q ≠ objOf c → getTrs t q = getTrs s q) ∧ t = { begun s p c with trs := t.trs } := by
  have hop : fld c 0 1 = 0x50 := hc ▸ fld_setDescByte_opcode ..
  have hact : fld c 8 1 = 0 := by
    have hne : fld c 8 1 ≠ 1 := by
      rw [hc, fld_setDescByte_after _ _ 8 1 (by decide)]
      exact fld_firstSelector_ne_one d
    have hle := action_of_checks h.2.1 hop
    omega
  have hg := target_ne_page h hop
  have hb : startBody p s.cmd.goCount (s.cmd.acceptCount + 1) c (begun s p c)
      = decideEnd p s.cmd.goCount stOk 0 (modTrs (objOf c) (boundPage c) (begun s p c)) := by
    simp only [startBody, hop, hact, if_true]
    rfl
  have hother := otherPages_modTrs (objOf c) (boundPage c) (begun s p c)
  have hdec := otherPages_decideEnd p s.cmd.goCount stOk 0 (modTrs (objOf c) (boundPage c) (begun s p c))
  have hbegun := otherPages_begun s p c
  rw [exec_of_starts (i := .bind p rid d) (congrArg (fun x => some (p, rid, x)) hc.symm) h,
    fenced_of_keeps (f := fun x => startBody p s.cmd.goCount (s.cmd.acceptCount + 1) c (begun x p c)) (s := s) hb rfl rfl rfl rfl rfl]
  refine ⟨_, rfl, decided_decideEnd stOk 0 ?_ (undecided_readingHeld s p c []), ?_, fun q hqp hqg => ?_, rfl⟩
  · rw [heldOf_of_otherPages hother hg.symm, heldOf_begun]
  · rw [hdec _ hg, getTrs_modTrs_self, hbegun _ hg]
    rfl
  · rw [hdec q hqp, hother q hqg, hbegun q hqp]

/-! ### Stopping the commands of a page without a step -/

/-- From `s` to `t` only the page `g` changes among the pages, and it holds no ATTEND. -/
structure StepFree (g : Nat) (s t : State) : Prop where
  others : OtherPages s t g
  plain : ∀ h ∈ (getTrs t g).held, h.op ≠ 0x13

theorem StepFree.trans {g : Nat} {s t u : State} (h : StepFree g s t) (k : StepFree g t u) : StepFree g s u :=
  ⟨h.others.trans k.others, k.plain⟩

section
variable {g : Nat} {s : State} (hs : ∀ h ∈ (getTrs s g).held, h.op ≠ 0x13) (id : Nat) (st : Byte)
include hs

theorem stepFree_stopCommand : StepFree g s (stopCommand g id st s) := by
  unfold stopCommand
  split
  · exact ⟨OtherPages.refl s g, hs⟩
  · rename_i x _
    split
    · have ha := accounts_applyStopped g x s
      refine ⟨ha.others.trans (otherPages_decideEnd g id st _ _), fun h hh => ?_⟩
      unfold decideEnd modHeld at hh
      rw [getTrs_modTrs_self, ha.held] at hh
      obtain ⟨y, hy, rfl⟩ := List.mem_map.1 hh
      have hop : y.op ≠ 0x13 := hs y hy
      split
      · dsimp only
        split <;> exact hop
      · exact hop
    · exact ⟨OtherPages.refl s g, hs⟩

theorem stepFree_finishWith (quiet : Bool) (res : BitVec 64) {x : Held} (hx : heldOf s g id = some x) :
    StepFree g s (finishWith none quiet g id st res s) := by
  refine ⟨otherPages_finishWith none quiet g id st res s, fun h hh => ?_⟩
  rw [getTrs_finishWith none quiet st res hx, endedPage_held] at hh
  obtain ⟨y, hy, rfl⟩ := List.mem_map.1 hh
  split
  · exact hs x (List.mem_of_find?_eq_some hx)
  · exact hs y hy

theorem stepFree_reportDecided (quiet : Bool) : StepFree g s (reportDecided quiet g id s) := by
  have hrefl : StepFree g s s := ⟨OtherPages.refl s g, hs⟩
  unfold reportDecided
  split
  · exact hrefl
  · rename_i e he
    obtain ⟨x, hx, -⟩ := Option.bind_eq_some_iff.1 he
    by_cases hn : x.ended = true
    · have hend : endCommand quiet g id e.status e.result s = s := by
        unfold endCommand
        rw [hx]
        exact if_pos hn
      rwa [hend]
    · rw [endCommand_plain quiet e.status e.result hx (by simpa using hn) (Or.inl (hs x (List.mem_of_find?_eq_some hx)))]
      obtain ⟨hothers, hplain⟩ := stepFree_finishWith hs id e.status quiet e.result hx
      exact ⟨hothers, hplain⟩

/-- All commands of a page that holds no ATTEND stop and are reported; no other page changes. -/
theorem stepFree_stopAll (quiet : Bool) : StepFree g s (stopAll quiet st g s) :=
  List.foldlRecOn _ _ (motive := StepFree g s) ⟨OtherPages.refl s g, hs⟩ fun _ ht i _ =>
    have hstop := stepFree_stopCommand ht.plain i st
    (ht.trans hstop).trans (stepFree_reportDecided hstop.plain i quiet)
end

theorem foldl_releaseReport_trs (p : Nat) (ids : List Nat) (s : State) : (ids.foldl (fun s' i => releaseReport p i s') s).trs = s.trs :=
  List.foldlRecOn ids _ (motive := fun t : State => t.trs = s.trs) rfl fun _ ht i _ => (releaseReport_trs p i _).trans ht

/-! ### UNBIND -/

/-- The page `g` as UNBIND leaves it. -/
def unboundPage (g : Trs) : Trs := { g with held := [], bind := {}, defer := [], deferOver := [], resetting := false, busy := false }

/-- The state in which the commands of page `g` are stopped and their reports released. -/
def emptied (g : Nat) (s : State) : State :=
  let t := stopAll true stQueueReset g s
  ((getTrs t g).held.map (·.id)).foldl (fun s' i => releaseReport g i s') t

theorem otherPages_emptied {g : Nat} {s : State} (hs : ∀ h ∈ (getTrs s g).held, h.op ≠ 0x13) : OtherPages s (emptied g s) g :=
  otherPages_of_trs_eq (foldl_releaseReport_trs ..) (stepFree_stopAll hs stQueueReset true).others

/-- The state in which page `g` is unbound, with its write-origin windows forgotten. -/
def unbound (g : Nat) (s : State) : State :=
  modTrs g unboundPage { s with fl := { s.fl with origins := s.fl.origins.filter (fun o => o.trs != g) } }

theorem unbind_sets (s : State) (p : Nat) (rid : BitVec 16) (d c : Desc) (hc : c = setDescByte (setDescByte d 8 1) 0 0x50)
    (h : Starts s p rid c) :
    ∃ t, exec (.unbind p rid d) s = .next t ∧ (getTrs t (objOf c)).held = [] ∧ (getTrs t (objOf c)).bind = {}
      ∧ (getTrs t (objOf c)).defer = [] ∧ (getTrs t (objOf c)).deferOver = [] ∧ (getTrs t (objOf c)).resetting = false
      ∧ (getTrs t (objOf c)).busy = false ∧ (∀ o ∈ t.fl.origins, o.trs ≠ objOf c)
      ∧ ((∀ h ∈ (getTrs s (objOf c)).held, h.op ≠ 0x13) →
          Decided t p s.cmd.goCount 0x00 ((getTrs s (objOf c)).held.filter (fun h => h.undecided)).length
          ∧ (∀ q, q ≠ p → q ≠ objOf c → getTrs t q = getTrs s q)) := by
  have hop : fld c 0 1 = 0x50 := hc ▸ fld_setDescByte_opcode ..
  have hact : fld c 8 1 = 1 := by
    rw [hc, fld_setDescByte_after _ _ 8 1 (by decide), fld_setDescByte_eight]
    rfl
  have hg := target_ne_page h hop
  have hbegun := otherPages_begun s p c
  have hb : startBody p s.cmd.goCount (s.cmd.acceptCount + 1) c (begun s p c)
      = decideEnd p s.cmd.goCount stOk ((getTrs (begun s p c) (objOf c)).held.filter (fun h => h.undecided)).length
        (unbound (objOf c) (emptied (objOf c) (begun s p c))) := by
    simp only [startBody, hop, hact]
    rfl
  rw [hbegun _ hg] at hb
  have hempty := fun hs => otherPages_emptied (g := objOf c) (s := begun s p c) hs
  rw [hbegun _ hg] at hempty
  generalize emptied (objOf c) (begun s p c) = t at hb hempty
  have hunbound : OtherPages t (unbound (objOf c) t) (objOf c) := otherPages_modTrs (objOf c) unboundPage _
  have hdec := otherPages_decideEnd p s.cmd.goCount stOk ((getTrs s (objOf c)).held.filter (fun h => h.undecided)).length (unbound (objOf c) t)
  have hpage : getTrs (decideEnd p s.cmd.goCount stOk ((getTrs s (objOf c)).held.filter (fun h => h.undecided)).length (unbound (objOf c) t))
      (objOf c) = unboundPage (getTrs t (objOf c)) := (hdec _ hg).trans (getTrs_modTrs_self (objOf c) unboundPage _)
  rw [exec_of_starts (i := .unbind p rid d) (congrArg (fun x => some (p, rid, x)) hc.symm) h]
  simp only [fenced, hb]
  refine ⟨_, rfl, congrArg Trs.held hpage, congrArg Trs.bind hpage, congrArg Trs.defer hpage, congrArg Trs.deferOver hpage,
    congrArg Trs.resetting hpage, congrArg Trs.busy hpage, fun o ho => by simpa using (List.mem_filter.1 ho).2,
    fun hs => ⟨decided_decideEnd stOk _ ?_ (undecided_readingHeld s p c []), fun q hqp hqg => ?_⟩⟩
  · rw [heldOf_of_otherPages hunbound hg.symm, heldOf_of_otherPages (hempty hs) hg.symm, heldOf_begun]
  · exact ((hdec q hqp).trans (hunbound q hqg)).trans ((hempty hs q hqg).trans (hbegun q hqp))

/-- Settles O17. -/
theorem bindAndUnbindSetTheTarget : Obligations.BindAndUnbindSetTheTarget := ⟨bind_sets, unbind_sets⟩

end Sys2Proof.Machine

/-! PROOFS. What work on frames, homes and reads of pages can change (10 R288 to R304). -/
namespace Sys2Proof.Machine

/-! ### The tier pages alone -/

/-- The tier pages, their frames and the telemetry change at most. -/
def TierOnly (s t : State) : Prop := ∃ x e, t = { s with tier := x, tele := e }

theorem TierOnly.refl (s : State) : TierOnly s s := ⟨_, _, rfl⟩

theorem TierOnly.trans {s t u : State} (h : TierOnly s t) (g : TierOnly t u) : TierOnly s u := by
  obtain ⟨x, e, rfl⟩ := h
  obtain ⟨x', e', rfl⟩ := g
  exact ⟨x', e', rfl⟩

theorem TierOnly.foldl {α : Type} {f : State → α → State} (hf : ∀ s a, TierOnly s (f s a)) (l : List α) (s : State) :
    TierOnly s (l.foldl f s) :=
  List.foldlRecOn l f (motive := TierOnly s) (TierOnly.refl s) fun t ht a _ => ht.trans (hf t a)

theorem tierOnly_modPage (k : Nat) (f : Page → Page) (s : State) : TierOnly s (modPage k f s) := ⟨_, _, rfl⟩

theorem tierOnly_touchPage (k : Nat) (s : State) : TierOnly s (touchPage k s) := tierOnly_modPage ..

theorem tierOnly_putFrame (kind : FrameKind) (k st ch tenant : Nat) (s : State) : TierOnly s (putFrame kind k st ch tenant s) :=
  ⟨_, _, rfl⟩

theorem tierOnly_demotePage (k : Nat) (evict : Bool) (s : State) : TierOnly s (demotePage k evict s) := by
  unfold demotePage
  split
  · exact TierOnly.refl s
  · split
    · dsimp only
      split <;> split <;> exact ⟨_, _, rfl⟩
    · exact TierOnly.refl s

theorem tierOnly_evictUntil (enough : State → Bool) (st : Nat) (chs : List Nat) (n : Nat) (s : State) :
    TierOnly s (evictUntil enough st chs n s) := by
  induction n generalizing s with
  | zero => exact TierOnly.refl s
  | succ n ih =>
    unfold evictUntil
    split
    · exact TierOnly.refl s
    · split
      · exact TierOnly.refl s
      · exact (tierOnly_demotePage ..).trans (ih _)

theorem tierOnly_makeRoom (g : Bool) (st tenant n : Nat) (s : State) : TierOnly s (makeRoom g st tenant n s) := by
  unfold makeRoom
  split
  · exact tierOnly_evictUntil ..
  · exact TierOnly.refl s

theorem tierOnly_placeFrame (st tenant n : Nat) (s : State) : TierOnly s (placeFrame st tenant n s).1 := by
  unfold placeFrame
  split
  · exact TierOnly.refl s
  · dsimp only
    split
    · exact TierOnly.refl s
    · exact tierOnly_makeRoom ..

theorem tierOnly_placeHome (st tenant : Nat) (s : State) : TierOnly s (placeHome st tenant s).1 := by
  unfold placeHome
  split
  · exact TierOnly.refl s
  · dsimp only
    split
    · exact TierOnly.refl s
    · exact tierOnly_makeRoom ..

/-- A read of a page that counts for no page of registers. -/
theorem tierOnly_readFor (k : Nat) (s : State) : TierOnly s (readFor none k s) := by
  unfold readFor
  dsimp only
  split
  · exact tierOnly_touchPage ..
  · split
    · exact tierOnly_touchPage ..
    · refine (tierOnly_touchPage ..).trans (TierOnly.foldl (fun s' i => ?_) _ _)
      split
      · exact TierOnly.refl s'
      · exact ⟨_, _, rfl⟩

theorem tierOnly_addFrame (kind : FrameKind) (k : Nat) (p : Page) (s : State) : TierOnly s (addFrame kind k p s) := by
  unfold addFrame
  dsimp only
  split
  · exact tierOnly_placeFrame ..
  · exact (tierOnly_placeFrame ..).trans ⟨_, _, rfl⟩

theorem tierOnly_startPromotion (k : Nat) (p : Page) (s : State) : TierOnly s (startPromotion k p s) := by
  unfold startPromotion
  dsimp only
  split
  · exact tierOnly_placeHome ..
  · exact (tierOnly_placeHome ..).trans (tierOnly_modPage ..)

/-! ### Work for one page of registers -/

/-- The page `p` sends `out`; its CURRENT, the tier pages and the telemetry change beside. -/
structure Serves (p : Nat) (out : List Out) (s t : State) : Prop where
  page : ∃ cur, getTrs t p = { getTrs s p with current := cur }
  others : OtherPages s t p
  rest : ∃ m x e, t = { s with trs := m, tier := x, tele := e, outbox := s.outbox ++ out }

theorem Serves.trans {p : Nat} {a b : List Out} {s t u : State} (h : Serves p a s t) (g : Serves p b t u) : Serves p (a ++ b) s u := by
  obtain ⟨⟨c, hc⟩, ho, m, x, e, rfl⟩ := h
  obtain ⟨⟨c', hc'⟩, ho', m', x', e', rfl⟩ := g
  exact ⟨⟨c', by rw [hc', hc]⟩, ho.trans ho', m', x', e', by simp⟩

theorem TierOnly.serves {s t : State} (p : Nat) (h : TierOnly s t) : Serves p [] s t := by
  obtain ⟨x, e, rfl⟩ := h
  exact ⟨⟨_, rfl⟩, fun _ _ => rfl, s.trs, x, e, by rw [List.append_nil]⟩

theorem Serves.refl (p : Nat) (s : State) : Serves p [] s s := (TierOnly.refl s).serves p

theorem Delivers.serves {p : Nat} {out : List Out} {s t : State} (h : Delivers p out s t) : Serves p out s t := by
  obtain ⟨hp, ho, m, k, e, rfl⟩ := h
  exact ⟨hp, ho, m, _, e, rfl⟩

theorem Serves.foldl {α : Type} {p : Nat} {f : State → α → State} (hf : ∀ s a, Serves p [] s (f s a)) (l : List α) (s : State) :
    Serves p [] s (l.foldl f s) :=
  List.foldlRecOn l f (motive := Serves p [] s) (Serves.refl p s) fun t ht a _ => ht.trans (hf t a)

section
variable {p : Nat} {out : List Out} {s t : State} (h : Serves p out s t)
include h

theorem Serves.held : (getTrs t p).held = (getTrs s p).held := by obtain ⟨⟨c, hc⟩, -⟩ := h; rw [hc]

theorem Serves.heldOf (id : Nat) : heldOf t p id = heldOf s p id := heldOf_of_held_eq h.held id

theorem Serves.outbox : t.outbox = s.outbox ++ out := by obtain ⟨-, -, m, x, e, rfl⟩ := h; rfl

theorem Serves.tun : t.tun = s.tun := by obtain ⟨-, -, m, x, e, rfl⟩ := h; rfl

theorem Serves.fl : t.fl = s.fl := by obtain ⟨-, -, m, x, e, rfl⟩ := h; rfl

theorem Serves.ctx : t.ctx = s.ctx := by obtain ⟨-, -, m, x, e, rfl⟩ := h; rfl

theorem Serves.coll : t.coll = s.coll := by obtain ⟨-, -, m, x, e, rfl⟩ := h; rfl

/-- What a device that serves a page writes to host memory does not depend on that work. -/
theorem Serves.hostWrites_eq (a : Nat) (bytes : List Byte) (r : Bool) : hostWrites t a bytes r = hostWrites s a bytes r := by
  obtain ⟨-, -, m, x, e, rfl⟩ := h
  rfl
end

theorem serves_dmaWrite (p a : Nat) (bytes : List Byte) (r : Bool) (s : State) :
    Serves p (hostWrites s a bytes r) s (dmaWrite p a bytes r s) := (delivers_dmaWrite p a bytes r s).serves

/-- A read of a page for the page `p` of registers counts there and on the flash channels. -/
theorem serves_readPage (p k : Nat) (s : State) : Serves p [] s (readPage p k s) := by
  have htouch : Serves p [] s (touchPage k s) := (tierOnly_touchPage k s).serves p
  unfold readPage readFor
  dsimp only
  split
  · exact htouch
  · split
    · exact htouch
    · refine htouch.trans (Serves.foldl (fun s' i => ?_) _ _)
      split
      · exact Serves.refl p s'
      · exact (delivers_countFlashRead p _ s').serves

end Sys2Proof.Machine

/-! PROOFS. DROP and WARM (04 R121, R122). -/
namespace Sys2Proof.Machine

/-! ### DROP -/

theorem storeOnly_deletePage (k : Nat) (s : State) : StoreOnly s (deletePage k s) := ⟨_, _, _, rfl⟩

/-- The pages deleted in turn go, and no other. -/
theorem foldl_deletePage_pages (ks : List Nat) (s : State) :
    (ks.foldl (fun s' k => deletePage k s') s).tier.pages = s.tier.pages.filter (fun e => decide (e.1 ∉ ks)) := by
  induction ks generalizing s with
  | nil => simp
  | cons k ks ih =>
    have hk : (deletePage k s).tier.pages = s.tier.pages.filter (fun e => e.1 != k) := rfl
    rw [List.foldl_cons, ih, hk, List.filter_filter]
    refine List.filter_congr fun e _ => ?_
    by_cases h : e.1 = k <;> simp [h]

/-- The store as a DROP of context `idx` leaves it. -/
def emptiedContext (idx : Nat) (s : State) : State :=
  commitEntry (ctxObject idx :: (ctxSlots s idx).map (fun k => Rec.unmap (slotUnit s k) 4))
    ((ctxSlots s idx).foldl (fun s' k => deletePage k s') s)

theorem storeOnly_emptiedContext (idx : Nat) (s : State) : StoreOnly s (emptiedContext idx s) :=
  (StoreOnly.foldl (fun s' k => storeOnly_deletePage k s') _ s).trans (storeOnly_commitEntry ..)

theorem emptiedContext_pages (idx : Nat) (s : State) :
    (emptiedContext idx s).tier.pages = s.tier.pages.filter (fun e => decide (e.1 ∉ ctxSlots s idx)) :=
  (congrArg Tiers.pages (commitEntry_tier ..)).trans (foldl_deletePage_pages ..)

/-- The contexts after a DROP: the index is free, its generation advanced. -/
def droppedRecs (idx : Nat) (x : Contexts) : Contexts :=
  { x with recs := SMap.put {} x.recs idx { live := false, gen := (SMap.find {} x.recs idx).gen + 1, dropNo := some x.dropCount },
           dropCount := x.dropCount + 1 }

theorem dropContext_eq (idx : Nat) (s : State) :
    dropContext idx s = { emptiedContext idx s with ctx := droppedRecs idx s.ctx } := by
  have h := (storeOnly_emptiedContext idx s).ctx
  unfold dropContext
  dsimp only
  rw [← h]
  rfl

/-- A handle whose index is free names no context. -/
theorem ctxOf_of_free {s : State} {o : Nat} (h : (SMap.find {} s.ctx.recs (handleIdx o)).live = false) : ctxOf s o = none :=
  if_neg fun hc => absurd (h.symm.trans hc.1) (by decide)

theorem drop_frees (s : State) (p : Nat) (rid : BitVec 16) (d c : Desc) (idx : Nat) (hc : c = setDescByte d 0 0x14)
    (h : Starts s p rid c) (hidx : idx = handleIdx (objOf c)) :
    ∃ t, exec (.drop p rid d) s = .next t ∧ Decided t p s.cmd.goCount 0x00 (ctxSlots s idx).length
      ∧ ctxOf t (objOf c) = none
      ∧ SMap.find {} t.ctx.recs idx = { live := false, gen := (SMap.find {} s.ctx.recs idx).gen + 1, dropNo := some s.ctx.dropCount }
      ∧ (∀ j, j ≠ idx → SMap.find {} t.ctx.recs j = SMap.find {} s.ctx.recs j)
      ∧ t.tier.pages = s.tier.pages.filter (fun e => decide (e.1 ∉ ctxSlots s idx))
      ∧ t.tun = s.tun ∧ t.coll = s.coll ∧ t.outbox = s.outbox ∧ OtherPages s t p := by
  have hop : fld c 0 1 = 0x14 := hc ▸ fld_setDescByte_opcode ..
  have hctx : (begun s p c).ctx = s.ctx := begun_ctx p (by rw [hop]; decide)
  have hb : startBody p s.cmd.goCount (s.cmd.acceptCount + 1) c (begun s p c)
      = decideEnd p s.cmd.goCount stOk (ctxSlots s idx).length
        { emptiedContext idx (begun s p c) with ctx := droppedRecs idx s.ctx } := by
    simp only [startBody, hop, dropBody, ← hidx]
    rw [dropContext_eq, hctx]
    rfl
  obtain ⟨f, x, e, hrest⟩ := storeOnly_emptiedContext idx (begun s p c)
  have hpages : (emptiedContext idx (begun s p c)).tier.pages = s.tier.pages.filter (fun e => decide (e.1 ∉ ctxSlots s idx)) :=
    emptiedContext_pages idx (begun s p c)
  generalize emptiedContext idx (begun s p c) = u at hb hrest hpages
  have hself : SMap.find {} (droppedRecs idx s.ctx).recs idx
      = { live := false, gen := (SMap.find {} s.ctx.recs idx).gen + 1, dropNo := some s.ctx.dropCount } := SMap.find_put_self ..
  have htrs : u.trs = (begun s p c).trs := by rw [hrest]
  rw [exec_of_starts (i := .drop p rid d) (congrArg (fun x => some (p, rid, x)) hc.symm) h]
  simp only [fenced, hb]
  refine ⟨_, rfl, decided_decideEnd stOk _ ((heldOf_of_trs_eq htrs p _).trans (heldOf_begun s p c)) (undecided_readingHeld s p c []), ?_,
    hself, fun j hj => SMap.find_put_other _ _ _ _ hj, hpages, ?_, ?_, ?_, ?_⟩
  · exact ctxOf_of_free (by rw [← hidx]; exact congrArg Ctx.live hself)
  · exact (congrArg State.tun hrest :)
  · exact (congrArg State.coll hrest :)
  · exact (congrArg State.outbox hrest :)
  · exact (otherPages_of_trs_eq htrs (otherPages_begun s p c)).trans (otherPages_decideEnd p s.cmd.goCount _ _ _)

/-! ### WARM -/

/-- ACTION reads back. -/
@[simp] theorem fld_setDescByte_twelve (d : Desc) (v : Byte) : fld (setDescByte d 12 v) 12 1 = v.toNat := by
  have hd := d.isLt
  have hv := v.isLt
  simp only [fld, setDescByte, BitVec.toNat_ofNat]
  omega

/-- ACTION is 0 or 1. -/
theorem warmAction_of_checks {s : State} {t : Nat} {d : Desc} (h : earlyFail s t d = none) (hop : fld d 0 1 = 0x15) : fld d 12 1 ≤ 1 := by
  have hrows := (rows_of_earlyFail_none h).2
  have he : fieldRows s t d = warmRows ((ctxOf s (objOf d)).getD {}) d := by simp only [fieldRows, hop]
  have hrow := hrows (invalid (decide (1 < fld d 12 1)) 12) (by rw [he]; simp [warmRows])
  simpa [invalid] using hrow

theorem warmFrames_desc {p : Nat} {rid : BitVec 16} {d c : Desc} (h : (Instr.warmFrames p rid d).command = some (p, rid, c)) :
    c = setDescByte (firstSelector d 12 1) 0 0x15 := by
  simp only [Instr.command, Option.some.injEq, Prod.mk.injEq, true_and] at h
  exact h.symm

theorem warmPromote_desc {p : Nat} {rid : BitVec 16} {d c : Desc} (h : (Instr.warmPromote p rid d).command = some (p, rid, c)) :
    c = setDescByte (setDescByte d 12 1) 0 0x15 := by
  simp only [Instr.command, Option.some.injEq, Prod.mk.injEq, true_and] at h
  exact h.symm

/-- The first of WARM's rows has ACTION 0. -/
theorem warmFrames_action {s : State} {t : Nat} {d c : Desc} (hc : c = setDescByte (firstSelector d 12 1) 0 0x15)
    (h : earlyFail s t c = none) : fld c 12 1 = 0 := by
  have hne : fld c 12 1 ≠ 1 := by
    rw [hc, fld_setDescByte_after _ _ 12 1 (by decide)]
    unfold firstSelector
    split
    · simp
    · omega
  have hle := warmAction_of_checks h (hc ▸ fld_setDescByte_opcode ..)
  omega

/-- The second has ACTION 1. -/
theorem warmPromote_action {d c : Desc} (hc : c = setDescByte (setDescByte d 12 1) 0 0x15) : fld c 12 1 = 1 := by
  rw [hc, fld_setDescByte_after _ _ 12 1 (by decide), fld_setDescByte_twelve]
  rfl

/-- What a WARM with descriptor `d` for the page `p` of registers does to the readable page `g` of `o` in slot `k`. -/
def warmPage (p : Nat) (d : Desc) (o : Owner) (k : Nat) (g : Page) (s : State) : State :=
  if g.inT1 then touchPage k s
  else if fld d 12 1 = 0 then (if heldFrame s k then touchPage k s else addFrame .warm k g (readPage p k s))
  else if inMemberRange s o || g.moving.isSome || inFold s k then s else startPromotion k g (readPage p k s)

theorem warmStart_of_single {p : Nat} {d : Desc} {x : Ctx} {o : Owner} {k : Nat} {g : Page} {s : State}
    (hw : warmOwners x.shape (handleIdx (objOf d)) d = [o]) (hk : slotOfOwner s o = some k) (hg : pageAt s k = some g)
    (hs : pageStatus s k = stOk) : warmStart p d x s = warmPage p d o k g s := by
  unfold warmStart warmPage
  rw [hw, List.foldl_cons, List.foldl_nil, hk]
  dsimp only
  rw [hg]
  dsimp only
  rw [if_neg (not_not.2 hs)]

theorem serves_warmPage (p : Nat) (d : Desc) (o : Owner) (k : Nat) (g : Page) (s : State) : Serves p [] s (warmPage p d o k g s) := by
  have htouch := (tierOnly_touchPage k s).serves p
  unfold warmPage
  split
  · exact htouch
  · split
    · split
      · exact htouch
      · exact (serves_readPage p k s).trans ((tierOnly_addFrame ..).serves p)
    · split
      · exact Serves.refl p s
      · exact (serves_readPage p k s).trans ((tierOnly_startPromotion ..).serves p)

/-- A frame that finds its place is added. -/
theorem addFrame_of_placed {kind : FrameKind} {k : Nat} {g : Page} {s u : State} {ch : Nat}
    (h : placeFrame (stripeStack g.owner) g.tenant 1 s = (u, some ch)) :
    (addFrame kind k g s).tier = { u.tier with
      frames := u.tier.frames ++ [{ fid := u.tier.nextFrame, page := k, kind := kind, stack := stripeStack g.owner, chan := ch, tenant := g.tenant }],
      nextFrame := u.tier.nextFrame + 1 } := by
  unfold addFrame
  dsimp only
  rw [h]

/-- A promotion whose home finds its place starts. -/
theorem startPromotion_of_placed {k : Nat} {g : Page} {s u : State} {ch : Nat}
    (h : placeHome (stripeStack g.owner) g.tenant s = (u, some ch)) :
    startPromotion k g s = modPage k (fun y => { y with moving := some (stripeStack g.owner, ch) }) u := by
  unfold startPromotion
  dsimp only
  rw [h]

theorem warm_places (i : Instr) (s : State) (p : Nat) (rid : BitVec 16) (d c : Desc) (x : Ctx) (o : Owner) (k : Nat) (g : Page)
    (hi : i.command = some (p, rid, c)) (hrow : i = .warmFrames p rid d ∨ i = .warmPromote p rid d) (h : Starts s p rid c)
    (hx : ctxOf s (objOf c) = some x) (hw : warmOwners x.shape (handleIdx (objOf c)) c = [o]) (hk : slotOfOwner s o = some k)
    (hg : pageAt s k = some g) (hs : pageStatus s k = stOk) :
    ∃ t h, exec i s = .next t ∧ heldOf t p s.cmd.goCount = some h ∧ h.phase = .running ∧ h.ending = none
      ∧ t.tun = s.tun ∧ t.fl = s.fl ∧ t.ctx = s.ctx ∧ t.coll = s.coll ∧ t.outbox = s.outbox ∧ OtherPages s t p
      ∧ (g.inT1 = true → t.tier = (touchPage k s).tier)
      ∧ (g.inT1 = false → heldFrame s k = true → i = .warmFrames p rid d → t.tier = (touchPage k s).tier)
      ∧ (g.inT1 = false → heldFrame s k = false → i = .warmFrames p rid d → ∀ u ch,
          placeFrame (stripeStack g.owner) g.tenant 1 (readPage p k (begun s p c)) = (u, some ch) →
          t.tier = { u.tier with frames := u.tier.frames ++ [{ fid := u.tier.nextFrame, page := k, kind := .warm,
                                                               stack := stripeStack g.owner, chan := ch, tenant := g.tenant }],
                                 nextFrame := u.tier.nextFrame + 1 })
      ∧ (g.inT1 = false → i = .warmPromote p rid d → inMemberRange (begun s p c) o = false → g.moving = none → inFold s k = false → ∀ u ch,
          placeHome (stripeStack g.owner) g.tenant (readPage p k (begun s p c)) = (u, some ch) →
          t.tier = (modPage k (fun y => { y with moving := some (stripeStack g.owner, ch) }) u).tier) := by
  have hframes : i = .warmFrames p rid d → fld c 12 1 = 0 := fun e => warmFrames_action (warmFrames_desc (e ▸ hi)) h.2.1
  have hpromote : i = .warmPromote p rid d → fld c 12 1 = 1 := fun e => warmPromote_action (warmPromote_desc (e ▸ hi))
  have hop : fld c 0 1 = 0x15 := by
    rcases hrow with rfl | rfl
    · exact warmFrames_desc hi ▸ fld_setDescByte_opcode ..
    · exact warmPromote_desc hi ▸ fld_setDescByte_opcode ..
  have hb : startBody p s.cmd.goCount (s.cmd.acceptCount + 1) c (begun s p c) = warmPage p c o k g (begun s p c) := by
    simp only [startBody, hop]
    rw [show ctxOf (begun s p c) (objOf c) = some x from hx]
    exact warmStart_of_single hw hk hg hs
  have hserves := serves_warmPage p c o k g (begun s p c)
  rw [exec_of_starts hi h]
  simp only [fenced, hb]
  refine ⟨_, readingHeld s p c [], rfl, (hserves.heldOf _).trans (heldOf_begun s p c), rfl, rfl, hserves.tun, hserves.fl,
    hserves.ctx.trans (begun_ctx p (by rw [hop]; decide)), hserves.coll, hserves.outbox.trans (List.append_nil _),
    (otherPages_begun s p c).trans hserves.others, fun h1 => ?_, fun h1 hf hi' => ?_, fun h1 hf hi' u ch hu => ?_,
    fun h1 hi' hm hmov hfold u ch hu => ?_⟩
  · simp only [warmPage, h1]
    rfl
  · simp only [warmPage, h1, hframes hi', show heldFrame (begun s p c) k = true from hf]
    rfl
  · simp only [warmPage, h1, hframes hi', show heldFrame (begun s p c) k = false from hf]
    exact addFrame_of_placed hu
  · simp only [warmPage, h1, hpromote hi', hm, hmov, show inFold (begun s p c) k = false from hfold]
    exact congrArg State.tier (startPromotion_of_placed hu)

/-- Settles O22. -/
theorem dropFreesAndWarmPlacesPages : Obligations.DropFreesAndWarmPlacesPages := ⟨drop_frees, warm_places⟩

end Sys2Proof.Machine

/-! PROOFS. PARK and EXTEND with a staging region (04 R115, R116). -/
namespace Sys2Proof.Machine

/-- A write to host memory counts, and sends its requests. -/
theorem dmaWrite_eq (p a : Nat) (bytes : List Byte) (r : Bool) (s : State) :
    ∃ m e, dmaWrite p a bytes r s = { s with trs := m, tele := e, outbox := s.outbox ++ hostWrites s a bytes r } := by
  unfold dmaWrite
  split
  · exact ⟨_, _, rfl⟩
  · rename_i hm
    exact ⟨s.trs, s.tele, by rw [show hostWrites s a bytes r = [] from if_neg hm, List.append_nil]⟩

/-- A command with one more read of `n` bytes at `a` under way. -/
def Held.alsoReading (h : Held) (a n : Nat) : Held := { h with reads := h.reads ++ fetch a n }

/-- The reads of the check values are under way, where the descriptor asks for them. -/
theorem parkChecks_issues {p id : Nat} {s : State} {h : Held} (d : Desc) (x : Shape) (hh : heldOf s p id = some h) (hr : h.reads = []) :
    heldOf (parkChecks p id d x s) p id = some { h with reads := checkReads x d } ∧ OtherPages s (parkChecks p id d x s) p
      ∧ ∃ m, parkChecks p id d x s = { s with trs := m, outbox := s.outbox ++ hostReads s (checkReads x d) } := by
  by_cases hb : bitOf (fld d 1 1) 1 = true
  · generalize hn : 8 * (checkUnits x (srcFmt d) (fld d 24 8) (fld d 16 4)).length = n
    have hc : checkReads x d = fetch (fld d 48 8) n := hn ▸ if_pos hb
    have hp : parkChecks p id d x s = issueRead p id (fld d 48 8) n s := hn ▸ if_pos hb
    have hheld : heldOf (issueRead p id (fld d 48 8) n s) p id = (heldOf s p id).map (·.alsoReading (fld d 48 8) n) :=
      heldOf_modHeld_self p id (·.alsoReading (fld d 48 8) n) s (fun _ e => e)
    rw [hh, Option.map_some, Held.alsoReading, hr, List.nil_append] at hheld
    rw [hp, hc]
    exact ⟨hheld, otherPages_modHeld p id _ s, _, rfl⟩
  · have hc : checkReads x d = [] := if_neg hb
    have hp : parkChecks p id d x s = s := if_neg hb
    have hnone : hostReads s [] = [] := by unfold hostReads; split <;> rfl
    rw [hp, hc, hnone, List.append_nil, ← hr]
    exact ⟨hh, OtherPages.refl s p, s.trs, rfl⟩

/-- The state in which the staging region at `base` is placed and numbered for the command `id` of page `p`. -/
def stagePlaced (p id base len : Nat) (s : State) : State :=
  modHeld p id (fun h => { h with stage := some { base := base, len := len, seq := nextSeq s.cmd.seq } })
    (addRegion { base := base, len := len, kind := .stage, trs := p, id := id } { s with cmd := { s.cmd with seq := nextSeq s.cmd.seq } })

theorem heldOf_stagePlaced {p id : Nat} {s : State} {h : Held} (base len : Nat) (hh : heldOf s p id = some h) :
    heldOf (stagePlaced p id base len s) p id
      = some { h with stage := some { base := base, len := len, seq := nextSeq s.cmd.seq } } := by
  unfold stagePlaced
  rw [heldOf_modHeld_self p id (fun h => { h with stage := some { base := base, len := len, seq := nextSeq s.cmd.seq } }) _ (fun _ e => e)]
  exact congrArg (Option.map _) hh

/-- The region is placed, the header written, and the reads of the check values are under way. -/
theorem stagePlaced_goes {p id : Nat} {s : State} {h : Held} (d : Desc) (x : Shape) (base len a : Nat) (hh : heldOf s p id = some h)
    (hr : h.reads = []) :
    ∃ t, parkChecks p id d x (dmaWrite p a (stageHeader base (nextSeq s.cmd.seq)) false (stagePlaced p id base len s)) = t
      ∧ heldOf t p id = some { h with stage := some { base := base, len := len, seq := nextSeq s.cmd.seq }, reads := checkReads x d }
      ∧ OtherPages s t p
      ∧ ∃ m e, t = { s with
          trs := m, tele := e, tun := placed ⟨base, len, .stage, p, id⟩ s.tun, cmd := { s.cmd with seq := nextSeq s.cmd.seq },
          freeCount := s.freeCount + 1,
          outbox := s.outbox ++ hostWrites s a (stageHeader base (nextSeq s.cmd.seq)) false ++ hostReads s (checkReads x d) } := by
  have hdma := delivers_dmaWrite p a (stageHeader base (nextSeq s.cmd.seq)) false (stagePlaced p id base len s)
  obtain ⟨m, e, hrest⟩ := dmaWrite_eq p a (stageHeader base (nextSeq s.cmd.seq)) false (stagePlaced p id base len s)
  obtain ⟨hheld, hchecks, m', hrest'⟩ := parkChecks_issues d x
    ((heldOf_of_held_eq hdma.held id).trans (heldOf_stagePlaced base len hh)) hr
  have hplaced : OtherPages s (stagePlaced p id base len s) p := otherPages_modHeld p id _ _
  refine ⟨_, rfl, hheld, (hplaced.trans hdma.others).trans hchecks, m', e, ?_⟩
  rw [hrest', hrest]
  rfl

section
variable {s : State} {c : Desc} (p : Nat) (hst : isStaged c = true)
include hst

/-- Without a place for its region the command ends with CAPACITY. -/
theorem parkStart_of_full (hb : tunPlace s (64 + fld c 40 8) = none) :
    parkStart p s.cmd.goCount c (begun s p c) = decideEnd p s.cmd.goCount stCapacity 0 (begun s p c) := by
  unfold parkStart
  dsimp only
  rw [if_pos hst, show tunPlace (begun s p c) (64 + fld c 40 8) = none from hb]

theorem parkStart_of_place {base : Nat} (hb : tunPlace s (64 + fld c 40 8) = some base) :
    parkStart p s.cmd.goCount c (begun s p c) = parkChecks p s.cmd.goCount c (sourceShape s c)
      (dmaWrite p (fld c 32 8) (stageHeader base (nextSeq s.cmd.seq)) false
        (stagePlaced p s.cmd.goCount base (64 + fld c 40 8) (begun s p c))) := by
  unfold parkStart
  dsimp only
  rw [if_pos hst, show tunPlace (begun s p c) (64 + fld c 40 8) = some base from hb]
  rfl
end

/-- Settles O19: the region is placed, numbered and headed (`stagePlaced_goes`), or the command is decided (`parkStart_of_full`). -/
theorem parkAndExtendStageTheirSource : Obligations.ParkAndExtendStageTheirSource := by
  intro i s p rid c hi hop hst h
  have hb : startBody p s.cmd.goCount (s.cmd.acceptCount + 1) c (begun s p c) = parkStart p s.cmd.goCount c (begun s p c) := by
    rcases hop with hop | hop <;> simp only [startBody, hop]
  have hoth := otherPages_begun s p c
  refine ⟨fun hplace => ?_, fun base hplace => ?_⟩
  · rw [parkStart_of_full p hst hplace] at hb
    rw [exec_of_starts hi h, fenced_of_keeps (f := fun x => startBody p s.cmd.goCount (s.cmd.acceptCount + 1) c (begun x p c)) (s := s)
      hb rfl rfl rfl rfl rfl]
    exact ⟨_, rfl, decided_decideEnd stCapacity 0 (heldOf_begun s p c) (undecided_readingHeld s p c []), rfl,
      hoth.trans (otherPages_decideEnd p s.cmd.goCount _ _ _)⟩
  · rw [parkStart_of_place p hst hplace] at hb
    obtain ⟨t, ht, hheld, hothers, m, e, hrest⟩ := stagePlaced_goes c (sourceShape s c) base (64 + fld c 40 8) (fld c 32 8)
      (heldOf_begun s p c) rfl
    rw [exec_of_starts hi h, fenced_of_keeps (f := fun x => startBody p s.cmd.goCount (s.cmd.acceptCount + 1) c (begun x p c)) (s := s)
      (hb.trans ht) (by rw [hrest]; rfl) (by rw [hrest]; rfl) (by rw [hrest]; rfl) (by rw [hrest]; rfl) (by rw [hrest]; rfl)]
    refine ⟨t, _, rfl, hheld, rfl, rfl, rfl, ?_⟩
    have hoth' := hoth.trans hothers
    rw [hrest] at hoth' ⊢
    exact ⟨rfl, rfl, rfl, rfl, rfl, hoth', rfl⟩

end Sys2Proof.Machine

/-! PROOFS. Joins, the riser and the endings of steps (04 R132 to R140). -/
namespace Sys2Proof.Machine

/-! ### The riser changes the tier pages alone -/

/-- An all-or-nothing run over a list, where it comes through: a reflexive and transitive relation that each step keeps holds. -/
theorem bindFold_keeps {α : Type} {R : State → State → Prop} (hrefl : ∀ s, R s s) (htrans : ∀ {s t u}, R s t → R t u → R s u)
    {f : State → α → Option State} (hf : ∀ s a t, f s a = some t → R s t) (l : List α) {s t : State}
    (h : l.foldl (fun acc a => acc.bind (fun s' => f s' a)) (some s) = some t) : R s t := by
  refine List.foldlRecOn l (fun acc a => Option.bind acc (fun s' => f s' a)) (motive := fun acc => ∀ u, acc = some u → R s u)
    (fun u hu => Option.some.inj hu ▸ hrefl s) (fun acc hacc a _ u hu => ?_) t h
  obtain ⟨v, hv, hvu⟩ := Option.bind_eq_some_iff.1 hu
  exact htrans (hacc v hv) (hf v a u hvu)

theorem tierOnly_riserPage {t id l idx : Nat} {o : Owner} {k : Nat} {p : Page} {s u : State}
    (h : riserPage t id l idx o k p s = some u) : TierOnly s u := by
  unfold riserPage at h
  dsimp only at h
  split at h
  · exact Option.some.inj h ▸ (tierOnly_readFor k s).trans (tierOnly_modPage ..)
  · split at h
    · exact absurd h nofun
    · split at h
      · exact absurd h nofun
      · obtain ⟨ch, -, rfl⟩ := Option.map_eq_some_iff.1 h
        exact (tierOnly_readFor k s).trans (tierOnly_putFrame ..)

theorem tierOnly_riserLayer {t id l idx : Nat} {os : List Owner} {s u : State} (h : riserLayer t id l idx os s = some u) : TierOnly s u := by
  refine bindFold_keeps TierOnly.refl TierOnly.trans (fun s' o v hv => ?_) os h
  split at hv
  · exact Option.some.inj hv ▸ TierOnly.refl s'
  · exact tierOnly_riserPage hv

theorem tierOnly_riserLayers (t id idx : Nat) (p : Step) (ls : List Nat) (s : State) : TierOnly s (riserLayers t id idx p ls s) := by
  induction ls generalizing s with
  | nil => exact TierOnly.refl s
  | cons l ls ih =>
    unfold riserLayers
    split
    · exact TierOnly.refl s
    · exact (tierOnly_riserLayer ‹_›).trans (ih _)

theorem tierOnly_riserCommit (t id : Nat) (s : State) : TierOnly s (riserCommit t id s) := by
  unfold riserCommit
  split
  · exact TierOnly.refl s
  · dsimp only
    split
    · exact tierOnly_riserLayers ..
    · exact TierOnly.refl s

theorem tierOnly_joinFrames {t id l : Nat} {os : List Owner} {s u : State} (h : joinFrames t id l os s = some u) : TierOnly s u := by
  refine bindFold_keeps TierOnly.refl TierOnly.trans (fun s' o v hv => ?_) os h
  split at hv
  · exact Option.some.inj hv ▸ TierOnly.refl s'
  · obtain ⟨ch, -, rfl⟩ := Option.map_eq_some_iff.1 hv
    exact ((tierOnly_placeFrame ..).trans (tierOnly_readFor ..)).trans (tierOnly_putFrame ..)

/-! ### Joins -/

/-- A step without what a join changes of it. -/
def Step.sansJoin (p : Step) : Step := { p with member := false, deferred := false, work := [] }

/-- A held command without what a join changes of its step. -/
def Held.sansJoin (h : Held) : Held := { h with step := h.step.map Step.sansJoin }

theorem Step.eq_of_sansJoin {r q : Step} (h : r.sansJoin = q.sansJoin) :
    r = { q with member := r.member, deferred := r.deferred, work := r.work } := by
  obtain ⟨⟩ := r
  obtain ⟨⟩ := q
  simp only [Step.sansJoin, Step.mk.injEq] at h ⊢
  tauto

/-- Membership, deferral and working memory of steps, the tier pages, the telemetry and the heats change at most. -/
structure Joins (s t : State) : Prop where
  held : ∀ p, (getTrs t p).held.map Held.sansJoin = (getTrs s p).held.map Held.sansJoin
  rest : ∃ m x e w, t = { s with trs := m, tier := x, tele := e, heat := w }

theorem Joins.refl (s : State) : Joins s s := ⟨fun _ => rfl, _, _, _, _, rfl⟩

theorem Joins.trans {s t u : State} (h : Joins s t) (g : Joins t u) : Joins s u := by
  obtain ⟨hh, m, x, e, w, rfl⟩ := h
  obtain ⟨gh, m', x', e', w', rfl⟩ := g
  exact ⟨fun p => (gh p).trans (hh p), m', x', e', w', rfl⟩

theorem Joins.foldl {α : Type} {f : State → α → State} (hf : ∀ s a, Joins s (f s a)) (l : List α) (s : State) : Joins s (l.foldl f s) :=
  List.foldlRecOn l f (motive := Joins s) (Joins.refl s) fun t ht a _ => ht.trans (hf t a)

theorem TierOnly.joins {s t : State} (h : TierOnly s t) : Joins s t := by
  obtain ⟨x, e, rfl⟩ := h
  exact ⟨fun _ => rfl, _, x, e, _, rfl⟩

theorem joins_heat (w : Heats) (s : State) : Joins s { s with heat := w } := ⟨fun _ => rfl, _, _, _, w, rfl⟩

/-- A change of membership, deferral and working memory of a step. -/
theorem joins_modStep (p id : Nat) {f : Step → Step} (hf : ∀ q, (f q).sansJoin = q.sansJoin) (s : State) : Joins s (modStep p id f s) := by
  refine ⟨fun q => ?_, _, s.tier, s.tele, s.heat, rfl⟩
  by_cases hq : q = p
  · subst hq
    unfold modStep modHeld
    rw [getTrs_modTrs_self, List.map_map]
    refine List.map_congr_left fun h _ => ?_
    simp only [Function.comp_apply]
    split
    · unfold Held.sansJoin
      rw [Option.map_map, show Step.sansJoin ∘ f = Step.sansJoin from funext hf]
    · rfl
  · exact congrArg (fun g : Trs => g.held.map Held.sansJoin) (otherPages_modHeld p id _ s q hq)

section
variable {s t : State} (h : Joins s t)
include h

/-- A command stands where it stood, its step at most joined. -/
theorem Joins.heldOf {p id : Nat} {x : Held} (hx : heldOf s p id = some x) : ∃ y, Machine.heldOf t p id = some y ∧ y.sansJoin = x.sansJoin := by
  have hmap : ∀ l : List Held, (l.map Held.sansJoin).find? (fun y => y.id == id) = (l.find? (fun y => y.id == id)).map Held.sansJoin :=
    fun l => List.find?_map
  have he := congrArg (fun l : List Held => l.find? (fun y => y.id == id)) (h.held p)
  rw [hmap, hmap] at he
  have hx' : (getTrs s p).held.find? (fun y => y.id == id) = some x := hx
  rwa [hx', Option.map_some, Option.map_eq_some_iff] at he

theorem Joins.tun : t.tun = s.tun := by obtain ⟨-, m, x, e, w, rfl⟩ := h; rfl

theorem Joins.outbox : t.outbox = s.outbox := by obtain ⟨-, m, x, e, w, rfl⟩ := h; rfl

theorem Joins.cmd : t.cmd = s.cmd := by obtain ⟨-, m, x, e, w, rfl⟩ := h; rfl

theorem Joins.fl : t.fl = s.fl := by obtain ⟨-, m, x, e, w, rfl⟩ := h; rfl

theorem Joins.coll : t.coll = s.coll := by obtain ⟨-, m, x, e, w, rfl⟩ := h; rfl

theorem Joins.ctx : t.ctx = s.ctx := by obtain ⟨-, m, x, e, w, rfl⟩ := h; rfl
end

/-- The window opens where a request is ready. -/
theorem checkWindow_eq (s : State) : checkWindow s = { s with heat := { s.heat with windowOpen := s.heat.windowOpen || anyReady s } } := by
  unfold checkWindow
  cases hw : s.heat.windowOpen with
  | true => rw [if_pos rfl, Bool.true_or, ← hw]
  | false =>
    rw [if_neg (by decide), Bool.false_or]
    cases hr : anyReady s with
    | true => rfl
    | false => rw [if_neg (by decide), ← hw]

theorem joins_checkWindow (s : State) : Joins s (checkWindow s) := checkWindow_eq s ▸ joins_heat _ s

theorem joins_tryJoin {t id : Nat} {p : Step} {s u : State} (h : tryJoin t id p s = some u) : Joins s u := by
  unfold tryJoin at h
  dsimp only at h
  split at h
  · exact absurd h nofun
  · obtain ⟨v, hv, rfl⟩ := Option.map_eq_some_iff.1 h
    exact ((((tierOnly_placeFrame ..).joins).trans (joins_modStep t id (by exact fun _ => rfl) _)).trans (tierOnly_joinFrames hv).joins).trans
      (joins_modStep t id (by exact fun _ => rfl) v)

theorem joins_considerJoins (es : List (Nat × Nat × Step)) (s : State) : Joins s (considerJoins es s).1 := by
  induction es generalizing s with
  | nil => exact Joins.refl s
  | cons e es ih =>
    unfold considerJoins
    split
    · exact ih s
    · split
      · exact joins_modStep e.1 e.2.1 (by exact fun _ => rfl) s
      · exact (joins_tryJoin ‹_›).trans (ih _)

theorem joins_joinAll (s : State) : Joins s (joinAll s) :=
  (joins_considerJoins ..).trans (Joins.foldl (fun s' (e : Nat × Nat) => (tierOnly_riserCommit e.1 e.2 s').joins) _ _)

theorem joins_leaveAll (s : State) : Joins s (leaveAll s) :=
  (Joins.foldl (f := fun s' (e : Nat × Nat × Nat × Step) => releaseFrames e.2.1 e.2.2.1 s')
    (fun s' e => TierOnly.joins (⟨_, _, rfl⟩ : TierOnly s' (releaseFrames e.2.1 e.2.2.1 s'))) _ s).trans (joins_heat _ _)

theorem joins_settleLeaves (s : State) : Joins s (settleLeaves s) := by
  unfold settleLeaves
  split
  · exact Joins.refl s
  · split
    · exact Joins.refl s
    · exact ((joins_leaveAll s).trans (joins_joinAll _)).trans (joins_checkWindow _)

/-! ### Endings of steps -/

/-- What an ATTEND that ends with `code` sends: the completion line of its first layer not done, unless it ends with OK or SHORT. -/
def lastLine (s : State) (code : Byte) (q : Step) : List Out :=
  if code = stOk ∨ code = stShort then []
  else hostWrites s (q.blockAt (q.layer0 + q.doneLayers) + q.ls - 64) (completionLine (q.layer0 + q.doneLayers) code false q.seq) false

/-- The heats without the running layers of the step `id` of page `p`, which leaves. -/
def heatLeft (p id idx : Nat) (q : Step) (w : Heats) : Heats :=
  { w with running := w.running.filter (fun r => !(r.1 == p && r.2.1 == id)), leaving := w.leaving ++ [(idx, p, id, q)] }

theorem stepLeft_eq (p id : Nat) (code : Byte) (q : Step) (s : State) :
    ∃ m e, stepLeft p id code q s = { s with
      trs := m, tele := e, outbox := s.outbox ++ lastLine s code q, heat := heatLeft p id (idxOf s p id) q s.heat } := by
  by_cases hc : code = stOk ∨ code = stShort
  · refine ⟨s.trs, s.tele, ?_⟩
    simp only [stepLeft, lastLine, hc, if_true, List.append_nil]
    rfl
  · obtain ⟨m, e, h⟩ := dmaWrite_eq p (q.blockAt (q.layer0 + q.doneLayers) + q.ls - 64)
      (completionLine (q.layer0 + q.doneLayers) code false q.seq) false s
    refine ⟨m, e, ?_⟩
    simp only [stepLeft, lastLine, hc, if_false, h]
    rfl

theorem otherPages_stepLeft (p id : Nat) (code : Byte) (q : Step) (s : State) : OtherPages s (stepLeft p id code q s) p := by
  unfold stepLeft
  dsimp only
  split
  · exact OtherPages.refl s p
  · exact (delivers_dmaWrite p _ _ false s).others

/-- An ending abandons the pages that its command has not committed. -/
theorem finishWith_pages {s : State} {p id : Nat} {h : Held} (pick : Option Nat) (quiet : Bool) (st : Byte) (res : BitVec 64)
    (hh : heldOf s p id = some h) :
    (finishWith pick quiet p id st res s).tier.pages = s.tier.pages.filter (fun e => e.2.pend != some id) := by
  unfold finishWith
  rw [hh]
  dsimp only
  split <;> simp [setTrs]

theorem addCompletion_outbox_prefix (v : Nat) (isError : Bool) (s : State) : s.outbox <+: (addCompletion v isError s).outbox := by
  unfold addCompletion
  dsimp only
  split
  · exact signal_outbox_prefix v (List.prefix_refl _)
  · exact List.prefix_refl _

theorem finishWith_outbox_prefix (pick : Option Nat) (quiet : Bool) (p id : Nat) (st : Byte) (res : BitVec 64) (s : State) :
    s.outbox <+: (finishWith pick quiet p id st res s).outbox := by
  unfold finishWith
  split
  · exact List.prefix_refl _
  · dsimp only
    split
    · refine List.IsPrefix.trans ?_ (addCompletion_outbox_prefix ..)
      simp
    · simp

/-- No ending of a step touches the tundish. -/
theorem attendEnd_tun (p id : Nat) (code : Byte) (s : State) : (attendEnd p id code s).tun = s.tun := by
  cases hq : (heldOf s p id).bind (·.step) with
  | none => unfold attendEnd attendEndWith; rw [hq]; exact finishWith_tun ..
  | some q =>
    obtain ⟨m, e, h⟩ := stepLeft_eq p id code q s
    unfold attendEnd
    rw [attendEndWith_of_step false code hq, (joins_settleLeaves _).tun, finishWith_tun, h]

section
variable {s : State} {p id : Nat} {h : Held} {q : Step} (code : Byte) (hh : heldOf s p id = some h) (hq : h.step = some q)
  (hw : s.heat.windowOpen = true)
include hh hq hw

/-- While a heat forms the step leaves at its boundary, so that its ending is that of its command. -/
theorem attendEnd_of_open : attendEnd p id code s = finishWith none false p id code (BitVec.ofNat 64 q.doneLayers) (stepLeft p id code q s) := by
  have hs : (heldOf s p id).bind (·.step) = some q := by rw [hh]; exact hq
  obtain ⟨m, e, hl⟩ := stepLeft_eq p id code q s
  unfold attendEnd
  rw [attendEndWith_of_step false code hs]
  exact if_pos (by rw [finishWith_heat, hl]; exact hw)

theorem attendEnd_outbox_prefix : s.outbox ++ lastLine s code q <+: (attendEnd p id code s).outbox := by
  obtain ⟨m, e, hl⟩ := stepLeft_eq p id code q s
  have hp := finishWith_outbox_prefix none false p id code (BitVec.ofNat 64 q.doneLayers) (stepLeft p id code q s)
  rw [attendEnd_of_open code hh hq hw]
  rwa [hl] at hp ⊢

theorem attendEnd_heat : (attendEnd p id code s).heat = heatLeft p id (idxOf s p id) q s.heat := by
  obtain ⟨m, e, hl⟩ := stepLeft_eq p id code q s
  rw [attendEnd_of_open code hh hq hw, finishWith_heat, hl]

theorem attendEnd_freeCount : (attendEnd p id code s).freeCount = s.freeCount := by
  obtain ⟨m, e, hl⟩ := stepLeft_eq p id code q s
  rw [attendEnd_of_open code hh hq hw, finishWith_freeCount, hl]

theorem endsStep_attendEnd : EndsStep s (attendEnd p id code s) p id := by
  have hx := (heldOf_of_held_eq (held_stepLeft p id code q s) id).trans hh
  have hfl := finishWith_fl none false code (BitVec.ofNat 64 q.doneLayers) hx
  have hpages := finishWith_pages none false code (BitVec.ofNat 64 q.doneLayers) hx
  obtain ⟨m, e, hl⟩ := stepLeft_eq p id code q s
  rw [attendEnd_of_open code hh hq hw]
  refine ⟨(otherPages_stepLeft p id code q s).trans (otherPages_finishWith none false p id code _ _), hfl.trans ?_, (finishWith_ctx ..).trans ?_,
    (finishWith_coll ..).trans ?_, (finishWith_pol ..).trans ?_, (congrArg Tundish.regions (finishWith_tun ..)).trans ?_,
    (finishWith_aon ..).trans ?_, (finishWith_boot ..).trans ?_, hpages.trans ?_, (finishWith_nor ..).trans ?_,
    (finishWith_gov ..).trans ?_⟩ <;> rw [hl]
end

/-- The same ending, counted from a state that differs in pages, counters, heats and stored bytes. -/
theorem EndsStep.since {s u t : State} {p id : Nat} (h : EndsStep u t p id) (ho : OtherPages s u p)
    (hu : u = { s with trs := u.trs, tele := u.tele, heat := u.heat, tun := { s.tun with mem := u.tun.mem, poison := u.tun.poison } }) :
    EndsStep s t p id := by
  obtain ⟨hoth, hfl, hctx, hcoll, hpol, hreg, haon, hboot, hpages, hnor, hgov⟩ := h
  refine ⟨ho.trans hoth, hfl.trans ?_, hctx.trans ?_, hcoll.trans ?_, hpol.trans ?_, hreg.trans ?_, haon.trans ?_, hboot.trans ?_,
    hpages.trans ?_, hnor.trans ?_, hgov.trans ?_⟩ <;> rw [hu]

/-- The fence leaves the ending of a step as it is. -/
theorem EndsStep.fenced {f : State → State} {s t : State} {p id : Nat} (h : EndsStep s t p id) (hf : f s = t) :
    EndsStep s (fenced f s) p id := by
  obtain ⟨hoth, hfl, hctx, hcoll, hpol, hreg, haon, hboot, hpages, hnor, hgov⟩ := h
  subst hf
  exact ⟨hoth, hfl, hctx, hcoll, hpol, hreg, rfl, by rw [fenced_boot, hboot], hpages, hnor, hgov⟩

end Sys2Proof.Machine

/-! PROOFS. ATTEND opens its step (04 R123, R125, R135). -/
namespace Sys2Proof.Machine

/-- A command with the step `q`. -/
def Held.stepping (h : Held) (q : Step) : Held := { h with step := some q }

/-- A step with its slot at `base`. -/
def Step.slotAt (q : Step) (base : Nat) : Step := { q with slot := some base }

/-- The state in which the command `id` of page `p` has become the step `q`, which takes the next number. -/
def stepMade (p id : Nat) (q : Step) (s : State) : State :=
  modHeld p id (·.stepping q) { s with cmd := { s.cmd with seq := nextSeq s.cmd.seq } }

theorem heldOf_stepMade {p id : Nat} {s : State} {h : Held} (q : Step) (hh : heldOf s p id = some h) :
    heldOf (stepMade p id q s) p id = some (h.stepping q) := by
  unfold stepMade
  rw [heldOf_modHeld_self p id (·.stepping q) _ (fun _ e => e)]
  exact congrArg (Option.map _) hh

/-- The state in which the slot of the step is placed at `base`. -/
def slotPlaced (p id base : Nat) (q : Step) (s : State) : State :=
  addRegion { base := base, len := 64 + 2 * q.ds, kind := .slot, trs := p, id := id } (modStep p id (·.slotAt base) (stepMade p id q s))

theorem heldOf_slotPlaced {p id : Nat} {s : State} {h : Held} (base : Nat) (q : Step) (hh : heldOf s p id = some h) :
    heldOf (slotPlaced p id base q s) p id = some (h.stepping (q.slotAt base)) := by
  refine (heldOf_modStep p id (·.slotAt base) (stepMade p id q s)).trans ?_
  rw [heldOf_stepMade q hh]
  rfl

theorem slotPlaced_eq (p id base : Nat) (q : Step) (s : State) :
    ∃ m, slotPlaced p id base q s = { s with
      trs := m, cmd := { s.cmd with seq := nextSeq s.cmd.seq }, freeCount := s.freeCount + 1,
      tun := placed ⟨base, 64 + 2 * q.ds, .slot, p, id⟩ s.tun } := by
  unfold slotPlaced stepMade modStep modHeld modTrs setTrs addRegion drawn
  exact ⟨_, rfl⟩

/-- Where a region is placed depends on the tundish and the next free value. -/
theorem tunPlace_congr {s t : State} (h : t.tun = s.tun) (hf : t.freeCount = s.freeCount) (n : Nat) : tunPlace t n = tunPlace s n := by
  have hfree : tunFree t = tunFree s := by
    unfold tunFree
    rw [h]
  unfold tunPlace firstFit draw
  rw [hfree, h, hf]

theorem tunPlace_stepMade (p id : Nat) (q : Step) (c : Desc) (n : Nat) (s : State) :
    tunPlace (stepMade p id q (begun s p c)) n = tunPlace s n := tunPlace_congr (s := s) (t := stepMade p id q (begun s p c)) rfl rfl n

section
variable {s : State} {c : Desc} {x : Ctx} {q : Step} (p : Nat) (hq : q = newStep c x (nextSeq s.cmd.seq))
include hq

theorem attendStart_eq (bad : Option Byte) : attendStart p s.cmd.goCount bad c x (begun s p c)
    = match tunPlace s (64 + 2 * q.ds) with
      | none => attendEnd p s.cmd.goCount stCapacity (stepMade p s.cmd.goCount q (begun s p c))
      | some base =>
        let u := dmaWrite p q.resAddr (stepHeader c q base) false (slotPlaced p s.cmd.goCount base q (begun s p c))
        match bad with
        | some st => attendEnd p s.cmd.goCount st u
        | none => if u.heat.windowOpen then u else checkWindow (joinAll u) := by
  rw [← tunPlace_stepMade p s.cmd.goCount q c]
  subst hq
  rfl

theorem attendStart_of_full (hb : tunPlace s (64 + 2 * q.ds) = none) :
    attendStart p s.cmd.goCount none c x (begun s p c) = attendEnd p s.cmd.goCount stCapacity (stepMade p s.cmd.goCount q (begun s p c)) := by
  rw [attendStart_eq p hq, hb]

/-- With a place for its slot the step sends its header and asks to join. -/
theorem attendStart_of_place {base : Nat} (hb : tunPlace s (64 + 2 * q.ds) = some base) :
    Joins (dmaWrite p q.resAddr (stepHeader c q base) false (slotPlaced p s.cmd.goCount base q (begun s p c)))
      (attendStart p s.cmd.goCount none c x (begun s p c)) := by
  rw [attendStart_eq p hq, hb]
  dsimp only
  split
  · exact Joins.refl _
  · exact (joins_joinAll _).trans (joins_checkWindow _)
end

/-- Settles O21: the step asks to join only after its header is sent, and joining leaves all but its membership (`Joins`). -/
theorem attendOpensAStep : Obligations.AttendOpensAStep := by
  intro s p rid d c x q hc h hx hq
  have hop : fld c 0 1 = 0x13 := hc ▸ fld_setDescByte_opcode ..
  have hb : startBody p s.cmd.goCount (s.cmd.acceptCount + 1) c (begun s p c) = attendStart p s.cmd.goCount none c x (begun s p c) := by
    simp only [startBody, hop]
    rw [show ctxOf (begun s p c) (objOf c) = some x from hx]
    rfl
  rw [exec_of_starts (i := .attend p rid d) (congrArg (fun x => some (p, rid, x)) hc.symm) h]
  refine ⟨fun hplace => ?_, fun base hplace => ?_⟩
  · have hdone : q.doneLayers = 0 := by rw [hq]; rfl
    have hend := attendEnd_reported stCapacity (heldOf_stepMade q (heldOf_begun s p c)) rfl
    have htun := attendEnd_tun p s.cmd.goCount stCapacity (stepMade p s.cmd.goCount q (begun s p c))
    rw [hdone] at hend
    rw [attendStart_of_full p hq hplace] at hb
    simp only [fenced, hb]
    exact ⟨_, rfl, hend, htun⟩
  · have hjoins := attendStart_of_place p hq hplace
    have hdma := delivers_dmaWrite p q.resAddr (stepHeader c q base) false (slotPlaced p s.cmd.goCount base q (begun s p c))
    obtain ⟨m, e, hrest⟩ := dmaWrite_eq p q.resAddr (stepHeader c q base) false (slotPlaced p s.cmd.goCount base q (begun s p c))
    obtain ⟨m', hslot⟩ := slotPlaced_eq p s.cmd.goCount base q (begun s p c)
    obtain ⟨y, hy, hyx⟩ := hjoins.heldOf ((heldOf_of_held_eq hdma.held _).trans (heldOf_slotPlaced base q (heldOf_begun s p c)))
    obtain ⟨r, hr, hrq⟩ := Option.map_eq_some_iff.1 (congrArg Held.step hyx : y.step.map Step.sansJoin = some (q.slotAt base).sansJoin)
    generalize attendStart p s.cmd.goCount none c x (begun s p c) = t at hb hjoins hy
    simp only [fenced, hb]
    refine ⟨_, y, r, rfl, hy, (congrArg Held.phase hyx :), (congrArg Held.ending hyx :), hr, Step.eq_of_sansJoin hrq,
      (congrArg Intake.seq hjoins.cmd).trans ?_, hjoins.tun.trans ?_, hjoins.outbox.trans ?_, hjoins.fl.trans ?_, hjoins.coll.trans ?_,
      (congrArg Contexts.recs hjoins.ctx).trans ?_⟩ <;> rw [hrest, hslot] <;> rfl

end Sys2Proof.Machine

/-! PROOFS. Doorbells of steps and of staging regions (04 R116, R126, R127). -/
namespace Sys2Proof.Machine

/-! ### Little-endian words -/

@[simp] theorem length_bytesOf (n v : Nat) : (bytesOf n v).length = n := by
  induction n generalizing v with
  | zero => rfl
  | succ n ih => simp [bytesOf, ih]

theorem natOf_bytesOf (n v : Nat) : natOf (bytesOf n v) = v % 256 ^ n := by
  induction n generalizing v with
  | zero => simp [bytesOf, natOf, Nat.mod_one]
  | succ n ih =>
    rw [bytesOf, natOf, ih, BitVec.toNat_ofNat, Nat.pow_succ' (m := 256) (n := n), Nat.mod_mul (x := v) (a := 256) (b := 256 ^ n)]

/-- A word reads back from its four bytes. -/
theorem word_of_bytes (v : BitVec 32) : BitVec.ofNat 32 (natOf ((bytesOf 4 v.toNat).take 4)) = v := by
  rw [List.take_of_length_le (by simp), natOf_bytesOf, Nat.mod_eq_of_lt (show v.toNat < 256 ^ 4 from v.isLt), BitVec.ofNat_toNat, BitVec.setWidth_eq]

/-! ### A step that has not ended -/

theorem openStep_eq_some {s : State} {t id : Nat} {p : Step} (h : openStep s t id = some p) :
    ∃ x, heldOf s t id = some x ∧ x.undecided = true ∧ x.step = some p := by
  obtain ⟨x, hx, hp⟩ := Option.bind_eq_some_iff.1 h
  by_cases hu : x.undecided = true
  · exact ⟨x, hx, hu, by rwa [if_pos hu] at hp⟩
  · rw [if_neg hu] at hp
    exact absurd hp nofun

/-- A change of a step reads back. -/
theorem openStep_modStep (t id : Nat) (f : Step → Step) (s : State) : openStep (modStep t id f s) t id = (openStep s t id).map f := by
  unfold openStep
  rw [heldOf_modStep]
  cases hx : heldOf s t id with
  | none => rfl
  | some x =>
    have hu : Held.undecided { x with step := x.step.map f } = x.undecided := rfl
    rw [Option.map_some, Option.bind_some, Option.bind_some, hu]
    cases x.undecided <;> rfl

theorem openStep_of_trs_eq {s u : State} (h : u.trs = s.trs) (t id : Nat) : openStep u t id = openStep s t id := by
  simp only [openStep, heldOf_of_trs_eq h]

theorem otherPages_modStep (t id : Nat) (f : Step → Step) (s : State) : OtherPages s (modStep t id f s) t := otherPages_modHeld t id _ s

theorem endIfDrained_of_work {t id : Nat} {s : State} {p : Step} (hp : openStep s t id = some p) (hw : p.requested ≠ [] ∨ p.placed ≠ []) :
    endIfDrained t id s = s := by
  unfold endIfDrained
  rw [hp]
  exact if_neg (by simpa [or_iff_not_imp_left] using hw)

/-- A step with no layer outstanding ends, badly rung or closing. -/
theorem endIfDrained_of_drained {t id : Nat} {s : State} {p : Step} (hp : openStep s t id = some p) (hr : p.requested = []) (hl : p.placed = []) :
    endIfDrained t id s = if p.badBell then attendEnd t id stInvalidField s
      else if p.closing then attendEnd t id (if p.doneLayers = p.nlayer then stOk else stShort) s else s := by
  unfold endIfDrained
  rw [hp]
  exact if_pos (by simp [hr, hl])

theorem endIfDrained_tun (t id : Nat) (s : State) : (endIfDrained t id s).tun = s.tun := by
  unfold endIfDrained
  split
  · rfl
  · split
    · split
      · exact attendEnd_tun ..
      · split
        · exact attendEnd_tun ..
        · rfl
    · rfl

/-! ### The word is taken -/

/-- A step whose doorbell interval is that of `p` brought up to the instant `t`. -/
def Step.rungAt (p : Step) (t : BitVec 64) (q : Step) : Step := { q with lastBell := some t, delta := nextDelta p t }

/-- A step that has asked for the layer `l`. -/
def Step.asking (l : Nat) (q : Step) : Step := { q with requested := q.requested ++ [l], nextLayer := l + 1 }

/-- A step that closes. -/
def Step.closed (q : Step) : Step := { q with closing := true }

/-- A step that has had a bad doorbell. -/
def Step.misrung (q : Step) : Step := { q with badBell := true }

theorem ringStep_tun (t id : Nat) (p : Step) (v : BitVec 32) (s : State) : (ringStep t id p v s).tun = s.tun := by
  unfold ringStep
  dsimp only
  split
  · rfl
  · split
    · exact endIfDrained_tun ..
    · split
      · exact (joins_checkWindow _).tun
      · exact endIfDrained_tun ..

theorem bellRegion_of_tun_eq {s u : State} (h : u.tun = s.tun) (k : RegionKind) (a : Nat) : bellRegion u k a = bellRegion s k a := by
  simp only [bellRegion, h]

/-- What the fence changes of the ending of a row that serves. -/
theorem whenServing_of_service {f g : State → State} {s : State} (hm : s.boot.mode = .service) (h : f s = g s) :
    whenServing f s = .next (fenced g s) := by
  unfold whenServing
  rw [if_pos hm, fenced_congr h]

section
variable {i : Instr} {s : State} {a : Nat} {v : BitVec 32} {r : Region} (hm : s.boot.mode = .service) (ha : a + 4 ≤ tundishSize)
  (hl : lateInput s a 4 = false)
include hm ha hl

/-- A word that the host writes by CXL.mem is stored, then taken by the doorbells that stand there. -/
theorem exec_cxlMemWrite_word (hact : s.boot.memActive = true) (hd : decoded s a 4 = true) {t : State}
    (ht : ringStageAt a v (ringStepAt a v (hostStore a (bytesOf 4 v.toNat) s)) = t) :
    exec (.cxlMemWrite a (bytesOf 4 v.toNat) false) s = .next (fenced (fun _ => t) s) := by
  have hw : memWrite a (bytesOf 4 v.toNat) false s = t := by
    have hlen := length_bytesOf 4 v.toNat
    unfold memWrite
    rw [hlen, if_pos (by simp [hact, hd]), if_neg (by simp [hl])]
    dsimp only
    rw [if_neg (by decide), if_pos ⟨Nat.le_refl 4, hm⟩, word_of_bytes, ht]
  rw [exec_cxlMemWrite (by rw [length_bytesOf]; exact ha)]
  exact congrArg Host.Outcome.next (fenced_congr hw)

theorem exec_ringsStep {p : Step} (hi : RingsStep s a v i) (hr : bellRegion s .slot a = some r) (hp : openStep s r.trs r.id = some p) :
    exec i s = .next (fenced (fun x => ringStep r.trs r.id p v (hostStore a (bytesOf 4 v.toNat) x)) s) := by
  have hat : ringStepAt a v (hostStore a (bytesOf 4 v.toNat) s) = ringStep r.trs r.id p v (hostStore a (bytesOf 4 v.toNat) s) := by
    unfold ringStepAt
    rw [show bellRegion (hostStore a (bytesOf 4 v.toNat) s) .slot a = some r from hr]
    dsimp only
    rw [show openStep (hostStore a (bytesOf 4 v.toNat) s) r.trs r.id = some p from hp]
  rcases hi with rfl | ⟨rfl, hact, hd, hno⟩
  · refine (if_pos (by omega) : exec (.stepDoorbell a v) s = whenServing (stepDoorbell a v) s).trans (whenServing_of_service hm ?_)
    unfold stepDoorbell
    rw [if_neg (by simp [hl]), if_pos (by rw [hr]; rfl), hat]
  · refine exec_cxlMemWrite_word hm ha hl hact hd ?_
    rw [hat]
    unfold ringStageAt
    rw [bellRegion_of_tun_eq (ringStep_tun r.trs r.id p v _),
      show bellRegion (hostStore a (bytesOf 4 v.toNat) s) .stage a = none from hno]

theorem exec_ringsStage (hi : RingsStage s a v i) (hr : bellRegion s .stage a = some r) :
    exec i s = .next (fenced (fun x => ringStageAt a v (hostStore a (bytesOf 4 v.toNat) x)) s) := by
  rcases hi with rfl | ⟨rfl, hact, hd, hno⟩
  · refine (if_pos (by omega) : exec (.stageDoorbell a v) s = whenServing (stageDoorbell a v) s).trans (whenServing_of_service hm ?_)
    unfold stageDoorbell
    rw [if_neg (by simp [hl]), if_pos (by rw [hr]; rfl)]
  · refine exec_cxlMemWrite_word hm ha hl hact hd ?_
    unfold ringStepAt
    rw [show bellRegion (hostStore a (bytesOf 4 v.toNat) s) .slot a = none from hno]
end

/-- A stored word, with pages and the heat window changed beside. -/
theorem bellStored_of {s t : State} {a : Nat} {v : BitVec 32} {q : Nat} (ho : OtherPages s t q)
    (h : ∃ m w, t = { hostStore a (bytesOf 4 v.toNat) s with trs := m, heat := { s.heat with windowOpen := w } }) : BellStored s t a v q := by
  obtain ⟨m, w, rfl⟩ := h
  refine ⟨?_, ho, fun b hb => ?_, rfl⟩
  · have hread := tunRead_hostStore_self a (bytesOf 4 v.toNat) s
    rwa [length_bytesOf] at hread
  · exact tun_byte_outside a b (bytesOf 4 v.toNat) s (by rwa [length_bytesOf])

section
variable {i : Instr} {s : State} {a : Nat} {v : BitVec 32} {r : Region} {p : Step} (hm : s.boot.mode = .service) (ha : a + 4 ≤ tundishSize)
  (hl : lateInput s a 4 = false) (hi : RingsStep s a v i) (hr : bellRegion s .slot a = some r) (hp : openStep s r.trs r.id = some p)
include hm ha hl hi hr hp

/-- The state in which the word is stored and the step of the region at `a` changed by `f` after its doorbell. -/
theorem exec_ringsStep_by {f : Step → Step} {g : State → State}
    (hring : ringStep r.trs r.id p v (hostStore a (bytesOf 4 v.toNat) s)
      = g (modStep r.trs r.id f (modStep r.trs r.id (Step.rungAt p (now s)) (hostStore a (bytesOf 4 v.toNat) s)))) :
    ∃ u, u = modStep r.trs r.id f (modStep r.trs r.id (Step.rungAt p (now s)) (hostStore a (bytesOf 4 v.toNat) s))
      ∧ exec i s = .next (fenced (fun _ => g u) s) ∧ openStep u r.trs r.id = some (f (rung s p)) ∧ OtherPages s u r.trs
      ∧ ∃ m, u = { hostStore a (bytesOf 4 v.toNat) s with trs := m } := by
  refine ⟨_, rfl, ?_, ?_, ?_, _, rfl⟩
  · rw [exec_ringsStep hm ha hl hi hr hp]
    exact congrArg Host.Outcome.next (fenced_congr hring)
  · rw [openStep_modStep, openStep_modStep, show openStep (hostStore a (bytesOf 4 v.toNat) s) r.trs r.id = some p from hp]
    rfl
  · exact (otherPages_modStep r.trs r.id (Step.rungAt p (now s)) (hostStore a (bytesOf 4 v.toNat) s)).trans (otherPages_modStep r.trs r.id f _)



/-- The doorbell asks for the next layer. -/
theorem exec_ringsStep_asks (hc : p.closing = false) (hb : p.badBell = false) (h31 : bitOf v.toNat 31 = false)
    (hn : bitsOf v.toNat 0 8 = p.nextLayer) (he : p.nextLayer < p.endLayer) :
    ∃ t, exec i s = .next t ∧ openStep t r.trs r.id = some (Step.asking p.nextLayer (rung s p))
      ∧ t.heat.windowOpen = (s.heat.windowOpen || anyReady t) ∧ BellStored s t a v r.trs := by
  obtain ⟨u, -, hx, hp', ho, m, hu⟩ := exec_ringsStep_by hm ha hl hi hr hp (f := Step.asking p.nextLayer) (g := checkWindow) (by
    unfold ringStep
    dsimp only
    rw [if_neg (by simp [hc, hb]), if_neg (by simp [h31]), if_pos ⟨hn, he⟩]
    rfl)
  have ht := checkWindow_eq u
  refine ⟨checkWindow u, ?_, ?_, ?_, ?_⟩
  · rw [hx, fenced_of_keeps rfl] <;> rw [ht, hu] <;> rfl
  · rw [← hp', ht]
    rfl
  · rw [ht, hu]
    rfl
  · refine bellStored_of (ho.trans fun x _ => ?_) ⟨m, s.heat.windowOpen || anyReady u, ?_⟩
    · rw [ht]
      rfl
    · rw [ht, hu]
      rfl

/-- A doorbell that closes or marks a step with layers outstanding changes that step alone. -/
theorem exec_ringsStep_marks {f : Step → Step} (hw : (f (rung s p)).requested ≠ [] ∨ (f (rung s p)).placed ≠ [])
    (hring : ringStep r.trs r.id p v (hostStore a (bytesOf 4 v.toNat) s) = endIfDrained r.trs r.id
      (modStep r.trs r.id f (modStep r.trs r.id (Step.rungAt p (now s)) (hostStore a (bytesOf 4 v.toNat) s)))) :
    ∃ t, exec i s = .next t ∧ openStep t r.trs r.id = some (f (rung s p)) ∧ t.heat = s.heat ∧ BellStored s t a v r.trs := by
  obtain ⟨u, -, hx, hp', ho, m, hu⟩ := exec_ringsStep_by hm ha hl hi hr hp (f := f) (g := endIfDrained r.trs r.id) hring
  rw [endIfDrained_of_work hp' hw] at hx
  refine ⟨u, ?_, hp', ?_, bellStored_of ho ⟨m, s.heat.windowOpen, hu⟩⟩
  · rw [hx, fenced_of_keeps rfl] <;> rw [hu] <;> rfl
  · rw [hu]
    rfl

/-- A doorbell that closes or marks a step with no layer outstanding ends it. -/
theorem exec_ringsStep_ends {f : Step → Step} {code : Byte} (hw : s.heat.windowOpen = true)
    (hring : ringStep r.trs r.id p v (hostStore a (bytesOf 4 v.toNat) s) = endIfDrained r.trs r.id
      (modStep r.trs r.id f (modStep r.trs r.id (Step.rungAt p (now s)) (hostStore a (bytesOf 4 v.toNat) s))))
    (hend : ∀ u, openStep u r.trs r.id = some (f (rung s p)) → endIfDrained r.trs r.id u = attendEnd r.trs r.id code u) :
    ∃ t, exec i s = .next t ∧ EndsStep s t r.trs r.id ∧ Reported t r.trs r.id code (BitVec.ofNat 64 (f (rung s p)).doneLayers)
      ∧ s.outbox ++ lastLine s code (f (rung s p)) <+: t.outbox := by
  obtain ⟨u, -, hx, hp', ho, m, hu⟩ := exec_ringsStep_by hm ha hl hi hr hp (f := f) (g := endIfDrained r.trs r.id) hring
  rw [hend u hp'] at hx
  obtain ⟨y, hy, -, hq⟩ := openStep_eq_some hp'
  have hwu : u.heat.windowOpen = true := by rw [hu]; exact hw
  have hes := (endsStep_attendEnd (code := code) hy hq hwu).since ho (by rw [hu]; rfl)
  refine ⟨_, hx, hes.fenced rfl, attendEnd_reported code hy hq, ?_⟩
  have hpre := attendEnd_outbox_prefix code hy hq hwu
  have hout : u.outbox = s.outbox := by rw [hu]; rfl
  have hline : lastLine u code (f (rung s p)) = lastLine s code (f (rung s p)) := by rw [hu]; rfl
  rwa [hout, hline] at hpre

end

/-- What a staging region's doorbell with its STAGE_SEQ makes of the command. -/
def Held.staged (v : BitVec 32) (h : Held) : Held := match h.stage with
  | some x => if x.seq = v ∧ h.undecided = true then { h with stage := some { x with rung := true } } else h
  | none => h

/-- The doorbell of a staging region marks the source as staged; its units may then decide the command. -/
theorem ringStageAt_of {s : State} {a : Nat} {v : BitVec 32} {r : Region} {h : Held} {x : StageRec} (hr : bellRegion s .stage a = some r)
    (hh : heldOf s r.trs r.id = some h) (hu : h.undecided = true) (hx : h.stage = some x) :
    ∃ m, ringStageAt a v s = { s with trs := m } ∧ OtherPages s { s with trs := m } r.trs
      ∧ ∃ g, heldOf { s with trs := m } r.trs r.id
            = some { (if x.seq = v then { h with stage := some { x with rung := true } } else h) with ending := g }
          ∧ (g = none ∨ (bitOf (fld h.desc 1 1) 1 = true ∧ g = some ⟨0x11, 0⟩)) := by
  have hst : h.staged v = if x.seq = v then { h with stage := some { x with rung := true } } else h := by
    unfold Held.staged
    rw [hx]
    simp [hu]
  have hdesc : (h.staged v).desc = h.desc := by rw [hst]; split <;> rfl
  have hnone : h.ending = none := by
    simp only [Held.undecided, Bool.and_eq_true, Option.isNone_iff_eq_none] at hu
    exact hu.2
  have hend : (h.staged v).ending = none := by rw [hst]; split <;> exact hnone
  have hid : ∀ y : Held, (y.staged v).id = y.id := by
    intro y
    unfold Held.staged
    split
    · split <;> rfl
    · rfl
  have hh' : heldOf (modHeld r.trs r.id (Held.staged v) s) r.trs r.id = some (h.staged v) := by
    rw [heldOf_modHeld_self _ _ _ _ (fun y e => (hid y).trans e), hh, Option.map_some]
  have heq : ringStageAt a v s = checkArrival r.trs r.id (modHeld r.trs r.id (Held.staged v) s) := by
    unfold ringStageAt
    rw [hr]
    rfl
  rw [heq, ← hst]
  rcases checkArrival_eq hh' with hc | ⟨hbit, hun, hc⟩ <;> rw [hc]
  · refine ⟨_, rfl, otherPages_modHeld r.trs r.id (Held.staged v) s, none, ?_, Or.inl rfl⟩
    rw [← hend]
    exact hh'
  · refine ⟨_, rfl, (otherPages_modHeld r.trs r.id (Held.staged v) s).trans
      (otherPages_decideEnd r.trs r.id stCheckMismatch 0 _), some ⟨0x11, 0⟩, ?_,
      Or.inr ⟨hdesc ▸ hbit, rfl⟩⟩
    exact heldOf_decideEnd_self stCheckMismatch 0 hh' hun

/-- Settles O35: the word is stored, then the step is rung (`ringStep`, 04 R127), and asks, closes, is marked or ends; or the staging
region is (`ringStageAt`, R116), and the arrived units decide the command where one of them fails. -/
theorem doorbellsAskCloseAndStage : Obligations.DoorbellsAskCloseAndStage := by
  unfold Obligations.DoorbellsAskCloseAndStage
  refine ⟨fun i s a v r p hm ha hl hi hr hp hc hb => ?_, fun i s a v r h x hm ha hl hi hr hh hu hx => ?_⟩
  · have hopen : ¬ (p.closing = true ∨ p.badBell = true) := by simp [hc, hb]
    have hcloses (h31 : bitOf v.toNat 31 = true) : ringStep r.trs r.id p v (hostStore a (bytesOf 4 v.toNat) s) = endIfDrained r.trs r.id
        (modStep r.trs r.id Step.closed (modStep r.trs r.id (Step.rungAt p (now s)) (hostStore a (bytesOf 4 v.toNat) s))) :=
      (if_neg hopen).trans (if_pos h31)
    have hmarks (h31 : bitOf v.toNat 31 = false) (hbad : bitsOf v.toNat 0 8 ≠ p.nextLayer ∨ p.endLayer ≤ p.nextLayer) :
        ringStep r.trs r.id p v (hostStore a (bytesOf 4 v.toNat) s) = endIfDrained r.trs r.id
          (modStep r.trs r.id Step.misrung (modStep r.trs r.id (Step.rungAt p (now s)) (hostStore a (bytesOf 4 v.toNat) s))) :=
      (if_neg hopen).trans ((if_neg (by simp [h31])).trans (if_neg (by omega)))
    refine ⟨fun h31 hn he => ?_, fun h31 hw => ?_, fun h31 hbad hw => ?_, fun h31 hq hpl hwin => ?_, fun h31 hbad hq hpl hwin => ?_⟩
    · exact exec_ringsStep_asks hm ha hl hi hr hp hc hb h31 hn he
    · exact exec_ringsStep_marks hm ha hl hi hr hp hw (hcloses h31)
    · exact exec_ringsStep_marks hm ha hl hi hr hp hw (hmarks h31 hbad)
    · obtain ⟨t, ht, hes, hrep, -⟩ := exec_ringsStep_ends hm ha hl hi hr hp hwin (hcloses h31)
        (code := if p.doneLayers = p.nlayer then 0x00 else 0x01) (fun u hu =>
          (endIfDrained_of_drained hu hq hpl).trans ((if_neg (by simp [Step.closed, rung, hb])).trans (if_pos rfl)))
      exact ⟨t, ht, hes, hrep⟩
    · obtain ⟨t, ht, hes, hrep, hpre⟩ := exec_ringsStep_ends hm ha hl hi hr hp hwin (hmarks h31 hbad) (code := 0x03)
        (fun u hu => (endIfDrained_of_drained hu hq hpl).trans (if_pos rfl))
      exact ⟨t, ht, hrep, hes, hpre⟩
  · obtain ⟨m, hring, ho, g, hg⟩ := ringStageAt_of (s := hostStore a (bytesOf 4 v.toNat) s) (a := a) (v := v) hr hh hu hx
    refine ⟨_, (exec_ringsStage hm ha hl hi hr).trans (congrArg Host.Outcome.next (fenced_of_keeps hring rfl rfl rfl rfl rfl)), ?_, rfl,
      g, hg⟩
    exact bellStored_of ho ⟨m, s.heat.windowOpen, rfl⟩

end Sys2Proof.Machine

/-! PROOFS. Heats, the last layer of a step, and frames (04 R122, R132 to R136, 10 R293). -/
namespace Sys2Proof.Machine

theorem exec_onTrsServing {p : Nat} (f : State → State) {s : State} (hp : p < 4096) (hm : s.boot.mode = .service) :
    onTrsServing p f s = .next (fenced f s) :=
  (if_pos hp).trans (congrArg Host.Outcome.next (if_pos hm))

theorem whenServing_service (f : State → State) {s : State} (hm : s.boot.mode = .service) : whenServing f s = .next (fenced f s) :=
  congrArg Host.Outcome.next (if_pos hm)

/-- A row of the device that leaves the state as it is does nothing in any mode. -/
theorem whenServing_of_eq {f : State → State} {s : State} (h : f s = s) : whenServing f s = .next s := by
  unfold whenServing
  rw [fenced_of_eq h, ite_self]

theorem openStep_of_held_eq {s u : State} {t : Nat} (h : (getTrs u t).held = (getTrs s t).held) (id : Nat) :
    openStep u t id = openStep s t id := by
  simp only [openStep, heldOf_of_held_eq h]

theorem openStep_addCurrent (t : Nat) (f : CtrSet → CtrSet) (s : State) (id : Nat) :
    openStep (addCurrent t f s) t id = openStep s t id :=
  openStep_of_held_eq (by rw [getTrs_addCurrent_self]) id

/-! ### The boundary of a heat -/

theorem leaveAll_of_nil {s : State} (h : s.heat.leaving = []) : leaveAll s = s := by
  unfold leaveAll
  rw [h]
  dsimp only [List.foldl_nil]
  rw [← h]

theorem joinAll_of_nil {s : State} (h : runningSteps s = []) : joinAll s = s := by
  unfold joinAll
  rw [h]
  rfl

theorem joinAll_of_members {s : State} (h : ∀ e ∈ runningSteps s, e.2.2.member = true) : joinAll s = s := by
  have hes : ∀ es : List (Nat × Nat × Step), (∀ e ∈ es, e.2.2.member = true) → considerJoins es s = (s, []) := by
    intro es hes
    induction es with
    | nil => rfl
    | cons e es ih =>
      unfold considerJoins
      rw [if_pos (hes e (List.mem_cons_self ..)), ih fun x hx => hes x (List.mem_cons_of_mem _ hx)]
  unfold joinAll
  rw [hes _ h]
  rfl

theorem settleLeaves_of_nil {s : State} (h : s.heat.leaving = []) : settleLeaves s = s := by
  unfold settleLeaves
  rw [h]
  exact ite_self s

theorem riserLayer_of_complete {t id l idx : Nat} {os : List Owner} {s : State} (h : os.all (fun o => (missing s t id o).isNone) = true) :
    riserLayer t id l idx os s = some s := by
  unfold riserLayer
  refine List.foldlRecOn os _ (motive := fun x => x = some s) rfl fun acc hacc o ho => ?_
  rw [hacc, Option.bind_some, Option.isNone_iff_eq_none.1 (List.all_eq_true.1 h o ho)]

theorem riserLayers_of_complete {t id idx : Nat} {p : Step} {s : State} (ls : List Nat)
    (h : ∀ l ∈ ls, (p.owners idx l).all (fun o => (missing s t id o).isNone) = true) : riserLayers t id idx p ls s = s := by
  induction ls with
  | nil => rfl
  | cons l ls ih =>
    unfold riserLayers
    rw [riserLayer_of_complete (h l (List.mem_cons_self ..))]
    exact ih fun m hm => h m (List.mem_cons_of_mem _ hm)

/-- A step whose pages are all at hand commits no riser. -/
theorem riserCommit_of_complete {t id : Nat} {p : Step} {s : State} (hp : openStep s t id = some p)
    (h : ∀ m, p.layer0 + p.doneLayers ≤ m → m < p.endLayer → (p.owners (idxOf s t id) m).all (fun o => (missing s t id o).isNone) = true) :
    riserCommit t id s = s := by
  unfold riserCommit
  rw [hp]
  dsimp only
  split
  · refine riserLayers_of_complete _ fun m hm => ?_
    rw [List.mem_range'_1] at hm
    exact h m (by omega) (by omega)
  · rfl

/-- A step whose layer `l` has its drop read. -/
def Step.started (s : State) (l : Nat) (q p : Step) : Step :=
  { p with requested := p.requested.drop 1, placed := p.placed ++ [(l, tunRead s (q.dropAt l) q.ds)] }

/-- The layer `l` of a step joins the heat: its drop is read. -/
def layerTaken (t id l : Nat) (q : Step) (s : State) : State :=
  addCurrent t (fun c => { c with hostRd := c.hostRd + BitVec.ofNat 64 q.ds })
    { modStep t id (Step.started s l q) s with heat := { s.heat with running := s.heat.running ++ [(t, id, l)] } }

theorem layerTaken_eq (t id l : Nat) (q : Step) (s : State) :
    ∃ m, layerTaken t id l q s = { s with trs := m, heat := { s.heat with running := s.heat.running ++ [(t, id, l)] } } := ⟨_, rfl⟩

theorem otherPages_layerTaken (t id l : Nat) (q : Step) (s : State) : OtherPages s (layerTaken t id l q s) t :=
  (otherPages_modStep t id _ s).trans (otherPages_addCurrent t _ _)

theorem openStep_layerTaken {t id l : Nat} {q : Step} {s : State} (hq : openStep s t id = some q) :
    openStep (layerTaken t id l q s) t id = some (q.started s l q) := by
  unfold layerTaken
  rw [openStep_addCurrent]
  exact (openStep_modStep t id _ s).trans (congrArg (Option.map _) hq)

/-- A ready layer starts in the heat, and its jobs are placed on the cores. -/
theorem placeLayer_of_ready {t id l : Nat} {p : Step} {s : State} (hp : openStep s t id = some p)
    (hl : readyLayer s (idxOf s t id) p = some l) (hst : layerStatus s (idxOf s t id) p l = stOk) :
    ∃ c, placeLayer t id s = { layerTaken t id l p s with core := c } := by
  obtain ⟨m, hm⟩ := layerTaken_eq t id l p s
  have hcore : (layerTaken t id l p s).core = s.core := by rw [hm]
  refine ⟨_, Eq.trans ?_ (placeJobs_core (layerCores s (idxOf s t id) p l) 1 t id p.tenant 1 (kindSlot s 2) _ s hcore)⟩
  unfold placeLayer
  rw [hp]
  dsimp only
  rw [hl]
  dsimp only
  rw [if_neg (not_not_intro hst)]
  rfl

/-- With nothing to leave, commit or start, the window closes into no heat. -/
theorem windowClose_of_none {s : State} (hw : s.heat.windowOpen = true) (hl : s.heat.leaving = []) (hr : runningSteps s = []) :
    windowClose s = { s with heat := { s.heat with windowOpen := false } } := by
  have hb : boundary s = s := by
    unfold boundary
    rw [leaveAll_of_nil hl]
    dsimp only
    rw [hr]
    exact joinAll_of_nil hr
  have hany : anyReady { s with heat := { s.heat with windowOpen := false } } = false := by
    unfold anyReady
    rw [show runningSteps { s with heat := { s.heat with windowOpen := false } } = [] from hr]
    rfl
  unfold windowClose
  rw [if_pos hw, hb]
  dsimp only
  rw [hr]
  dsimp only [List.foldl_nil]
  rw [checkWindow_eq, hany]
  exact settleLeaves_of_nil hl

/-- The window of a single member closes into a heat of its ready layer. -/
theorem windowClose_of_member {s : State} {t id l : Nat} {p : Step} (hw : s.heat.windowOpen = true) (hlv : s.heat.leaving = [])
    (hr : runningSteps s = [(t, id, p)]) (hp : openStep s t id = some p) (hmem : p.member = true)
    (hpages : ∀ m, p.layer0 + p.doneLayers ≤ m → m < p.endLayer →
      (p.owners (idxOf s t id) m).all (fun o => (missing s t id o).isNone) = true)
    (hl : readyLayer s (idxOf s t id) p = some l) (hst : layerStatus s (idxOf s t id) p l = stOk) :
    ∃ c, windowClose s = checkWindow { layerTaken t id l p s with
      core := c, heat := { (layerTaken t id l p s).heat with windowOpen := false } } := by
  have hb : boundary s = s := by
    unfold boundary
    rw [leaveAll_of_nil hlv]
    dsimp only
    rw [hr, List.foldl_cons, List.foldl_nil, riserCommit_of_complete hp hpages]
    exact joinAll_of_members (by rw [hr]; simpa using hmem)
  obtain ⟨c, hc⟩ := placeLayer_of_ready hp hl hst
  obtain ⟨m, hm⟩ := layerTaken_eq t id l p s
  refine ⟨c, ?_⟩
  unfold windowClose
  rw [if_pos hw, hb]
  dsimp only
  rw [hr]
  dsimp only [List.foldl_cons, List.foldl_nil]
  rw [hc, checkWindow_eq]
  exact settleLeaves_of_nil (by rw [hm]; exact hlv)

/-! ### The last layer -/

/-- A step after its first layer in the heat. -/
def Step.layerDone (p : Step) : Step := { p with placed := p.placed.drop 1, doneLayers := p.doneLayers + 1 }

/-- The pages of the layer `l` are used once. -/
def layerTouched (idx l : Nat) (p : Step) (s : State) : State :=
  (p.owners idx l).foldl (fun s' o => match slotOfOwner s' o with
    | some k => touchPage k s'
    | none => s') s

theorem tierOnly_layerTouched (idx l : Nat) (p : Step) (s : State) : TierOnly s (layerTouched idx l p s) :=
  TierOnly.foldl (fun s' o => by split; exacts [tierOnly_touchPage .., TierOnly.refl _]) _ s

/-- The head records of the layer `l` and its completion line go to host memory. -/
def layerSent (t l idx : Nat) (p : Step) (recs : List (List Byte × Bool)) (s : State) : State :=
  dmaWrite t (p.blockAt l + p.ls - 64) (completionLine l stOk (recs.any (·.2)) p.seq) false
    (dmaWrite t (p.blockAt l) (recs.flatMap (·.1)) true (layerTouched idx l p s))

/-- What the device writes to host memory for the layer `l`. -/
def layerLines (s : State) (l : Nat) (p : Step) (recs : List (List Byte × Bool)) : List Out :=
  hostWrites s (p.blockAt l) (recs.flatMap (·.1)) true
    ++ hostWrites s (p.blockAt l + p.ls - 64) (completionLine l stOk (recs.any (·.2)) p.seq) false

theorem serves_layerSent (t l idx : Nat) (p : Step) (recs : List (List Byte × Bool)) (s : State) :
    Serves t (layerLines s l p recs) s (layerSent t l idx p recs s) := by
  have h1 := (tierOnly_layerTouched idx l p s).serves t
  have h2 := h1.trans (serves_dmaWrite t (p.blockAt l) (recs.flatMap (·.1)) true _)
  have h3 := h2.trans (serves_dmaWrite t (p.blockAt l + p.ls - 64) (completionLine l stOk (recs.any (·.2)) p.seq) false _)
  rwa [h2.hostWrites_eq, h1.hostWrites_eq, List.nil_append] at h3

/-- The state in which the layer `l` of a step has been delivered and its frames released. -/
def layerServed (t id l idx : Nat) (p : Step) (recs : List (List Byte × Bool)) (s : State) : State :=
  let s1 := layerSent t l idx p recs (drawn p.heads s)
  let s2 := modStep t id Step.layerDone { s1 with heat := { s1.heat with running := s1.heat.running.filter (fun r => !(r == (t, id, l))) } }
  releaseLayer t id l idx (if p.placed.length = 1 then endJobs t id s2 else s2)

theorem layerComplete_of_last {s : State} {t id l : Nat} {dr : List Byte} {p : Step} (hp : openStep s t id = some p)
    (hl : p.placed.head? = some (l, dr)) (hn : p.doneLayers + 1 = p.nlayer) :
    layerComplete t id s = attendEnd t id stOk (layerServed t id l (idxOf s t id) p (headRecords s t id l p dr) s) := by
  unfold layerComplete
  rw [hp]
  dsimp only
  rw [hl]
  dsimp only
  rw [if_pos hn]
  rfl

theorem layerServed_eq (t id l idx : Nat) (p : Step) (recs : List (List Byte × Bool)) (s : State) :
    ∃ m x e c, layerServed t id l idx p recs s = { s with
      trs := m, tier := x, tele := e, core := c, freeCount := s.freeCount + p.heads, outbox := s.outbox ++ layerLines s l p recs,
      heat := { s.heat with running := s.heat.running.filter (fun r => !(r == (t, id, l))) } } := by
  obtain ⟨-, -, m, x, e, h⟩ := serves_layerSent t l idx p recs (drawn p.heads s)
  unfold layerServed
  dsimp only
  rw [h]
  split <;> exact ⟨_, _, _, _, rfl⟩

theorem layerServed_trs (t id l idx : Nat) (p : Step) (recs : List (List Byte × Bool)) (s : State) :
    (layerServed t id l idx p recs s).trs = (modStep t id Step.layerDone (layerSent t l idx p recs (drawn p.heads s))).trs := by
  unfold layerServed
  dsimp only
  split <;> rfl

theorem otherPages_layerServed (t id l idx : Nat) (p : Step) (recs : List (List Byte × Bool)) (s : State) :
    OtherPages s (layerServed t id l idx p recs s) t := fun q hq =>
  (congrArg (fun m => SMap.find ({} : Trs) m q) (layerServed_trs t id l idx p recs s)).trans
    (((serves_layerSent t l idx p recs (drawn p.heads s)).others.trans (otherPages_modStep t id _ _)) q hq)

theorem openStep_layerServed {t id : Nat} {p : Step} {s : State} (l idx : Nat) (recs : List (List Byte × Bool))
    (hp : openStep s t id = some p) : openStep (layerServed t id l idx p recs s) t id = some p.layerDone := by
  rw [openStep_of_trs_eq (layerServed_trs t id l idx p recs s), openStep_modStep,
    openStep_of_held_eq (serves_layerSent t l idx p recs (drawn p.heads s)).held]
  exact congrArg (Option.map _) hp

/-! ### Frames -/

theorem evictUntil_of_enough {enough : State → Bool} {s : State} (h : enough s = true) (st : Nat) (chs : List Nat) (n : Nat) :
    evictUntil enough st chs n s = s := by
  cases n with
  | zero => rfl
  | succ n => exact if_pos h

/-- Where the best channel has room, a frame takes it and no page goes. -/
theorem placeFrame_of_room {st tenant n c : Nat} {tp : TenantPol} {s : State} (hp : tenantPol s tenant = some tp)
    (hu : frameUse s tenant + n ≤ tp.framemax) (hb : bestChan s st tenant = some c) (hf : n ≤ chanFree s st c) :
    placeFrame st tenant n s = (s, some c) := by
  have hroom : ∀ g, makeRoom g st tenant n s = s := by
    intro g
    unfold makeRoom
    split
    · exact evictUntil_of_enough (by rw [hb]; exact decide_eq_true hf) ..
    · rfl
  unfold placeFrame
  rw [hp]
  dsimp only
  rw [if_neg (by omega), hroom, hb]
  exact congrArg (Prod.mk s) (if_pos (decide_eq_true hf))

theorem transientPlaced_of_room {n c : Nat} {f : Frame} {tp : TenantPol} {s : State}
    (hf : s.tier.frames.find? (fun f => f.fid == n && !f.placed) = some f) (hp : tenantPol s f.tenant = some tp)
    (hu : frameUse s f.tenant + 1 ≤ tp.framemax) (hb : bestChan s f.stack f.tenant = some c) (hr : 1 ≤ chanFree s f.stack c) :
    transientPlaced n s = { s with tier := { s.tier with
      frames := s.tier.frames.map (fun g => if g.fid = n then { g with placed := true, chan := c } else g) } } := by
  unfold transientPlaced
  rw [hf]
  dsimp only
  rw [placeFrame_of_room hp hu hb hr]

/-! ### The rows of the heats -/

theorem exec_heatWindowClose_member {s : State} {t id l : Nat} {p : Step} (hm : s.boot.mode = .service) (hw : s.heat.windowOpen = true)
    (hlv : s.heat.leaving = []) (hr : runningSteps s = [(t, id, p)]) (hp : openStep s t id = some p) (hmem : p.member = true)
    (hpages : ∀ m, p.layer0 + p.doneLayers ≤ m → m < p.endLayer →
      (p.owners (idxOf s t id) m).all (fun o => (missing s t id o).isNone) = true)
    (hl : readyLayer s (idxOf s t id) p = some l) (hst : layerStatus s (idxOf s t id) p l = 0x00) :
    ∃ u, exec .heatWindowClose s = .next u ∧ openStep u t id = some (p.started s l p)
      ∧ u.heat = { s.heat with windowOpen := anyReady u, running := s.heat.running ++ [(t, id, l)] } ∧ OtherPages s u t
      ∧ u = { s with trs := u.trs, heat := u.heat, core := u.core } := by
  obtain ⟨c, hc⟩ := windowClose_of_member hw hlv hr hp hmem hpages hl hst
  obtain ⟨m, h⟩ := layerTaken_eq t id l p s
  have ho := otherPages_layerTaken t id l p s
  have hs := openStep_layerTaken (l := l) hp
  rw [checkWindow_eq] at hc
  rw [h] at hc ho hs
  refine ⟨_, (whenServing_service windowClose hm).trans (congrArg Host.Outcome.next (fenced_of_keeps hc rfl rfl rfl rfl rfl)),
    hs, ?_, ho, rfl⟩
  rfl

theorem exec_heatLayerComplete_last {s : State} {q id l : Nat} {dr : List Byte} {p : Step} (hm : s.boot.mode = .service) (hq : q < 4096)
    (hw : s.heat.windowOpen = true) (hp : openStep s q id = some p) (hl : p.placed.head? = some (l, dr)) (hn : p.doneLayers + 1 = p.nlayer) :
    ∃ t, exec (.heatLayerComplete q id) s = .next t ∧ Reported t q id 0x00 (BitVec.ofNat 64 p.nlayer)
      ∧ s.outbox ++ layerLines s l p (headRecords s q id l p dr) <+: t.outbox
      ∧ (∀ e ∈ t.heat.running, ¬ (e.1 = q ∧ e.2.1 = id)) ∧ t.freeCount = s.freeCount + p.heads
      ∧ OtherPages s t q ∧ t.tun = s.tun ∧ t.fl = withoutEarly id s.fl ∧ t.ctx = s.ctx ∧ t.coll = s.coll ∧ t.boot = s.boot
      ∧ t.aon = s.aon := by
  have hdone := layerComplete_of_last hp hl hn
  generalize headRecords s q id l p dr = recs at hdone ⊢
  have hop := openStep_layerServed l (idxOf s q id) recs hp
  have hoth := otherPages_layerServed q id l (idxOf s q id) p recs s
  obtain ⟨m, x, e, c, h⟩ := layerServed_eq q id l (idxOf s q id) p recs s
  generalize layerServed q id l (idxOf s q id) p recs s = u at hdone hop hoth h
  obtain ⟨y, hy, -, hstep⟩ := openStep_eq_some hop
  have hwu : u.heat.windowOpen = true := by rw [h]; exact hw
  obtain ⟨heoth, hfl, hctx, hcoll, -, -, -, hboot, -⟩ := endsStep_attendEnd (code := stOk) hy hstep hwu
  have hrep := attendEnd_reported stOk hy hstep
  have hpre := attendEnd_outbox_prefix stOk hy hstep hwu
  have hheat := attendEnd_heat stOk hy hstep hwu
  have hfree := attendEnd_freeCount stOk hy hstep hwu
  have htun := attendEnd_tun q id stOk u
  refine ⟨_, (exec_onTrsServing (layerComplete q id) hq hm).trans (congrArg Host.Outcome.next (fenced_congr (g := fun _ => attendEnd q id stOk u)
    hdone)), ?_, ?_, ?_, ?_, ?_, ?_, ?_, ?_, ?_, ?_, ?_⟩
  · rw [← hn]
    exact hrep
  · have hout : u.outbox = s.outbox ++ layerLines s l p recs := by rw [h]
    rwa [show lastLine u stOk p.layerDone = [] from if_pos (Or.inl rfl), List.append_nil, hout] at hpre
  · rintro r hr ⟨rfl, rfl⟩
    have hr' : r ∈ (heatLeft r.1 r.2.1 (idxOf u r.1 r.2.1) p.layerDone u.heat).running := hheat ▸ hr
    simp [heatLeft] at hr'
  · exact hfree.trans (by rw [h])
  · exact hoth.trans heoth
  · exact htun.trans (by rw [h])
  · exact hfl.trans (by rw [h])
  · exact hctx.trans (by rw [h])
  · exact hcoll.trans (by rw [h])
  · rw [fenced_boot, hboot, h]
  · rfl

theorem exec_joinDeferralTimeout_deferred {s : State} {q id : Nat} {p : Step} (hm : s.boot.mode = .service) (hq : q < 4096)
    (hw : s.heat.windowOpen = true) (hp : openStep s q id = some p) (hd : p.deferred = true) :
    ∃ t, exec (.joinDeferralTimeout q id) s = .next t ∧ EndsStep s t q id ∧ Reported t q id 0x07 (BitVec.ofNat 64 p.doneLayers)
      ∧ s.outbox ++ lastLine s stCapacity p <+: t.outbox := by
  have hjoin : joinTimeout q id s = attendEnd q id stCapacity s := by
    unfold joinTimeout
    rw [hp]
    exact if_pos hd
  obtain ⟨y, hy, -, hstep⟩ := openStep_eq_some hp
  exact ⟨_, exec_onTrsServing (joinTimeout q id) hq hm, (endsStep_attendEnd (code := stCapacity) hy hstep hw).fenced hjoin,
    fenced_congr (g := fun _ => attendEnd q id stCapacity s) hjoin ▸ attendEnd_reported stCapacity hy hstep,
    fenced_congr (g := fun _ => attendEnd q id stCapacity s) hjoin ▸ attendEnd_outbox_prefix stCapacity hy hstep hw⟩

theorem exec_joinDeferralTimeout_member {s : State} {q id : Nat} {p : Step} (hq : q < 4096) (hp : openStep s q id = some p)
    (hd : p.deferred = false) : exec (.joinDeferralTimeout q id) s = .next s := by
  refine (if_pos hq).trans (whenServing_of_eq ?_)
  unfold joinTimeout
  rw [hp]
  exact if_neg (by simp [hd])

theorem exec_frameFillComplete {s : State} (n : Nat) (hm : s.boot.mode = .service) :
    ∃ t, exec (.frameFillComplete n) s = .next t ∧ t.heat = { s.heat with windowOpen := s.heat.windowOpen || anyReady t }
      ∧ t = { s with heat := t.heat, tier := { s.tier with
          frames := s.tier.frames.map (fun f => if f.fid = n ∧ f.placed then { f with filled := true } else f) } } :=
  ⟨_, (whenServing_service (frameFilled n) hm).trans
    (congrArg Host.Outcome.next (fenced_of_keeps (checkWindow_eq _) rfl rfl rfl rfl rfl)), rfl, rfl⟩

/-- Settles O36: a window closes over its running steps (`windowClose`), a last layer ends its step through the ending of a heat that still
forms (`attendEnd`), and the frames' rows change the frames alone. -/
theorem heatsAndFramesServeSteps : Obligations.HeatsAndFramesServeSteps := by
  unfold Obligations.HeatsAndFramesServeSteps
  refine ⟨⟨fun s hm hw hl hr => ?_, fun s hw => ?_, fun s q id l p hm hw hlv hr hp hmem hpages hl hst => ?_,
    fun s q id l dr p hm hq hw hp hl hn => ?_, fun s q id p hm hq hw hp => ⟨fun hd => ?_, fun hd => ?_⟩⟩,
    fun s n hm => ⟨?_, ?_, fun f tp c hf hp hu hb hr => ?_⟩⟩
  · exact (whenServing_service windowClose hm).trans
      (congrArg Host.Outcome.next (fenced_of_keeps (windowClose_of_none hw hl hr) rfl rfl rfl rfl rfl))
  · exact whenServing_of_eq (if_neg (by simp [hw]))
  · exact exec_heatWindowClose_member hm hw hlv hr hp hmem hpages hl hst
  · obtain ⟨t, ht, hrep, hpre, hrest⟩ := exec_heatLayerComplete_last hm hq hw hp hl hn
    refine ⟨t, ht, hrep, ?_, hrest⟩
    rw [List.append_assoc]
    exact hpre
  · exact exec_joinDeferralTimeout_deferred hm hq hw hp hd
  · exact exec_joinDeferralTimeout_member hq hp hd
  · exact exec_frameFillComplete n hm
  · exact (whenServing_service (warmExpiry n) hm).trans (congrArg Host.Outcome.next (fenced_of_keeps rfl rfl rfl rfl rfl rfl))
  · exact (whenServing_service (transientPlaced n) hm).trans
      (congrArg Host.Outcome.next (fenced_of_keeps (transientPlaced_of_room hf hp hu hb hr) rfl rfl rfl rfl rfl))

end Sys2Proof.Machine

/-! PROOFS. What a recall reads: pages, their status and the layers' data (04 R117, R118). -/
namespace Sys2Proof.Machine

/-! ### The same pages in the tier store -/

/-- An entry of the page map without its time of last use. -/
def sansUse (e : Nat × Page) : Nat × Page := (e.1, { e.2 with lastUse := 0 })

/-- The tier pages and the flash are the same but for the times of last use. -/
structure SamePages (s t : State) : Prop where
  fl : t.fl = s.fl
  pol : t.pol = s.pol
  pages : t.tier.pages.map sansUse = s.tier.pages.map sansUse

theorem SamePages.refl (s : State) : SamePages s s := ⟨rfl, rfl, rfl⟩

theorem SamePages.trans {s t u : State} (h : SamePages s t) (g : SamePages t u) : SamePages s u :=
  ⟨g.fl.trans h.fl, g.pol.trans h.pol, g.pages.trans h.pages⟩

theorem Delivers.samePages {p : Nat} {out : List Out} {s t : State} (h : Delivers p out s t) : SamePages s t := by
  obtain ⟨-, -, m, k, e, rfl⟩ := h
  exact ⟨rfl, rfl, rfl⟩

theorem SamePages.foldl {α : Type} {f : State → α → State} (hf : ∀ s a, SamePages s (f s a)) (l : List α) (s : State) :
    SamePages s (l.foldl f s) :=
  List.foldlRecOn l f (motive := SamePages s) (SamePages.refl s) fun t ht a _ => ht.trans (hf t a)

theorem samePages_touchPage (k : Nat) (s : State) : SamePages s (touchPage k s) := by
  refine ⟨rfl, rfl, ?_⟩
  simp only [touchPage, modPage, List.map_map]
  refine List.map_congr_left fun e _ => ?_
  by_cases h : e.1 = k <;> simp [sansUse, h]

theorem samePages_readPage (p k : Nat) (s : State) : SamePages s (readPage p k s) := by
  have htouch := samePages_touchPage k s
  unfold readPage readFor
  dsimp only
  split
  · exact htouch
  · split
    · exact htouch
    · refine htouch.trans (SamePages.foldl (fun s' i => ?_) _ _)
      split
      · exact SamePages.refl s'
      · exact (delivers_countFlashRead p _ s').samePages

section
variable {s t : State} (h : SamePages s t)
include h

theorem SamePages.slotOfOwner (o : Owner) : slotOfOwner t o = slotOfOwner s o := by
  have hfind (u : State) : Machine.slotOfOwner u o
      = ((u.tier.pages.map sansUse).find? (fun e => e.2.owner == o && e.2.dead.isNone && e.2.pend.isNone)).map (·.1) := by
    rw [List.find?_map, Option.map_map]
    rfl
  rw [hfind, hfind, h.pages]

theorem SamePages.pageAt (k : Nat) :
    (pageAt t k).map (fun p => { p with lastUse := 0 }) = (Machine.pageAt s k).map (fun p => { p with lastUse := 0 }) := by
  have hfind (u : State) : (Machine.pageAt u k).map (fun p => { p with lastUse := 0 })
      = ((u.tier.pages.map sansUse).find? (fun e => e.1 == k)).map (·.2) := by
    rw [List.find?_map, Option.map_map]
    exact Option.map_map ..
  rw [hfind, hfind, h.pages]

theorem SamePages.slotUnit (k : Nat) : slotUnit t k = slotUnit s k := by simp only [Machine.slotUnit, tierBase, h.pol]

theorem SamePages.unitStatus (u : Nat) : unitStatus t u = unitStatus s u := by
  unfold Machine.unitStatus inBuffer mapOf
  rw [h.fl]

theorem SamePages.unitsStatus (u : Nat) : unitsStatus t u = unitsStatus s u := by
  unfold Machine.unitsStatus
  rw [funext h.unitStatus]

/-- A page's status is that of its content, whenever it was used. -/
theorem SamePages.pageStatus (k : Nat) : pageStatus t k = pageStatus s k := by
  have heq (u : State) : Machine.pageStatus u k = match (Machine.pageAt u k).map (fun p => { p with lastUse := 0 }) with
      | none => stOk
      | some p => if p.inT1 then (if p.state = .poisoned then stPoisoned else stOk) else Machine.unitsStatus u (Machine.slotUnit u k) := by
    unfold Machine.pageStatus
    cases Machine.pageAt u k <;> rfl
  rw [heq, heq, h.pageAt, h.slotUnit, h.unitsStatus]

theorem SamePages.pageMismatch (k : Nat) : pageMismatch t k = pageMismatch s k := by
  have hT1 (u : State) : (Machine.pageAt u k).map (fun p => !p.inT1)
      = ((Machine.pageAt u k).map (fun p => { p with lastUse := 0 })).map (fun p => !p.inT1) := by
    rw [Option.map_map]
    rfl
  simp only [Machine.pageMismatch, inBuffer, h.fl, h.slotUnit]
  rw [hT1, hT1, h.pageAt]

theorem SamePages.deliverStatus (b : Bool) (o : Owner) : deliverStatus t b o = deliverStatus s b o := by
  simp only [Machine.deliverStatus, h.slotOfOwner, h.pageStatus, h.pageMismatch]

theorem SamePages.firstBadPage (b : Bool) (os : List Owner) : firstBadPage t b os = firstBadPage s b os := by
  induction os with
  | nil => rfl
  | cons o os ih => simp only [Machine.firstBadPage, h.deliverStatus, ih]

theorem SamePages.imageOf (k : Option Nat) : imageOf t k = imageOf s k := by
  cases k with
  | none => rfl
  | some k => simp only [Machine.imageOf, Option.map_some, pageBytes, unitBytes, h.slotUnit, h.fl]

theorem SamePages.layerData (x : Shape) (idx l : Nat) (c : Desc) : layerData t x idx l c = layerData s x idx l c := by
  simp only [Machine.layerData, storedVec, h.slotOfOwner, h.imageOf]

theorem SamePages.layersReadable (x : Ctx) (c : Desc) (n i : Nat) : layersReadable t x c n i = layersReadable s x c n i := by
  induction n generalizing i with
  | zero => rfl
  | succ n ih => simp only [Machine.layersReadable, h.firstBadPage, ih]
end

/-! ### The delivery of layers to host memory -/

/-- What the device writes to host memory for a layer of data `us` that a recall delivers. -/
def layerWrites (s : State) (c : Desc) (base i : Nat) (us : List (List Byte)) : List Out :=
  hostWrites s (base + i * (if fld c 12 1 = 0xF then us.flatten.length else fld c 24 8)) us.flatten true
  ++ (if bitOf (fld c 1 1) 1 then
        hostWrites s (fld c 48 8 + 8 * us.length * i) (us.flatMap (fun u => bytesOf 8 (crc64 u).toNat)) true else [])
  ++ hostWrites s (fld c 56 8) (progressRecord base (i + 1) c) false

theorem Serves.layerWrites_eq {p : Nat} {out : List Out} {s t : State} (h : Serves p out s t) (c : Desc) (base i : Nat)
    (us : List (List Byte)) : layerWrites t c base i us = layerWrites s c base i us := by
  simp only [layerWrites, h.hostWrites_eq]

theorem recalledLayer_eq (s : State) (x : Ctx) (c : Desc) (i : Nat) :
    recalledLayer s x c i = layerWrites s c (fld c 32 8) i (layerData s x.shape (handleIdx (objOf c)) (fld c 8 2 + i) c) := rfl

/-- Work that a page of registers is served and that leaves the stored pages as they are. -/
structure Recalls (p : Nat) (out : List Out) (s t : State) : Prop where
  serves : Serves p out s t
  same : SamePages s t

theorem Recalls.refl (p : Nat) (s : State) : Recalls p [] s s := ⟨Serves.refl p s, SamePages.refl s⟩

theorem Recalls.trans {p : Nat} {a b : List Out} {s t u : State} (h : Recalls p a s t) (g : Recalls p b t u) : Recalls p (a ++ b) s u :=
  ⟨h.serves.trans g.serves, h.same.trans g.same⟩

theorem Delivers.recalls {p : Nat} {out : List Out} {s t : State} (h : Delivers p out s t) : Recalls p out s t := ⟨h.serves, h.samePages⟩

theorem recalls_dmaWrite (p a : Nat) (bytes : List Byte) (r : Bool) (s : State) :
    Recalls p (hostWrites s a bytes r) s (dmaWrite p a bytes r s) := (delivers_dmaWrite p a bytes r s).recalls

/-- The pages of `os` are read. -/
def layerRead (p : Nat) (os : List Owner) (s : State) : State :=
  os.foldl (fun s' o => match slotOfOwner s' o with
    | some k => readPage p k s'
    | none => s') s

theorem recalls_layerRead (p : Nat) (os : List Owner) (s : State) : Recalls p [] s (layerRead p os s) := by
  refine ⟨Serves.foldl (fun s' o => ?_) os s, SamePages.foldl (fun s' o => ?_) os s⟩
  · split
    · exact serves_readPage ..
    · exact Serves.refl p s'
  · split
    · exact samePages_readPage ..
    · exact SamePages.refl s'

theorem recalls_deliverLayer {p : Nat} {c : Desc} (base i : Nat) (us : List (List Byte)) (s : State) (hh : bitOf (fld c 1 1) 2 = false) :
    Recalls p (layerWrites s c base i us) s (deliverLayer p c base i us s) := by
  have hdata := recalls_dmaWrite p (base + i * (if fld c 12 1 = 0xF then us.flatten.length else fld c 24 8)) us.flatten true s
  unfold deliverLayer layerWrites
  dsimp only
  rw [if_neg (show ¬ bitOf (fld c 1 1) 2 = true by simp [hh])]
  by_cases hc : bitOf (fld c 1 1) 1 = true
  · have hchk := hdata.trans (recalls_dmaWrite p (fld c 48 8 + 8 * us.length * i) (us.flatMap (fun u => bytesOf 8 (crc64 u).toNat)) true _)
    rw [hdata.serves.hostWrites_eq] at hchk
    have h := hchk.trans (recalls_dmaWrite p (fld c 56 8) (progressRecord base (i + 1) c) false _)
    rw [hchk.serves.hostWrites_eq] at h
    rwa [if_pos hc, if_pos hc]
  · have h := hdata.trans (recalls_dmaWrite p (fld c 56 8) (progressRecord base (i + 1) c) false _)
    rw [hdata.serves.hostWrites_eq] at h
    rwa [if_neg hc, if_neg hc, List.append_nil]

/-- A page that fails its check adds an event to what is sent and changes nothing that is stored. -/
theorem mismatchEvent_frame (o : Owner) (s : State) : (mismatchEvent o s).trs = s.trs ∧ (mismatchEvent o s).fl = s.fl
    ∧ (mismatchEvent o s).tun = s.tun ∧ (mismatchEvent o s).ctx = s.ctx ∧ (mismatchEvent o s).coll = s.coll
    ∧ s.outbox <+: (mismatchEvent o s).outbox := by
  unfold mismatchEvent
  split
  · exact ⟨rfl, rfl, rfl, rfl, rfl, List.prefix_refl _⟩
  · split
    · exact ⟨rfl, rfl, rfl, rfl, rfl, List.prefix_refl _⟩
    · exact ⟨raise_trs .., raise_fl .., raise_tun .., raise_ctx .., raise_coll .., raise_outbox_prefix _ _ _ _ _ (List.prefix_refl _)⟩

theorem le_layersReadable (s : State) (x : Ctx) (c : Desc) (n i : Nat) : i ≤ (layersReadable s x c n i).1 := by
  induction n generalizing i with
  | zero => exact Nat.le_refl i
  | succ n ih =>
    unfold layersReadable
    split
    · exact Nat.le_of_succ_le (ih (i + 1))
    · exact Nat.le_refl i

/-- A recall to host memory delivers the layers up to the first that cannot be read; a page that fails its check then makes its event. -/
theorem recallLayers_delivers {p : Nat} {s0 : State} {x : Ctx} {c : Desc} (hh : bitOf (fld c 1 1) 2 = false) (n i : Nat) {out : List Out}
    {s : State} (hs : Recalls p out s0 s) :
    ∃ u, Recalls p (out ++ (List.range' i ((layersReadable s0 x c n i).1 - i)).flatMap (recalledLayer s0 x c)) s0 u
      ∧ (recallLayers p c x.shape (handleIdx (objOf c)) (fld c 32 8) n i s).2 = layersReadable s0 x c n i
      ∧ ((recallLayers p c x.shape (handleIdx (objOf c)) (fld c 32 8) n i s).1 = u
        ∨ ((layersReadable s0 x c n i).2 = stCheckMismatch
          ∧ ∃ o, (recallLayers p c x.shape (handleIdx (objOf c)) (fld c 32 8) n i s).1 = mismatchEvent o u)) := by
  induction n generalizing i out s with
  | zero => exact ⟨s, by simpa [layersReadable] using hs, rfl, Or.inl rfl⟩
  | succ n ih =>
    have hbad := hs.same.firstBadPage (bitOf (fld c 1 1) 1)
      (layerOwners x.shape (handleIdx (objOf c)) (fld c 8 2 + i) (fld c 16 4) (fld c 20 4))
    unfold recallLayers layersReadable
    dsimp only
    rw [hbad]
    cases firstBadPage s0 (bitOf (fld c 1 1) 1)
        (layerOwners x.shape (handleIdx (objOf c)) (fld c 8 2 + i) (fld c 16 4) (fld c 20 4)) with
    | some b =>
      dsimp only
      refine ⟨s, by simpa using hs, rfl, ?_⟩
      split
      · exact Or.inr ⟨‹_›, _, rfl⟩
      · exact Or.inl rfl
    | none =>
      dsimp only
      have hread := hs.trans (recalls_layerRead p (layerOwners x.shape (handleIdx (objOf c)) (fld c 8 2 + i) (fld c 16 4) (fld c 20 4)) s)
      have hdel := hread.trans (recalls_deliverLayer (fld c 32 8) i (layerData s x.shape (handleIdx (objOf c)) (fld c 8 2 + i) c) _ hh)
      rw [hread.serves.layerWrites_eq, hs.same.layerData, ← recalledLayer_eq, List.append_nil] at hdel
      have hrange : (List.range' i ((layersReadable s0 x c n (i + 1)).1 - i)).flatMap (recalledLayer s0 x c)
          = recalledLayer s0 x c i ++ (List.range' (i + 1) ((layersReadable s0 x c n (i + 1)).1 - (i + 1))).flatMap (recalledLayer s0 x c) := by
        have hle := le_layersReadable s0 x c n (i + 1)
        rw [show (layersReadable s0 x c n (i + 1)).1 - i = (layersReadable s0 x c n (i + 1)).1 - (i + 1) + 1 by omega]
        rfl
      rw [hrange, ← List.append_assoc, hs.same.layerData]
      exact ih (i + 1) hdel

end Sys2Proof.Machine

/-! PROOFS. The room for frames does not depend on what a command has sent (10 R293, R294). -/
namespace Sys2Proof.Machine

/-! ### Held commands over the pages of registers -/

/-- The commands that the pages of registers hold. -/
def heldIn (m : SMap Trs) : List (Nat × Held) := m.flatMap (fun e => e.2.held.map (fun h => (e.1, h)))

theorem allHeld_eq_heldIn (s : State) : allHeld s = heldIn s.trs := rfl

theorem heldIn_place_congr (m : SMap Trs) (k : Nat) {v w : Trs} (h : v.held = w.held) :
    heldIn (SMap.place m k v) = heldIn (SMap.place m k w) := by
  induction m with
  | nil => simp [SMap.place, heldIn, h]
  | cons e m ih =>
    obtain ⟨a, x⟩ := e
    unfold SMap.place
    split
    · simp [heldIn, h]
    · simpa [heldIn] using ih

/-- A page that still holds a command may change beside. -/
theorem heldIn_put_congr (m : SMap Trs) (k : Nat) {v w : Trs} (h : v.held = w.held) (hne : v.held ≠ []) :
    heldIn (SMap.put {} m k v) = heldIn (SMap.put {} m k w) := by
  have hv : v ≠ {} := fun e => hne (e ▸ rfl)
  have hw : w ≠ {} := fun e => hne (h.trans (e ▸ rfl))
  unfold SMap.put
  rw [if_neg hv, if_neg hw]
  exact heldIn_place_congr _ k h

/-! ### Alike states -/

/-- Two states that differ in their pages of registers, the telemetry and what has been sent, and hold the same commands. -/
structure Alike (s t : State) : Prop where
  held : allHeld t = allHeld s
  rest : t = { s with trs := t.trs, tele := t.tele, outbox := t.outbox }

section
variable {s t : State} (h : Alike s t)
include h

theorem Alike.tier : t.tier = s.tier := by rw [h.rest]

theorem Alike.pol : t.pol = s.pol := by rw [h.rest]

theorem Alike.allSteps : allSteps t = allSteps s := by
  unfold Machine.allSteps
  rw [h.held, show t.heat = s.heat by rw [h.rest]]

theorem Alike.tenantPol (tn : Nat) : tenantPol t tn = tenantPol s tn := by simp only [Machine.tenantPol, h.pol]

theorem Alike.chansOf (tn : Nat) : chansOf t tn = chansOf s tn := by simp only [Machine.chansOf, h.tenantPol]

theorem Alike.frameUse (tn : Nat) : frameUse t tn = frameUse s tn := by simp only [Machine.frameUse, workOf, h.allSteps, h.tier]

theorem Alike.chanFree (st ch : Nat) : chanFree t st ch = chanFree s st ch := by
  simp only [Machine.chanFree, workOn, h.allSteps, h.tier]

theorem Alike.bestChan (st tn : Nat) : bestChan t st tn = bestChan s st tn := by
  simp only [Machine.bestChan, h.chansOf, h.chanFree]

theorem Alike.inMemberRange (o : Owner) : inMemberRange t o = inMemberRange s o := by simp only [Machine.inMemberRange, h.allSteps]

theorem Alike.keptT1 (o : Owner) : keptT1 t o = keptT1 s o := by
  cases o with
  | coll c k j => simp only [Machine.keptT1, show t.coll = s.coll by rw [h.rest]]
  | _ => rfl

theorem Alike.evictable (st : Nat) (chs : List Nat) (p : Page) : evictable t st chs p = evictable s st chs p := by
  unfold Machine.evictable t1Use
  rw [h.tenantPol, h.tier, h.inMemberRange, h.keptT1]

theorem Alike.unbacked (k : Nat) : unbacked t k = unbacked s k := by
  unfold Machine.unbacked slotOfUnit tierBase
  rw [h.pol, show t.fl = s.fl by rw [h.rest]]

theorem Alike.hasReader (o : Owner) : hasReader t o = hasReader s o := by
  have hrange (x a b : Nat) : rangeReader t x a b = rangeReader s x a b := by
    simp only [rangeReader, h.held, show t.cmd = s.cmd by rw [h.rest]]
  cases o with
  | scale x l v k => simp only [Machine.hasReader, hrange, show t.ctx = s.ctx by rw [h.rest]]
  | kv x l v j => simp only [Machine.hasReader, hrange]
  | coll _ _ _ => rfl

theorem Alike.pageAt (k : Nat) : pageAt t k = pageAt s k := by simp only [Machine.pageAt, h.tier]

theorem Alike.withTier (f : Tiers → Tiers) : Alike { s with tier := f s.tier } { t with tier := f t.tier } := by
  refine ⟨h.held, ?_⟩
  conv_lhs => rw [h.rest]

theorem Alike.bump (k i n : Nat) : Alike (bump k i n s) (bump k i n t) := by
  refine ⟨h.held, ?_⟩
  conv_lhs => unfold Machine.bump; rw [h.rest]
  rfl

theorem Alike.demotePage (k : Nat) (ev : Bool) : Alike (demotePage k ev s) (demotePage k ev t) := by
  unfold Machine.demotePage
  rw [h.pageAt]
  cases Machine.pageAt s k with
  | none => exact h
  | some p =>
    dsimp only
    cases p.home with
    | t1 st ch =>
      dsimp only
      have hhome : Alike (modPage k (fun q => { q with home := flashHome q, state := .good }) s)
          (modPage k (fun q => { q with home := flashHome q, state := .good }) t) := h.withTier fun x =>
        { x with pages := x.pages.map (fun e => if e.1 = k then (e.1, { e.2 with home := flashHome e.2, state := .good }) else e) }
      have hkept := hhome.withTier fun x => { x with dramPending := x.dramPending ++ [(k, st, ch)] }
      rw [h.hasReader]
      cases Machine.hasReader s p.owner <;> cases ev
      exacts [hhome, hhome.bump .., hkept, hkept.bump ..]
    | _ => exact h
end

theorem Alike.evictUntil {enough : State → Bool} (he : ∀ s t, Alike s t → enough t = enough s) (st : Nat) (chs : List Nat) (n : Nat)
    {s t : State} (h : Alike s t) : Alike (evictUntil enough st chs n s) (evictUntil enough st chs n t) := by
  induction n generalizing s t with
  | zero => exact h
  | succ n ih =>
    unfold Machine.evictUntil
    rw [he s t h, h.tier]
    simp only [h.evictable, h.unbacked]
    split
    · exact h
    · split
      · exact h
      · exact ih (h.demotePage ..)

section
variable {s t : State} (h : Alike s t)
include h

theorem Alike.makeRoom (g : Bool) (st tn n : Nat) : Alike (makeRoom g st tn n s) (makeRoom g st tn n t) := by
  unfold Machine.makeRoom
  rw [h.chansOf, h.tier]
  split
  · exact Alike.evictUntil (fun a b hab => by simp only [hab.bestChan, hab.chanFree]) st _ _ h
  · exact h

theorem Alike.placeFrame (st tn n : Nat) : (placeFrame st tn n t).2 = (placeFrame st tn n s).2 := by
  unfold Machine.placeFrame
  rw [h.tenantPol, h.frameUse]
  cases Machine.tenantPol s tn with
  | none => rfl
  | some tp =>
    have hroom := h.makeRoom (decide (Machine.frameUse s tn + n ≤ tp.frameq)) st tn n
    dsimp only
    split
    · rfl
    · simp only [hroom.bestChan, hroom.chanFree]

theorem Alike.noRoom (k : Nat) : noRoom t k = noRoom s k := by
  unfold Machine.noRoom framed
  rw [h.pageAt, h.tier]
  split
  · rfl
  · rw [h.placeFrame]

/-- Where a command waits for frames does not depend on what it has sent. -/
theorem Alike.frameWait (p id : Nat) (ks : List Nat) :
    frameWait p id ks t = (frameWait p id ks s).map (fun u => { t with tier := u.tier }) := by
  have htr (b : Bool) : hasTransient t p id b = hasTransient s p id b := by simp only [hasTransient, h.tier]
  unfold Machine.frameWait
  rw [htr, htr, funext h.noRoom]
  split
  · rfl
  · cases ks.find? (Machine.noRoom s) with
    | none => rfl
    | some k =>
      dsimp only
      split
      · rw [Option.map_some, ← h.tier]
      · rw [h.pageAt]
        cases Machine.pageAt s k with
        | none => rfl
        | some p => simp only [Option.map_some, h.tier]
end

/-- A write to host memory counts on the page of registers that holds its command. -/
theorem dmaWrite_trs (p a : Nat) (bytes : List Byte) (r : Bool) (s : State) :
    (dmaWrite p a bytes r s).trs = s.trs ∨ ∃ k, (dmaWrite p a bytes r s).trs = SMap.put {} s.trs p { getTrs s p with current := k } := by
  unfold dmaWrite
  split
  · exact Or.inr ⟨_, rfl⟩
  · exact Or.inl rfl

theorem alike_dmaWrite {s : State} {p : Nat} {m : SMap Trs} {x : Trs} (hs : s.trs = SMap.put {} m p x) (hx : x.held ≠ []) (a : Nat)
    (bytes : List Byte) (r : Bool) : Alike s (dmaWrite p a bytes r s) := by
  obtain ⟨m', e, hrest⟩ := dmaWrite_eq p a bytes r s
  refine ⟨?_, by rw [hrest]⟩
  rw [allHeld_eq_heldIn, allHeld_eq_heldIn]
  rcases dmaWrite_trs p a bytes r s with ht | ⟨k, ht⟩
  · rw [ht]
  · have hget : getTrs s p = x := by
      unfold getTrs
      rw [hs, SMap.find_put_self]
    rw [ht, hget, hs, SMap.put_put]
    exact heldIn_put_congr m p (v := { x with current := k }) (w := x) rfl hx

theorem alike_begun (s : State) (p : Nat) (c : Desc) (a : Nat) (bytes : List Byte) (r : Bool) :
    Alike (begun s p c) (dmaWrite p a bytes r (begun s p c)) := alike_dmaWrite rfl (List.cons_ne_nil _ _) a bytes r

end Sys2Proof.Machine

/-! PROOFS. RECALL delivers layers or places its lines (04 R117 to R119). -/
namespace Sys2Proof.Machine

/-! ### RECALL to host memory -/

theorem samePages_begun (s : State) (p : Nat) (c : Desc) : SamePages s (begun s p c) := ⟨rfl, rfl, rfl⟩

theorem recalledLayer_of_samePages {s t : State} (h : SamePages s t) (hl : t.link = s.link) (hb : masters t = masters s) (x : Ctx) (c : Desc) :
    recalledLayer t x c = recalledLayer s x c := by
  funext i
  simp only [recalledLayer, h.layerData, hostWrites, hl, hb]

theorem awaitsSnoop_of_none (s : State) {h : Held} (hx : h.exposed = none) : awaitsSnoop s h = false := by
  unfold awaitsSnoop
  rw [hx]
  rfl

/-- The first progress record of a recall whose data goes to `base`. -/
def recallBegun (p : Nat) (c : Desc) (base : Nat) (s : State) : State := dmaWrite p (fld c 56 8) (progressRecord base 0 c) false s

/-- The frames that the reads of a recall need are found as before its first record. -/
theorem frameWait_recallBegun (s : State) (p : Nat) (c : Desc) (base : Nat) (os : List Owner) :
    frameWait p s.cmd.goCount (os.filterMap (slotOfOwner (recallBegun p c base (begun s p c)))) (recallBegun p c base (begun s p c))
      = (frameWait p s.cmd.goCount (os.filterMap (slotOfOwner s)) (begun s p c)).map
          (fun u => { recallBegun p c base (begun s p c) with tier := u.tier }) := by
  have hsame := (samePages_begun s p c).trans (recalls_dmaWrite p (fld c 56 8) (progressRecord base 0 c) false (begun s p c)).same
  rw [show slotOfOwner (recallBegun p c base (begun s p c)) = slotOfOwner s from funext hsame.slotOfOwner]
  exact (alike_begun s p c _ _ _).frameWait ..

section
variable {s : State} {p : Nat} {c : Desc} {x : Ctx} (hh : bitOf (fld c 1 1) 2 = false)
include hh

theorem recallStart_toHost : recallStart p s.cmd.goCount c x (begun s p c)
    = recallRun p s.cmd.goCount (readingHeld s p c []) x (recallBegun p c (fld c 32 8) (begun s p c)) := by
  have hheld : heldOf (recallBegun p c (fld c 32 8) (begun s p c)) p s.cmd.goCount = some (readingHeld s p c []) :=
    (heldOf_of_held_eq (delivers_dmaWrite p _ _ false _).held _).trans (heldOf_begun s p c)
  unfold recallStart
  dsimp only
  rw [if_neg (by simp [hh])]
  unfold recallBegun at hheld ⊢
  rw [hheld]

/-- Where it needs no frame, the recall delivers its layers and decides its ending. -/
theorem recallStart_delivers
    (hw : frameWait p s.cmd.goCount ((recallOwners x.shape (handleIdx (objOf c)) c).filterMap (slotOfOwner s)) (begun s p c) = none) :
    ∃ u, Recalls p (hostWrites s (fld c 56 8) (progressRecord (fld c 32 8) 0 c) false
          ++ (List.range (layersReadable s x c (fld c 10 2) 0).1).flatMap (recalledLayer s x c)) (begun s p c) u
      ∧ ∃ r, recallStart p s.cmd.goCount c x (begun s p c)
          = decideEnd p s.cmd.goCount (layersReadable s x c (fld c 10 2) 0).2 (layersReadable s x c (fld c 10 2) 0).1 r
        ∧ (r = u ∨ ((layersReadable s x c (fld c 10 2) 0).2 = stCheckMismatch ∧ ∃ o, r = mismatchEvent o u)) := by
  have hbeg := recalls_dmaWrite p (fld c 56 8) (progressRecord (fld c 32 8) 0 c) false (begun s p c)
  obtain ⟨u, hu, hres, hcase⟩ := recallLayers_delivers (x := x) hh (fld c 10 2) 0 hbeg
  rw [(samePages_begun s p c).layersReadable] at hu hres hcase
  rw [recalledLayer_of_samePages (samePages_begun s p c) rfl rfl] at hu
  refine ⟨u, by rwa [Nat.sub_zero, ← List.range_eq_range'] at hu, _, ?_, hcase⟩
  rw [recallStart_toHost hh, ← hres]
  unfold recallRun
  dsimp only
  rw [awaitsSnoop_of_none _ (show (readingHeld s p c []).exposed = none from rfl), if_neg (by decide),
    show (readingHeld s p c []).desc = c from rfl, frameWait_recallBegun, hw]
  rfl

/-- Where it needs frames, the recall waits for them. -/
theorem recallStart_waits {u : State}
    (hw : frameWait p s.cmd.goCount ((recallOwners x.shape (handleIdx (objOf c)) c).filterMap (slotOfOwner s)) (begun s p c) = some u) :
    recallStart p s.cmd.goCount c x (begun s p c) = { recallBegun p c (fld c 32 8) (begun s p c) with tier := u.tier } := by
  rw [recallStart_toHost hh]
  unfold recallRun
  dsimp only
  rw [awaitsSnoop_of_none _ (show (readingHeld s p c []).exposed = none from rfl), if_neg (by decide),
    show (readingHeld s p c []).desc = c from rfl, frameWait_recallBegun, hw]
  rfl
end

/-- RECALL is started with its context. -/
theorem startBody_recall {s : State} {p : Nat} {c : Desc} (hop : fld c 0 1 = 0x12) :
    startBody p s.cmd.goCount (s.cmd.acceptCount + 1) c (begun s p c)
      = recallStart p s.cmd.goCount c ((ctxOf (begun s p c) (objOf c)).getD {}) (begun s p c) := by
  simp only [startBody, hop]

theorem recall_toHost {s : State} {p : Nat} {rid : BitVec 16} {d c : Desc} {x : Ctx} (hc : c = setDescByte d 0 0x12) (h : Starts s p rid c)
    (hx : ctxOf s (objOf c) = some x) (hh : bitOf (fld c 1 1) 2 = false)
    (hw : frameWait p s.cmd.goCount ((recallOwners x.shape (handleIdx (objOf c)) c).filterMap (slotOfOwner s)) (begun s p c) = none) :
    ∃ t rest, exec (.recallContext p rid d) s = .next t
      ∧ Decided t p s.cmd.goCount (layersReadable s x c (fld c 10 2) 0).2 (layersReadable s x c (fld c 10 2) 0).1
      ∧ t.outbox = s.outbox ++ hostWrites s (fld c 56 8) (progressRecord (fld c 32 8) 0 c) false
          ++ (List.range (layersReadable s x c (fld c 10 2) 0).1).flatMap (recalledLayer s x c) ++ rest
      ∧ ((layersReadable s x c (fld c 10 2) 0).2 ≠ stCheckMismatch → rest = [])
      ∧ t.tun = s.tun ∧ t.fl = s.fl ∧ t.ctx = s.ctx ∧ t.coll = s.coll ∧ OtherPages s t p := by
  have hop : fld c 0 1 = 0x12 := hc ▸ fld_setDescByte_opcode ..
  have hctx := begun_ctx (s := s) (c := c) p (by rw [hop]; decide)
  obtain ⟨u, ⟨hu, -⟩, r, hb, hr⟩ := recallStart_delivers hh hw
  have hbody := startBody_recall (s := s) (p := p) hop
  rw [show ctxOf (begun s p c) (objOf c) = some x by rw [← hx]; unfold ctxOf; rw [hctx], Option.getD_some, hb] at hbody
  have hframe : r.trs = u.trs ∧ r.fl = u.fl ∧ r.tun = u.tun ∧ r.ctx = u.ctx ∧ r.coll = u.coll
      ∧ ∃ rest, r.outbox = u.outbox ++ rest ∧ ((layersReadable s x c (fld c 10 2) 0).2 ≠ stCheckMismatch → rest = []) := by
    rcases hr with rfl | ⟨hst, o, rfl⟩
    · exact ⟨rfl, rfl, rfl, rfl, rfl, [], by rw [List.append_nil], fun _ => rfl⟩
    · obtain ⟨htrs, hfl, htun, hctx', hcoll, rest, hout⟩ := mismatchEvent_frame o u
      exact ⟨htrs, hfl, htun, hctx', hcoll, rest, hout.symm, fun hne => absurd hst hne⟩
  obtain ⟨htrs, hfl, htun, hctx', hcoll, rest, hout, hrest⟩ := hframe
  have hheld : heldOf r p s.cmd.goCount = some (readingHeld s p c []) :=
    (heldOf_of_trs_eq htrs _ _).trans ((hu.heldOf _).trans (heldOf_begun s p c))
  rw [exec_of_starts (i := .recallContext p rid d) (congrArg (fun x => some (p, rid, x)) hc.symm) h]
  simp only [fenced, hbody]
  refine ⟨_, rest, rfl, decided_decideEnd _ _ hheld (undecided_readingHeld s p c []), ?_, hrest, ?_, ?_, ?_, ?_, ?_⟩
  · rw [decideEnd_outbox, hout, hu.outbox]
    simp only [List.append_assoc]
    rfl
  · rw [decideEnd_tun, htun, hu.tun]
    rfl
  · rw [decideEnd_fl, hfl, hu.fl]
    rfl
  · rw [decideEnd_ctx, hctx', hu.ctx, hctx]
  · rw [decideEnd_coll, hcoll, hu.coll]
    rfl
  · exact ((otherPages_begun s p c).trans (otherPages_of_trs_eq htrs hu.others)).trans (otherPages_decideEnd p s.cmd.goCount _ _ _)

theorem recall_waits {s u : State} {p : Nat} {rid : BitVec 16} {d c : Desc} {x : Ctx} (hc : c = setDescByte d 0 0x12) (h : Starts s p rid c)
    (hx : ctxOf s (objOf c) = some x) (hh : bitOf (fld c 1 1) 2 = false)
    (hw : frameWait p s.cmd.goCount ((recallOwners x.shape (handleIdx (objOf c)) c).filterMap (slotOfOwner s)) (begun s p c) = some u) :
    ∃ t h, exec (.recallContext p rid d) s = .next t ∧ heldOf t p s.cmd.goCount = some h ∧ h.phase = .running ∧ h.ending = none
      ∧ t.tier = u.tier ∧ t.outbox = s.outbox ++ hostWrites s (fld c 56 8) (progressRecord (fld c 32 8) 0 c) false := by
  have hop : fld c 0 1 = 0x12 := hc ▸ fld_setDescByte_opcode ..
  have hctx := begun_ctx (s := s) (c := c) p (by rw [hop]; decide)
  have hbody := startBody_recall (s := s) (p := p) hop
  rw [show ctxOf (begun s p c) (objOf c) = some x by rw [← hx]; unfold ctxOf; rw [hctx], Option.getD_some,
    recallStart_waits hh hw] at hbody
  have hbeg := serves_dmaWrite p (fld c 56 8) (progressRecord (fld c 32 8) 0 c) false (begun s p c)
  have hheld := (hbeg.heldOf s.cmd.goCount).trans (heldOf_begun s p c)
  rw [exec_of_starts (i := .recallContext p rid d) (congrArg (fun x => some (p, rid, x)) hc.symm) h]
  simp only [fenced, hbody]
  refine ⟨_, readingHeld s p c [], rfl, hheld, rfl, rfl, rfl, hbeg.outbox⟩

end Sys2Proof.Machine

/-! PROOFS. RECALL with TUNDISH = 1 places its lines and fills them (04 R119). -/
namespace Sys2Proof.Machine

/-! ### Lines that are filled -/

/-- Work of the page `p` that may fill lines of the tundish: what is stored, the tundish's regions and the held commands stay, and what is
sent comes after what was. -/
structure Fills (p : Nat) (s t : State) : Prop where
  held : (getTrs t p).held = (getTrs s p).held
  others : OtherPages s t p
  fl : t.fl = s.fl
  ctx : t.ctx = s.ctx
  coll : t.coll = s.coll
  regions : t.tun.regions = s.tun.regions
  outbox : s.outbox <+: t.outbox

theorem Fills.refl (p : Nat) (s : State) : Fills p s s := ⟨rfl, OtherPages.refl s p, rfl, rfl, rfl, rfl, List.prefix_refl _⟩

theorem Fills.trans {p : Nat} {s t u : State} (h : Fills p s t) (g : Fills p t u) : Fills p s u :=
  ⟨g.held.trans h.held, h.others.trans g.others, g.fl.trans h.fl, g.ctx.trans h.ctx, g.coll.trans h.coll, g.regions.trans h.regions,
    h.outbox.trans g.outbox⟩

theorem Fills.ite {p : Nat} {s t u : State} (b : Bool) (ht : Fills p s t) (hu : Fills p s u) : Fills p s (if b then t else u) := by
  split
  · exact ht
  · exact hu

theorem Serves.fills {p : Nat} {out : List Out} {s t : State} (h : Serves p out s t) : Fills p s t :=
  ⟨h.held, h.others, h.fl, h.ctx, h.coll, congrArg Tundish.regions h.tun, h.outbox ▸ List.prefix_append ..⟩

theorem fills_dmaWrite (p a : Nat) (bytes : List Byte) (r : Bool) (s : State) : Fills p s (dmaWrite p a bytes r s) :=
  (serves_dmaWrite p a bytes r s).fills

theorem fills_tunWrite (p a : Nat) (bytes : List Byte) (s : State) : Fills p s (tunWrite a bytes s) :=
  ⟨rfl, fun _ _ => rfl, rfl, rfl, rfl, rfl, List.prefix_refl _⟩

theorem fills_deliverLayer (p : Nat) (c : Desc) (base i : Nat) (us : List (List Byte)) (s : State) :
    Fills p s (deliverLayer p c base i us s) := by
  have hdata (a : Nat) (f : CtrSet → CtrSet) : Fills p s (if bitOf (fld c 1 1) 2 then addCurrent p f (tunWrite a us.flatten s)
      else dmaWrite p a us.flatten true s) :=
    Fills.ite _ ((fills_tunWrite ..).trans (delivers_addCurrent ..).serves.fills) (fills_dmaWrite ..)
  exact (Fills.ite _ ((hdata _ _).trans (fills_dmaWrite ..)) (hdata _ _)).trans (fills_dmaWrite ..)

theorem fills_mismatchEvent (p : Nat) (o : Owner) (s : State) : Fills p s (mismatchEvent o s) := by
  obtain ⟨htrs, hfl, htun, hctx, hcoll, hout⟩ := mismatchEvent_frame o s
  exact ⟨by simp only [getTrs, htrs], otherPages_of_trs_eq htrs (OtherPages.refl s p), hfl, hctx, hcoll, congrArg Tundish.regions htun, hout⟩

theorem fills_recallLayers (p : Nat) (c : Desc) (x : Shape) (idx base n i : Nat) (s : State) :
    Fills p s (recallLayers p c x idx base n i s).1 := by
  induction n generalizing i s with
  | zero => exact Fills.refl p s
  | succ n ih =>
    unfold recallLayers
    dsimp only
    split
    · dsimp only
      split
      · exact fills_mismatchEvent ..
      · exact Fills.refl p s
    · exact ((recalls_layerRead p _ s).serves.fills.trans (fills_deliverLayer ..)).trans (ih ..)

/-- A command that waits for frames only asks for one. -/
theorem fills_frameWait {p t id : Nat} {ks : List Nat} {s u : State} (h : frameWait t id ks s = some u) : Fills p s u := by
  unfold frameWait at h
  split at h
  · exact absurd h nofun
  · split at h
    · exact absurd h nofun
    · split at h
      · exact Option.some.inj h ▸ Fills.refl p s
      · split at h
        · exact absurd h nofun
        · exact Option.some.inj h ▸ ⟨rfl, fun _ _ => rfl, rfl, rfl, rfl, rfl, List.prefix_refl _⟩

/-- A recall that goes on changes its command only by an ending. -/
theorem recallRun_fills {p id : Nat} {h : Held} (x : Ctx) {s : State} (hh : heldOf s p id = some h) (hu : h.undecided = true) :
    ∃ g, heldOf (recallRun p id h x s) p id = some { h with ending := g } ∧ OtherPages s (recallRun p id h x s) p
      ∧ (recallRun p id h x s).fl = s.fl ∧ (recallRun p id h x s).ctx = s.ctx ∧ (recallRun p id h x s).coll = s.coll
      ∧ (recallRun p id h x s).tun.regions = s.tun.regions ∧ s.outbox <+: (recallRun p id h x s).outbox := by
  have hstays (t : State) (ht : Fills p s t) : ∃ g, heldOf t p id = some { h with ending := g } ∧ OtherPages s t p
      ∧ t.fl = s.fl ∧ t.ctx = s.ctx ∧ t.coll = s.coll ∧ t.tun.regions = s.tun.regions ∧ s.outbox <+: t.outbox :=
    ⟨h.ending, (heldOf_of_held_eq ht.held id).trans hh, ht.others, ht.fl, ht.ctx, ht.coll, ht.regions, ht.outbox⟩
  unfold recallRun
  dsimp only
  split
  · exact hstays s (Fills.refl p s)
  · split
    · exact hstays _ (fills_frameWait ‹_›)
    · have ht := fills_recallLayers p h.desc x.shape (handleIdx (objOf h.desc)) ((h.exposed.map (·.1)).getD (fld h.desc 32 8))
        (fld h.desc 10 2) 0 s
      generalize recallLayers p h.desc x.shape (handleIdx (objOf h.desc)) ((h.exposed.map (·.1)).getD (fld h.desc 32 8))
        (fld h.desc 10 2) 0 s = r at ht ⊢
      exact ⟨_, heldOf_decideEnd_self r.2.2 r.2.1 ((heldOf_of_held_eq ht.held id).trans hh) hu,
        ht.others.trans (otherPages_decideEnd p id _ _ _), ht.fl, ht.ctx, ht.coll, ht.regions, ht.outbox⟩

/-! ### Lines that are placed -/

/-- A command whose lines stand in the tundish. -/
def Held.exposing (base len : Nat) (h : Held) : Held := { h with exposed := some (base, len) }

/-- The command `id` of page `p` has its lines in the tundish, snooped where back-invalidate is in use. -/
def linesPlaced (p id base len : Nat) (s : State) : State :=
  modHeld p id (Held.exposing base len)
    (snoopLines base len (addRegion { base := base, len := len, kind := .recalled, trs := p, id := id } s))

theorem linesPlaced_eq (p id base len : Nat) (s : State) :
    ∃ m, linesPlaced p id base len s = { s with
      trs := m, freeCount := s.freeCount + 1, outbox := s.outbox ++ (if s.link.biUsed = true then [.biSnp base len] else []),
      tun := { placed ⟨base, len, .recalled, p, id⟩ s.tun with
        snoops := s.tun.snoops ++ (if s.link.biUsed = true then [(base, len)] else []) } } := by
  have hbi : (addRegion { base := base, len := len, kind := .recalled, trs := p, id := id } s).link.biUsed = s.link.biUsed := rfl
  unfold linesPlaced snoopLines
  rw [hbi]
  cases s.link.biUsed with
  | true => exact ⟨_, rfl⟩
  | false =>
    rw [if_neg (by decide), if_neg (by decide), if_neg (by decide), List.append_nil, List.append_nil]
    exact ⟨_, rfl⟩

theorem snoopLines_trs (base len : Nat) (s : State) : (snoopLines base len s).trs = s.trs := by
  unfold snoopLines
  split <;> rfl

theorem otherPages_linesPlaced (p id base len : Nat) (s : State) : OtherPages s (linesPlaced p id base len s) p := by
  refine OtherPages.trans (fun q _ => ?_) (otherPages_modHeld p id _ _)
  simp only [getTrs, snoopLines_trs]
  rfl

theorem heldOf_linesPlaced {p id : Nat} {h : Held} (base len : Nat) {s : State} (hh : heldOf s p id = some h) :
    heldOf (linesPlaced p id base len s) p id = some (h.exposing base len) := by
  unfold linesPlaced
  rw [heldOf_modHeld_self p id (Held.exposing base len) _ (fun _ e => e), heldOf_of_trs_eq (snoopLines_trs ..),
    show heldOf (addRegion _ s) p id = some h from hh, Option.map_some]

section
variable {s : State} {p : Nat} {c : Desc} (x : Ctx) (hh : bitOf (fld c 1 1) 2 = true)
include hh

theorem recallStart_of_full (hb : tunPlace s (fld c 40 8) = none) :
    recallStart p s.cmd.goCount c x (begun s p c) = decideEnd p s.cmd.goCount stCapacity 0 (begun s p c) := by
  unfold recallStart
  dsimp only
  rw [if_pos hh, show tunPlace (begun s p c) (fld c 40 8) = none from hb]

theorem recallStart_of_place {base : Nat} (hb : tunPlace s (fld c 40 8) = some base) :
    recallStart p s.cmd.goCount c x (begun s p c)
      = recallRun p s.cmd.goCount ((readingHeld s p c []).exposing base (fld c 40 8)) x
          (recallBegun p c base (linesPlaced p s.cmd.goCount base (fld c 40 8) (begun s p c))) := by
  have hheld : heldOf (recallBegun p c base (linesPlaced p s.cmd.goCount base (fld c 40 8) (begun s p c))) p s.cmd.goCount
      = some ((readingHeld s p c []).exposing base (fld c 40 8)) :=
    (heldOf_of_held_eq (delivers_dmaWrite p _ _ false _).held _).trans (heldOf_linesPlaced base _ (heldOf_begun s p c))
  unfold recallStart
  dsimp only
  rw [if_pos hh, show tunPlace (begun s p c) (fld c 40 8) = some base from hb]
  unfold recallBegun linesPlaced Held.exposing at hheld ⊢
  dsimp only
  rw [hheld]
end

theorem recallRun_of_snooped {p id : Nat} {h : Held} (x : Ctx) {s : State} {e : Nat × Nat} (he : h.exposed = some e) (hs : e ∈ s.tun.snoops) :
    recallRun p id h x s = s := by
  unfold recallRun
  exact if_pos (by unfold awaitsSnoop; rw [he]; exact decide_eq_true hs)

/-- The lines of a recall are placed, snooped where back-invalidate is in use, and named in its first progress record. -/
theorem linesNamed_eq (s : State) (p : Nat) (c : Desc) (base : Nat) :
    ∃ m e, recallBegun p c base (linesPlaced p s.cmd.goCount base (fld c 40 8) (begun s p c)) = { begun s p c with
      trs := m, tele := e, freeCount := s.freeCount + 1,
      outbox := s.outbox ++ (if s.link.biUsed = true then [.biSnp base (fld c 40 8)] else [])
        ++ hostWrites s (fld c 56 8) (progressRecord base 0 c) false,
      tun := { placed ⟨base, fld c 40 8, .recalled, p, s.cmd.goCount⟩ s.tun with
        snoops := s.tun.snoops ++ (if s.link.biUsed = true then [(base, fld c 40 8)] else []) } } := by
  obtain ⟨m, hlines⟩ := linesPlaced_eq p s.cmd.goCount base (fld c 40 8) (begun s p c)
  obtain ⟨m', e, h⟩ := dmaWrite_eq p (fld c 56 8) (progressRecord base 0 c) false
    (linesPlaced p s.cmd.goCount base (fld c 40 8) (begun s p c))
  refine ⟨m', e, h.trans ?_⟩
  rw [hlines]
  rfl

theorem heldOf_linesNamed (s : State) (p : Nat) (c : Desc) (base : Nat) :
    heldOf (recallBegun p c base (linesPlaced p s.cmd.goCount base (fld c 40 8) (begun s p c))) p s.cmd.goCount
      = some ((readingHeld s p c []).exposing base (fld c 40 8)) :=
  ((serves_dmaWrite p (fld c 56 8) (progressRecord base 0 c) false _).heldOf s.cmd.goCount).trans
    (heldOf_linesPlaced base (fld c 40 8) (heldOf_begun s p c))

theorem otherPages_linesNamed (s : State) (p : Nat) (c : Desc) (base : Nat) :
    OtherPages s (recallBegun p c base (linesPlaced p s.cmd.goCount base (fld c 40 8) (begun s p c))) p :=
  ((otherPages_begun s p c).trans (otherPages_linesPlaced p s.cmd.goCount base (fld c 40 8) (begun s p c))).trans
    (serves_dmaWrite p (fld c 56 8) (progressRecord base 0 c) false _).others

/-- RECALL with TUNDISH = 1 places and names its lines; it then waits for the snoop or goes on. -/
theorem recall_placesLines {s : State} {p : Nat} {rid : BitVec 16} {d c : Desc} {base : Nat} (hc : c = setDescByte d 0 0x12)
    (h : Starts s p rid c) (hh : bitOf (fld c 1 1) 2 = true) (hb : tunPlace s (fld c 40 8) = some base) :
    ∃ t h rest, exec (.recallContext p rid d) s = .next t ∧ heldOf t p s.cmd.goCount = some h ∧ h.exposed = some (base, fld c 40 8)
      ∧ t.tun.regions = s.tun.regions ++ [⟨base, fld c 40 8, .recalled, p, s.cmd.goCount⟩]
      ∧ t.outbox = s.outbox ++ (if s.link.biUsed = true then [.biSnp base (fld c 40 8)] else [])
          ++ hostWrites s (fld c 56 8) (progressRecord base 0 c) false ++ rest
      ∧ (s.link.biUsed = true → rest = [] ∧ h.ending = none ∧ t.tun.snoops = s.tun.snoops ++ [(base, fld c 40 8)]
          ∧ t.tun.mem = s.tun.mem)
      ∧ t.fl = s.fl ∧ t.ctx = s.ctx ∧ t.coll = s.coll ∧ OtherPages s t p := by
  have hop : fld c 0 1 = 0x12 := hc ▸ fld_setDescByte_opcode ..
  have hctx := begun_ctx (s := s) (c := c) p (by rw [hop]; decide)
  have hbody := (startBody_recall (s := s) (p := p) hop).trans (recallStart_of_place _ hh hb)
  obtain ⟨m, e, hnamed⟩ := linesNamed_eq s p c base
  have hheld := heldOf_linesNamed s p c base
  have hoth := otherPages_linesNamed s p c base
  generalize recallBegun p c base (linesPlaced p s.cmd.goCount base (fld c 40 8) (begun s p c)) = u at hbody hnamed hheld hoth
  generalize (ctxOf (begun s p c) (objOf c)).getD {} = x at hbody
  obtain ⟨g, hg, hgo, hgf, hgc, hgl, hgr, rest, hgout⟩ := recallRun_fills x hheld (undecided_readingHeld s p c [])
  have hstop (hbi : s.link.biUsed = true) :
      recallRun p s.cmd.goCount ((readingHeld s p c []).exposing base (fld c 40 8)) x u = u :=
    recallRun_of_snooped x rfl (by rw [hnamed]; simp [hbi])
  generalize recallRun p s.cmd.goCount ((readingHeld s p c []).exposing base (fld c 40 8)) x u = t at *
  rw [exec_of_starts (i := .recallContext p rid d) (congrArg (fun x => some (p, rid, x)) hc.symm) h]
  simp only [fenced, hbody]
  refine ⟨_, _, rest, rfl, hg, rfl, hgr.trans ?_, hgout.symm.trans ?_, fun hbi => ?_, hgf.trans ?_, hgc.trans ?_, hgl.trans ?_,
    hoth.trans hgo⟩
  · rw [hnamed]
    rfl
  · rw [hnamed]
  · rw [hstop hbi] at hg hgout ⊢
    refine ⟨List.append_right_eq_self.1 hgout, congrArg Held.ending (Option.some.inj (hg.symm.trans hheld)), ?_, ?_⟩ <;> rw [hnamed]
    · simp [hbi]
    · rfl
  · rw [hnamed]
    rfl
  · rw [hnamed]
    exact hctx
  · rw [hnamed]
    rfl

/-- Settles O20: the layers go to host memory by induction over `recallLayers`, whose reads keep the stored pages (`SamePages`), once the
first record has left the room for frames as it was (`Alike`); with TUNDISH = 1 the lines are placed and named (`linesNamed_eq`). -/
theorem recallDeliversLayersOrPlacesLines : Obligations.RecallDeliversLayersOrPlacesLines := by
  unfold Obligations.RecallDeliversLayersOrPlacesLines
  refine ⟨fun s p rid d c x hc h hx hh => ⟨recall_toHost hc h hx hh, fun u hw => recall_waits hc h hx hh hw⟩,
    fun s p rid d c hc h hh => ⟨fun hb => ?_, fun base hb => recall_placesLines hc h hh hb⟩⟩
  have hop : fld c 0 1 = 0x12 := hc ▸ fld_setDescByte_opcode ..
  have hbody := (startBody_recall (s := s) (p := p) hop).trans (recallStart_of_full _ hh hb)
  rw [exec_of_starts (i := .recallContext p rid d) (congrArg (fun x => some (p, rid, x)) hc.symm) h,
    fenced_of_keeps (f := fun x => startBody p s.cmd.goCount (s.cmd.acceptCount + 1) c (begun x p c)) (s := s) hbody rfl rfl rfl rfl rfl]
  exact ⟨_, rfl, decided_decideEnd stCapacity 0 (heldOf_begun s p c) (undecided_readingHeld s p c []), rfl,
    (otherPages_begun s p c).trans (otherPages_decideEnd p s.cmd.goCount _ _ _)⟩

end Sys2Proof.Machine

/-! PROOFS. FLAT scans that end, and anneal rounds that start and commit (05 R151, R154, R155, R166). -/
namespace Sys2Proof.Machine

/-! ### Ordered lists -/

theorem mem_insertBy {α : Type} {lt : α → α → Bool} {a b : α} {l : List α} : b ∈ insertBy lt a l ↔ b = a ∨ b ∈ l := by
  induction l with
  | nil => simp [insertBy]
  | cons c l ih =>
    unfold insertBy
    split
    · simp
    · simp [ih, or_left_comm]

theorem mem_foldl_insertBy {α : Type} {lt : α → α → Bool} {b : α} {l acc : List α} :
    b ∈ l.foldl (fun acc a => insertBy lt a acc) acc ↔ b ∈ acc ∨ b ∈ l := by
  induction l generalizing acc with
  | nil => simp
  | cons a l ih => simp [ih, mem_insertBy, or_assoc, or_left_comm]

theorem mem_sortBy {α : Type} {lt : α → α → Bool} {b : α} {l : List α} : b ∈ sortBy lt l ↔ b ∈ l := by
  simp [sortBy, mem_foldl_insertBy]

/-! ### One page of registers changes -/

/-- Among the pages of registers, the page `p` alone is written. -/
def PageSet (p : Nat) (s t : State) : Prop := t.trs = SMap.put {} s.trs p (getTrs t p)

theorem pageSet_modHeld (p id : Nat) (f : Held → Held) (s : State) : PageSet p s (modHeld p id f s) := by
  unfold PageSet modHeld
  rw [getTrs_modTrs_self]
  rfl

theorem PageSet.trans {p : Nat} {s t u : State} (h : PageSet p s t) (g : PageSet p t u) : PageSet p s u := by
  unfold PageSet at *
  rw [g, h, SMap.put_put]

theorem PageSet.of_trs_eq {p : Nat} {s t u : State} (h : PageSet p s t) (hu : u.trs = t.trs) : PageSet p s u := by
  unfold PageSet at *
  rw [getTrs_of_trs_eq hu, hu, h]

theorem PageSet.dmaWrite {p : Nat} {s t : State} (h : PageSet p s t) (a : Nat) (bytes : List Byte) (r : Bool) :
    PageSet p s (dmaWrite p a bytes r t) := by
  rcases dmaWrite_trs p a bytes r t with ht | ⟨k, ht⟩
  · exact h.of_trs_eq ht
  · refine h.trans ?_
    have hg : getTrs (Machine.dmaWrite p a bytes r t) p = { getTrs t p with current := k } := by
      unfold getTrs
      rw [ht, SMap.find_put_self]
      rfl
    unfold PageSet
    rw [hg, ht]

theorem PageSet.otherPages {p : Nat} {s t : State} (h : PageSet p s t) : OtherPages s t p := by
  intro q hq
  unfold getTrs
  rw [show t.trs = _ from h, SMap.find_put_other _ _ _ _ hq]

/-- A command of the page `p` is one of the device's. -/
theorem mem_allHeld_of_page {s : State} {p : Nat} {h : Held} (hh : h ∈ (getTrs s p).held) : (p, h) ∈ allHeld s := by
  rw [allHeld_eq_heldIn]
  unfold getTrs at hh
  generalize s.trs = m at hh
  induction m with
  | nil => exact absurd hh List.not_mem_nil
  | cons e m ih =>
    obtain ⟨a, x⟩ := e
    unfold SMap.find at hh
    unfold heldIn
    rw [List.flatMap_cons, List.mem_append]
    split at hh
    · rename_i ha
      exact Or.inl (List.mem_map.2 ⟨h, hh, by rw [← ha]⟩)
    · exact Or.inr (ih hh)

theorem SMap.mem_put_cases {α : Type} [DecidableEq α] {d : α} {m : SMap α} {k : Nat} {v : α} {e : Nat × α} (h : e ∈ SMap.put d m k v) :
    e = (k, v) ∨ (e ∈ m ∧ e.1 ≠ k) := by
  have herase (he : e ∈ SMap.erase m k) : e ∈ m ∧ e.1 ≠ k := by simpa [SMap.erase_eq_filter] using he
  unfold SMap.put at h
  split at h
  · exact Or.inr (herase h)
  · exact ((SMap.mem_place _ k v e).1 h).imp_right herase

/-- After a change of the page `p`, a held command is one of another page as before, or one of that page. -/
theorem PageSet.mem_allHeld {p : Nat} {s t : State} (h : PageSet p s t) {e : Nat × Held} (he : e ∈ allHeld t) :
    (e ∈ allHeld s ∧ e.1 ≠ p) ∨ (e.1 = p ∧ e.2 ∈ (getTrs t p).held) := by
  have hput : e ∈ heldIn (SMap.put {} s.trs p (getTrs t p)) := by
    rw [← show t.trs = _ from h]
    exact he
  obtain ⟨x, hx, hex⟩ := List.mem_flatMap.1 hput
  obtain ⟨y, hy, rfl⟩ := List.mem_map.1 hex
  rcases SMap.mem_put_cases hx with rfl | ⟨hm, hp⟩
  · exact Or.inr ⟨rfl, hy⟩
  · exact Or.inl ⟨List.mem_flatMap.2 ⟨x, hm, hex⟩, hp⟩

/-! ### Open searches (05 R166) -/

/-- The open searches of a collection are its undecided SEARCHes and CHAINs. -/
theorem mem_openSearches {s : State} {cid : Nat} {x : Nat × Nat × SearchRec} : x ∈ openSearches s cid
    ↔ ∃ e ∈ allHeld s, e.2.undecided = true ∧ e.2.search = some x.2.2 ∧ x.2.2.coll = cid ∧ x.1 = e.1 ∧ x.2.1 = e.2.id := by
  simp only [openSearches, List.mem_map, mem_sortBy, List.mem_filterMap]
  constructor
  · rintro ⟨y, ⟨e, he, hy⟩, rfl⟩
    split at hy
    · rename_i hu
      split at hy
      · rename_i r hr
        split at hy
        · rename_i hc
          cases hy
          exact ⟨e, he, hu, hr, hc, rfl, rfl⟩
        · cases hy
      · cases hy
    · cases hy
  · rintro ⟨e, he, hu, hr, hc, h1, h2⟩
    refine ⟨(e.2.acceptNo, e.1, e.2.id, x.2.2), ⟨e, he, ?_⟩, by rw [← h1, ← h2]⟩
    rw [if_pos hu, hr]
    exact if_pos hc

/-- With no search open, no scan starts. -/
theorem startScan_of_none {s : State} {cid : Nat} (h : openSearches s cid = []) : startScan cid s = s := by
  unfold startScan
  dsimp only
  rw [h]
  exact ite_self s

/-! ### A collection without pages -/

/-- No tier page belongs to the collection. -/
def NoPages (s : State) (cid : Nat) : Prop := ∀ e ∈ s.tier.pages, ownedByColl cid e.2.owner = false

section
variable {s : State} {cid : Nat} (hn : NoPages s cid)
include hn

theorem epochOwners_of_noPages (e : Nat) (ks : List Nat) : epochOwners s cid e ks = [] := by
  refine List.filterMap_eq_nil_iff.2 fun p hp => ?_
  have h := hn p hp
  cases ho : p.2.owner with
  | coll c k n =>
    rw [ho] at h
    have hc : c ≠ cid := by simpa [ownedByColl] using h
    exact if_neg fun hx => hc hx.1
  | _ => rfl

theorem slotInEpoch_of_noPages (k n e : Nat) : slotInEpoch s (.coll cid k n) e = none := by
  unfold slotInEpoch
  rw [Option.map_eq_none_iff, List.find?_eq_none]
  intro p hp hx
  have h := hn p hp
  simp only [Bool.and_eq_true, beq_iff_eq] at hx
  obtain ⟨⟨⟨ho, -⟩, -⟩, -⟩ := hx
  rw [ho] at h
  simp [ownedByColl] at h
end

/-- Each of the places is on a page of the collection. -/
def PlacesOf (cid : Nat) (ps : List ((Owner × Nat) × Option Nat)) : Prop := ∀ p ∈ ps, ∃ k n, p.1.1 = .coll cid k n

theorem readPlaces_of_noPages {s : State} {cid : Nat} (hn : NoPages s cid) (t : Nat) {ps : List ((Owner × Nat) × Option Nat)}
    (hp : PlacesOf cid ps) : readPlaces t ps s = s := by
  unfold readPlaces
  have hd : PlacesOf cid (dedup ps) := fun p h => hp p (mem_dedup.1 h)
  generalize dedup ps = l at hd
  induction l with
  | nil => rfl
  | cons p l ih =>
    obtain ⟨k, n, ho⟩ := hd p List.mem_cons_self
    rw [List.foldl_cons, ho, slotInEpoch_of_noPages hn]
    exact ih fun q hq => hd q (List.mem_cons_of_mem _ hq)

/-- A FLAT pass reads tag pages of its collection. -/
theorem runPass_places {s : State} {r : SearchRec} (d : Desc) (q : Query) (seen : Code → Bool) (hk : (getColl s r.coll).kind = 0) :
    PlacesOf r.coll (runPass s d r q seen).reads := by
  intro p hp
  have hk1 : (getColl s r.coll).kind ≠ 1 := by omega
  simp only [runPass, mem_dedup, if_neg hk1, List.mem_filterMap, Option.map_eq_some_iff] at hp
  obtain ⟨h, -, o, ho, rfl⟩ := hp
  unfold tagPage at ho
  split at ho
  · cases ho
    exact ⟨1, _, rfl⟩
  · cases ho

/-! ### One query on board (05 R162, R163) -/

/-- A query as a FLAT pass meets it: it has no traversal. -/
def Query.fresh (x : Query) : Query := { x with spent := [], seen := [] }

/-- The one query on board of a FLAT scan makes one pass over every code. -/
theorem passQueries_single {s : State} {r : SearchRec} {x : Query} {w : Pass} (d : Desc) (free : Nat → Nat) (n : Nat)
    (hk : (getColl s r.coll).kind = 0) (hb : x.onBoard = true) (hx : x.hits = none) (hw : w = runPass s d r x (fun _ => true)) :
    passQueries s d r free [x] n = ([afterPass d x.fresh w], worse w.lost stOk, w.lostOrds, w.reads) := by
  subst hw
  have hk1 : (getColl s r.coll).kind ≠ 1 := by omega
  simp only [passQueries, hx, hb, hk1, Query.fresh, Option.isNone_none, true_or, and_self, if_true, if_false, List.append_nil]

/-- A query that its pass ends has the pass's hits. -/
theorem found_of_ended {d : Desc} {q y : Query} {w : Pass} (hq : q.hits = none) (hy : y = afterPass d q w) (hend : y.hits.isSome = true) :
    y.found = w.hits := by
  subst hy
  unfold afterPass at *
  split at hend
  · exact absurd (hq ▸ hend : (none : Option (List Hit)).isSome = true) nofun
  · rename_i hc
    rw [if_neg hc]
    rfl

/-- The record of a search whose only query has become `y` in the pass `w`. -/
def searchedOnce (r : SearchRec) (w : Pass) (y : Query) : SearchRec := { r with queries := [y], lost := worse r.lost (worse w.lost stOk) }

/-- A search of one query that the pass `w` ends: the pass counts and the search reports. -/
def scanned (q id : Nat) (d : Desc) (r : SearchRec) (w : Pass) (y : Query) (s : State) : State :=
  searchReport q id d (searchedOnce r w y)
    (countLost r.coll w.lostOrds (modSearch q id (fun _ => searchedOnce r w y) s))

/-- The open SEARCH `id` of page `q`, the only one of a FLAT collection without pages, is on board with one query `x`, which the pass `w`
ends as `y`. -/
structure OneOnBoard (s : State) (cid q id : Nat) (h : Held) (r : SearchRec) (x y : Query) (w : Pass) : Prop where
  only : openSearches s cid = [(q, id, r)]
  held : heldOf s q id = some h
  op : h.op = 0x20
  undecided : h.undecided = true
  search : h.search = some r
  coll : r.coll = cid
  queries : r.queries = [x]
  onBoard : x.onBoard = true
  unended : x.hits = none
  flat : (getColl s cid).kind = 0
  noPages : NoPages s cid
  pass : w = runPass s h.desc r x (fun _ => true)
  after : y = afterPass h.desc x.fresh w
  ended : y.hits.isSome = true

section
variable {s : State} {cid q id : Nat} {h : Held} {r : SearchRec} {x y : Query} {w : Pass} (b : OneOnBoard s cid q id h r x y w)
include b

theorem OneOnBoard.found : y.found = w.hits := found_of_ended (q := x.fresh) b.unended b.after b.ended

theorem OneOnBoard.searchDesc : searchDesc h = h.desc := if_neg (by rw [b.op]; decide)

theorem OneOnBoard.places : PlacesOf cid w.reads := by
  have hp := runPass_places (s := s) (r := r) h.desc x (fun _ => true) (b.coll.symm ▸ b.flat)
  rwa [← b.pass, b.coll] at hp

theorem OneOnBoard.passQueries (free : Nat → Nat) (n : Nat) :
    passQueries s h.desc r free r.queries n = ([y], worse w.lost stOk, w.lostOrds, w.reads) := by
  rw [b.queries, passQueries_single h.desc free n (b.coll.symm ▸ b.flat) b.onBoard b.unended b.pass, ← b.after]

/-- Its round of passes is the pass and the report. -/
theorem OneOnBoard.searchPass (free : Nat → Nat) : searchPass q id free s = scanned q id h.desc r w y s := by
  have hn : NoPages (countLost r.coll w.lostOrds (modSearch q id (fun _ => searchedOnce r w y) s)) cid := b.noPages
  unfold Machine.searchPass
  rw [b.held]
  dsimp only
  rw [b.search]
  dsimp only
  rw [b.searchDesc, b.passQueries]
  dsimp only
  rw [if_pos (by simp [b.ended])]
  exact congrArg (searchReport q id h.desc (searchedOnce r w y)) (readPlaces_of_noPages hn q b.places)
end

/-! ### What the report leaves -/

theorem heldOf_modSearch (p id : Nat) (f : SearchRec → SearchRec) (s : State) :
    heldOf (modSearch p id f s) p id = (heldOf s p id).map (fun h => { h with search := h.search.map f }) :=
  heldOf_modHeld_self p id _ s fun _ e => e

/-- A search of one query has one result block (05 R165). -/
theorem searchBlocks_single {r : SearchRec} {y : Query} (t : Nat) (d : Desc) (s : State) (hq : r.queries = [y]) :
    searchBlocks t d r s
      = dmaWrite t (fld d 32 8) (queryHeader r (fld d 8 2) y y.found.length ++ y.found.flatMap hitBytes) true s := by
  unfold searchBlocks
  rw [hq]
  simp

theorem shortCount_single {r : SearchRec} {y : Query} (d : Desc) (hq : r.queries = [y]) :
    shortCount d r = if y.found.length < fld d 8 2 then 1 else 0 := by
  unfold shortCount
  rw [hq]
  split <;> simp [*]

theorem searchResult_single {r : SearchRec} {y : Query} (d : Desc) (hq : r.queries = [y]) :
    searchResult d r = y.found.length % 2 ^ 32 + (if y.found.length < fld d 8 2 then 1 else 0) * 2 ^ 32 := by
  unfold searchResult
  rw [shortCount_single d hq, hq]
  split <;> rfl

/-- What a search of one query reports where nothing was lost (05 R164). -/
theorem decided_searchReport {r : SearchRec} {y : Query} {t id : Nat} {d : Desc} {s : State} {h : Held} (hq : r.queries = [y])
    (hl : r.lost = stOk) (hh : heldOf s t id = some h) (hu : h.undecided = true) :
    Decided (searchReport t id d r s) t id (if y.found.length < fld d 8 2 then 0x01 else 0x00)
      (y.found.length % 2 ^ 32 + (if y.found.length < fld d 8 2 then 1 else 0) * 2 ^ 32) := by
  have hx : heldOf (searchBlocks t d r s) t id = some h := (heldOf_of_held_eq (held_searchBlocks ..) id).trans hh
  have hst : (if r.lost ≠ stOk then r.lost else if 0 < shortCount d r then stShort else stOk)
      = if y.found.length < fld d 8 2 then 0x01 else 0x00 := by
    rw [if_neg (not_not.2 hl), shortCount_single d hq]
    split <;> rfl
  unfold searchReport
  dsimp only
  rw [hst, searchResult_single d hq]
  exact decided_decideEnd _ _ hx hu

/-- A change of the command `id` leaves the page's other commands as they are. -/
theorem mem_held_modHeld {s : State} {p id : Nat} {f : Held → Held} {g : Held} (hg : g ∈ (getTrs (modHeld p id f s) p).held) :
    (g ∈ (getTrs s p).held ∧ g.id ≠ id) ∨ ∃ x ∈ (getTrs s p).held, x.id = id ∧ g = f x := by
  unfold modHeld at hg
  rw [getTrs_modTrs_self] at hg
  obtain ⟨x, hx, rfl⟩ := List.mem_map.1 hg
  by_cases hi : x.id = id
  · exact Or.inr ⟨x, hx, hi, if_pos hi⟩
  · rw [if_neg hi]
    exact Or.inl ⟨hx, hi⟩

/-- A command that is undecided after a decision is another one. -/
theorem undecided_decideEnd {s : State} {p id : Nat} {st : Byte} {res : Nat} {g : Held}
    (hg : g ∈ (getTrs (decideEnd p id st res s) p).held) (hu : g.undecided = true) : g ∈ (getTrs s p).held ∧ g.id ≠ id := by
  refine (mem_held_modHeld hg).resolve_right fun ⟨x, _, _, hgx⟩ => ?_
  subst hgx
  split at hu
  · simp [Held.undecided] at hu
  · rename_i hux
    exact hux hu

section
variable {s : State} {q id : Nat} {r : SearchRec} {w : Pass} {y : Query} (d : Desc)

/-- The pass and the report write one result block; of the rest they change the command's page, the collections and the telemetry. -/
theorem scanned_frame (hy : y.found = w.hits) : ∃ m c e, scanned q id d r w y s = { s with
    trs := m, coll := c, tele := e,
    outbox := s.outbox ++ hostWrites s (fld d 32 8) (queryHeader r (fld d 8 2) y w.hits.length ++ w.hits.flatMap hitBytes) true } := by
  unfold scanned searchReport
  rw [searchBlocks_single q d _ rfl, hy]
  obtain ⟨m, e, hw⟩ := dmaWrite_eq q (fld d 32 8) (queryHeader (searchedOnce r w y) (fld d 8 2) y w.hits.length
    ++ w.hits.flatMap hitBytes) true (countLost r.coll w.lostOrds (modSearch q id (fun _ => searchedOnce r w y) s))
  rw [hw]
  exact ⟨_, _, e, rfl⟩

theorem pageSet_scanned : PageSet q s (scanned q id d r w y s) := by
  have hmod : PageSet q s (modSearch q id (fun _ => searchedOnce r w y) s) := pageSet_modHeld ..
  unfold scanned searchReport
  rw [searchBlocks_single q d _ rfl]
  exact ((hmod.of_trs_eq (u := countLost r.coll w.lostOrds _) rfl).dmaWrite ..).trans (pageSet_modHeld ..)

/-- What is undecided on the command's page after its report is another command of before. -/
theorem undecided_scanned {g : Held} (hg : g ∈ (getTrs (scanned q id d r w y s) q).held) (hu : g.undecided = true) :
    g ∈ (getTrs s q).held ∧ g.id ≠ id := by
  obtain ⟨hmem, hid⟩ := undecided_decideEnd (show g ∈ (getTrs (decideEnd q id _ _ _) q).held from hg) hu
  rw [held_searchBlocks] at hmem
  exact (mem_held_modHeld (s := s) hmem).resolve_right fun ⟨x, _, hi, hgx⟩ => hid (hgx ▸ hi)

/-- The reported search was the only one open. -/
theorem openSearches_scanned {cid : Nat} {r₀ : SearchRec} (ho : openSearches s cid = [(q, id, r₀)]) :
    openSearches (scanned q id d r w y s) cid = [] := by
  have hopen (e : Nat × Held) (he : e ∈ allHeld s) (x : SearchRec) (hu : e.2.undecided = true) (hx : e.2.search = some x)
      (hc : x.coll = cid) : e.1 = q ∧ e.2.id = id := by
    have hm : (e.1, e.2.id, x) ∈ openSearches s cid := mem_openSearches.2 ⟨e, he, hu, hx, hc, rfl, rfl⟩
    rw [ho, List.mem_singleton, Prod.mk.injEq, Prod.mk.injEq] at hm
    exact ⟨hm.1, hm.2.1⟩
  refine List.eq_nil_iff_forall_not_mem.2 fun x hx => ?_
  obtain ⟨e, he, hu, hs, hc, -, -⟩ := mem_openSearches.1 hx
  rcases (pageSet_scanned d).mem_allHeld he with ⟨hold, hq⟩ | ⟨hq, hpage⟩
  · exact hq (hopen e hold x.2.2 hu hs hc).1
  · obtain ⟨hold, hid⟩ := undecided_scanned d hpage hu
    exact hid (hopen (q, e.2) (mem_allHeld_of_page hold) x.2.2 hu hs hc).2
end

/-! ### A FLAT scan ends -/

/-- A FLAT scan without searches only ends. -/
theorem flatScanEnd_of_none {s : State} {cid ep : Nat} (hep : (getColl s cid).scanEpoch = some ep) (ho : openSearches s cid = []) :
    flatScanEnd cid s = setColl cid { getColl s cid with scanEpoch := none } s := by
  unfold flatScanEnd
  dsimp only
  rw [hep, ho]
  exact startScan_of_none ho

section
variable {s : State} {cid ep q id : Nat} {h : Held} {r : SearchRec} {x y : Query} {w : Pass} (hep : (getColl s cid).scanEpoch = some ep)
  (b : OneOnBoard s cid q id h r x y w)
include b

/-- No page that the scan reads waits for a transient frame. -/
theorem OneOnBoard.frameWait : frameWait q id (slotsOf s (scanTags s [(q, id, r)])) s = none := by
  have htags : scanTags s [(q, id, r)] = w.reads.map (·.1) := by
    unfold scanTags
    rw [List.flatMap_cons, List.flatMap_nil, List.append_nil, b.held, Option.map_some, Option.getD_some, b.searchDesc, b.passQueries]
  have hslots : slotsOf s (w.reads.map (·.1)) = [] := by
    refine List.filterMap_eq_nil_iff.2 fun p hp => ?_
    obtain ⟨z, hz, rfl⟩ := List.mem_map.1 (mem_dedup.1 hp)
    obtain ⟨k, n, hz⟩ := b.places z hz
    rw [hz]
    exact slotInEpoch_of_noPages b.noPages k n _
  unfold Machine.frameWait
  rw [htags, hslots]
  exact ite_self none

include hep in
/-- The scan is the search's pass; it ends, and starts no other. -/
theorem OneOnBoard.flatScanEnd : flatScanEnd cid s
    = setColl cid { getColl (scanned q id h.desc r w y s) cid with scanEpoch := none } (scanned q id h.desc r w y s) := by
  have hboard : [(q, id, r)].filter (fun e => e.2.2.queries.any (fun q => q.onBoard)) = [(q, id, r)] := by simp [b.queries, b.onBoard]
  unfold Machine.flatScanEnd
  dsimp only
  rw [hep, b.only, hboard]
  simp only [epochOwners_of_noPages b.noPages, List.map_nil, List.nil_append, List.head?_cons, b.frameWait, List.foldl_cons, List.foldl_nil]
  rw [show readPlaces q [] s = s from rfl, b.searchPass]
  exact startScan_of_none (openSearches_scanned h.desc b.only)

/-- Where nothing was lost, the search reports its hits, and whether they are short. -/
theorem OneOnBoard.decided (hl : worse r.lost (worse w.lost 0x00) = 0x00) :
    Decided (scanned q id h.desc r w y s) q id (if w.hits.length < fld h.desc 8 2 then 0x01 else 0x00)
      (w.hits.length % 2 ^ 32 + (if w.hits.length < fld h.desc 8 2 then 1 else 0) * 2 ^ 32) := by
  have hmod : heldOf (modSearch q id (fun _ => searchedOnce r w y) s) q id = some { h with search := some (searchedOnce r w y) } := by
    rw [heldOf_modSearch, b.held, Option.map_some, b.search]
    rfl
  rw [← b.found]
  exact decided_searchReport rfl hl hmod b.undecided
end

theorem exec_flatScanEnd (cid : Nat) {s : State} (hm : s.boot.mode = .service) :
    exec (.flatScanEnd cid) s = .next (fenced (flatScanEnd cid) s) := whenServing_service _ hm

theorem flatScan_ends {s : State} {cid ep : Nat} (hm : s.boot.mode = .service) (hep : (getColl s cid).scanEpoch = some ep)
    (ho : openSearches s cid = []) :
    exec (.flatScanEnd cid) s = .next (setColl cid { getColl s cid with scanEpoch := none } s) := by
  rw [exec_flatScanEnd cid hm, fenced_of_keeps (flatScanEnd_of_none hep ho) rfl rfl rfl rfl rfl]

theorem flatScan_reports {s : State} {cid ep q id : Nat} {h : Held} {r : SearchRec} {x y : Query} {w : Pass} (hm : s.boot.mode = .service)
    (hep : (getColl s cid).scanEpoch = some ep) (b : OneOnBoard s cid q id h r x y w) :
    ∃ t, exec (.flatScanEnd cid) s = .next t
      ∧ t.outbox = s.outbox ++ hostWrites s (fld h.desc 32 8)
          (queryHeader r (fld h.desc 8 2) y w.hits.length ++ w.hits.flatMap hitBytes) true
      ∧ (worse r.lost (worse w.lost 0x00) = 0x00 →
          Decided t q id (if w.hits.length < fld h.desc 8 2 then 0x01 else 0x00)
            (w.hits.length % 2 ^ 32 + (if w.hits.length < fld h.desc 8 2 then 1 else 0) * 2 ^ 32))
      ∧ (getColl t cid).scanEpoch = none ∧ OtherPages s t q ∧ t.fl = s.fl ∧ t.tier = s.tier := by
  have hflat := b.flatScanEnd hep
  have hdec := b.decided
  have hothers := (pageSet_scanned (s := s) (q := q) (id := id) (r := r) (w := w) (y := y) h.desc).otherPages
  obtain ⟨m, c, e, hframe⟩ := scanned_frame (s := s) (q := q) (id := id) (r := r) h.desc b.found
  rw [hframe] at hflat hdec hothers
  rw [exec_flatScanEnd cid hm, fenced_of_keeps hflat rfl rfl rfl rfl rfl]
  exact ⟨_, rfl, rfl, hdec, congrArg Coll.scanEpoch (getColl_setColl_self ..), hothers, rfl, rfl⟩

/-! ### An anneal round starts (05 R154, R155) -/

/-- A round of `n` codes has started and its work lies on the cores. -/
def roundStarted (cid n : Nat) (s : State) : State :=
  let x := getColl s cid
  placeRound cid x.tenant false (drawn 1 (setColl cid { x with held := false, again := false, round := some { newRound s x n with
    charged := (roundPagesNew s cid (annealed s cid (newRound s x n))).length } } s))

/-- The sizes that a round tries: whole, then 65,536 codes; where neither fits, anneal is held. -/
theorem tryRound_eq (cid : Nat) (s : State) : tryRound cid false s =
    if roundFits s cid (newRound s (getColl s cid) (sideLen (getColl s cid))) then roundStarted cid (sideLen (getColl s cid)) s
    else if 65536 < sideLen (getColl s cid) ∧ roundFits s cid (newRound s (getColl s cid) 65536) = true then roundStarted cid 65536 s
    else setColl cid { getColl s cid with held := true } s := rfl

/-- Work of a round changes the cores only. -/
theorem placeRound_eq (cid tenant : Nat) (fg : Bool) (s : State) :
    placeRound cid tenant fg s = { s with core := (placeRound cid tenant fg s).core } :=
  placeJobs_core _ _ _ _ _ _ _ s s rfl

theorem exec_annealRoundStart (cid : Nat) {s : State} (hm : s.boot.mode = .service) :
    exec (.annealRoundStart cid) s = .next (fenced (annealStart cid) s) := whenServing_service _ hm

theorem startsRound_of_started {s : State} {cid n : Nat} (hm : s.boot.mode = .service) (h : annealStart cid s = roundStarted cid n s) :
    StartsRound (exec (.annealRoundStart cid) s) s cid (getColl s cid) n := by
  unfold roundStarted at h
  dsimp only at h
  rw [placeRound_eq] at h
  rw [exec_annealRoundStart cid hm, fenced_of_keeps h rfl rfl rfl rfl rfl]
  exact ⟨_, rfl, getColl_setColl_self .., fun c hc => getColl_setColl_other _ s hc, rfl⟩

theorem annealStart_of_due {s : State} {cid : Nat} (hc : collOf s cid = some (getColl s cid)) (hr : (getColl s cid).round = none)
    (hd : annealDue s (getColl s cid) = true ∨ (getColl s cid).again = true) : annealStart cid s = tryRound cid false s := by
  unfold annealStart
  rw [hc]
  exact if_pos (by simpa [hr] using hd)

theorem annealStart_of_idle {s : State} {cid : Nat} {x : Coll} (hc : collOf s cid = some x)
    (h : x.round ≠ none ∨ (annealDue s x = false ∧ x.again = false)) : annealStart cid s = s := by
  unfold annealStart
  rw [hc]
  refine if_neg fun hd => ?_
  simp only [Bool.and_eq_true, Option.isNone_iff_eq_none, Bool.or_eq_true] at hd
  rcases h with hr | ⟨hdue, hagain⟩
  · exact hr hd.1
  · simp [hdue, hagain] at hd

theorem annealRound_starts (s : State) (cid : Nat) (x : Coll) (hm : s.boot.mode = .service) (hc : collOf s cid = some x)
    (hx : x = getColl s cid) :
    (x.round = none → (annealDue s x = true ∨ x.again = true) →
      (roundFits s cid (newRound s x (sideLen x)) = true → StartsRound (exec (.annealRoundStart cid) s) s cid x (sideLen x))
      ∧ (roundFits s cid (newRound s x (sideLen x)) = false →
          (65536 < sideLen x → roundFits s cid (newRound s x 65536) = true →
            StartsRound (exec (.annealRoundStart cid) s) s cid x 65536)
          ∧ ((sideLen x ≤ 65536 ∨ roundFits s cid (newRound s x 65536) = false) →
            exec (.annealRoundStart cid) s = .next (setColl cid { x with held := true } s))))
    ∧ ((x.round ≠ none ∨ (annealDue s x = false ∧ x.again = false)) → exec (.annealRoundStart cid) s = .next s) := by
  refine ⟨fun hr hd => ?_, fun h => whenServing_of_eq (annealStart_of_idle hc h)⟩
  subst hx
  have htry := (annealStart_of_due hc hr hd).trans (tryRound_eq cid s)
  refine ⟨fun hw => ?_, fun hw => ⟨fun hlen hp => ?_, fun hno => ?_⟩⟩
  · exact startsRound_of_started hm (htry.trans (if_pos hw))
  · rw [if_neg (by simp [hw]), if_pos ⟨hlen, hp⟩] at htry
    exact startsRound_of_started hm htry
  · have hneither : ¬(65536 < sideLen (getColl s cid) ∧ roundFits s cid (newRound s (getColl s cid) 65536) = true) := by
      rintro ⟨hlen, hp⟩
      rcases hno with hno | hno
      · omega
      · exact absurd (hp.symm.trans hno) nofun
    rw [if_neg (by simp [hw]), if_neg hneither] at htry
    rw [exec_annealRoundStart cid hm, fenced_of_keeps htry rfl rfl rfl rfl rfl]

/-! ### A round commits (05 R155, 11 R329) -/

/-- One entry changes the flash and the telemetry only. -/
theorem storeOnly_commitAs (seq : Nat) (rs : List Rec) (s : State) : StoreOnly s (commitAs seq rs s) := by
  unfold commitAs
  dsimp only
  split
  · exact StoreOnly.trans ⟨_, _, _, rfl⟩ (storeOnly_journalFlush _)
  · exact ⟨_, _, _, rfl⟩

/-- A flush of staging keeps every entry's number and records. -/
theorem journalFlush_keeps {s : State} {e : JEntry} (h : e ∈ s.fl.journal) :
    ∃ e' ∈ (journalFlush s).fl.journal, e'.seq = e.seq ∧ e'.recs = e.recs := by
  unfold journalFlush
  split
  · exact ⟨e, h, rfl, rfl⟩
  · exact ⟨_, List.mem_map_of_mem h, rfl, rfl⟩

/-- The entry that a commit makes stands in the journal. -/
theorem commitAs_journal (seq : Nat) (rs : List Rec) (s : State) : ∃ e ∈ (commitAs seq rs s).fl.journal, e.seq = seq ∧ e.recs = rs := by
  have hnew : (⟨seq, rs, false⟩ : JEntry) ∈ s.fl.journal ++ [{ seq := seq, recs := rs }] := List.mem_append_right _ List.mem_cons_self
  unfold commitAs
  dsimp only
  split
  · refine journalFlush_keeps (e := ⟨seq, rs, false⟩) ?_
    exact hnew
  · exact ⟨_, hnew, rfl, rfl⟩

/-- The round `r` of a collection has the number of the entry that its pages belong to. -/
def roundNumbered (cid : Nat) (r : Round) (s : State) : State :=
  setColl cid { getColl s cid with round := some { r with group := roundGroup s r } }
    { s with fl := { s.fl with seq := max s.fl.seq (roundGroup s r) } }

/-- A round none of whose pages enters the buffer only takes its number. -/
theorem stageRound_of_none {s : State} {cid : Nat} {r : Round} {imgs : List (Nat × Nat × List Byte)} (tenant : Nat)
    (hr : (getColl s cid).round = some r) (h : (imgs.filter (fun i => !roundPageIn s cid i)).take (bufferFree s / 4) = []) :
    stageRound cid r tenant imgs s = roundNumbered cid r s := by
  unfold stageRound
  dsimp only
  rw [h, List.foldl_nil]
  have hg : getColl { s with fl := { s.fl with seq := max s.fl.seq (if r.group = 0 then s.fl.seq + 1 else r.group) } } cid
      = getColl s cid := rfl
  rw [hg, hr]
  rfl

theorem tierOnly_retirePages (cid e : Nat) (imgs : List (Nat × Nat × List Byte)) (s : State) : TierOnly s (retirePages cid e imgs s) := by
  refine TierOnly.foldl (fun s' p => ?_) _ s
  split
  · exact TierOnly.refl s'
  · exact tierOnly_modPage ..

/-- With every page in, a round commits the annealed collection; its jobs end and its pages and the replaced ones change. -/
theorem annealCommit_of_in {s : State} {cid : Nat} {r : Round} (hr : (getColl s cid).round = some r)
    (hin : (roundPagesNew s cid (annealed s cid r)).all (roundPageIn s cid) = true) :
    ∃ f x k e, annealCommit cid s = mergeGo cid (commitEarly 0 (roundId cid) (roundGroup s r) (fun o => o) [.object 3 cid]
      (setColl cid (annealed s cid r) { s with fl := f, tier := x, core := k, tele := e })) := by
  have hstage := stageRound_of_none (getColl s cid).tenant (imgs := roundPagesNew s cid (annealed s cid r)) hr (by
    rw [List.filter_eq_nil_iff.2 fun i hi => by simp [List.all_eq_true.1 hin i hi], List.take_nil])
  have hin' : (roundPagesNew s cid (annealed s cid r)).all (roundPageIn (roundNumbered cid r s) cid) = true := hin
  have hgroup : (((getColl (roundNumbered cid r s) cid).round).map (·.group)).getD 0 = roundGroup s r := by
    rw [roundNumbered, getColl_setColl_self]
    rfl
  unfold annealCommit
  dsimp only
  rw [hr]
  dsimp only
  rw [hstage, if_pos hin', hgroup]
  generalize hu : retirePages _ _ _ _ = u
  obtain ⟨x, e, rfl⟩ : TierOnly { roundNumbered cid r s with tier := _ } u := hu ▸ tierOnly_retirePages ..
  have hput (f : Flash) (x : Tiers) (k : Cores) : setColl cid (annealed s cid r)
      { roundNumbered cid r s with fl := f, tier := x, core := k, tele := e }
      = setColl cid (annealed s cid r) { s with fl := f, tier := x, core := k, tele := e } := by
    unfold roundNumbered setColl
    simp only [SMap.put_put]
  exact ⟨_, _, _, e, congrArg (fun u => mergeGo cid (commitEarly 0 (roundId cid) (roundGroup s r) (fun o => o) [.object 3 cid] u))
    (hput _ _ _)⟩

/-- A MERGE of the collection that runs and is not decided. -/
def MergesInto (cid : Nat) (h : Held) : Prop := h.op = 0x23 ∧ objOf h.desc = cid ∧ h.phase = .running ∧ h.undecided = true

theorem openMerges_eq_nil_iff {s : State} {cid : Nat} : openMerges s cid = [] ↔ ∀ e ∈ allHeld s, ¬MergesInto cid e.2 := by
  unfold openMerges
  simp [List.filterMap_eq_nil_iff, MergesInto]

/-- With no MERGE running, a commit has none to go on with. -/
theorem mergeGo_of_none {s : State} {cid : Nat} (h : openMerges s cid = []) : mergeGo cid s = s := by
  unfold mergeGo
  dsimp only
  rw [h, List.foldl_nil, h]
  exact if_pos (Or.inl rfl)

/-- What a commit under a reserved number leaves: its records stand in one entry of that number; beside the flash, the tier pages and the
telemetry only reservations of one page change. -/
theorem commitEarly_eq (t id group : Nat) (own : Owner → Owner) (rs : List Rec) (s : State) :
    ∃ u, commitEarly t id group own rs s = modHeld t id (fun h => { h with resv := none }) u ∧ StoreOnly s u
      ∧ ∃ e ∈ u.fl.journal, e.seq = group ∧ ∀ r ∈ rs, r ∈ e.recs := by
  obtain ⟨e, he, hseq, hrecs⟩ := commitAs_journal group (rs ++ (earlyPrograms s id).map (fun e => Rec.map e.1 e.2)) { s with
    tier := { s.tier with pages := s.tier.pages.map (fun e =>
      if e.2.pend = some id then (e.1, { e.2 with pend := none, owner := own e.2.owner }) else e) },
    fl := { s.fl with wbuf := s.fl.wbuf.map (fun (b : BufUnit) =>
      if b.cmd = some id then { b with cmd := none, mapSeq := b.progAt.map (fun _ => group) } else b) } }
  exact ⟨_, rfl, StoreOnly.trans ⟨_, _, _, rfl⟩ (storeOnly_commitAs _ _ _), e, he, hseq, fun r hr => hrecs ▸ List.mem_append_left _ hr⟩

/-- A commit makes no MERGE run. -/
theorem openMerges_unreserved {s u : State} {cid t id : Nat} (hs : openMerges s cid = []) (hu : u.trs = s.trs) :
    openMerges (modHeld t id (fun h => { h with resv := none }) u) cid = [] := by
  rw [openMerges_eq_nil_iff] at hs ⊢
  have hall : allHeld u = allHeld s := by rw [allHeld_eq_heldIn, hu, allHeld_eq_heldIn]
  rw [← hall] at hs
  intro e he hm
  rcases (pageSet_modHeld t id _ u).mem_allHeld he with ⟨hold, -⟩ | ⟨-, hpage⟩
  · exact hs e hold hm
  · rcases mem_held_modHeld hpage with ⟨hold, -⟩ | ⟨g, hold, -, hg⟩
    · exact hs (t, e.2) (mem_allHeld_of_page hold) hm
    · rw [hg] at hm
      exact hs (t, g) (mem_allHeld_of_page hold) hm

theorem exec_annealRoundCommit (cid : Nat) {s : State} (hm : s.boot.mode = .service) :
    exec (.annealRoundCommit cid) s = .next (fenced (annealCommit cid) s) := whenServing_service _ hm

theorem annealRound_commits (s : State) (cid : Nat) (r : Round) (hm : s.boot.mode = .service) (hr : (getColl s cid).round = some r)
    (hmerge : openMerges s cid = []) (hin : (roundPagesNew s cid (annealed s cid r)).all (roundPageIn s cid) = true) :
    ∃ t, exec (.annealRoundCommit cid) s = .next t ∧ getColl t cid = annealed s cid r
      ∧ (getColl t cid).epochNo = (getColl s cid).epochNo + 1 ∧ (getColl t cid).round = none
      ∧ (∀ c, c ≠ cid → getColl t c = getColl s c)
      ∧ (∃ e ∈ t.fl.journal, e.seq = roundGroup s r ∧ .object 3 cid ∈ e.recs)
      ∧ (∀ q, q ≠ 0 → getTrs t q = getTrs s q) ∧ t.cmd = s.cmd ∧ t.outbox = s.outbox ∧ t.ctx = s.ctx := by
  obtain ⟨f, x, k, te, hcommit⟩ := annealCommit_of_in hr hin
  obtain ⟨u, hearly, hstore, e, he, hseq, hrecs⟩ := commitEarly_eq 0 (roundId cid) (roundGroup s r) (fun o => o) [.object 3 cid]
    (setColl cid (annealed s cid r) { s with fl := f, tier := x, core := k, tele := te })
  have htrs : u.trs = s.trs := hstore.trs
  rw [hearly, mergeGo_of_none (openMerges_unreserved hmerge htrs)] at hcommit
  obtain ⟨f', x', te', rfl⟩ := hstore
  rw [exec_annealRoundCommit cid hm, fenced_of_keeps hcommit rfl rfl rfl rfl rfl]
  have hcoll := getColl_setColl_self cid (annealed s cid r) { s with fl := f, tier := x, core := k, tele := te }
  exact ⟨_, rfl, hcoll, congrArg Coll.epochNo hcoll, congrArg Coll.round hcoll, fun c hc => getColl_setColl_other _ _ hc,
    ⟨e, he, hseq, hrecs _ List.mem_cons_self⟩, otherPages_modHeld 0 _ _ _, rfl, rfl, rfl⟩

/-- While the buffer takes no page, a round that lacks one only takes its number. -/
theorem annealRound_waits (s : State) (cid : Nat) (r : Round) (hm : s.boot.mode = .service) (hr : (getColl s cid).round = some r)
    (hout : (roundPagesNew s cid (annealed s cid r)).all (roundPageIn s cid) = false) (hfull : bufferFree s < 4) :
    ∃ t, exec (.annealRoundCommit cid) s = .next t
      ∧ getColl t cid = { getColl s cid with round := some { r with group := roundGroup s r } }
      ∧ (∀ c, c ≠ cid → getColl t c = getColl s c)
      ∧ t = { s with coll := t.coll, fl := { s.fl with seq := max s.fl.seq (roundGroup s r) } } := by
  have hstage := stageRound_of_none (getColl s cid).tenant (imgs := roundPagesNew s cid (annealed s cid r)) hr (by
    rw [Nat.div_eq_of_lt hfull, List.take_zero])
  have hout' : ¬(roundPagesNew s cid (annealed s cid r)).all (roundPageIn (roundNumbered cid r s) cid) = true :=
    fun h => absurd (h.symm.trans hout) nofun
  have hwait : annealCommit cid s = roundNumbered cid r s := by
    unfold annealCommit
    dsimp only
    rw [hr]
    dsimp only
    rw [hstage, if_neg hout']
  rw [exec_annealRoundCommit cid hm, fenced_of_keeps hwait rfl rfl rfl rfl rfl]
  exact ⟨_, rfl, getColl_setColl_self .., fun c hc => getColl_setColl_other _ _ hc, rfl⟩

/-! ### The pages of a superseded epoch (05 R151) -/

/-- The store once the pages that no search reads are deleted and their entry is committed. -/
def epochEmptied (cid ep : Nat) (s : State) : State :=
  commitEntry ((freedSlots s cid ep).map (fun k => .unmap (slotUnit s k) 4))
    ((freedSlots s cid ep).foldl (fun s' k => deletePage k s') s)

/-- Freeing an epoch deletes its slots, if any; of the collections it changes its own. -/
theorem freeEpoch_eq (cid ep : Nat) (s : State) : (freedSlots s cid ep = [] → freeEpoch cid ep s = s)
    ∧ (freedSlots s cid ep ≠ [] → ∃ x, freeEpoch cid ep s = setColl cid x (epochEmptied cid ep s)) := by
  refine ⟨fun h => if_pos (List.isEmpty_iff.2 h), fun h => ?_⟩
  have hne : ¬(freedSlots s cid ep).isEmpty = true := fun he => h (List.isEmpty_iff.1 he)
  exact ⟨_, if_neg hne⟩

theorem storeOnly_epochEmptied (cid ep : Nat) (s : State) : StoreOnly s (epochEmptied cid ep s) :=
  (StoreOnly.foldl (fun s' k => storeOnly_deletePage k s') _ s).trans (storeOnly_commitEntry ..)

theorem epochEmptied_pages (cid ep : Nat) (s : State) :
    (epochEmptied cid ep s).tier.pages = s.tier.pages.filter (fun e => decide (e.1 ∉ freedSlots s cid ep)) :=
  (congrArg Tiers.pages (commitEntry_tier ..)).trans (foldl_deletePage_pages ..)

theorem foldl_deletePage_seq (ks : List Nat) (s : State) : (ks.foldl (fun s' k => deletePage k s') s).fl.seq = s.fl.seq :=
  List.foldlRecOn ks _ (motive := fun t : State => t.fl.seq = s.fl.seq) rfl fun _ ht _ _ => ht

theorem epochEmptied_journal (cid ep : Nat) (s : State) : ∃ e ∈ (epochEmptied cid ep s).fl.journal,
    e.seq = s.fl.seq + 1 ∧ e.recs = (freedSlots s cid ep).map (fun k => .unmap (slotUnit s k) 4) := by
  unfold epochEmptied commitEntry
  rw [foldl_deletePage_seq]
  exact commitAs_journal ..

theorem exec_epochPagesFreed (cid ep : Nat) {s : State} (hm : s.boot.mode = .service) :
    exec (.epochPagesFreed cid ep) s = .next (fenced (freeEpoch cid ep) s) := whenServing_service _ hm

theorem epochPages_freed (s : State) (cid ep : Nat) (hm : s.boot.mode = .service) :
    (freedSlots s cid ep = [] → exec (.epochPagesFreed cid ep) s = .next s)
    ∧ (freedSlots s cid ep ≠ [] → ∃ t, exec (.epochPagesFreed cid ep) s = .next t
        ∧ t.tier.pages = s.tier.pages.filter (fun e => decide (e.1 ∉ freedSlots s cid ep))
        ∧ (∃ e ∈ t.fl.journal, e.seq = s.fl.seq + 1
            ∧ e.recs = (freedSlots s cid ep).map (fun k => .unmap (slotUnit s k) 4))
        ∧ (∀ c, c ≠ cid → getColl t c = getColl s c) ∧ t.trs = s.trs ∧ t.outbox = s.outbox ∧ t.ctx = s.ctx) := by
  obtain ⟨hnone, hsome⟩ := freeEpoch_eq cid ep s
  refine ⟨fun h => whenServing_of_eq (hnone h), fun h => ?_⟩
  obtain ⟨x, hfree⟩ := hsome h
  have hpages := epochEmptied_pages cid ep s
  have hjournal := epochEmptied_journal cid ep s
  obtain ⟨f, y, te, hstore⟩ := storeOnly_epochEmptied cid ep s
  rw [hstore] at hfree hpages hjournal
  rw [exec_epochPagesFreed cid ep hm, fenced_of_keeps hfree rfl rfl rfl rfl rfl]
  exact ⟨_, rfl, hpages, hjournal, fun c hc => getColl_setColl_other x s hc, rfl, rfl, rfl⟩

/-- Settles O38: a scan with one search on board is one pass and one report, after which none is open (`openSearches_scanned`); a round that
starts lays its work on the cores alone (`placeRound_eq`); with every page in, its commit is one entry (`commitEarly_eq`) with no MERGE to go
on; a freed epoch is deleted page by page. -/
theorem scansEndAndAnnealRoundsCommit : Obligations.ScansEndAndAnnealRoundsCommit :=
  ⟨fun _ _ _ hm hep => ⟨flatScan_ends hm hep, fun _ _ _ _ _ _ _ ho hh hop hu hr hc hq hb hx hk hn hw hy hend =>
      flatScan_reports hm hep ⟨ho, hh, hop, hu, hr, hc, hq, hb, hx, hk, hn, hw, hy, hend⟩⟩,
    annealRound_starts,
    fun s cid r hm hr hmerge => ⟨annealRound_commits s cid r hm hr hmerge, annealRound_waits s cid r hm hr⟩, epochPages_freed⟩

end Sys2Proof.Machine

/-! PROOFS. Cores, engines and partitions: reading after a change, and rows that change little else (07 R204). -/
namespace Sys2Proof.Machine

/-! ### Maps under a change of every value -/

/-- An entry that the change does not turn into the unlisted value stays where it is. -/
theorem SMap.find_mapVals_of_ne {α : Type} [DecidableEq α] {d : α} {f : Nat → α → α} {m : SMap α} {k : Nat} (hm : SMap.find d m k ≠ d)
    (hf : f k (SMap.find d m k) ≠ d) : SMap.find d (SMap.mapVals d f m) k = f k (SMap.find d m k) := by
  unfold SMap.mapVals
  induction m with
  | nil => exact absurd rfl hm
  | cons a m ih =>
    obtain ⟨i, v⟩ := a
    rw [List.map_cons, List.filter_cons]
    by_cases hi : i = k
    · subst hi
      simp only [SMap.find, if_true] at hf ⊢
      rw [if_pos (by simpa using hf)]
      simp [SMap.find]
    · simp only [SMap.find, hi, if_false] at hm hf ⊢
      split
      · simpa [SMap.find, hi] using ih hm hf
      · exact ih hm hf

theorem SMap.find_of_keys_ne {α : Type} {d : α} {m : SMap α} {k : Nat} (h : ∀ e ∈ m, e.1 ≠ k) : SMap.find d m k = d := by
  induction m with
  | nil => rfl
  | cons a m ih =>
    rw [SMap.find, if_neg (h a List.mem_cons_self)]
    exact ih fun e he => h e (List.mem_cons_of_mem a he)

/-- In a map whose keys rise, a change that leaves the unlisted value alone changes every value. -/
theorem SMap.find_mapVals_of_rises {α : Type} [DecidableEq α] {d : α} {f : Nat → α → α} {m : SMap α} (hm : SMap.rises m)
    (hd : ∀ k, f k d = d) (k : Nat) : SMap.find d (SMap.mapVals d f m) k = f k (SMap.find d m k) := by
  unfold SMap.mapVals
  induction m with
  | nil => exact (hd k).symm
  | cons a m ih =>
    obtain ⟨i, v⟩ := a
    obtain ⟨hfirst, hrest⟩ := List.pairwise_cons.1 hm
    have htail := ih hrest
    rw [List.map_cons, List.filter_cons]
    by_cases hi : i = k
    · subst hi
      have hgone : SMap.find d m i = d := SMap.find_of_keys_ne fun e he => (hfirst e he).ne'
      rw [hgone, hd] at htail
      split
      · simp [SMap.find]
      · rename_i hv
        have hf : f i v = d := by simpa using hv
        rw [htail, SMap.find, if_pos rfl, hf]
    · split
      · simpa [SMap.find, hi] using htail
      · simpa [SMap.find, hi] using htail

/-! ### Reading cores and engines -/

@[simp] theorem getCore_modCore_self (c : Nat) (f : Core → Core) (s : State) : getCore (modCore c f s) c = f (getCore s c) :=
  SMap.find_modify_self ..

theorem getCore_modCore_other {c d : Nat} (h : d ≠ c) (f : Core → Core) (s : State) : getCore (modCore c f s) d = getCore s d :=
  SMap.find_modify_other _ _ _ _ h

@[simp] theorem modCore_modCore (c : Nat) (f g : Core → Core) (s : State) : modCore c f (modCore c g s) = modCore c (fun k => f (g k)) s := by
  simp [modCore, SMap.modify]

@[simp] theorem engine_modEngine_self (e : Nat) (f : Engine → Engine) (k : Core) :
    SMap.find {} (modEngine e f k).engines e = f (SMap.find {} k.engines e) := SMap.find_modify_self ..

theorem engine_modEngine_other {e d : Nat} (h : d ≠ e) (f : Engine → Engine) (k : Core) :
    SMap.find {} (modEngine e f k).engines d = SMap.find {} k.engines d := SMap.find_modify_other _ _ _ _ h

@[simp] theorem getEngine_modCore_self (c e : Nat) (f : Core → Core) (s : State) :
    getEngine (modCore c f s) c e = SMap.find {} (f (getCore s c)).engines e := by
  simp only [getEngine, getCore_modCore_self]

theorem getCore_of_cores_eq {s t : State} (h : t.core.cores = s.core.cores) (c : Nat) : getCore t c = getCore s c := by simp only [getCore, h]

theorem getEngine_of_cores_eq {s t : State} (h : t.core.cores = s.core.cores) (c e : Nat) : getEngine t c e = getEngine s c e := by
  simp only [getEngine, getCore_of_cores_eq h]

theorem getCore_of_core_eq {s t : State} (h : t.core = s.core) (c : Nat) : getCore t c = getCore s c := by simp only [getCore, h]

theorem getEngine_of_core_eq {s t : State} (h : t.core = s.core) (c e : Nat) : getEngine t c e = getEngine s c e := by
  simp only [getEngine, getCore_of_core_eq h]

theorem OtherCores.refl (s : State) (c : Nat) : OtherCores s s c := fun _ _ => rfl

theorem OtherCores.trans {s t u : State} {c : Nat} (h : OtherCores s t c) (g : OtherCores t u c) : OtherCores s u c :=
  fun d hd => (g d hd).trans (h d hd)

theorem OtherCores.of_core_eq {s t u : State} {c : Nat} (h : OtherCores s t c) (hu : u.core.cores = t.core.cores) : OtherCores s u c :=
  fun d hd => (getCore_of_cores_eq hu d).trans (h d hd)

theorem otherCores_modCore (c : Nat) (f : Core → Core) (s : State) : OtherCores s (modCore c f s) c :=
  fun _ hd => getCore_modCore_other hd f s

theorem OtherEngines.trans {s t u : State} {c e : Nat} (h : OtherEngines s t c e) (g : OtherEngines t u c e) : OtherEngines s u c e :=
  fun d f hd => (g d f hd).trans (h d f hd)

theorem OtherEngines.of_core_eq {s t u : State} {c e : Nat} (h : OtherEngines s t c e) (hu : u.core.cores = t.core.cores) :
    OtherEngines s u c e := fun d f hd => (getEngine_of_cores_eq hu d f).trans (h d f hd)

/-- The other engines stand where the other cores stand and the core changes none but engine `e`. -/
theorem otherEngines_modCore (c e : Nat) {f : Core → Core} {s : State}
    (hf : ∀ d, d ≠ e → SMap.find {} (f (getCore s c)).engines d = SMap.find {} (getCore s c).engines d) :
    OtherEngines s (modCore c f s) c e := by
  intro d i hd
  by_cases hc : d = c
  · subst hc
    rw [getEngine_modCore_self]
    exact hf i fun hi => hd ⟨rfl, hi⟩
  · unfold getEngine
    rw [getCore_modCore_other hc]

theorem otherEngines_modEngine (c e : Nat) (f : Engine → Engine) (s : State) : OtherEngines s (modCore c (modEngine e f) s) c e :=
  otherEngines_modCore c e fun _ hd => engine_modEngine_other hd f _

/-! ### Partitions and tiles -/

theorem partAt_of_parts {s : State} {c e p : Nat} {g : Part} (h : (getEngine s c e).parts[p]? = some g) : partAt s ⟨c, e, p⟩ = g := by
  unfold partAt
  rw [List.getD_eq_getElem?_getD, h]
  rfl

/-- A seat whose tile is known has its partition. -/
theorem parts_of_tile {s : State} {q : Seat} {x : Tile} (h : (partAt s q).tile = some x) :
    (getEngine s q.core q.eng).parts[q.part]? = some (partAt s q) := by
  unfold partAt at h ⊢
  rw [List.getD_eq_getElem?_getD] at h ⊢
  cases hg : (getEngine s q.core q.eng).parts[q.part]? with
  | none => rw [hg] at h; exact absurd h.symm (Option.some_ne_none x)
  | some g => rfl

theorem getEngine_modPart_self (q : Seat) (f : Part → Part) (s : State) : getEngine (modPart q f s) q.core q.eng
    = { getEngine s q.core q.eng with parts := (getEngine s q.core q.eng).parts.modify q.part f } := by
  rw [modPart, getEngine_modCore_self, engine_modEngine_self]
  rfl

theorem parts_modPart {s : State} {q : Seat} {g : Part} (f : Part → Part) (h : (getEngine s q.core q.eng).parts[q.part]? = some g) :
    (getEngine (modPart q f s) q.core q.eng).parts[q.part]? = some (f g) := by
  rw [getEngine_modPart_self, List.getElem?_modify_eq, h]
  rfl

/-- The core of a changed partition stands but for its engines. -/
theorem getCore_modPart_self (q : Seat) (f : Part → Part) (s : State) :
    getCore (modPart q f s) q.core = { getCore s q.core with engines := (getCore (modPart q f s) q.core).engines } := by
  rw [modPart, getCore_modCore_self]
  rfl

/-- No partition of an engine without a running tile has a tile. -/
theorem tile_of_running_nil {g : Engine} (h : running g = []) (p : Nat) : (g.parts.getD p {}).tile = none := by
  rw [List.getD_eq_getElem?_getD]
  cases hp : g.parts[p]? with
  | none => rfl
  | some x => exact List.filterMap_eq_nil_iff.1 h x (List.mem_of_getElem? hp)

/-! ### Rows that change the cores and the stores of the fabric -/

theorem CoresOnly.refl (s : State) : CoresOnly s s := rfl

theorem CoresOnly.trans {s t u : State} (h : CoresOnly s t) (g : CoresOnly t u) : CoresOnly s u := by
  unfold CoresOnly at *
  rw [g, h]

theorem CoresOnly.foldl {α : Type} {f : State → α → State} (hf : ∀ s a, CoresOnly s (f s a)) (l : List α) (s : State) :
    CoresOnly s (l.foldl f s) :=
  List.foldlRecOn l f (motive := CoresOnly s) (CoresOnly.refl s) fun t ht a _ => ht.trans (hf t a)

theorem coresOnly_modCore (c : Nat) (f : Core → Core) (s : State) : CoresOnly s (modCore c f s) := rfl

theorem CoresOnly.trs {s t : State} (h : CoresOnly s t) : t.trs = s.trs := by rw [h]

/-- A serving row that changes the cores, pages of registers, tier pages and telemetry at most passes the fence as it is. -/
theorem whenServing_fabric {f : State → State} {s t : State} (hm : s.boot.mode = .service) (h : f s = t)
    (ht : t = { s with core := t.core, trs := t.trs, tier := t.tier, tele := t.tele }) : whenServing f s = .next t := by
  rw [whenServing_service f hm, fenced_of_keeps h] <;> rw [ht]

theorem whenServing_coresOnly {f : State → State} {s t : State} (hm : s.boot.mode = .service) (h : f s = t) (ht : CoresOnly s t) :
    whenServing f s = .next t := whenServing_fabric hm h (by rw [show t = _ from ht])

end Sys2Proof.Machine

/-! PROOFS. Semaphores (07 R227, R228). -/
namespace Sys2Proof.Machine

/-! ### The command of a job ends -/

/-- A serving command ends with a status other than POISONED as an ordinary command does. -/
theorem endJobCommand_of_serving {s : State} {j : Job} {st : Byte} (hs : Serving s j) (hst : st ≠ stPoisoned) :
    endJobCommand st j s = finish j.trs j.id st 0 s := by
  obtain ⟨h, hh, hended, hop⟩ := hs
  unfold endJobCommand
  rw [hh]
  simp [hended, hop, hst]

theorem Serving.reported {s : State} {j : Job} (hs : Serving s j) (st : Byte) (res : BitVec 64) :
    Reported (finish j.trs j.id st res s) j.trs j.id st res := by
  obtain ⟨h, hh, -⟩ := hs
  exact finish_reported st res hh

theorem Serving.finish_fl {s : State} {j : Job} (hs : Serving s j) (st : Byte) (res : BitVec 64) :
    (finish j.trs j.id st res s).fl = withoutEarly j.id s.fl := by
  obtain ⟨h, hh, -⟩ := hs
  exact finishWith_fl none false st res hh

/-- A command serves as long as what its page holds stands. -/
theorem Serving.of_heldOf_eq {s t : State} {j : Job} (hs : Serving s j) (h : heldOf t j.trs j.id = heldOf s j.trs j.id) : Serving t j := by
  unfold Serving at *
  rwa [h]

theorem otherPages_finish (p id : Nat) (st : Byte) (res : BitVec 64) (s : State) : OtherPages s (finish p id st res s) p :=
  otherPages_finishWith none false p id st res s

/-! ### Semaphores -/

/-- A core with the semaphore `n` changed. -/
def withSem (n : Nat) (f : Sem → Sem) (k : Core) : Core := { k with sems := SMap.modify {} k.sems n f }

section
variable {s : State} {c e p m n : Nat} {y : Tile} (hm : s.boot.mode = .service) (hn : semOf s ⟨c, e, p⟩ m = some (n, y))
include hn

theorem modSem_of_sem (f : Tile → Sem → Sem) : modSem c e p m f s = modCore c (withSem n (f y)) s := by
  unfold modSem
  rw [hn]
  rfl

include hm

/-- A row that changes the semaphore of a tile changes nothing else. -/
theorem modSem_changes (f : Tile → Sem → Sem) : ∃ t, whenServing (modSem c e p m f) s = .next t ∧ CoresOnly s t ∧ OtherCores s t c
    ∧ getCore t c = { getCore s c with sems := (getCore t c).sems }
    ∧ (∀ k, k ≠ n → SMap.find {} (getCore t c).sems k = SMap.find {} (getCore s c).sems k)
    ∧ SMap.find {} (getCore t c).sems n = f y (SMap.find {} (getCore s c).sems n) := by
  refine ⟨_, whenServing_coresOnly hm (modSem_of_sem hn f) (coresOnly_modCore ..), coresOnly_modCore c _ s, otherCores_modCore c _ s, ?_, ?_, ?_⟩
  · rw [getCore_modCore_self]
    rfl
  · intro k hk
    rw [getCore_modCore_self]
    exact SMap.find_modify_other _ _ _ _ hk
  · rw [getCore_modCore_self]
    exact SMap.find_modify_self ..

/-- A hold past its limit ends the command of the holder. -/
theorem semTimeout_held {j : Job} (hh : (SMap.find {} (getCore s c).sems n).holder = some (y.job, y.index))
    (hj : jobOf (getCore s c) y.job = some j) (hs : Serving s j) :
    exec (.semaphoreHoldTimeout c e p m) s = .next (fenced (fun _ => finish j.trs j.id stSemTimeout 0 s) s) := by
  refine (whenServing_service (semTimeout c e p m) hm).trans (congrArg Host.Outcome.next (fenced_congr ?_))
  unfold semTimeout
  rw [hn]
  dsimp only
  rw [if_pos hh, hj]
  exact endJobCommand_of_serving hs (by decide)

omit hm in
theorem semTimeout_idle (hh : (SMap.find {} (getCore s c).sems n).holder ≠ some (y.job, y.index)) : semTimeout c e p m s = s := by
  unfold semTimeout
  rw [hn]
  exact if_neg hh
end

/-- Settles O40: acquire and release change one semaphore (`modSem_changes`); a hold past its limit is an ordinary ending of the holder's
command. -/
theorem semaphoresGrantInOrder : Obligations.SemaphoresGrantInOrder := by
  intro s c e p m n y x hm hn hx
  subst hx
  refine ⟨?_, ?_, fun j hh hj hs => ?_, fun hh => whenServing_of_eq (semTimeout_idle hn hh)⟩
  · obtain ⟨t, ht, hcores, hother, hcore, hsems, hsem⟩ := modSem_changes hm hn acquireSem
    refine ⟨t, ht, hcores, hother, hcore, hsems, fun hfree => hsem.trans ?_, fun hheld => hsem.trans ?_⟩
    · exact if_pos (by simp [hfree])
    · exact if_neg (by simpa using hheld)
  · obtain ⟨t, ht, hcores, hother, hcore, hsems, hsem⟩ := modSem_changes hm hn releaseSem
    exact ⟨t, ht, hcores, hother, hcore, hsems, fun hh => hsem.trans (if_pos hh), fun hh => hsem.trans (if_neg hh)⟩
  · exact ⟨_, semTimeout_held hm hn hh hj hs, reported_fenced rfl (hs.reported stSemTimeout 0),
      otherPages_of_trs_eq (fenced_trs ..) (otherPages_finish _ _ _ _ s), hs.finish_fl stSemTimeout 0, finish_tun ..⟩

end Sys2Proof.Machine

/-! PROOFS. What the operations of a tile can change: its core, its engine, the stack DRAM counts, and room made for scratch (07 R205 to R214,
R225; 01 R19, R30). -/
namespace Sys2Proof.Machine

/-! ### Work on a core -/

section
variable {s t : State} {c : Nat} (h : Worked s t c)
include h

theorem Worked.fabric : t = { s with core := t.core, trs := t.trs, tier := t.tier, tele := t.tele } := by
  obtain ⟨-, -, hrest⟩ := h
  rw [hrest]

theorem Worked.modCore (f : Core → Core) : Worked s (modCore c f t) c := by
  obtain ⟨hcores, hpages, hrest⟩ := h
  refine ⟨hcores.trans (otherCores_modCore c f t), fun q => ?_, ?_⟩
  · rw [getTrs_of_trs_eq (t := Machine.modCore c f t) (s := t) rfl]
    exact hpages q
  · generalize hu : Machine.modCore c f t = u
    have hrest' : u = { t with core := { t.core with cores := u.core.cores } } := by rw [← hu]; rfl
    rw [hrest', hrest]
end

/-! ### Work of tiles on an engine -/

/-- The tile of a partition and the start of its scratchpad extent. -/
def Part.seated (g : Part) : Option Tile × Nat := (g.tile, g.base)

/-- Work of the tiles of engine `e` of core `c`: that engine's partitions, without their tiles and extents, and scratchpad, the memories of the
core, DRAM counts of pages, tier pages and counters change at most. -/
structure TileWork (c e : Nat) (s t : State) : Prop where
  cores : OtherCores s t c
  core : ∃ es m b m' b', getCore t c
    = { getCore s c with engines := es, sram := m, badSram := b, scratch := m', badScratch := b' }
  engines : OtherEngines s t c e
  engine : ∃ ps m b, getEngine t c e = { getEngine s c e with parts := ps, scratchpad := m, bad := b }
    ∧ ps.map Part.seated = (getEngine s c e).parts.map Part.seated
  pages : ∀ q, getTrs t q = { getTrs s q with current := { (getTrs s q).current with dram := (getTrs t q).current.dram } }
  rest : ∃ cs m x k, t = { s with core := { s.core with cores := cs }, trs := m, tier := x, tele := { s.tele with counters := k } }

theorem TileWork.refl (c e : Nat) (s : State) : TileWork c e s s :=
  ⟨OtherCores.refl s c, ⟨_, _, _, _, _, rfl⟩, fun _ _ _ => rfl, ⟨_, _, _, rfl, rfl⟩, fun _ => rfl, _, _, _, _, rfl⟩

theorem TileWork.trans {c e : Nat} {s t u : State} (h : TileWork c e s t) (g : TileWork c e t u) : TileWork c e s u := by
  obtain ⟨hcores, ⟨es, m, b, m', b', hcore⟩, hengines, ⟨ps, sp, bad, hengine, hseats⟩, hpages, cs, tr, x, k, hrest⟩ := h
  obtain ⟨gcores, ⟨fs, n, a, n', a', gcore⟩, gengines, ⟨qs, tp, gad, gengine, gseats⟩, gpages, ds, ts, y, l, grest⟩ := g
  refine ⟨hcores.trans gcores, ⟨fs, n, a, n', a', by rw [gcore, hcore]⟩, hengines.trans gengines,
    ⟨qs, tp, gad, by rw [gengine, hengine], ?_⟩, fun q => ?_, ds, ts, y, l, by rw [grest, hrest]⟩
  · rw [gseats, hengine, ← hseats]
  · rw [gpages q, hpages q]

theorem TileWork.foldl {α : Type} {c e : Nat} {f : State → α → State} (hf : ∀ s a, TileWork c e s (f s a)) (l : List α) (s : State) :
    TileWork c e s (l.foldl f s) :=
  List.foldlRecOn l f (motive := TileWork c e s) (TileWork.refl c e s) fun t ht a _ => ht.trans (hf t a)

section
variable {c e : Nat} {s t : State} (h : TileWork c e s t)
include h

theorem TileWork.worked : Worked s t c := by
  obtain ⟨hcores, -, -, -, hpages, cs, m, x, k, rfl⟩ := h
  exact ⟨hcores, hpages, rfl⟩

theorem TileWork.fabric : t = { s with core := t.core, trs := t.trs, tier := t.tier, tele := t.tele } := h.worked.fabric

theorem TileWork.seated : (getEngine t c e).parts.map Part.seated = (getEngine s c e).parts.map Part.seated := by
  obtain ⟨-, -, -, ⟨ps, m, b, hengine, hseats⟩, -⟩ := h
  rw [hengine]
  exact hseats

theorem TileWork.running : running (getEngine t c e) = running (getEngine s c e) := by
  have htiles (l : List Part) : l.filterMap (fun p => p.tile) = (l.map Part.seated).filterMap Prod.fst := by
    rw [List.filterMap_map]
    rfl
  unfold Machine.running
  rw [htiles, htiles, h.seated]

theorem TileWork.partAt_seated (p : Nat) : (partAt t ⟨c, e, p⟩).seated = (partAt s ⟨c, e, p⟩).seated := by
  have hget (l : List Part) : (l.getD p {}).seated = (l.map Part.seated).getD p (none, 0) := by
    rw [List.getD_eq_getElem?_getD, List.getD_eq_getElem?_getD, List.getElem?_map]
    cases l[p]? <;> rfl
  unfold partAt
  rw [hget, hget, h.seated]

theorem TileWork.tile (p : Nat) : (partAt t ⟨c, e, p⟩).tile = (partAt s ⟨c, e, p⟩).tile := congrArg Prod.fst (h.partAt_seated p)

theorem TileWork.coreKeeps : (getCore t c).ready = (getCore s c).ready ∧ (getCore t c).jobs = (getCore s c).jobs
    ∧ (getCore t c).sems = (getCore s c).sems ∧ (getCore t c).saves = (getCore s c).saves := by
  obtain ⟨-, ⟨es, m, b, m', b', hcore⟩, -⟩ := h
  rw [hcore]
  exact ⟨rfl, rfl, rfl, rfl⟩

theorem TileWork.heldOf (p id : Nat) : heldOf t p id = heldOf s p id := heldOf_of_held_eq (by rw [h.pages p]) id

theorem TileWork.outbox : t.outbox = s.outbox := by rw [h.fabric]

theorem TileWork.tun : t.tun = s.tun := by rw [h.fabric]

theorem TileWork.eventSeq : t.tele.eventSeq = s.tele.eventSeq := by
  obtain ⟨-, -, -, -, -, cs, m, x, k, rfl⟩ := h
  rfl
end

/-! ### Changes of a core and of an engine -/

theorem tileWork_modCore (c e : Nat) {f : Core → Core} {s : State} (hf : ∃ m b m' b', f (getCore s c)
    = { getCore s c with sram := m, badSram := b, scratch := m', badScratch := b' }) : TileWork c e s (modCore c f s) := by
  obtain ⟨m, b, m', b', hf⟩ := hf
  refine ⟨otherCores_modCore c _ s, ⟨_, m, b, m', b', by rw [getCore_modCore_self, hf]⟩, otherEngines_modCore c e fun d _ => by rw [hf],
    ⟨_, (getEngine s c e).scratchpad, (getEngine s c e).bad, ?_, rfl⟩, fun _ => rfl, _, _, _, _, rfl⟩
  rw [getEngine_modCore_self, hf]
  rfl

theorem tileWork_modEngine (c e : Nat) {f : Engine → Engine} {s : State} (hf : ∃ ps m b, f (getEngine s c e)
      = { getEngine s c e with parts := ps, scratchpad := m, bad := b } ∧ ps.map Part.seated = (getEngine s c e).parts.map Part.seated) :
    TileWork c e s (modCore c (modEngine e f) s) := by
  obtain ⟨ps, m, b, hf, hps⟩ := hf
  refine ⟨otherCores_modCore c _ s, ⟨(modEngine e f (getCore s c)).engines, _, _, _, _, by rw [getCore_modCore_self]; rfl⟩,
    otherEngines_modEngine c e f s, ⟨ps, m, b, ?_, hps⟩, fun _ => rfl, _, _, _, _, rfl⟩
  rw [getEngine_modCore_self, engine_modEngine_self]
  exact hf

theorem map_seated_modify (l : List Part) (p : Nat) {f : Part → Part} (hf : ∀ g, (f g).seated = g.seated) :
    (l.modify p f).map Part.seated = l.map Part.seated := by
  refine List.ext_getElem? fun i => ?_
  rw [List.getElem?_map, List.getElem?_map, List.getElem?_modify]
  split
  · cases l[i]? with
    | none => rfl
    | some g => exact congrArg some (hf g)
  · rw [id_map']

/-- What a partition holds of its engine changes, its tile and extent stay. -/
theorem tileWork_modPart (q : Seat) {f : Part → Part} (hf : ∀ g, (f g).seated = g.seated) (s : State) :
    TileWork q.core q.eng s (modPart q f s) :=
  tileWork_modEngine q.core q.eng ⟨_, _, _, rfl, map_seated_modify _ _ hf⟩

/-! ### Memories (01 R19) -/

theorem tileWork_addDram (c e p n : Nat) (s : State) :
    TileWork c e s (addCurrent p (fun k => { k with dram := k.dram + BitVec.ofNat 64 n }) s) := by
  refine ⟨OtherCores.refl s c, ⟨_, _, _, _, _, rfl⟩, fun _ _ _ => rfl, ⟨_, _, _, rfl, rfl⟩, fun q => ?_, _, _, _, _, rfl⟩
  by_cases hq : q = p
  · subst hq
    rw [getTrs_addCurrent_self]
  · rw [otherPages_addCurrent p _ s q hq]

theorem tileWork_countDram (q : Seat) (n : Nat) (a : Place) (s : State) : TileWork q.core q.eng s (countDram q n a s) := by
  unfold countDram
  split
  · split
    · exact TileWork.refl ..
    · exact tileWork_addDram ..
  · split
    · exact TileWork.refl ..
    · exact tileWork_addDram ..
  · exact TileWork.refl ..

theorem tileWork_writePlace (q : Seat) (bytes : List Byte) (poison : Bool) (dst : Place) (s : State) :
    TileWork q.core q.eng s (writePlace q bytes poison dst s) := by
  have hnote (u : State) (h : TileWork q.core q.eng s u) : TileWork q.core q.eng s
      (modPart q (fun (p : Part) => { p with wrote := dedup (p.wrote ++ placeLines bytes.length dst) }) u) :=
    h.trans (tileWork_modPart q (by exact fun _ => rfl) u)
  unfold writePlace
  dsimp only
  split
  · split
    · exact hnote _ (tileWork_modEngine _ _ ⟨_, _, _, rfl, rfl⟩)
    · exact TileWork.refl ..
  · split
    · exact TileWork.refl ..
    · split
      · exact hnote _ (tileWork_modCore _ _ ⟨_, _, _, _, rfl⟩)
      · exact TileWork.refl ..
  · split
    · exact TileWork.refl ..
    · split
      · exact (hnote _ (tileWork_modCore _ _ ⟨_, _, _, _, rfl⟩)).trans (tileWork_countDram ..)
      · exact TileWork.refl ..
  · exact TileWork.refl ..

theorem tileWork_sawPoison (q : Seat) (poison : Bool) (s : State) : TileWork q.core q.eng s (sawPoison q poison s) := by
  unfold sawPoison
  split
  · exact tileWork_modPart q (by exact fun _ => rfl) s
  · exact TileWork.refl ..

theorem tileWork_withScratch (q : Seat) (a n : Nat) {f : List Byte → State → State} (hf : ∀ bytes s, TileWork q.core q.eng s (f bytes s))
    (s : State) : TileWork q.core q.eng s (withScratch q a n f s) := by
  unfold withScratch
  split
  · exact TileWork.refl ..
  · exact (tileWork_sawPoison ..).trans (hf ..)

/-! ### Transfers (07 R205, R232, R238) -/

theorem tileWork_completeMove (q : Seat) (x : Transfer) (s : State) : TileWork q.core q.eng s (completeMove q x s) := by
  unfold completeMove
  split
  · exact TileWork.refl ..
  · exact ((tileWork_countDram ..).trans (tileWork_sawPoison ..)).trans (tileWork_writePlace ..)

theorem tileWork_drainPart (q : Seat) (s : State) : TileWork q.core q.eng s (drainPart q s) :=
  (tileWork_modPart q (by exact fun _ => rfl) s).trans (TileWork.foldl (fun s' x => tileWork_completeMove q x s') _ _)

theorem tileWork_drainEngine (c e : Nat) (s : State) : TileWork c e s (drainEngine c e s) :=
  TileWork.foldl (fun s' i => tileWork_drainPart ⟨c, e, i⟩ s') _ s

theorem tileWork_startMove (q : Seat) (x : Transfer) (s : State) : TileWork q.core q.eng s (startMove q x s) := by
  unfold startMove
  dsimp only
  split
  · exact tileWork_modPart q (by exact fun _ => rfl) s
  · exact (tileWork_drainEngine ..).trans (tileWork_modPart q (by exact fun _ => rfl) _)

theorem tileWork_moveBytes (q : Seat) (src dst : Place) (n : Nat) (s : State) : TileWork q.core q.eng s (moveBytes q src dst n s) :=
  TileWork.foldl (fun s' _ => tileWork_startMove q _ s') _ s

/-! ### Room for scratch (10 R293, R303) -/

theorem tileWork_tier (c e : Nat) {s t : State} (h : ∃ x k, t = { s with tier := x, tele := { s.tele with counters := k } }) :
    TileWork c e s t := by
  obtain ⟨x, k, rfl⟩ := h
  exact ⟨OtherCores.refl s c, ⟨_, _, _, _, _, rfl⟩, fun _ _ _ => rfl, ⟨_, _, _, rfl, rfl⟩, fun _ => rfl, _, _, x, k, rfl⟩

theorem tileWork_demotePage (c e k : Nat) (evict : Bool) (s : State) : TileWork c e s (demotePage k evict s) := by
  refine tileWork_tier c e ?_
  unfold demotePage
  split
  · exact ⟨_, _, rfl⟩
  · split
    · dsimp only
      split <;> split <;> exact ⟨_, _, rfl⟩
    · exact ⟨_, _, rfl⟩

theorem tileWork_evictUntil (c e : Nat) (enough : State → Bool) (st : Nat) (chs : List Nat) (n : Nat) (s : State) :
    TileWork c e s (evictUntil enough st chs n s) := by
  induction n generalizing s with
  | zero => exact TileWork.refl ..
  | succ n ih =>
    unfold evictUntil
    split
    · exact TileWork.refl ..
    · split
      · exact TileWork.refl ..
      · exact (tileWork_demotePage ..).trans (ih _)

theorem tileWork_placeFrame (c e st tenant n : Nat) (s : State) : TileWork c e s (placeFrame st tenant n s).1 := by
  unfold placeFrame
  split
  · exact TileWork.refl ..
  · dsimp only
    split
    · exact TileWork.refl ..
    · unfold makeRoom
      split
      · exact tileWork_evictUntil ..
      · exact TileWork.refl ..

theorem tileWork_claimPage (q : Seat) (s : State) : TileWork q.core q.eng s (claimPage q s) := by
  unfold claimPage
  split
  · exact TileWork.refl ..
  · dsimp only
    split
    · exact TileWork.refl ..
    · exact (tileWork_placeFrame ..).trans (tileWork_tier _ _ ⟨_, _, rfl⟩)

/-! ### The array and the accumulator file (07 R206 to R213) -/

theorem seated_loadSet (shape fmt : Nat) (m : ArrayMode) (bytes scales : List Byte) (g : Part) :
    (loadSet shape fmt m bytes scales g).seated = g.seated := by
  unfold loadSet
  dsimp only
  split <;> rfl

theorem seated_completeWrite (g : Part) (w : AccWrite) : (completeWrite g w).seated = g.seated := by
  unfold completeWrite
  split <;> rfl

theorem seated_completeWrites (ws : List AccWrite) (g : Part) : (ws.foldl completeWrite g).seated = g.seated :=
  List.foldlRecOn ws completeWrite (motive := fun h => h.seated = g.seated) rfl fun h hh w _ => (seated_completeWrite h w).trans hh

theorem seated_settleEntry (entry : Nat) (g : Part) : (settleEntry entry g).seated = g.seated := seated_completeWrites _ g

theorem seated_settleAll (g : Part) : (settleAll g).seated = g.seated := seated_completeWrites _ g

theorem seated_setEntry (entry : Nat) (ws : List (BitVec 32)) (g : Part) : (setEntry entry ws g).seated = g.seated := seated_settleEntry entry g

theorem seated_setLanes (reg : Nat) (ws : List (BitVec 32)) (g : Part) : (setLanes reg ws g).seated = g.seated := by
  unfold setLanes
  split <;> rfl

theorem seated_lastIssue (g : Part) : (lastIssue g).seated = g.seated := by
  unfold lastIssue
  split <;> rfl

theorem seated_addOut (o : OutRun) (g : Part) : (addOut o g).seated = g.seated := by
  unfold addOut
  dsimp only
  split <;> rfl

theorem tileWork_reloadNow (q : Seat) (a scales fmt : Nat) (s : State) : TileWork q.core q.eng s (reloadNow q a scales fmt s) := by
  unfold reloadNow
  dsimp only
  split
  · exact TileWork.refl ..
  · split
    · exact tileWork_withScratch q _ _ (fun bytes s1 => tileWork_withScratch q _ _ (fun sc s2 =>
        tileWork_modPart q (seated_loadSet _ _ _ bytes sc) s2) s1) s
    · exact TileWork.refl ..

theorem tileWork_reload (q : Seat) (a scales fmt : Nat) (s : State) : TileWork q.core q.eng s (reload q a scales fmt s) := by
  unfold reload
  split
  · exact tileWork_modPart q (by exact fun _ => rfl) s
  · exact tileWork_reloadNow ..

theorem tileWork_issue (q : Seat) (a scales fmt entry width : Nat) (sat : Bool) (s : State) :
    TileWork q.core q.eng s (issue q a scales fmt entry width sat s) := by
  unfold issue
  dsimp only
  split
  · exact TileWork.refl ..
  · split
    · exact tileWork_withScratch q _ _ (fun _ s1 => tileWork_withScratch q _ _ (fun _ s2 => tileWork_modPart q (by exact fun _ => rfl) s2) s1) s
    · exact TileWork.refl ..

theorem tileWork_swapSets (q : Seat) (s : State) : TileWork q.core q.eng s (swapSets q s) := by
  have hswap : TileWork q.core q.eng s (modPart q (fun (p : Part) => { p with
      working := p.shadow, shadowReady := false, token := false, passRunning := true, queued := p.queued.drop 1 }) s) :=
    tileWork_modPart q (by exact fun _ => rfl) s
  unfold swapSets
  dsimp only
  split
  · split
    · exact hswap
    · exact hswap.trans (tileWork_reloadNow ..)
  · exact TileWork.refl ..

/-! ### Outputs (08 R252, R255, 09 R274) -/

theorem tileWork_release (q : Seat) (bytes : List Byte) (dst : Place) (o : OutRun) (s : State) :
    TileWork q.core q.eng s (release q bytes dst o s) := (tileWork_writePlace ..).trans (tileWork_modPart q (seated_addOut o) _)

theorem tileWork_outFloat (q : Seat) (w : Option WatchTag) (fmt reg n : Nat) (dst : Place) (s : State) :
    TileWork q.core q.eng s (outFloat q w fmt reg n dst s) := by
  unfold outFloat
  dsimp only
  split
  · exact tileWork_release ..
  · exact TileWork.refl ..

theorem tileWork_outMx (q : Seat) (w : Option WatchTag) (fmt reg n : Nat) (dst scales : Place) (s : State) :
    TileWork q.core q.eng s (outMx q w fmt reg n dst scales s) := by
  unfold outMx
  dsimp only
  split
  · exact (tileWork_writePlace ..).trans (tileWork_release ..)
  · exact TileWork.refl ..

theorem tileWork_outInt (q : Seat) (w : Option WatchTag) (tensor reg n : Nat) (dst : Place) (s : State) :
    TileWork q.core q.eng s (outInt q w tensor reg n dst s) := by
  unfold outInt
  split
  · exact TileWork.refl ..
  · dsimp only
    split
    · exact tileWork_release ..
    · exact TileWork.refl ..

/-! ### One operation, and a run of them -/

theorem seated_lateScale (s : State) (q : Seat) (x : FnSlot) (reg entry weight act row sum : Nat) (g : Part) :
    (lateScale s q x reg entry weight act row sum g).seated = g.seated := (seated_setLanes ..).trans (seated_settleEntry ..)

theorem seated_groupStage (s : State) (q : Seat) (x : FnSlot) (acc entry weight act row sum : Nat) (g : Part) :
    (groupStage s q x acc entry weight act row sum g).seated = g.seated := (seated_setEntry ..).trans (seated_settleEntry ..)

/-- An operation of a tile keeps to its core, its engine, DRAM counts and room for scratch. -/
theorem tileWork_engineOp (q : Seat) (s : State) (op : EngOp) : TileWork q.core q.eng s (engineOp q s op) := by
  cases op with
  | move src dst n => exact tileWork_moveBytes ..
  | await => exact tileWork_drainPart ..
  | claim => exact tileWork_claimPage ..
  | reload a scales fmt => exact tileWork_reload ..
  | issue a scales fmt entry width sat => exact tileWork_issue ..
  | lastIssue => exact tileWork_modPart q seated_lastIssue s
  | preload entry weight act row group =>
    dsimp only [engineOp]
    split
    · exact TileWork.refl ..
    · exact tileWork_modPart q (fun g => seated_setEntry ..) s
  | readAcc reg entry => exact tileWork_modPart q (fun g => (seated_setLanes ..).trans (seated_settleEntry ..)) s
  | writeAcc entry reg => exact tileWork_modPart q (fun g => seated_setEntry ..) s
  | late reg entry weight act row sum =>
    dsimp only [engineOp]
    split
    · split
      · exact TileWork.refl ..
      · exact tileWork_modPart q (fun _ => seated_lateScale ..) s
    · exact TileWork.refl ..
  | groupScale acc entry weight act row sum =>
    dsimp only [engineOp]
    split
    · split
      · exact tileWork_modPart q (fun _ => seated_groupStage ..) s
      · exact TileWork.refl ..
    · exact TileWork.refl ..
  | inputSum reg a fmt n =>
    dsimp only [engineOp]
    refine tileWork_withScratch q _ _ (fun bytes s1 => ?_) s
    exact tileWork_modPart q (fun _ => seated_setLanes ..) s1
  | load reg a bits n =>
    dsimp only [engineOp]
    refine tileWork_withScratch q _ _ (fun bytes s1 => ?_) s
    exact tileWork_modPart q (fun _ => seated_setLanes ..) s1
  | store reg a bits n =>
    dsimp only [engineOp]
    exact tileWork_writePlace ..
  | float op d fmt dst a b c => exact tileWork_modPart q (fun g => seated_setLanes ..) s
  | compare fmt dst a b rel => exact tileWork_modPart q (fun g => seated_setLanes ..) s
  | int op sat dst a b => exact tileWork_modPart q (fun g => seated_setLanes ..) s
  | approx f dst a => exact tileWork_modPart q (fun g => seated_setLanes ..) s
  | convert d sat src dstFmt dst a => exact tileWork_modPart q (fun g => seated_setLanes ..) s
  | outFloat w fmt reg n dst => exact tileWork_outFloat ..
  | outMx w fmt reg n dst scales => exact tileWork_outMx ..
  | outInt w tensor reg n dst => exact tileWork_outInt ..

theorem tileWork_runOps (q : Seat) (ops : List EngOp) (s : State) : TileWork q.core q.eng s (runOps q ops s) := by
  unfold runOps
  split
  · exact TileWork.foldl (fun s' op => tileWork_engineOp q s' op) ops s
  · exact TileWork.refl ..

theorem runOps_nil (q : Seat) (s : State) : runOps q [] s = s := ite_self s

theorem tileWork_closeTile (q : Seat) (ops : List EngOp) (s : State) : TileWork q.core q.eng s (closeTile q ops s) :=
  ((tileWork_runOps ..).trans (tileWork_drainPart ..)).trans (tileWork_modPart q seated_settleAll _)

end Sys2Proof.Machine

/-! PROOFS. Pre-emption, engine-level saves and stopped engines (07 R226, R231, R233, 15 R447). -/
namespace Sys2Proof.Machine

/-! ### Pre-emption -/

/-- Counting changes the counters alone. -/
theorem foldl_bump_eq {α : Type} (kind n : Nat) (inst : α → Nat) (l : List α) (s : State) :
    ∃ k, l.foldl (fun s' a => bump kind (inst a) n s') s = { s with tele := { s.tele with counters := k } } :=
  List.foldlRecOn l _ (motive := fun t => ∃ k, t = { s with tele := { s.tele with counters := k } }) ⟨_, rfl⟩
    fun _ ⟨_, ht⟩ _ _ => ⟨_, by rw [ht]; rfl⟩

/-- An engine marked for an engine-level switch. -/
def Engine.marked (g : Engine) : Engine := { g with preempt := true }

theorem escalate_outranked {s : State} {c e : Nat} (ho : outranked (getCore s c) (getEngine s c e) = true)
    (hp : (getEngine s c e).preempt = false) : ∃ k, escalate c e s
      = { modCore c (modEngine e Engine.marked) s with tele := { s.tele with counters := k } } := by
  obtain ⟨k, hk⟩ := foldl_bump_eq 0x70 1 (fun n => 3 * n + 1) (dedup ((running (getEngine s c e)).filterMap
    (fun x => (jobOf (getCore s c) x.job).map (fun j => j.slot)))) (modCore c (modEngine e Engine.marked) s)
  refine ⟨k, ?_⟩
  unfold escalate
  dsimp only
  rw [if_pos (by simp [ho, hp])]
  exact hk

theorem escalate_idle {s : State} {c e : Nat} (h : outranked (getCore s c) (getEngine s c e) = false ∨ (getEngine s c e).preempt = true) :
    escalate c e s = s := by
  unfold escalate
  dsimp only
  exact if_neg (by rcases h with h | h <;> simp [h])

/-! ### Engine-level saves -/

/-- The live extents do not depend on writes under way. -/
theorem live_map_settleAll (ps : List Part) (P : Option Tile → Nat → Bool) :
    (ps.map settleAll).any (fun p => P p.tile p.base) = ps.any (fun p => P p.tile p.base) := by
  rw [List.any_map]
  refine congrArg (List.any ps) (funext fun p => ?_)
  have hp := seated_settleAll p
  exact congrArg₂ P (congrArg Prod.fst hp) (congrArg Prod.snd hp)

theorem running_map_settleAll (ps : List Part) : (ps.map settleAll).filterMap (fun p => p.tile) = ps.filterMap (fun p => p.tile) := by
  rw [List.filterMap_map]
  exact List.filterMap_congr fun p _ => congrArg Prod.fst (seated_settleAll p)

/-- An engine with every write made. -/
def Engine.settled (g : Engine) : Engine := { g with parts := g.parts.map settleAll }

theorem liveBytes_settled (g : Engine) : liveBytes g.settled = liveBytes g :=
  congrArg (List.filter · g.scratchpad) (funext fun e => live_map_settleAll g.parts
    (fun t b => (t.map (fun (x : Tile) => decide (b ≤ e.1 ∧ e.1 < b + x.live))).getD false))

theorem liveBad_settled (g : Engine) : liveBad g.settled = liveBad g :=
  congrArg (List.filter · g.bad) (funext fun e => live_map_settleAll g.parts
    (fun t b => (t.map (fun (x : Tile) => decide (b ≤ 64 * e.1 + 63 ∧ 64 * e.1 < b + x.live))).getD false))

theorem running_settled (g : Engine) : running g.settled = running g := running_map_settleAll g.parts

theorem engineSave_held {s : State} {c e : Nat} (h : holdsSem (getCore s c) e = true) :
    engineSave c e s = modCore c (modEngine e Engine.marked) s := by
  unfold engineSave
  exact if_pos h

/-- The core after its engine's work is saved. -/
def saved (e : Nat) (k : Core) : Core := saveWork e (modEngine e Engine.settled k)

theorem engineSave_free {s : State} {c e : Nat} (h : holdsSem (getCore s c) e = false) :
    engineSave c e s = modCore c (saved e) (drainEngine c e s) := by
  unfold engineSave
  rw [if_neg (by simp [h]), modCore_modCore]
  rfl

theorem saved_engines_other {e d : Nat} (h : d ≠ e) (k : Core) : SMap.find {} (saved e k).engines d = SMap.find {} k.engines d :=
  (engine_modEngine_other h _ _).trans (engine_modEngine_other h _ k)

theorem saved_engine (e : Nat) (k : Core) : SMap.find {} (saved e k).engines e = { SMap.find {} k.engines e with
    preempt := false, parts := ((SMap.find {} k.engines e).parts.map settleAll).map clearPart } := by
  refine (engine_modEngine_self e _ _).trans ?_
  rw [show SMap.find {} ({ modEngine e Engine.settled k with saves := _ } : Core).engines e = (SMap.find {} k.engines e).settled from
    engine_modEngine_self e _ k]
  rfl

theorem saved_saves (e : Nat) (k : Core) : (saved e k).saves = k.saves ++ (if running (SMap.find {} k.engines e) = [] then []
    else [⟨e, (SMap.find {} k.engines e).parts.map settleAll, liveBytes (SMap.find {} k.engines e), liveBad (SMap.find {} k.engines e)⟩]) := by
  have hg : SMap.find {} (modEngine e Engine.settled k).engines e = (SMap.find {} k.engines e).settled := engine_modEngine_self e _ k
  show (if (running (SMap.find {} (modEngine e Engine.settled k).engines e)).isEmpty then k.saves else k.saves ++ [_]) = _
  rw [hg, running_settled, liveBytes_settled, liveBad_settled]
  by_cases hr : running (SMap.find {} k.engines e) = []
  · rw [if_pos (List.isEmpty_iff.2 hr), if_pos hr, List.append_nil]
  · rw [if_neg fun he => hr (List.isEmpty_iff.1 he), if_neg hr]
    rfl

theorem engine_saved {s u : State} {c e : Nat} (hm : s.boot.mode = .service) (hs : holdsSem (getCore s c) e = false)
    (hu : drainEngine c e s = u) : ∃ t, exec (.engineLevelSave c e) s = .next t ∧ Worked s t c ∧ OtherEngines s t c e
      ∧ getEngine t c e = { getEngine u c e with preempt := false, parts := ((getEngine u c e).parts.map settleAll).map clearPart }
      ∧ (getCore t c).saves = (getCore s c).saves ++ (if running (getEngine u c e) = [] then []
          else [⟨e, (getEngine u c e).parts.map settleAll, liveBytes (getEngine u c e), liveBad (getEngine u c e)⟩])
      ∧ (getCore t c).ready = (getCore s c).ready ∧ (getCore t c).jobs = (getCore s c).jobs := by
  have hsave := engineSave_free hs
  have hdrain := tileWork_drainEngine c e s
  rw [hu] at hsave hdrain
  obtain ⟨hready, hjobs, -, hsaves⟩ := hdrain.coreKeeps
  have hworked := hdrain.worked.modCore (saved e)
  refine ⟨_, whenServing_fabric hm hsave hworked.fabric, hworked,
    hdrain.engines.trans (otherEngines_modCore c e fun d hd => saved_engines_other hd _), ?_, ?_, ?_, ?_⟩
  · rw [getEngine_modCore_self]
    exact saved_engine ..
  · rw [getCore_modCore_self, saved_saves, hsaves]
    rfl
  · rw [getCore_modCore_self]
    exact hready
  · rw [getCore_modCore_self]
    exact hjobs

/-! ### Stopped engines -/

/-- A stopped engine. -/
def Engine.halted (g : Engine) : Engine := { g with stopped := true }

theorem idleStop_idle {s : State} {c e : Nat} (h : running (getEngine s c e) = []) :
    idleStop c e s = modCore c (modEngine e Engine.halted) s := if_pos (List.isEmpty_iff.2 h)

theorem idleStop_busy {s : State} {c e : Nat} (h : running (getEngine s c e) ≠ []) : idleStop c e s = s :=
  if_neg fun he => h (List.isEmpty_iff.1 he)

/-- A row that changes one engine. -/
theorem engine_changed {f : State → State} {s : State} {c e : Nat} {φ : Engine → Engine} (hm : s.boot.mode = .service)
    (h : f s = modCore c (modEngine e φ) s) : ∃ t, whenServing f s = .next t ∧ CoresOnly s t ∧ OtherEngines s t c e ∧ OtherCores s t c
      ∧ getEngine t c e = φ (getEngine s c e) :=
  ⟨_, whenServing_coresOnly hm h (coresOnly_modCore c _ s), coresOnly_modCore c _ s, otherEngines_modEngine c e φ s, otherCores_modCore c _ s,
    (getEngine_modCore_self ..).trans (engine_modEngine_self ..)⟩

/-- Settles O41: a mark and a stop change one engine (`engine_changed`); the save drains the engine (`tileWork_drainEngine`) and moves what it
holds to the save area (`saved`). -/
theorem enginesArePreemptedSavedAndStopped : Obligations.EnginesArePreemptedSavedAndStopped := by
  intro s c e hm
  refine ⟨fun ho hp => ?_, fun h => whenServing_of_eq (escalate_idle h), fun h => engine_changed hm (engineSave_held h),
    fun h g hg => hg ▸ engine_saved hm h rfl, fun h => engine_changed hm (idleStop_idle h), fun h => whenServing_of_eq (idleStop_busy h)⟩
  obtain ⟨k, hk⟩ := escalate_outranked ho hp
  exact ⟨_, whenServing_fabric hm hk rfl, (getEngine_modCore_self ..).trans (engine_modEngine_self ..), otherEngines_modEngine c e _ s,
    otherCores_modCore c _ s, rfl⟩

end Sys2Proof.Machine

/-! PROOFS. Poisoned output lines, and that the ending of a command leaves them poisoned (07 R220, R223). -/
namespace Sys2Proof.Machine

/-! ### Poisoned lines stay -/

/-- Every poisoned line of a scratchpad and of core SRAM stays poisoned. -/
structure MarksGrow (s t : State) : Prop where
  engine : ∀ c e k, SMap.find false (getEngine s c e).bad k = true → SMap.find false (getEngine t c e).bad k = true
  core : ∀ c k, SMap.find false (getCore s c).badSram k = true → SMap.find false (getCore t c).badSram k = true

theorem MarksGrow.refl (s : State) : MarksGrow s s := ⟨fun _ _ _ h => h, fun _ _ h => h⟩

theorem MarksGrow.trans {s t u : State} (h : MarksGrow s t) (g : MarksGrow t u) : MarksGrow s u :=
  ⟨fun c e k hk => g.engine c e k (h.engine c e k hk), fun c k hk => g.core c k (h.core c k hk)⟩

theorem MarksGrow.of_core_eq {s t : State} (h : t.core = s.core) : MarksGrow s t :=
  ⟨fun c e k hk => by rwa [getEngine_of_core_eq h], fun c k hk => by rwa [getCore_of_core_eq h]⟩

theorem MarksGrow.foldl {α : Type} {f : State → α → State} (hf : ∀ s a, MarksGrow s (f s a)) (l : List α) (s : State) :
    MarksGrow s (l.foldl f s) :=
  List.foldlRecOn l f (motive := MarksGrow s) (MarksGrow.refl s) fun t ht a _ => ht.trans (hf t a)

theorem marksGrow_modCore (c : Nat) {f : Core → Core} {s : State}
    (hengine : ∀ e k, SMap.find false (SMap.find {} (getCore s c).engines e).bad k = true →
      SMap.find false (SMap.find {} (f (getCore s c)).engines e).bad k = true)
    (hcore : ∀ k, SMap.find false (getCore s c).badSram k = true → SMap.find false (f (getCore s c)).badSram k = true) :
    MarksGrow s (modCore c f s) := by
  refine ⟨fun d e k hk => ?_, fun d k hk => ?_⟩
  · by_cases hd : d = c
    · subst hd
      rw [getEngine_modCore_self]
      exact hengine e k hk
    · unfold getEngine
      rwa [getCore_modCore_other hd]
  · by_cases hd : d = c
    · subst hd
      rw [getCore_modCore_self]
      exact hcore k hk
    · rwa [getCore_modCore_other hd]

theorem marksGrow_modEngine (c e : Nat) {f : Engine → Engine} {s : State}
    (hf : ∀ k, SMap.find false (getEngine s c e).bad k = true → SMap.find false (f (getEngine s c e)).bad k = true) :
    MarksGrow s (modCore c (modEngine e f) s) := by
  refine marksGrow_modCore c (fun d k hk => ?_) fun k hk => hk
  by_cases hd : d = e
  · subst hd
    rw [engine_modEngine_self]
    exact hf k hk
  · rwa [engine_modEngine_other hd]

theorem marksGrow_modPart (q : Seat) (f : Part → Part) (s : State) : MarksGrow s (modPart q f s) :=
  marksGrow_modEngine q.core q.eng fun _ hk => hk

/-- A further mark. -/
theorem mark_put (m : SMap Bool) (i : Nat) {k : Nat} (h : SMap.find false m k = true) : SMap.find false (SMap.put false m i true) k = true := by
  by_cases hk : k = i
  · rw [hk, SMap.find_put_self]
  · rwa [SMap.find_put_other _ _ _ _ hk]

/-! ### Lines are poisoned -/

theorem marksGrow_poisonLine (c : Nat) (eng : Option Nat) (base : Nat) (j : Option Job) (l : Nat × Nat) (s : State) :
    MarksGrow s (poisonLine c eng base j l s) := by
  unfold poisonLine
  split
  · split
    · exact marksGrow_modEngine c _ fun k hk => mark_put _ _ hk
    · exact MarksGrow.refl s
  · split
    · exact marksGrow_modCore c (fun _ _ hk => hk) fun k hk => mark_put _ _ hk
    · exact MarksGrow.refl s
  · split
    · exact marksGrow_modCore c (fun _ _ hk => hk) fun _ hk => hk
    · exact MarksGrow.refl s

theorem coresOnly_poisonLine (c : Nat) (eng : Option Nat) (base : Nat) (j : Option Job) (l : Nat × Nat) (s : State) :
    CoresOnly s (poisonLine c eng base j l s) := by
  unfold poisonLine
  split <;> split
  · exact coresOnly_modCore c _ s
  · exact CoresOnly.refl s
  · exact coresOnly_modCore c _ s
  · exact CoresOnly.refl s
  · exact coresOnly_modCore c _ s
  · exact CoresOnly.refl s

theorem coresOnly_poisonPart (c : Nat) (eng : Option Nat) (g : Part) (s : State) : CoresOnly s (poisonPart c eng g s) := by
  unfold poisonPart
  split
  · exact CoresOnly.refl s
  · exact CoresOnly.foldl (fun s' l => coresOnly_poisonLine _ _ _ _ l s') _ s

theorem poisonLine_scratchpad (c e base : Nat) (j : Option Job) (k : Nat) (s : State) : poisonLine c (some e) base j (0, k) s
    = modCore c (modEngine e (fun (g : Engine) => { g with bad := SMap.put false g.bad (base / 64 + k) true })) s := rfl

theorem poisonLine_sram (c : Nat) (eng : Option Nat) (base : Nat) (j : Job) (k : Nat) (s : State) : poisonLine c eng base (some j) (1, k) s
    = modCore c (fun (y : Core) => { y with badSram := SMap.put false y.badSram (j.base / 64 + k) true }) s := rfl

/-- What poisoning one line brings about, and poisoning further lines keeps, holds after poisoning a list of lines with it. -/
theorem poisonLines_reach {P : State → Prop} {c : Nat} {eng : Option Nat} {base : Nat} {j : Option Job} {l : Nat × Nat}
    (hl : ∀ s, P (poisonLine c eng base j l s)) (hkeep : ∀ s t, MarksGrow s t → P s → P t) {ls : List (Nat × Nat)} (hmem : l ∈ ls) (s : State) :
    P (ls.foldl (fun s' l => poisonLine c eng base j l s') s) := by
  induction ls generalizing s with
  | nil => exact absurd hmem List.not_mem_nil
  | cons a ls ih =>
    rcases List.mem_cons.1 hmem with rfl | hrest
    · exact hkeep _ _ (MarksGrow.foldl (fun s' l => marksGrow_poisonLine c eng base j l s') ls _) (hl s)
    · exact ih hrest _

/-- The lines that a tile declared are poisoned. -/
theorem linesPoisoned_poisonPart {s : State} {c e : Nat} {g : Part} {x : Tile} {j : Job} (hx : g.tile = some x)
    (hj : jobOf (getCore s c) x.job = some j) : LinesPoisoned (poisonPart c (some e) g s) c e g x j := by
  unfold poisonPart
  rw [hx]
  dsimp only
  rw [hj]
  refine ⟨fun k hk => ?_, fun k hk => ?_⟩
  · refine poisonLines_reach (P := fun t => SMap.find false (getEngine t c e).bad (g.base / 64 + k) = true) (l := (0, k)) (fun t => ?_)
      (fun _ _ h => h.engine c e _) (mem_dedup.2 (List.mem_append_left _ hk)) s
    rw [poisonLine_scratchpad, getEngine_modCore_self, engine_modEngine_self, SMap.find_put_self]
  · refine poisonLines_reach (P := fun t => SMap.find false (getCore t c).badSram (j.base / 64 + k) = true) (l := (1, k)) (fun t => ?_)
      (fun _ _ h => h.core c _) (mem_dedup.2 (List.mem_append_left _ hk)) s
    rw [poisonLine_sram, getCore_modCore_self, SMap.find_put_self]

theorem LinesPoisoned.grow {s t : State} {c e : Nat} {g : Part} {x : Tile} {j : Job} (h : LinesPoisoned s c e g x j) (hg : MarksGrow s t) :
    LinesPoisoned t c e g x j := ⟨fun k hk => hg.engine c e _ (h.1 k hk), fun k hk => hg.core c _ (h.2 k hk)⟩

/-! ### Endings leave the marks -/

theorem endCoreJobs_badSram (p id : Nat) (k : Core) : (endCoreJobs p id k).badSram = k.badSram := by
  unfold endCoreJobs
  dsimp only
  refine List.foldlRecOn _ _ (motive := fun k' : Core => k'.badSram = k.badSram) rfl fun k' hk' j _ => ?_
  split
  · exact hk'
  · exact hk'

theorem endCoreJobs_engines (p id : Nat) (k : Core) : ∃ own, (endCoreJobs p id k).engines
    = SMap.mapVals {} (fun _ (e : Engine) => { e with parts := clearTiles own e.parts }) k.engines := by
  unfold endCoreJobs
  dsimp only
  refine ⟨_, congrArg (SMap.mapVals _ _) ?_⟩
  refine List.foldlRecOn _ _ (motive := fun k' : Core => k'.engines = k.engines) rfl fun k' hk' j _ => ?_
  split
  · exact hk'
  · exact hk'

/-- The marks of an engine outlive the tiles that leave it. -/
theorem bad_endCoreJobs (p id : Nat) {k : Core} {e i : Nat} (h : SMap.find false (SMap.find {} k.engines e).bad i = true) :
    SMap.find false (SMap.find {} (endCoreJobs p id k).engines e).bad i = true := by
  obtain ⟨own, hown⟩ := endCoreJobs_engines p id k
  have hne : ∀ g : Engine, SMap.find false g.bad i = true → g ≠ {} := fun g hg he => by
    rw [he] at hg
    exact absurd hg nofun
  rw [hown, SMap.find_mapVals_of_ne (hne _ h) (hne _ (by exact h))]
  exact h

theorem marksGrow_endJobs (p id : Nat) (s : State) : MarksGrow s (endJobs p id s) := by
  have hcore : ∀ c, getCore s c ≠ {} → endCoreJobs p id (getCore s c) ≠ {} → getCore (endJobs p id s) c = endCoreJobs p id (getCore s c) :=
    fun c hc hc' => SMap.find_mapVals_of_ne (f := fun _ => endCoreJobs p id) hc hc'
  refine ⟨fun c e k hk => ?_, fun c k hk => ?_⟩
  · have hne : ∀ y : Core, SMap.find false (SMap.find {} y.engines e).bad k = true → y ≠ {} := fun y hy he => by
      rw [he] at hy
      exact absurd hy nofun
    have hend := bad_endCoreJobs p id hk
    unfold getEngine
    rw [hcore c (hne _ hk) (hne _ hend)]
    exact hend
  · have hne : ∀ y : Core, SMap.find false y.badSram k = true → y ≠ {} := fun y hy he => by
      rw [he] at hy
      exact absurd hy nofun
    have hend : SMap.find false (endCoreJobs p id (getCore s c)).badSram k = true := by rwa [endCoreJobs_badSram]
    rw [hcore c (hne _ hk) (hne _ hend)]
    exact hend

/-- The cores after an ending are those without the command's jobs. -/
theorem finishWith_cores {s : State} {p id : Nat} {h : Held} (pick : Option Nat) (quiet : Bool) (st : Byte) (res : BitVec 64)
    (hh : heldOf s p id = some h) : (finishWith pick quiet p id st res s).core.cores = (endJobs p id s).core.cores := by
  have hdrop : (dropBatches p id st (endJobs p id s)).core.cores = (endJobs p id s).core.cores := by
    unfold dropBatches
    split <;> rfl
  unfold finishWith
  rw [hh]
  dsimp only
  split
  · rw [addCompletion_core]
    exact (congrArg Cores.cores (settleWatch_core ..)).trans hdrop
  · exact (congrArg Cores.cores (settleWatch_core ..)).trans hdrop

theorem marksGrow_finishWith (pick : Option Nat) (quiet : Bool) (p id : Nat) (st : Byte) (res : BitVec 64) (s : State) :
    MarksGrow s (finishWith pick quiet p id st res s) := by
  cases hh : heldOf s p id with
  | none =>
    unfold finishWith
    rw [hh]
    exact MarksGrow.refl s
  | some h =>
    have hcores := finishWith_cores pick quiet st res hh
    have hend := marksGrow_endJobs p id s
    exact ⟨fun c e k hk => by rw [getEngine_of_cores_eq hcores]; exact hend.engine c e k hk,
      fun c k hk => by rw [getCore_of_cores_eq hcores]; exact hend.core c k hk⟩

end Sys2Proof.Machine

/-! PROOFS. Faults of engines and cores, and the known-answer tests (07 R220 to R223, 12 R361). -/
namespace Sys2Proof.Machine

/-! ### Events (16 R477 to R480) -/

/-- What raising events changes, and the cores, change at most. -/
def Raises (s t : State) : Prop :=
  ∃ e o v b k, t = { s with tele := e, outbox := o, link := { s.link with vec := v }, boot := { s.boot with earlyEvents := b }, core := k }

theorem Raises.trans {s t u : State} (h : Raises s t) (g : Raises t u) : Raises s u := by
  obtain ⟨e, o, v, b, k, rfl⟩ := h
  obtain ⟨e', o', v', b', k', rfl⟩ := g
  exact ⟨e', o', v', b', k', rfl⟩

theorem CoresOnly.raises {s t : State} (h : CoresOnly s t) : Raises s t := by
  unfold CoresOnly at h
  exact ⟨s.tele, s.outbox, s.link.vec, s.boot.earlyEvents, _, h⟩

theorem Raises.withEvents {s t : State} (h : Raises s t) : t = { withEvents s t with core := t.core } := by
  obtain ⟨e, o, v, b, k, rfl⟩ := h
  rfl

theorem raises_signal (v : Nat) (s : State) : Raises s (signal v s) := by
  unfold signal
  split <;> exact ⟨_, _, _, _, _, rfl⟩

theorem raises_logRecord (log : Nat) (m : Bool) (d : List Byte) (s : State) : Raises s (logRecord log m d s) := by
  unfold logRecord
  dsimp only
  split
  · split
    · exact Raises.trans ⟨_, _, _, _, _, rfl⟩ (raises_signal 0 _)
    · exact ⟨_, _, _, _, _, rfl⟩
  · exact ⟨_, _, _, _, _, rfl⟩

theorem raises_raise (ev log w d0 d1 : Nat) (s : State) : Raises s (raise ev log w d0 d1 s) := by
  have hseq : Raises s { s with tele := { s.tele with eventSeq := s.tele.eventSeq + 1 } } := ⟨_, _, _, _, _, rfl⟩
  unfold raise
  dsimp only
  split
  · split
    · exact (hseq.trans (raises_logRecord log false _ _)).trans ⟨_, _, _, _, _, rfl⟩
    · exact (hseq.trans (raises_logRecord log false _ _)).trans ⟨_, _, _, _, _, rfl⟩
  · exact ⟨_, _, _, _, _, rfl⟩

theorem logRecord_eventSeq (log : Nat) (m : Bool) (d : List Byte) (s : State) : (logRecord log m d s).tele.eventSeq = s.tele.eventSeq := by
  unfold logRecord
  dsimp only
  split
  · split
    · rw [signal_tele]
    · rfl
  · rfl

/-- Each event takes one number. -/
theorem raise_eventSeq (ev log w d0 d1 : Nat) (s : State) : (raise ev log w d0 d1 s).tele.eventSeq = s.tele.eventSeq + 1 := by
  unfold raise
  dsimp only
  split
  · split
    · exact logRecord_eventSeq ..
    · exact logRecord_eventSeq ..
  · rfl

/-- A serving row that raises events and changes the cores passes the fence as it is. -/
theorem whenServing_raises {f : State → State} {s t : State} (hm : s.boot.mode = .service) (h : f s = t) (ht : Raises s t) :
    whenServing f s = .next t := by
  rw [whenServing_service f hm]
  unfold fenced
  dsimp only
  rw [h]
  obtain ⟨e, o, v, b, k, rfl⟩ := ht
  rfl

/-! ### A faulty partition (07 R220) -/

theorem faultPart_idle {s : State} {c e p : Nat} (h : ((getEngine s c e).parts.getD p {}).tile = none) : faultPart c e p s = s := by
  unfold faultPart
  dsimp only
  rw [h]

theorem faultParts_idle {s : State} {c e : Nat} (h : running (getEngine s c e) = []) (ps : List Nat) :
    ps.foldl (fun s' p => faultPart c e p s') s = s :=
  List.foldlRecOn ps _ (motive := fun t => t = s) rfl fun t ht p _ => by
    rw [ht, faultPart_idle (tile_of_running_nil h p)]

section
variable {s : State} {c e p : Nat} {g : Part} {x : Tile} {j : Job} (hg : (getEngine s c e).parts[p]? = some g) (hx : g.tile = some x)
  (hj : jobOf (getCore s c) x.job = some j)
include hg hx hj

/-- The command of the tile ends with PARTITION_FAULT once the lines are poisoned and the tile is gone. -/
theorem faultPart_serving (hs : Serving s j) : faultPart c e p s
    = finish j.trs j.id stPartitionFault 0 (modPart ⟨c, e, p⟩ clearPart (poisonPart c (some e) g s)) := by
  have hp : (getEngine s c e).parts.getD p {} = g := partAt_of_parts hg
  have htrs : (modPart ⟨c, e, p⟩ clearPart (poisonPart c (some e) g s)).trs = s.trs := (coresOnly_poisonPart c (some e) g s).trs
  unfold faultPart
  dsimp only
  rw [hp, hx]
  dsimp only
  rw [hj]
  exact endJobCommand_of_serving (hs.of_heldOf_eq (heldOf_of_trs_eq htrs j.trs j.id)) (by decide)

theorem faultPart_poisons (hs : Serving s j) : LinesPoisoned (faultPart c e p s) c e g x j := by
  rw [faultPart_serving hg hx hj hs]
  exact ((linesPoisoned_poisonPart hx hj).grow (marksGrow_modPart ..)).grow (marksGrow_finishWith ..)

theorem faultPart_reports (hs : Serving s j) : Reported (faultPart c e p s) j.trs j.id stPartitionFault 0
    ∧ OtherPages s (faultPart c e p s) j.trs := by
  have htrs : (modPart ⟨c, e, p⟩ clearPart (poisonPart c (some e) g s)).trs = s.trs := (coresOnly_poisonPart c (some e) g s).trs
  rw [faultPart_serving hg hx hj hs]
  exact ⟨(hs.of_heldOf_eq (heldOf_of_trs_eq htrs j.trs j.id)).reported _ 0,
    OtherPages.trans (fun q _ => getTrs_of_trs_eq htrs q) (otherPages_finish _ _ _ _ _)⟩
end

/-! ### Engines out of service and under check (07 R222, 01 R29) -/

/-- An engine that has left service. -/
def Engine.outOfService (g : Engine) : Engine := { g with disabled := true, stopped := true, checking := false, preempt := false }

theorem disableEngine_idle {s : State} {c e : Nat} (h : running (getEngine s c e) = []) : disableEngine c e s
    = raise 0x0021 2 (10 * c + e) 0 0 (modCore c (modEngine e Engine.outOfService) s) := by
  unfold disableEngine
  rw [faultParts_idle h]
  rfl

/-- An engine without tiles leaves service in a state that differs in events raised before. -/
theorem disableEngine_after {s u : State} {c e : Nat} (h : running (getEngine s c e) = []) (hu : Raises s u) (hk : u.core = s.core) :
    Disabled s (disableEngine c e u) c e ∧ OtherEngines s (disableEngine c e u) c e ∧ Raises s (disableEngine c e u)
      ∧ (disableEngine c e u).tele.eventSeq = u.tele.eventSeq + 1 := by
  have hcores : u.core.cores = s.core.cores := congrArg Cores.cores hk
  rw [disableEngine_idle (by rwa [getEngine_of_cores_eq hcores])]
  have hraise := raise_core 0x0021 2 (10 * c + e) 0 0 (modCore c (modEngine e Engine.outOfService) u)
  refine ⟨?_, ?_, (hu.trans (coresOnly_modCore c _ u).raises).trans (raises_raise ..), raise_eventSeq ..⟩
  · unfold Disabled
    rw [getEngine_of_core_eq hraise, getEngine_modCore_self, engine_modEngine_self]
    exact congrArg Engine.outOfService (getEngine_of_cores_eq hcores c e)
  · exact OtherEngines.of_core_eq (fun d f hd => (otherEngines_modEngine c e _ u d f hd).trans (getEngine_of_cores_eq hcores d f))
      (congrArg Cores.cores hraise)

/-- An engine put under check for faulty partitions. -/
def Engine.underCheck (mask : Nat) (n : BitVec 64) (g : Engine) : Engine := { g with checking := true, faultParts := mask, faultAt := some n }

theorem partitionFault_first {s : State} {c e p : Nat} (hin : inService (getEngine s c e) = true) (hf : (getEngine s c e).faultAt = none) :
    partitionFault c e p .partition s = modCore c (modEngine e (Engine.underCheck (2 ^ p) (now s))) (faultPart c e p s) := by
  unfold partitionFault
  dsimp only
  rw [if_pos hin, hf]
  rfl

/-- A second fault within 24 hours. -/
theorem partitionFault_again {s : State} {c e p : Nat} {t0 : BitVec 64} {pl : FaultPlace} (hin : inService (getEngine s c e) = true)
    (hr : running (getEngine s c e) = []) (hf : (getEngine s c e).faultAt = some t0) (hd : (now s - t0).toNat < dayNs) :
    ∃ u, partitionFault c e p pl s = disableEngine c e u ∧ Raises s u ∧ u.core = s.core
      ∧ u.tele.eventSeq = s.tele.eventSeq + (if (getEngine s c e).checking = true then 2 else 1) := by
  unfold partitionFault
  dsimp only
  rw [if_pos hin, faultParts_idle hr, hf]
  simp only [Option.map_some, Option.getD_some, hd, decide_true, Bool.true_and, if_true]
  cases (getEngine s c e).checking with
  | false => exact ⟨_, rfl, raises_raise .., raise_core .., raise_eventSeq ..⟩
  | true =>
    refine ⟨_, rfl, (raises_raise ..).trans (raises_raise ..), (raise_core ..).trans (raise_core ..), ?_⟩
    rw [if_pos rfl, raise_eventSeq, if_pos rfl, raise_eventSeq, add_assoc]
    rfl

/-- The rows of a fault in a partition. -/
theorem partition_fault (s : State) (c e p : Nat) (hm : s.boot.mode = .service) :
    (inService (getEngine s c e) = true → running (getEngine s c e) = [] →
      ((getEngine s c e).faultAt = none →
        ∃ t, exec (.partitionFaultDetected c e p .partition) s = .next t ∧ CoresOnly s t ∧ OtherEngines s t c e ∧ OtherCores s t c
          ∧ getEngine t c e = { getEngine s c e with checking := true, faultParts := 2 ^ p, faultAt := some (now s) })
      ∧ (∀ (t0 : BitVec 64) (pl : FaultPlace), (getEngine s c e).faultAt = some t0 → (now s - t0).toNat < 86400000000000 →
        ∃ t, exec (.partitionFaultDetected c e p pl) s = .next t ∧ Disabled s t c e ∧ OtherEngines s t c e
          ∧ t.tele.eventSeq = s.tele.eventSeq + (if (getEngine s c e).checking = true then 3 else 2)
          ∧ t = { withEvents s t with core := t.core }))
    ∧ (inService (getEngine s c e) = false → ∀ pl, exec (.partitionFaultDetected c e p pl) s = .next s)
    ∧ (∀ (g : Part) (x : Tile) (j : Job), inService (getEngine s c e) = true → (getEngine s c e).faultAt = none →
        (getEngine s c e).parts[p]? = some g → p < 4 → g.tile = some x → jobOf (getCore s c) x.job = some j → Serving s j →
      ∃ t, exec (.partitionFaultDetected c e p .partition) s = .next t ∧ Reported t j.trs j.id 0x0C 0 ∧ OtherPages s t j.trs
        ∧ (getEngine t c e).checking = true ∧ LinesPoisoned t c e g x j) := by
  refine ⟨fun hin hr => ⟨fun hf => ?_, fun t0 pl hf hd => ?_⟩, fun hin pl => ?_, fun g x j hin hf hg _ hx hj hs => ?_⟩
  · have hfirst := partitionFault_first (p := p) hin hf
    rw [faultPart_idle (tile_of_running_nil hr p)] at hfirst
    exact engine_changed hm hfirst
  · obtain ⟨u, hu, hraises, hcore, hseq⟩ := partitionFault_again (p := p) (pl := pl) hin hr hf hd
    obtain ⟨hdis, hothers, hall, hone⟩ := disableEngine_after hr hraises hcore
    refine ⟨_, whenServing_raises hm hu hall, hdis, hothers, ?_, hall.withEvents⟩
    rw [hone, hseq, add_assoc]
    split <;> rfl
  · refine whenServing_of_eq (if_neg ?_)
    rw [hin]
    decide
  · have hfirst := partitionFault_first (p := p) hin hf
    obtain ⟨hrep, hothers⟩ := faultPart_reports hg hx hj hs
    have hlines := faultPart_poisons hg hx hj hs
    refine ⟨_, whenServing_service _ hm, reported_fenced hfirst hrep,
      otherPages_of_trs_eq ((fenced_trs ..).trans (congrArg State.trs hfirst)) hothers, ?_,
      hlines.grow ((marksGrow_modEngine c e (f := Engine.underCheck (2 ^ p) (now s)) fun _ hk => hk).trans
        (MarksGrow.of_core_eq ((fenced_core ..).trans (congrArg State.core hfirst))))⟩
    rw [getEngine_of_core_eq ((fenced_core ..).trans (congrArg State.core hfirst)), getEngine_modCore_self, engine_modEngine_self]
    rfl

/-! ### The on-line check (07 R222) -/

/-- An engine whose check has passed. -/
def Engine.checked (g : Engine) : Engine := { g with checking := false }

theorem online_check (s : State) (c e : Nat) (hm : s.boot.mode = .service) (hc : (getEngine s c e).checking = true)
    (hr : running (getEngine s c e) = []) :
    (∃ t, exec (.onlineCheckComplete c e []) s = .next t
      ∧ getEngine t c e = { getEngine s c e with checking := false } ∧ OtherEngines s t c e
      ∧ t.tele.eventSeq = s.tele.eventSeq + 1 ∧ t = { withEvents s t with core := t.core })
    ∧ (∀ fails, fails ≠ [] → ∃ t, exec (.onlineCheckComplete c e fails) s = .next t ∧ Disabled s t c e ∧ OtherEngines s t c e
      ∧ t.tele.eventSeq = s.tele.eventSeq + 2 ∧ t = { withEvents s t with core := t.core }) := by
  have hcond : ((getEngine s c e).checking && (running (getEngine s c e)).isEmpty) = true := by simp [hc, hr]
  refine ⟨?_, fun fails hf => ?_⟩
  · have hpass : checkComplete c e [] s = raise 0x0020 1 (10 * c + e) (getEngine s c e).faultParts 0
        (modCore c (modEngine e Engine.checked) s) := if_pos hcond
    have hraises : Raises s (raise 0x0020 1 (10 * c + e) (getEngine s c e).faultParts 0 (modCore c (modEngine e Engine.checked) s)) :=
      (coresOnly_modCore c _ s).raises.trans (raises_raise ..)
    refine ⟨_, whenServing_raises hm hpass hraises, ?_, (otherEngines_modEngine c e _ s).of_core_eq (congrArg Cores.cores (raise_core ..)),
      raise_eventSeq .., hraises.withEvents⟩
    rw [getEngine_of_core_eq (raise_core ..), getEngine_modCore_self, engine_modEngine_self]
    rfl
  · have hfail : checkComplete c e fails s = disableEngine c e (raise 0x0020 1 (10 * c + e) (getEngine s c e).faultParts 1 s) :=
      (if_pos hcond).trans (if_neg fun h => hf (List.isEmpty_iff.1 h))
    obtain ⟨hdis, hothers, hall, hone⟩ := disableEngine_after hr
      (raises_raise 0x0020 1 (10 * c + e) (getEngine s c e).faultParts 1 s) (raise_core ..)
    refine ⟨_, whenServing_raises hm hfail hall, hdis, hothers, ?_, hall.withEvents⟩
    rw [hone, raise_eventSeq, add_assoc]
    rfl

/-! ### A fault of a core's control (07 R223) -/

/-- Every tile of core `c`, running or saved, has its lines poisoned. -/
def poisonCore (c : Nat) (k : Core) (s : State) : State :=
  k.saves.foldl (fun s' v => v.parts.foldl (fun s'' p => poisonPart c none p s'') s')
    (k.engines.foldl (fun s' e => e.2.parts.foldl (fun s'' p => poisonPart c (some e.1) p s'') s') s)

theorem coresOnly_poisonCore (c : Nat) (k : Core) (s : State) : CoresOnly s (poisonCore c k s) :=
  (CoresOnly.foldl (fun s' (e : Nat × Engine) => CoresOnly.foldl (fun s'' p => coresOnly_poisonPart c (some e.1) p s'') _ s') _ s).trans
    (CoresOnly.foldl (fun s' (_ : Saved) => CoresOnly.foldl (fun s'' p => coresOnly_poisonPart c none p s'') _ s') _ _)

/-- An engine without tiles. -/
def Engine.cleared (g : Engine) : Engine := { g with parts := [{}, {}, {}, {}], preempt := false }

/-- A core without tiles, jobs and semaphores. -/
def Core.cleared (k : Core) : Core :=
  { k with ready := [], jobs := [], sems := [], served := [], saves := [], engines := SMap.mapVals {} (fun _ => Engine.cleared) k.engines }

theorem cleared_parts (k : Core) (e : Nat) : (SMap.find {} k.cleared.engines e).parts = [{}, {}, {}, {}] :=
  SMap.find_mapVals_of (d := {}) (f := fun _ => Engine.cleared) (P := fun g : Engine => g.parts = [{}, {}, {}, {}]) rfl (fun _ _ => rfl) k.engines e

theorem coreFault_eq (c : Nat) (s : State) : ∃ d, coreFault c s = raise 0x0022 2 c d 0 (modCore c Core.cleared
    ((getCore s c).jobs.foldl (fun s' j => endJobCommand stPartitionFault j s') (poisonCore c (getCore s c) s))) := ⟨_, rfl⟩

theorem control_fault (s : State) (c : Nat) (hm : s.boot.mode = .service) :
    ∃ t, exec (.coreControlFault c) s = .next t ∧ (getCore t c).jobs = [] ∧ (getCore t c).ready = [] ∧ (getCore t c).sems = []
      ∧ (getCore t c).saves = [] ∧ (∀ e, (getEngine t c e).parts = [{}, {}, {}, {}])
      ∧ (∀ j, (getCore s c).jobs = [j] → Serving s j → Reported t j.trs j.id 0x0C 0 ∧ OtherPages s t j.trs) := by
  obtain ⟨d, hd⟩ := coreFault_eq c s
  have hcore : ∀ u : State, getCore (raise 0x0022 2 c d 0 (modCore c Core.cleared u)) c = (getCore u c).cleared :=
    fun u => (getCore_of_core_eq (raise_core ..) c).trans (getCore_modCore_self ..)
  refine ⟨_, whenServing_service _ hm, ?_⟩
  have hclear := (getCore_of_core_eq ((fenced_core (coreFault c) s).trans (congrArg State.core hd)) c).trans (hcore _)
  unfold getEngine
  rw [hclear]
  refine ⟨rfl, rfl, rfl, rfl, cleared_parts _, fun j hj hs => ?_⟩
  have htrs := (coresOnly_poisonCore c (getCore s c) s).trs
  have hserve := hs.of_heldOf_eq (heldOf_of_trs_eq htrs j.trs j.id)
  rw [hj, List.foldl_cons, List.foldl_nil, endJobCommand_of_serving hserve (by decide)] at hd
  have hfin := (fenced_trs (coreFault c) s).trans ((congrArg State.trs hd).trans (raise_trs ..))
  obtain ⟨h, hh, hrep⟩ := hserve.reported stPartitionFault 0
  exact ⟨⟨h, (heldOf_of_trs_eq hfin j.trs j.id).trans hh, hrep⟩, otherPages_of_trs_eq hfin
    (OtherPages.trans (fun q _ => getTrs_of_trs_eq htrs q) (otherPages_finish _ _ _ _ _))⟩

/-! ### Known-answer tests (12 R361) -/

/-- A core with the known-answer tests that are due made ready. -/
def withKats (k : Core) : Core := { k with ready := k.ready ++ (katDue k).map katTile }

theorem getCore_engineKat {s : State} (hw : SMap.wf {} s.core.cores = true) (c : Nat) :
    getCore (engineKat s) c = withKats (getCore s c) :=
  SMap.find_mapVals_of_rises (f := fun _ => withKats) ((SMap.wf_iff _).1 hw).1 (fun _ => rfl) c

/-- Settles O42: an engine without tiles has no command to end (`faultParts_idle`), so that a fault changes its standing alone; a serving
tile's command ends once, with its lines poisoned (`faultPart_poisons`). -/
theorem engineFaultsAreCheckedAndContained : Obligations.EngineFaultsAreCheckedAndContained :=
  ⟨partition_fault, online_check, control_fault, fun _ hm hw =>
    ⟨_, whenServing_coresOnly hm rfl rfl, rfl, getCore_engineKat hw⟩⟩

end Sys2Proof.Machine

/-! PROOFS. Tiles are dispatched, and stationary sets swapped (07 R211, R226, R231). -/
namespace Sys2Proof.Machine

/-! ### The scheduler's choice -/

section
variable {s : State} {c e p : Nat} {ls : List (Nat × Nat)} {ops : List EngOp} (hcan : canRun (getEngine s c e) = true)
  (hfree : ((getEngine s c e).parts.getD p {}).tile = none)
include hcan hfree

theorem tileDispatch_saved {v : Saved} (hv : savedFirst s c e p = some v) : tileDispatch c e p ls ops s = restoreWork c e v s := by
  unfold savedFirst at hv
  unfold tileDispatch
  dsimp only
  rw [if_pos ⟨hcan, by rw [hfree]; rfl⟩]
  split at hv
  · rename_i hidle
    obtain ⟨hbest, hcls⟩ := Option.filter_eq_some_iff.1 hv
    rw [hbest]
    cases hn : nextTile s (getCore s c) e (getEngine s c e) p with
    | none => exact if_pos hidle
    | some x =>
      rw [hn] at hcls
      exact if_pos ⟨hidle, by simpa using hcls⟩
  · exact absurd hv nofun

/-- Where no saved work goes first, the next tile is dispatched. -/
theorem tileDispatch_next {x : Tile} (hv : savedFirst s c e p = none) (hx : nextTile s (getCore s c) e (getEngine s c e) p = some x) :
    tileDispatch c e p ls ops s = dispatch ⟨c, e, p⟩ x ls ops s := by
  unfold savedFirst at hv
  unfold tileDispatch
  dsimp only
  rw [if_pos ⟨hcan, by rw [hfree]; rfl⟩, hx]
  cases hbest : bestSaved (getCore s c) with
  | none => rfl
  | some v =>
    refine if_neg fun hc => ?_
    rw [if_pos hc.1, hbest, hx, Option.filter_eq_none_iff] at hv
    exact hv v rfl (by simpa using hc.2)

theorem tileDispatch_none (hv : savedFirst s c e p = none) (hx : nextTile s (getCore s c) e (getEngine s c e) p = none) :
    tileDispatch c e p ls ops s = s := by
  unfold savedFirst at hv
  unfold tileDispatch
  dsimp only
  rw [if_pos ⟨hcan, by rw [hfree]; rfl⟩, hx]
  cases hbest : bestSaved (getCore s c) with
  | none => rfl
  | some v =>
    refine if_neg fun hc => ?_
    rw [if_pos hc, hbest, hx, Option.filter_eq_none_iff] at hv
    exact hv v rfl rfl
end

/-! ### Saved work returns -/

/-- An engine with saved work. -/
def Engine.restored (v : Saved) (g : Engine) : Engine := { restoreBytes v g with stopped := false, parts := v.parts }

theorem restore_changes {f : State → State} {s : State} {c e : Nat} {v : Saved} (hm : s.boot.mode = .service)
    (hf : f s = restoreWork c e v s) : ∃ t, whenServing f s = .next t ∧ CoresOnly s t ∧ OtherEngines s t c e ∧ OtherCores s t c
      ∧ getEngine t c e = { restoreBytes v (getEngine s c e) with stopped := false, parts := v.parts }
      ∧ (getCore t c).saves = (getCore s c).saves.filter (fun w => w != v) ∧ (getCore t c).ready = (getCore s c).ready := by
  have hcore := getCore_modCore_self c (fun k => modEngine e (Engine.restored v) { k with saves := k.saves.filter (fun w => w != v) }) s
  refine ⟨_, whenServing_coresOnly hm hf (coresOnly_modCore c _ s), coresOnly_modCore c _ s,
    otherEngines_modCore c e fun d hd => engine_modEngine_other hd _ _, otherCores_modCore c _ s,
    (getEngine_modCore_self ..).trans (engine_modEngine_self ..), (congrArg Core.saves hcore).trans rfl, (congrArg Core.ready hcore).trans rfl⟩

/-! ### A tile is seated -/

/-- An engine that takes a tile. -/
def Engine.seating (p : Nat) (x : Tile) (ls : List (Nat × Nat)) (base : Nat) (g : Engine) : Engine :=
  { g with parts := g.parts.modify p (seatTile x ls base), stopped := false }

/-- A core whose engine `e` takes a ready tile. -/
def seatedCore (e p : Nat) (x : Tile) (ls : List (Nat × Nat)) (base : Nat) (k : Core) : Core :=
  modEngine e (Engine.seating p x ls base)
    (placeFirst x.job (serve x.cls (tileTenant k x) { k with ready := k.ready.filter (fun y => y != x) }))

theorem dispatch_eq (c e p : Nat) (x : Tile) (ls : List (Nat × Nat)) (ops : List EngOp) (s : State) : dispatch ⟨c, e, p⟩ x ls ops s
    = runOps ⟨c, e, p⟩ ops (modCore c (seatedCore e p x ls ((liveRoom (getEngine s c e) x).getD 0)) s) := rfl

theorem seat_changes {s : State} {c e p : Nat} {x : Tile} {ls : List (Nat × Nat)} (hm : s.boot.mode = .service)
    {f : State → State} (hf : f s = dispatch ⟨c, e, p⟩ x ls [] s) :
    ∃ t, whenServing f s = .next t ∧ CoresOnly s t ∧ OtherEngines s t c e ∧ OtherCores s t c
      ∧ getEngine t c e = { getEngine s c e with
          parts := (getEngine s c e).parts.modify p (seatTile x ls ((liveRoom (getEngine s c e) x).getD 0)), stopped := false }
      ∧ (getCore t c).ready = (getCore s c).ready.filter (fun y => y != x)
      ∧ (getCore t c).jobs = (placeFirst x.job (getCore s c)).jobs := by
  rw [dispatch_eq, runOps_nil] at hf
  have hcore := getCore_modCore_self c (seatedCore e p x ls ((liveRoom (getEngine s c e) x).getD 0)) s
  exact ⟨_, whenServing_coresOnly hm hf (coresOnly_modCore c _ s), coresOnly_modCore c _ s,
    otherEngines_modCore c e fun d hd => engine_modEngine_other hd _ _, otherCores_modCore c _ s,
    (getEngine_modCore_self ..).trans (engine_modEngine_self ..), (congrArg Core.ready hcore).trans rfl, (congrArg Core.jobs hcore).trans rfl⟩

theorem worked_modCore (c : Nat) (f : Core → Core) (s : State) : Worked s (modCore c f s) c :=
  ((TileWork.refl c 0 s).worked).modCore f

theorem Worked.trans {s t u : State} {c : Nat} (h : Worked s t c) (g : Worked t u c) : Worked s u c := by
  obtain ⟨hcores, hpages, hrest⟩ := h
  obtain ⟨gcores, gpages, grest⟩ := g
  refine ⟨hcores.trans gcores, fun q => by rw [gpages q, hpages q], ?_⟩
  rw [grest, hrest]

theorem dispatch_worked (c e p : Nat) (x : Tile) (ls : List (Nat × Nat)) (ops : List EngOp) (s : State) :
    Worked s (dispatch ⟨c, e, p⟩ x ls ops s) c :=
  (worked_modCore c (seatedCore e p x ls ((liveRoom (getEngine s c e) x).getD 0)) s).trans (tileWork_runOps ⟨c, e, p⟩ ops _).worked

/-- A serving row that is work of tiles on a core. -/
theorem worked_changes {f : State → State} {s t : State} {c : Nat} (hm : s.boot.mode = .service) (hf : f s = t) (h : Worked s t c) :
    ∃ t, whenServing f s = .next t ∧ Worked s t c := ⟨t, whenServing_fabric hm hf h.fabric, h⟩

theorem tiles_dispatched (s : State) (c e p : Nat) (g : Part) (ls : List (Nat × Nat)) (hm : s.boot.mode = .service)
    (hcan : canRun (getEngine s c e) = true) (hg : (getEngine s c e).parts[p]? = some g) (htile : g.tile = none) :
    (∀ v, savedFirst s c e p = some v → ∀ ops,
      ∃ t, exec (.tileDispatch c e p ls ops) s = .next t ∧ CoresOnly s t ∧ OtherEngines s t c e ∧ OtherCores s t c
        ∧ getEngine t c e = { restoreBytes v (getEngine s c e) with stopped := false, parts := v.parts }
        ∧ (getCore t c).saves = (getCore s c).saves.filter (fun w => w != v) ∧ (getCore t c).ready = (getCore s c).ready)
    ∧ (∀ x, savedFirst s c e p = none → nextTile s (getCore s c) e (getEngine s c e) p = some x →
      (∃ t, exec (.tileDispatch c e p ls []) s = .next t ∧ CoresOnly s t ∧ OtherEngines s t c e ∧ OtherCores s t c
        ∧ getEngine t c e = { getEngine s c e with
            parts := (getEngine s c e).parts.modify p (seatTile x ls ((liveRoom (getEngine s c e) x).getD 0)), stopped := false }
        ∧ (getCore t c).ready = (getCore s c).ready.filter (fun y => y != x)
        ∧ (getCore t c).jobs = (placeFirst x.job (getCore s c)).jobs)
      ∧ (∀ ops, ∃ t, exec (.tileDispatch c e p ls ops) s = .next t ∧ Worked s t c))
    ∧ (savedFirst s c e p = none → nextTile s (getCore s c) e (getEngine s c e) p = none →
        ∀ ops, exec (.tileDispatch c e p ls ops) s = .next s) := by
  have hpart : (getEngine s c e).parts.getD p {} = g := partAt_of_parts hg
  rw [← hpart] at htile
  exact ⟨fun v hv ops => restore_changes hm (tileDispatch_saved hcan htile hv),
    fun x hv hx => ⟨seat_changes hm (tileDispatch_next hcan htile hv hx),
      fun ops => worked_changes hm (tileDispatch_next hcan htile hv hx) (dispatch_worked ..)⟩,
    fun hv hx ops => whenServing_of_eq (tileDispatch_none hcan htile hv hx)⟩

/-! ### Swaps (07 R211, R212) -/

/-- A partition right after its swap. -/
def Part.swap (g : Part) : Part :=
  { g with working := g.shadow, shadowReady := false, token := false, passRunning := true, queued := g.queued.drop 1 }

theorem swap_of_none_queued {g : Part} (h : g.queued = []) : g.swap = swapped g := by
  unfold Part.swap swapped
  rw [h, List.drop_nil]

section
variable {s : State} {c e p : Nat} {g : Part} (hg : (getEngine s c e).parts[p]? = some g)
include hg

theorem swapAndRun_waits (hc : canSwap g = false) (ops : List EngOp) : swapAndRun ⟨c, e, p⟩ ops s = s := by
  unfold swapAndRun
  rw [partAt_of_parts hg, hc]
  exact if_neg (by decide)

theorem swapAndRun_swaps (hc : canSwap g = true) (ops : List EngOp) :
    swapAndRun ⟨c, e, p⟩ ops s = runOps ⟨c, e, p⟩ ops (swapSets ⟨c, e, p⟩ s) := by
  unfold swapAndRun
  rw [partAt_of_parts hg, hc]
  exact if_pos rfl

theorem swapSets_of_none_queued (hc : canSwap g = true) (hq : g.queued = []) : swapSets ⟨c, e, p⟩ s = modPart ⟨c, e, p⟩ Part.swap s := by
  unfold swapSets
  dsimp only
  rw [partAt_of_parts hg, hc, if_pos rfl, hq]
  rfl

theorem parts_swapped (hq : g.queued = []) : (getEngine (modPart ⟨c, e, p⟩ Part.swap s) c e).parts[p]? = some (swapped g) :=
  (parts_modPart (q := ⟨c, e, p⟩) Part.swap hg).trans (congrArg some (swap_of_none_queued hq))
end

end Sys2Proof.Machine

/-! PROOFS. An issue of an integer mode, from the swap to the vector unit (07 R206, R207, R213, 08 R258, R260). -/
namespace Sys2Proof.Machine

/-! ### Registers -/

/-- A write of consecutive values reads back, place by place. -/
theorem SMap.find_putList_inside {α : Type} [DecidableEq α] {d : α} (vs : List α) (m : SMap α) (k i : Nat) (h : i < vs.length) :
    SMap.find d (SMap.putList d m k vs) (k + i) = vs.getD i d := by
  induction vs generalizing m k i with
  | nil => exact absurd h (Nat.not_lt_zero i)
  | cons v vs ih =>
    rw [SMap.putList]
    cases i with
    | zero => rw [SMap.find_putList_outside vs _ _ _ (by omega), Nat.add_zero, SMap.find_put_self, List.getD_cons_zero]
    | succ i =>
      rw [show k + (i + 1) = k + 1 + i by omega, ih _ _ _ (by simpa using h), List.getD_cons_succ]

theorem rowsOf_le (shape : Nat) : rowsOf shape ≤ 32 := by
  unfold rowsOf
  split <;> omega

theorem entriesOf_le (shape : Nat) : entriesOf shape ≤ 32 := by
  unfold entriesOf
  split <;> omega

/-- What the vector unit reads of an accumulator entry stands in its register. -/
theorem vregs_readAcc {g : Part} {x : Tile} {v n r : Nat} (hx : g.tile = some x) (hv : v < vregsOf x.shape) (hr : r < rowsOf x.shape) :
    SMap.find 0 (setLanes v (entryWords g n) (settleEntry n g)).vregs (v * 128 + r)
      = SMap.find 0 (settleEntry n g).accum (r * 32 + n) := by
  have hshape : shapeOf g = x.shape := by rw [shapeOf, hx]; rfl
  have hsettled : shapeOf (settleEntry n g) = x.shape := by
    rw [shapeOf, show (settleEntry n g).tile = g.tile from congrArg Prod.fst (seated_settleEntry n g), hx]
    rfl
  have hwords : (entryWords g n).length = rowsOf x.shape := by rw [entryWords, hshape, List.length_map, List.length_range]
  have hle := rowsOf_le x.shape
  unfold setLanes
  rw [hsettled, if_pos hv, List.take_of_length_le (by omega)]
  dsimp only
  rw [SMap.find_putList_inside _ _ _ _ (by omega), entryWords, hshape, List.getD_eq_getElem?_getD, List.getElem?_map,
    List.getElem?_range hr]
  rfl

/-! ### Accumulator writes of an integer mode -/

/-- The writes of `T r` to entry `n` of some rows. -/
def rowWrites (T : Nat → Int) (n : Nat) (sat : Bool) (rows : List Nat) : List AccWrite := rows.map (fun r => ⟨r, n, .int (T r) sat⟩)

/-- Each row's write reaches its own entry: other rows' entries lie elsewhere. -/
theorem accum_rowWrites (T : Nat → Int) {n : Nat} (sat : Bool) {rows : List Nat} (hrows : rows.Nodup) (g : Part) (r : Nat) :
    SMap.find 0 ((rowWrites T n sat rows).foldl completeWrite g).accum (r * 32 + n)
      = if r ∈ rows then BitVec.ofInt 32 (accAdd sat (SMap.find 0 g.accum (r * 32 + n)).toInt (T r)).1
        else SMap.find 0 g.accum (r * 32 + n) := by
  induction rows generalizing g with
  | nil => rfl
  | cons i rows ih =>
    obtain ⟨hi, hrest⟩ := List.nodup_cons.1 hrows
    unfold rowWrites at ih ⊢
    rw [List.map_cons, List.foldl_cons, ih hrest]
    have hput : (completeWrite g ⟨i, n, .int (T i) sat⟩).accum = SMap.put 0 g.accum (i * 32 + n)
        (BitVec.ofInt 32 (accAdd sat (SMap.find 0 g.accum (i * 32 + n)).toInt (T i)).1) := rfl
    rw [hput]
    by_cases hr : r = i
    · subst hr
      rw [if_neg hi, if_pos List.mem_cons_self, SMap.find_put_self]
    · rw [SMap.find_put_other _ _ _ _ (by omega)]
      simp [hr]

theorem settleEntry_rowWrites {g : Part} {T : Nat → Int} {n : Nat} {sat : Bool} {rows : List Nat} (hw : g.writes = rowWrites T n sat rows) :
    (settleEntry n g).accum = ((rowWrites T n sat rows).foldl completeWrite g).accum := by
  have hall : g.writes.filter (fun w => w.entry == n) = rowWrites T n sat rows := by
    rw [hw]
    refine List.filter_eq_self.2 fun w hw => ?_
    obtain ⟨r, -, rfl⟩ := List.mem_map.1 hw
    exact beq_self_eq_true n
  unfold settleEntry
  dsimp only
  rw [hall]

/-- The accumulator writes of an issue of an integer mode. -/
theorem issueWrites_int {g : Part} {x : Tile} {m : ArrayMode} (hx : g.tile = some x) (hm : m ≠ .binary) (hf : isIntFmt g.working.fmt = true)
    (xs : List Nat) (fmt : Nat) (sc : List Byte) (n width : Nat) (sat : Bool) : issueWrites g m xs fmt sc n width sat
      = rowWrites (intTerm x.shape m g.working xs fmt) n sat (List.range (rowsOf x.shape)) := by
  have hshape : shapeOf g = x.shape := by rw [shapeOf, hx]; rfl
  unfold issueWrites rowWrites
  dsimp only
  rw [hshape, List.map_eq_flatMap]
  refine congrArg (List.flatMap · _) (funext fun r => ?_)
  cases m with
  | binary => exact absurd rfl hm
  | eight => exact if_pos hf
  | four => exact if_pos hf
  | half => exact if_pos hf

/-! ### Operands of an issue -/

theorem scratchpad_modPart (c e p : Nat) (f : Part → Part) (s : State) :
    (getEngine (modPart ⟨c, e, p⟩ f s) c e).scratchpad = (getEngine s c e).scratchpad := by
  have hengine := congrArg Engine.scratchpad (getEngine_modPart_self ⟨c, e, p⟩ f s)
  exact hengine

/-- A partition with more accumulator writes on their way. -/
def Part.addWrites (ws : List AccWrite) (g : Part) : Part := { g with writes := g.writes ++ ws }

/-- The state after an issue's operands `bytes` and scales `sc` have been read. -/
def issued (q : Seat) (g : Part) (x : Tile) (m : ArrayMode) (fmt n width : Nat) (sat : Bool) (bytes sc : List Byte) : State → State :=
  modPart q (Part.addWrites (issueWrites g m (unpackElems (fmtBits fmt) (inputsOf x.shape m) bytes) fmt sc n width sat))

/-- The tile `x` of the partition `g` can issue an integer mode: the format `f` selects `m`, the shape and the loaded weights take it, and
the entry `n`, the operands at `a` and the scales at `k` lie within what the tile has (07 R206, R213, 08 R256). -/
structure IntIssue (g : Part) (x : Tile) (m : ArrayMode) (a k f n : Nat) : Prop where
  tile : g.tile = some x
  mode : modeOf f = some m
  shape : shapeTakes x.shape m = true
  notBinary : m ≠ .binary
  weights : isIntFmt g.working.fmt = true
  notMx : isMx f = false
  pairs : formatsPair g.working.fmt f = true
  entry : n < entriesOf x.shape
  operands : a + ceilDiv (fmtBits f * inputsOf x.shape m) 8 ≤ x.live
  scales : k ≤ x.live

section
variable {s : State} {c e p : Nat} {g : Part} (hg : (getEngine s c e).parts[p]? = some g)
include hg

theorem parts_sawPoison (b : Bool) : ∃ b', (getEngine (sawPoison ⟨c, e, p⟩ b s) c e).parts[p]? = some { g with poisoned := b' }
    ∧ (getEngine (sawPoison ⟨c, e, p⟩ b s) c e).scratchpad = (getEngine s c e).scratchpad := by
  unfold sawPoison
  split
  · exact ⟨true, parts_modPart (q := ⟨c, e, p⟩) _ hg, scratchpad_modPart c e p _ s⟩
  · exact ⟨g.poisoned, hg, rfl⟩

/-- A read within the tile's extent gives its bytes. -/
theorem withScratch_fits {x : Tile} (hx : g.tile = some x) {a n : Nat} (hfit : a + n ≤ x.live) (f : List Byte → State → State) :
    ∃ b, withScratch ⟨c, e, p⟩ a n f s
      = f (SMap.getList 0 (getEngine s c e).scratchpad (g.base + a) n) (sawPoison ⟨c, e, p⟩ b s) := by
  refine ⟨anyBad (getEngine s c e).bad (g.base + a) n, ?_⟩
  have hread : readPlace s ⟨c, e, p⟩ n (.scratchpad a) = some (SMap.getList 0 (getEngine s c e).scratchpad (g.base + a) n,
      anyBad (getEngine s c e).bad (g.base + a) n) := by
    unfold readPlace
    dsimp only
    rw [partAt_of_parts hg, hx]
    exact if_pos hfit
  unfold withScratch
  rw [hread]

/-- An issue of an integer mode in a running pass adds its writes to the partition's. -/
theorem issue_int {x : Tile} {m : ArrayMode} {a k f n : Nat} (hpass : g.passRunning = true) (hi : IntIssue g x m a k f n) (w : Nat) (sat : Bool) :
    ∃ b, (getEngine (issue ⟨c, e, p⟩ a k f n w sat s) c e).parts[p]? = some { g with
      poisoned := b,
      writes := g.writes ++ rowWrites (intTerm x.shape m g.working (unpackElems (fmtBits f) (inputsOf x.shape m)
        (SMap.getList 0 (getEngine s c e).scratchpad (g.base + a) (ceilDiv (fmtBits f * inputsOf x.shape m) 8))) f)
        n sat (List.range (rowsOf x.shape)) } := by
  obtain ⟨hx, hmode, hshape, hbin, hint, hmx, hpair, hn, ha, hk⟩ := hi
  have hissue : issue ⟨c, e, p⟩ a k f n w sat s = withScratch ⟨c, e, p⟩ a (ceilDiv (fmtBits f * inputsOf x.shape m) 8)
      (fun bytes s1 => withScratch ⟨c, e, p⟩ k 0 (issued ⟨c, e, p⟩ g x m f n w sat bytes) s1) s := by
    have hsh : shapeOf g = x.shape := by rw [shapeOf, hx]; rfl
    unfold issue
    dsimp only
    rw [partAt_of_parts hg, hmode]
    dsimp only
    rw [hsh, hmx, if_pos (by simp [hpass, hshape, hpair, hn])]
    rfl
  obtain ⟨b, hbytes⟩ := withScratch_fits hg hx ha (fun bytes s1 => withScratch ⟨c, e, p⟩ k 0 (issued ⟨c, e, p⟩ g x m f n w sat bytes) s1)
  obtain ⟨b1, hg1, -⟩ := parts_sawPoison hg b
  obtain ⟨b', hscales⟩ := withScratch_fits hg1 (x := x) (a := k) (n := 0) hx hk (issued ⟨c, e, p⟩ g x m f n w sat
    (SMap.getList 0 (getEngine s c e).scratchpad (g.base + a) (ceilDiv (fmtBits f * inputsOf x.shape m) 8)))
  rw [hissue, hbytes, hscales]
  obtain ⟨b2, hg2, -⟩ := parts_sawPoison hg1 b'
  unfold issued
  rw [issueWrites_int hx hbin hint]
  exact ⟨b2, parts_modPart (q := ⟨c, e, p⟩) _ hg2⟩
end

/-! ### The statement on swaps -/

theorem integer_issue {s : State} {c e p : Nat} {g : Part} {x : Tile} {m : ArrayMode} {a k f n v : Nat} (hs : s.boot.mode = .service)
    (hg : (getEngine s c e).parts[p]? = some g) (hswap : canSwap g = true) (hq : g.queued = []) (hwrites : g.writes = [])
    (hi : IntIssue (swapped g) x m a k f n) (hv : v < vregsOf x.shape) (w : Nat) (sat : Bool) :
    ∃ t, exec (.stationarySwap c e p [.issue a k f n w sat, .lastIssue, .readAcc v n]) s = .next t
      ∧ ∀ r, r < rowsOf x.shape →
        SMap.find 0 (partAt t ⟨c, e, p⟩).vregs (v * 128 + r) = BitVec.ofInt 32 (accAdd sat (SMap.find 0 g.accum (r * 32 + n)).toInt
          (intTerm x.shape m g.shadow (unpackElems (fmtBits f) (inputsOf x.shape m)
            (SMap.getList 0 (getEngine s c e).scratchpad (g.base + a) (ceilDiv (fmtBits f * inputsOf x.shape m) 8))) f r)).1 := by
  have hrun := swapAndRun_swaps hg hswap [.issue a k f n w sat, .lastIssue, .readAcc v n]
  rw [swapSets_of_none_queued hg hswap hq] at hrun
  have hparts := parts_swapped hg hq
  have hpad : (getEngine (modPart ⟨c, e, p⟩ Part.swap s) c e).scratchpad = (getEngine s c e).scratchpad :=
    scratchpad_modPart c e p Part.swap s
  have hswapWork := tileWork_modPart ⟨c, e, p⟩ (f := Part.swap) (fun _ => rfl) s
  generalize modPart ⟨c, e, p⟩ Part.swap s = u at hrun hparts hpad hswapWork
  obtain ⟨b, hissue⟩ := issue_int hparts rfl hi w sat
  rw [hpad] at hissue
  have htile : (partAt u ⟨c, e, p⟩).tile = some x := by rw [partAt_of_parts hparts]; exact hi.tile
  have hops : runOps ⟨c, e, p⟩ [.issue a k f n w sat, .lastIssue, .readAcc v n] u
      = modPart ⟨c, e, p⟩ (fun (y : Part) => setLanes v (entryWords y n) (settleEntry n y))
        (modPart ⟨c, e, p⟩ lastIssue (issue ⟨c, e, p⟩ a k f n w sat u)) := by
    unfold runOps
    rw [htile]
    rfl
  have hwork := hswapWork.trans (tileWork_runOps ⟨c, e, p⟩ [.issue a k f n w sat, .lastIssue, .readAcc v n] u)
  refine ⟨_, whenServing_fabric hs hrun hwork.fabric, fun r hr => ?_⟩
  have hlast := parts_modPart (q := ⟨c, e, p⟩) lastIssue hissue
  rw [hops, partAt_of_parts (parts_modPart (q := ⟨c, e, p⟩) (fun (y : Part) => setLanes v (entryWords y n) (settleEntry n y)) hlast)]
  refine (vregs_readAcc (x := x) ?_ hv hr).trans ?_
  · exact hi.tile
  rw [settleEntry_rowWrites (T := intTerm x.shape m g.shadow (unpackElems (fmtBits f) (inputsOf x.shape m)
    (SMap.getList 0 (getEngine s c e).scratchpad (g.base + a) (ceilDiv (fmtBits f * inputsOf x.shape m) 8))) f) (sat := sat)
    (rows := List.range (rowsOf x.shape)), accum_rowWrites _ _ List.nodup_range, if_pos (List.mem_range.2 hr)]
  · rfl
  · show g.writes ++ _ = _
    rw [hwrites]
    rfl

theorem sets_swapped (s : State) (c e p : Nat) (g : Part) (hs : s.boot.mode = .service) (hg : (getEngine s c e).parts[p]? = some g) :
    (canSwap g = false → ∀ ops, exec (.stationarySwap c e p ops) s = .next s)
    ∧ (canSwap g = true → ∀ ops, ∃ t, exec (.stationarySwap c e p ops) s = .next t ∧ Worked s t c)
    ∧ (canSwap g = true → g.queued = [] →
      ∃ t, exec (.stationarySwap c e p []) s = .next t ∧ CoresOnly s t ∧ OtherEngines s t c e ∧ OtherCores s t c
        ∧ (getEngine t c e).parts[p]? = some (swapped g)) := by
  refine ⟨fun hc ops => whenServing_of_eq (swapAndRun_waits hg hc ops), fun hc ops => worked_changes hs (swapAndRun_swaps hg hc ops)
    ((tileWork_swapSets ⟨c, e, p⟩ s).trans (tileWork_runOps ..)).worked, fun hc hq => ?_⟩
  have hrun := swapAndRun_swaps hg hc []
  rw [runOps_nil, swapSets_of_none_queued hg hc hq] at hrun
  exact ⟨_, whenServing_coresOnly hs hrun (coresOnly_modCore c _ s), coresOnly_modCore c _ s, otherEngines_modEngine c e _ s,
    otherCores_modCore c _ s, parts_swapped hg hq⟩

end Sys2Proof.Machine

/-! PROOFS. A completed tile leaves its partition: it releases its outputs, runs again, lost its semaphores, or was a known-answer test
(07 R225, R228, 09 R277, 12 R361). -/
namespace Sys2Proof.Machine

/-! ### Outputs enter watch records and batches (09 R278, 16 R472 to R475) -/

/-- The watch records change at most. -/
def Watches (s t : State) : Prop := t = { s with tele := { s.tele with watchRun := t.tele.watchRun, watchCum := t.tele.watchCum } }

theorem Watches.trans {s t u : State} (h : Watches s t) (g : Watches t u) : Watches s u := by
  unfold Watches at *
  rw [g, h]

theorem Watches.foldl {α : Type} {f : State → α → State} (hf : ∀ s a, Watches s (f s a)) (l : List α) (s : State) : Watches s (l.foldl f s) :=
  List.foldlRecOn l f (motive := Watches s) (by exact rfl) fun t ht a _ => ht.trans (hf t a)

theorem watches_modCum (slot output tenant : Nat) (f : Watch → Watch) (s : State) : Watches s (modCum slot output tenant f s) := by
  unfold modCum
  dsimp only
  split <;> exact rfl

theorem watches_modRun (trs id slot output tenant : Nat) (f : WatchRun → WatchRun) (s : State) :
    Watches s (modRun trs id slot output tenant f s) := by
  unfold modRun
  dsimp only
  split <;> exact rfl

theorem watches_modWatch (j : Job) (output : Nat) (f : Watch → Watch) (s : State) : Watches s (modWatch j output f s) :=
  (watches_modRun ..).trans (watches_modCum ..)

theorem watches_watchOutput (j : Job) (g : WatchTag) (c e p i : Nat) (o : OutRun) (a : Option (BitVec 32)) (s : State) :
    Watches s (watchOutput j g c e p i o a s) := by
  unfold watchOutput
  exact (watches_modWatch ..).trans (watches_modRun ..)

theorem Watches.core {s t : State} (h : Watches s t) : t.core = s.core := by rw [show t = _ from h]

theorem Watches.trs {s t : State} (h : Watches s t) : t.trs = s.trs := by rw [show t = _ from h]

theorem Watches.counted {s t : State} (h : Watches s t) (kind inst : Nat) : counted kind inst t = counted kind inst s := by
  unfold Machine.counted
  rw [show t = _ from h]

/-- The cores, the batches and the watch records change at most. -/
def Releases (s t : State) : Prop :=
  t = { s with core := { s.core with cores := t.core.cores, batches := t.core.batches },
               tele := { s.tele with watchRun := t.tele.watchRun, watchCum := t.tele.watchCum } }

theorem Releases.trans {s t u : State} (h : Releases s t) (g : Releases t u) : Releases s u := by
  unfold Releases at *
  rw [g, h]

theorem CoresOnly.releases {s t : State} (h : CoresOnly s t) : Releases s t := by
  unfold Releases
  rw [show t = _ from h]

theorem Watches.releases {s t : State} (h : Watches s t) : Releases s t := by
  unfold Releases
  rw [show t = _ from h]

theorem releases_modBatch (no : Nat) (f : Batch → Batch) (s : State) : Releases s (modBatch no f s) := rfl

theorem releases_releaseOut (c e p : Nat) (x : Tile) (j : Job) (s : State) (o : OutRun) : Releases s (releaseOut c e p x j s o)
    ∧ (releaseOut c e p x j s o).core.cores = s.core.cores := by
  have hcount : ∀ w, w = (match o.tensor with | some t => modBatch j.batch (countOut t o) s | none => s) →
      Releases s w ∧ w.core.cores = s.core.cores := by
    rintro w rfl
    split
    · exact ⟨releases_modBatch .., rfl⟩
    · exact ⟨rfl, rfl⟩
  unfold releaseOut
  dsimp only
  obtain ⟨hw, hcores⟩ := hcount _ rfl
  cases o.watch with
  | none => exact ⟨hw, hcores⟩
  | some g =>
    have hwatch := watches_watchOutput j g c e p x.index o
    exact ⟨hw.trans (hwatch ..).releases, (congrArg Cores.cores (hwatch ..).core).trans hcores⟩

theorem releases_releaseOuts (c e p : Nat) (x : Tile) (j : Job) (outs : List OutRun) (s : State) :
    Releases s (outs.foldl (releaseOut c e p x j) s) ∧ (outs.foldl (releaseOut c e p x j) s).core.cores = s.core.cores :=
  List.foldlRecOn outs _ (motive := fun t => Releases s t ∧ t.core.cores = s.core.cores) ⟨rfl, rfl⟩ fun t ht o _ =>
    ⟨ht.1.trans (releases_releaseOut c e p x j t o).1, (releases_releaseOut c e p x j t o).2.trans ht.2⟩

/-! ### A job past its last tile boundary -/

theorem jobDone_engines (jid : Nat) (k : Core) : (jobDone jid k).engines = k.engines := by
  unfold jobDone
  split
  · rfl
  · split
    · rfl
    · dsimp only
      split <;> rfl

/-- A job with a ready tile goes on. -/
theorem jobDone_of_ready {jid : Nat} {k : Core} (h : ∃ y ∈ k.ready, y.job = jid) : jobDone jid k = k := by
  obtain ⟨y, hy, hjob⟩ := h
  have hany : k.ready.any (fun x => x.job == jid) = true := List.any_eq_true.2 ⟨y, hy, beq_iff_eq.2 hjob⟩
  unfold jobDone
  rw [hany]
  rfl

/-- A core with the tile `x` ready again, for the group path (09 R277). -/
def Core.readyAgain (x : Tile) (k : Core) : Core := { k with ready := k.ready ++ [{ x with groupPath := true, lines := [] }] }

/-- A batch with a tile that runs again (09 R283). -/
def Batch.reran (b : Batch) : Batch := { b with rerun := true }

/-! ### The partition of a completed tile -/

/-- A list of one image keeps none once the element that has it loses it. -/
theorem filterMap_modify_none {α β : Type} {f : α → Option β} {φ : α → α} {l : List α} {i : Nat} {a : α} {b : β}
    (hl : l.filterMap f = [b]) (ha : l[i]? = some a) (hb : f a = some b) (hφ : f (φ a) = none) : (l.modify i φ).filterMap f = [] := by
  induction l generalizing i with
  | nil => exact absurd ha nofun
  | cons y l ih =>
    cases i with
    | zero =>
      obtain rfl : y = a := Option.some.inj ha
      rw [List.filterMap_cons_some hb] at hl
      rw [List.modify_zero_cons, List.filterMap_cons_none hφ]
      exact (List.cons.inj hl).2
    | succ i =>
      have hmem : a ∈ l := List.mem_of_getElem? ha
      cases hy : f y with
      | none =>
        rw [List.filterMap_cons_none hy] at hl
        rw [List.modify_succ_cons, List.filterMap_cons_none hy]
        exact ih hl ha
      | some z =>
        rw [List.filterMap_cons_some hy] at hl
        exact absurd (List.filterMap_eq_nil_iff.1 (List.cons.inj hl).2 a hmem) (by rw [hb]; exact nofun)

theorem jobOf_modPart (q : Seat) (f : Part → Part) (s : State) (jid : Nat) :
    jobOf (getCore (modPart q f s) q.core) jid = jobOf (getCore s q.core) jid :=
  (congrArg (jobOf · jid) (getCore_modPart_self q f s)).trans rfl

section
variable {s u : State} {c e p : Nat} {ops : List EngOp} {g : Part} {x : Tile} (h : Closed s c e p ops u g x)
include h

theorem Closed.work : TileWork c e s u := by
  obtain ⟨rfl, -⟩ := h
  exact tileWork_closeTile ⟨c, e, p⟩ ops s

theorem Closed.parts : (getEngine u c e).parts[p]? = some g := by
  obtain ⟨-, hg, -⟩ := h
  exact hg

theorem Closed.tile : g.tile = some x := by
  obtain ⟨-, -, hx, -⟩ := h
  exact hx

theorem Closed.parts_gone : (getEngine (modPart ⟨c, e, p⟩ clearPart u) c e).parts[p]? = some (clearPart g) :=
  parts_modPart (q := ⟨c, e, p⟩) clearPart h.parts

theorem Closed.cores_gone : OtherCores s (modPart ⟨c, e, p⟩ clearPart u) c := h.work.cores.trans (otherCores_modCore c _ u)

theorem Closed.heldOf_gone (q id : Nat) : heldOf (modPart ⟨c, e, p⟩ clearPart u) q id = heldOf s q id :=
  (heldOf_of_trs_eq rfl q id).trans (h.work.heldOf q id)

theorem tileComplete_test (fails : List CheckTest) (hk : x.kat ≠ none) :
    tileComplete c e p ops fails s = katComplete c e fails (modPart ⟨c, e, p⟩ clearPart u) := by
  obtain ⟨hu, -, -, hx⟩ := h
  unfold tileComplete
  dsimp only
  rw [hx, ← hu]
  exact if_pos (Option.isSome_iff_ne_none.2 hk)

section
variable (fails : List CheckTest) {j : Job} (hk : x.kat = none) (hj : jobOf (getCore u c) x.job = some j)
include hk hj

theorem tileComplete_poisoned (hp : g.poisoned = true) : tileComplete c e p ops fails s
    = endJobCommand stPoisoned j (poisonPart c (some e) g (modPart ⟨c, e, p⟩ clearPart u)) := by
  obtain ⟨hu, hg, -, hx⟩ := h
  unfold tileComplete
  dsimp only
  rw [hx, ← hu]
  dsimp only
  rw [hk, hj, partAt_of_parts hg]
  exact if_pos hp

theorem tileComplete_unpoisoned (hp : g.poisoned = false) : tileComplete c e p ops fails s =
    if !(heldSems (getCore u c) x).isEmpty then
      endJobCommand stSemTimeout j (bump 0x70 (3 * j.slot) 1 (modPart ⟨c, e, p⟩ clearPart u))
    else if g.flagged && !x.groupPath then recoverTile c x j g.outs (modPart ⟨c, e, p⟩ clearPart u)
    else modCore c (jobDone x.job) (g.outs.foldl (releaseOut c e p x j) (modPart ⟨c, e, p⟩ clearPart u)) := by
  obtain ⟨hu, hg, -, hx⟩ := h
  unfold tileComplete
  dsimp only
  rw [hx, ← hu]
  dsimp only
  rw [hk, hj, partAt_of_parts hg, hp]
  rfl

theorem tileComplete_holding (hp : g.poisoned = false) (hsem : heldSems (getCore u c) x ≠ []) : tileComplete c e p ops fails s
    = endJobCommand stSemTimeout j (bump 0x70 (3 * j.slot) 1 (modPart ⟨c, e, p⟩ clearPart u)) := by
  rw [tileComplete_unpoisoned h fails hk hj hp]
  exact if_pos (by simp [hsem])

theorem tileComplete_clamped (hp : g.poisoned = false) (hsem : heldSems (getCore u c) x = []) (hflag : g.flagged = true)
    (hgroup : x.groupPath = false) : tileComplete c e p ops fails s
      = recoverTile c x j g.outs (modPart ⟨c, e, p⟩ clearPart u) := by
  rw [tileComplete_unpoisoned h fails hk hj hp, hsem, hflag, hgroup]
  rfl

theorem tileComplete_releases (hp : g.poisoned = false) (hsem : heldSems (getCore u c) x = [])
    (hflag : g.flagged = false ∨ x.groupPath = true) : tileComplete c e p ops fails s
      = modCore c (jobDone x.job) (g.outs.foldl (releaseOut c e p x j) (modPart ⟨c, e, p⟩ clearPart u)) := by
  have hgo : (g.flagged && !x.groupPath) = false := by rcases hflag with hf | hf <;> simp [hf]
  rw [tileComplete_unpoisoned h fails hk hj hp, hsem, hgo]
  rfl
end

/-! ### Outputs are released (07 R225) -/

/-- What releases outputs after a tile's work passes the fence as it is. -/
theorem Closed.releases_pass {t : State} (hs : s.boot.mode = .service) {f : State → State} (hf : f s = t) (ht : Releases u t) :
    whenServing f s = .next t := by
  have hwork := h.work.fabric
  refine whenServing_fabric hs hf ?_
  unfold Releases at ht
  rw [ht, hwork]

theorem tile_released (hs : s.boot.mode = .service) (fails : List CheckTest) {j : Job} (hk : x.kat = none)
    (hj : jobOf (getCore u c) x.job = some j) (hp : g.poisoned = false) (hsem : heldSems (getCore u c) x = [])
    (hflag : g.flagged = false ∨ x.groupPath = true) :
    ∃ t, exec (.tileComplete c e p ops fails) s = .next t ∧ OtherCores s t c
      ∧ (getEngine t c e).parts[p]? = some (clearPart g)
      ∧ t = { u with core := { u.core with cores := t.core.cores, batches := t.core.batches },
                     tele := { u.tele with watchRun := t.tele.watchRun, watchCum := t.tele.watchCum } }
      ∧ (g.outs = [] → t.core.batches = u.core.batches ∧ t.tele = u.tele)
      ∧ ((∃ y ∈ (getCore u c).ready, y.job = x.job) → jobOf (getCore t c) x.job = some j) := by
  have hrun := tileComplete_releases h fails hk hj hp hsem hflag
  obtain ⟨hrel, hcores⟩ := releases_releaseOuts c e p x j g.outs (modPart ⟨c, e, p⟩ clearPart u)
  have hall : Releases u (modCore c (jobDone x.job) (g.outs.foldl (releaseOut c e p x j) (modPart ⟨c, e, p⟩ clearPart u))) :=
    ((coresOnly_modCore c _ u).releases.trans hrel).trans (coresOnly_modCore c _ _).releases
  refine ⟨_, h.releases_pass hs hrun hall, (h.cores_gone.of_core_eq hcores).trans (otherCores_modCore c _ _), ?_, hall, fun ho => ?_,
    fun hready => ?_⟩
  · rw [getEngine_modCore_self, jobDone_engines]
    exact (congrArg (fun k : Engine => k.parts[p]?) (getEngine_of_cores_eq hcores c e)).trans h.parts_gone
  · rw [ho]
    exact ⟨rfl, rfl⟩
  · rw [getCore_modCore_self, getCore_of_cores_eq hcores, jobDone_of_ready, jobOf_modPart ⟨c, e, p⟩, hj]
    rw [getCore_modPart_self ⟨c, e, p⟩ clearPart u]
    exact hready

/-! ### A clamped addition on the late path (09 R277) -/

theorem tile_recovered (hs : s.boot.mode = .service) (fails : List CheckTest) {j : Job} (hk : x.kat = none)
    (hj : jobOf (getCore u c) x.job = some j) (hp : g.poisoned = false) (hsem : heldSems (getCore u c) x = [])
    (hflag : g.flagged = true) (hgroup : x.groupPath = false) :
    ∃ t, exec (.tileComplete c e p ops fails) s = .next t ∧ OtherCores s t c
      ∧ (getEngine t c e).parts[p]? = some (clearPart g)
      ∧ (getCore t c).ready = (getCore u c).ready ++ [{ x with groupPath := true, lines := [] }]
      ∧ t.core.batches = u.core.batches.map (fun b => if b.no = j.batch then { b with rerun := true } else b)
      ∧ counted 0x70 (3 * j.slot + 2) t = counted 0x70 (3 * j.slot + 2) u + 1 ∧ t.trs = u.trs ∧ t.outbox = s.outbox := by
  have hrun := tileComplete_clamped h fails hk hj hp hsem hflag hgroup
  obtain ⟨v, hv⟩ : ∃ v, v = modCore c (Core.readyAgain x) (modPart ⟨c, e, p⟩ clearPart u) := ⟨_, rfl⟩
  obtain ⟨w, hw⟩ : ∃ w, w = bump 0x70 (3 * j.slot + 2) 1 (modBatch j.batch Batch.reran v) := ⟨_, rfl⟩
  have hwatch : Watches w (recoverTile c x j g.outs (modPart ⟨c, e, p⟩ clearPart u)) := by
    rw [hw, hv]
    exact Watches.foldl (fun s' o => watches_modWatch j o _ s') _ _
  generalize recoverTile c x j g.outs (modPart ⟨c, e, p⟩ clearPart u) = t at hrun hwatch
  have hcores : t.core.cores = v.core.cores := by rw [hwatch.core, hw]; rfl
  have hfabric : t = { s with core := t.core, trs := t.trs, tier := t.tier, tele := t.tele } := by
    have hwork := h.work.fabric
    unfold Watches at hwatch
    rw [hwatch, hw, hv]
    rw [hwork]
    rfl
  refine ⟨t, whenServing_fabric hs hrun hfabric, ?_, ?_, ?_, ?_, ?_, ?_, ?_⟩
  · exact (h.cores_gone.trans (by rw [hv]; exact otherCores_modCore c _ _)).of_core_eq hcores
  · rw [getEngine_of_cores_eq hcores, hv, getEngine_modCore_self]
    exact h.parts_gone
  · rw [getCore_of_cores_eq hcores, hv, getCore_modCore_self, getCore_modPart_self ⟨c, e, p⟩ clearPart u]
    rfl
  · rw [hwatch.core, hw, hv]
    rfl
  · have hcount : counted 0x70 (3 * j.slot + 2) (modBatch j.batch Batch.reran v) = counted 0x70 (3 * j.slot + 2) u := by
      rw [hv]
      rfl
    rw [hwatch.counted, hw, counted_bump_self, hcount]
    exact congrArg (_ + ·) rfl
  · have htrs : v.trs = u.trs := by rw [hv]; rfl
    rw [hwatch.trs, hw, bump_trs]
    exact htrs
  · rw [hfabric]

/-! ### A semaphore still held (07 R228) -/

omit h in
theorem counters_finishWith (pick : Option Nat) (quiet : Bool) (q id : Nat) (st : Byte) (res : BitVec 64) (s : State) :
    (finishWith pick quiet q id st res s).tele.counters = s.tele.counters := by
  have hdrop : (dropBatches q id st (endJobs q id s)).tele.counters = s.tele.counters := by
    unfold dropBatches
    split <;> rfl
  have hsettle (ok : Bool) (t : State) : (settleWatch q id ok t).tele.counters = t.tele.counters := by
    unfold settleWatch
    dsimp only
    split <;> rfl
  unfold finishWith
  split
  · rfl
  · dsimp only
    split
    · rw [addCompletion_tele]
      exact (hsettle _ _).trans hdrop
    · exact (hsettle _ _).trans hdrop

theorem tile_timed_out (hs : s.boot.mode = .service) (fails : List CheckTest) {j : Job} (hk : x.kat = none)
    (hj : jobOf (getCore u c) x.job = some j) (hp : g.poisoned = false) (hsem : heldSems (getCore u c) x ≠ []) (hserving : Serving s j) :
    ∃ t, exec (.tileComplete c e p ops fails) s = .next t ∧ Reported t j.trs j.id 0x12 0
      ∧ counted 0x70 (3 * j.slot) t = counted 0x70 (3 * j.slot) u + 1 ∧ t.tun = s.tun := by
  have hserving' : Serving (bump 0x70 (3 * j.slot) 1 (modPart ⟨c, e, p⟩ clearPart u)) j :=
    hserving.of_heldOf_eq ((heldOf_of_trs_eq rfl _ _).trans (h.heldOf_gone _ _))
  have hrun := tileComplete_holding h fails hk hj hp hsem
  rw [endJobCommand_of_serving hserving' (by decide)] at hrun
  refine ⟨_, whenServing_service _ hs, reported_fenced hrun (hserving'.reported _ 0), ?_, ?_⟩
  · have hcounters := counters_finishWith none false j.trs j.id stSemTimeout 0 (bump 0x70 (3 * j.slot) 1 (modPart ⟨c, e, p⟩ clearPart u))
    have hcount := counted_bump_self 0x70 (3 * j.slot) 1 (modPart ⟨c, e, p⟩ clearPart u)
    unfold counted at hcount ⊢
    rw [fenced_tele, hrun]
    exact (congrArg (SMap.find 0 · _) hcounters).trans hcount
  · show (tileComplete c e p ops fails s).tun = s.tun
    rw [hrun, finish_tun]
    exact h.work.tun

/-! ### Known-answer tests (12 R361) -/

/-- Without its only tile an engine runs none. -/
theorem Closed.running_gone (hrun : running (getEngine s c e) = [x]) : running (getEngine (modPart ⟨c, e, p⟩ clearPart u) c e) = [] := by
  have hgone := congrArg running (getEngine_modPart_self ⟨c, e, p⟩ clearPart u)
  refine hgone.trans (filterMap_modify_none ?_ h.parts h.tile rfl)
  exact h.work.running.trans hrun

theorem test_completed (hs : s.boot.mode = .service) (fails : List CheckTest) (hk : x.kat ≠ none) (hrun : running (getEngine s c e) = [x]) :
    (fails = [] → ∃ t, exec (.tileComplete c e p ops fails) s = .next t ∧ Worked s t c
        ∧ (getEngine t c e).parts[p]? = some (clearPart g))
    ∧ (fails ≠ [] → ∃ t, exec (.tileComplete c e p ops fails) s = .next t ∧ (getEngine t c e).disabled = true
        ∧ (getEngine t c e).stopped = true ∧ t.tele.eventSeq = s.tele.eventSeq + 2) := by
  have htest := tileComplete_test h fails hk
  have hworked : Worked s (modPart ⟨c, e, p⟩ clearPart u) c := h.work.worked.modCore _
  unfold katComplete at htest
  refine ⟨fun hf => ?_, fun hf => ?_⟩
  · rw [hf] at htest ⊢
    exact ⟨_, whenServing_fabric hs htest hworked.fabric, hworked, h.parts_gone⟩
  · rw [if_neg (by simpa using hf)] at htest
    obtain ⟨hdisabled, -, hraises, hseq⟩ := disableEngine_after (h.running_gone hrun) (raises_raise 0x0020 1 (10 * c + e) 0 1 _) (raise_core ..)
    refine ⟨_, whenServing_service _ hs, ?_, ?_, ?_⟩
    · rw [getEngine_of_core_eq ((fenced_core ..).trans (congrArg State.core htest)), hdisabled]
    · rw [getEngine_of_core_eq ((fenced_core ..).trans (congrArg State.core htest)), hdisabled]
    · rw [fenced_tele, htest, hseq, raise_eventSeq]
      show u.tele.eventSeq + 1 + 1 = _
      rw [h.work.eventSeq]
      exact BitVec.add_assoc ..

end
end Sys2Proof.Machine

/-! PROOFS. A command that meets poison: its ending leaves the marks of poisoned lines, and what it reports (07 R220, R229; 04 R132, 05 Table
54, 06 Table 65). -/
namespace Sys2Proof.Machine

/-! ### Work before an ending leaves the cores -/

theorem core_foldl {α : Type} {f : State → α → State} (hf : ∀ s a, (f s a).core = s.core) (l : List α) (s : State) :
    (l.foldl f s).core = s.core :=
  List.foldlRecOn l f (motive := fun t => t.core = s.core) rfl fun t ht a _ => (hf t a).trans ht

theorem Delivers.core {p : Nat} {out : List Out} {s t : State} (h : Delivers p out s t) : t.core = s.core := by
  obtain ⟨-, -, m, k, e, rfl⟩ := h
  rfl

theorem Accounts.core {p : Nat} {s t : State} (h : Accounts p s t) : t.core = s.core := by
  obtain ⟨-, -, m, f, x, e, rfl⟩ := h
  rfl

theorem Joins.core {s t : State} (h : Joins s t) : t.core = s.core := by
  obtain ⟨-, m, x, e, w, rfl⟩ := h
  rfl

theorem stepLeft_core (p id : Nat) (code : Byte) (q : Step) (s : State) : (stepLeft p id code q s).core = s.core := by
  obtain ⟨m, e, h⟩ := stepLeft_eq p id code q s
  rw [h]

theorem searchBlocks_core (p : Nat) (d : Desc) (r : SearchRec) (s : State) : (searchBlocks p d r s).core = s.core :=
  core_foldl (fun _ _ => dmaWrite_core ..) _ s

theorem readRegion_core (p : Nat) (r : Region') (s : State) : (readRegion p r s).core = s.core := by
  refine (core_foldl (fun s' i => ?_) _ _).trans (delivers_touchRange p ..).core
  split
  · exact raise_core ..
  · rfl

theorem ite_dmaWrite_core (b : Prop) [Decidable b] (p a : Nat) (bytes : List Byte) (r : Bool) (s : State) :
    (if b then s else dmaWrite p a bytes r s).core = s.core := by
  split
  · rfl
  · exact dmaWrite_core ..

theorem filterOutput_core (p : Nat) (d : Desc) (len : Nat) (fm : RecFmt) (y : Pred) (f : Found) (s : State) :
    (filterOutput p d len fm y f s).1.core = s.core := by
  unfold filterOutput
  dsimp only
  rw [dmaWrite_core]
  exact ite_dmaWrite_core ..

theorem embedOutput_core (p : Nat) (d : Desc) (x : FnSlot) (m : Made) (n : Nat) (s : State) : (embedOutput p d x m n s).core = s.core := by
  unfold embedOutput
  dsimp only
  rw [dmaWrite_core]
  exact ite_dmaWrite_core ..

/-! ### Endings leave the marks -/

theorem marksGrow_finish (p id : Nat) (st : Byte) (res : BitVec 64) {s t : State} (h : t.core = s.core) :
    MarksGrow s (finish p id st res t) := (MarksGrow.of_core_eq h).trans (marksGrow_finishWith none false p id st res t)

theorem marksGrow_attendEndWith (quiet : Bool) (p id : Nat) (code : Byte) (s : State) : MarksGrow s (attendEndWith quiet p id code s) := by
  cases hq : (heldOf s p id).bind (·.step) with
  | none =>
    unfold attendEndWith
    rw [hq]
    exact marksGrow_finishWith ..
  | some q =>
    rw [attendEndWith_of_step quiet code hq]
    exact ((MarksGrow.of_core_eq (stepLeft_core ..)).trans (marksGrow_finishWith ..)).trans (.of_core_eq (joins_settleLeaves _).core)

theorem marksGrow_searchStop (p id : Nat) (st : Byte) (h : Held) (s : State) : MarksGrow s (searchStop p id st h s) := by
  unfold searchStop
  split
  · exact marksGrow_finish p id st 0 rfl
  · refine marksGrow_finish p id _ _ ?_
    split
    · exact searchBlocks_core ..
    · rfl

theorem runStatus_of_ne {st : Byte} (h : st ≠ stOk) (sts : List Byte) : runStatus st sts = st := if_neg h

theorem marksGrow_filterRun (p id : Nat) (st : Byte) (h : Held) (s : State) : MarksGrow s (filterRun p id st h s) := by
  unfold filterRun
  dsimp only
  split
  · exact marksGrow_finish p id _ _ rfl
  · split
    · exact marksGrow_finish p id _ _ rfl
    · exact marksGrow_finish p id _ _ ((filterOutput_core ..).trans (readRegion_core ..))

section
variable {st : Byte} (hst : st ≠ stOk)
include hst

theorem marksGrow_embedCommit (p id acc : Nat) (d : Desc) (x : FnSlot) (m : Made) {s t : State} (ht : t.core = s.core) :
    MarksGrow s (embedCommit p id acc d x m st t) := by
  unfold embedCommit
  dsimp only
  rw [if_neg (by simp [hst])]
  exact marksGrow_finish p id st _ ((embedOutput_core ..).trans ht)

theorem marksGrow_embedRun (p id : Nat) (h : Held) (s : State) : MarksGrow s (embedRun p id st h s) := by
  unfold embedRun
  dsimp only
  split
  · split
    · exact marksGrow_finish p id _ _ rfl
    · exact marksGrow_embedCommit hst p id _ _ _ _ (drawn_core ..)
  · split
    · exact marksGrow_finish p id _ _ rfl
    · rw [runStatus_of_ne hst]
      exact marksGrow_embedCommit hst p id _ _ _ _ ((drawn_core ..).trans (readRegion_core ..))

theorem marksGrow_chainFilter (p id : Nat) (h : Held) (s : State) : MarksGrow s (chainFilter p id st h s) := by
  unfold chainFilter
  dsimp only
  rw [runStatus_of_ne hst, if_neg (c := st = stOk ∧ _) (fun hbad => hst hbad.1), if_pos hst]
  exact marksGrow_finish p id st _ ((embedOutput_core ..).trans ((filterOutput_core ..).trans ((drawn_core ..).trans (readRegion_core ..))))

theorem marksGrow_chainRun (p id : Nat) (h : Held) (s : State) : MarksGrow s (chainRun p id st h s) := by
  unfold chainRun
  rw [if_neg hst, if_neg hst]
  split
  · exact marksGrow_searchStop ..
  · split
    · exact marksGrow_finish p id _ _ rfl
    · split
      · exact marksGrow_chainFilter hst p id h s
      · exact marksGrow_searchStop ..

theorem marksGrow_recordsStop (p id : Nat) (h : Held) (s : State) : MarksGrow s (recordsStop p id st h s) := by
  unfold recordsStop
  split
  · unfold recordsRun
    split
    · exact marksGrow_filterRun ..
    · exact marksGrow_embedRun hst p id h s
    · exact marksGrow_chainRun hst p id h s
  · dsimp only
    split
    · exact marksGrow_finish p id _ _ (filterOutput_core ..)
    · exact marksGrow_finish p id _ _ (embedOutput_core ..)
    · exact marksGrow_searchStop ..
end

theorem marksGrow_endCommand (quiet : Bool) (p id : Nat) (st : Byte) (res : BitVec 64) (s : State) :
    MarksGrow s (endCommand quiet p id st res s) := by
  unfold endCommand
  split
  · exact MarksGrow.refl s
  · split
    · exact MarksGrow.refl s
    · split
      · exact marksGrow_attendEndWith ..
      · exact (marksGrow_finishWith ..).trans (.of_core_eq rfl)

theorem stopCommand_core (p id : Nat) (st : Byte) (s : State) : (stopCommand p id st s).core = s.core := by
  unfold stopCommand
  split
  · rfl
  · split
    · exact (decideEnd_core ..).trans (accounts_applyStopped ..).core
    · rfl

theorem marksGrow_reportDecided (quiet : Bool) (p id : Nat) (s : State) : MarksGrow s (reportDecided quiet p id s) := by
  unfold reportDecided
  split
  · exact MarksGrow.refl s
  · exact marksGrow_endCommand ..

theorem marksGrow_mediaStop {st : Byte} (hst : st ≠ stOk) (p id : Nat) (s : State) : MarksGrow s (mediaStop p id st s) := by
  unfold mediaStop
  split
  · exact MarksGrow.refl s
  · split
    · exact MarksGrow.refl s
    · split
      · exact marksGrow_attendEndWith ..
      · exact marksGrow_searchStop ..
      · exact marksGrow_recordsStop hst ..
      · exact marksGrow_recordsStop hst ..
      · exact marksGrow_recordsStop hst ..
      · exact (MarksGrow.of_core_eq (stopCommand_core ..)).trans (marksGrow_reportDecided ..)

theorem marksGrow_endJobCommand {st : Byte} (hst : st ≠ stOk) (j : Job) (s : State) : MarksGrow s (endJobCommand st j s) := by
  unfold endJobCommand
  split
  · exact marksGrow_endJobs ..
  · split
    · exact marksGrow_endJobs ..
    · split
      · exact marksGrow_attendEndWith ..
      · split
        · exact marksGrow_mediaStop hst ..
        · exact marksGrow_finish _ _ st 0 rfl

/-! ### What a command that meets poison reports -/

theorem Held.ended_of_undecided (h : Held) (hu : h.undecided = true) : h.ended = false := by
  unfold Held.undecided at hu
  simpa using (Bool.and_eq_true_iff.1 hu).1

section
variable {s : State} {j : Job} {h : Held} (hh : heldOf s j.trs j.id = some h) (hu : h.undecided = true)
include hh hu

theorem endJobCommand_search {r : SearchRec} (hop : h.op = 0x20) (hr : h.search = some r) (hl : r.loaded = true) :
    Reported (endJobCommand stPoisoned j s) j.trs j.id (worse r.lost stPoisoned) (BitVec.ofNat 64 (searchResult h.desc r)) := by
  have hended := h.ended_of_undecided hu
  have hdesc : searchDesc h = h.desc := by
    unfold searchDesc
    rw [hop]
    rfl
  have hend : endJobCommand stPoisoned j s = finish j.trs j.id (worse r.lost stPoisoned) (BitVec.ofNat 64 (searchResult h.desc r))
      (searchBlocks j.trs h.desc r s) := by
    unfold endJobCommand mediaStop searchStop
    rw [hh]
    dsimp only
    simp only [hended, hu, hop, hr, hl, hdesc]
    rfl
  rw [hend]
  exact finish_reported _ _ ((heldOf_of_held_eq (held_searchBlocks ..) _).trans hh)

theorem endJobCommand_step {q : Step} (hop : h.op = 0x13) (hq : h.step = some q) :
    Reported (endJobCommand stPoisoned j s) j.trs j.id stPoisoned (BitVec.ofNat 64 q.doneLayers) := by
  have hended := h.ended_of_undecided hu
  have hend : endJobCommand stPoisoned j s = attendEnd j.trs j.id stPoisoned s := by
    unfold endJobCommand
    rw [hh]
    dsimp only
    simp only [hended, hop]
    rfl
  rw [hend]
  exact attendEnd_reported stPoisoned hh hq
end

/-! ### A tile that read poison -/

section
variable {s u : State} {c e p : Nat} {ops : List EngOp} {g : Part} {x : Tile} (h : Closed s c e p ops u g x)
include h

theorem tile_poisoned (hs : s.boot.mode = .service) (fails : List CheckTest) {j : Job} (hk : x.kat = none)
    (hj : jobOf (getCore u c) x.job = some j) (hp : g.poisoned = true) {y : Held} (hy : heldOf s j.trs j.id = some y)
    (hu : y.undecided = true) :
    ∃ t, exec (.tileComplete c e p ops fails) s = .next t ∧ LinesPoisoned t c e g x j
      ∧ (∀ r, y.op = 0x20 → y.search = some r → r.loaded = true →
          Reported t j.trs j.id (worse r.lost 0x0B) (BitVec.ofNat 64 (searchResult y.desc r)))
      ∧ (∀ q, y.op = 0x13 → y.step = some q → s.heat.windowOpen = true →
          Reported t j.trs j.id 0x0B (BitVec.ofNat 64 q.doneLayers)) := by
  have hrun := tileComplete_poisoned h fails hk hj hp
  have hlines : LinesPoisoned (poisonPart c (some e) g (modPart ⟨c, e, p⟩ clearPart u)) c e g x j :=
    linesPoisoned_poisonPart h.tile ((jobOf_modPart ⟨c, e, p⟩ clearPart u x.job).trans hj)
  have hheld : heldOf (poisonPart c (some e) g (modPart ⟨c, e, p⟩ clearPart u)) j.trs j.id = some y :=
    (heldOf_of_trs_eq (coresOnly_poisonPart ..).trs _ _).trans ((h.heldOf_gone _ _).trans hy)
  have hcore := (fenced_core (tileComplete c e p ops fails) s).trans (congrArg State.core hrun)
  exact ⟨_, whenServing_service _ hs, (hlines.grow (marksGrow_endJobCommand (by decide) j _)).grow (.of_core_eq hcore),
    fun r hop hr hl => reported_fenced hrun (endJobCommand_search hheld hu hop hr hl),
    fun q hop hq _ => reported_fenced hrun (endJobCommand_step hheld hu hop hq)⟩
end

/-! ### The statement -/

/-- Settles O39: a dispatch seats the next tile or restores work (`tiles_dispatched`); a completed tile takes the one of its five ways that its
partition and job call for (`tile_released`, `tile_recovered`, `tile_poisoned`, `tile_timed_out`, `test_completed`); a swap makes the shadow
registers the working ones, and an issue after it adds into settled entries (`sets_swapped`, `integer_issue`). -/
theorem tilesAreDispatchedSwappedAndCompleted : Obligations.TilesAreDispatchedSwappedAndCompleted := by
  refine ⟨fun s c e p g ls hs hcan hg htile => tiles_dispatched s c e p g ls hs hcan hg htile, ?_, fun s c e p g hs hg => ?_⟩
  · intro s u c e p ops fails g x hs hc
    exact ⟨fun j hk hj => ⟨fun hp hsem hflag => tile_released hc hs fails hk hj hp hsem hflag,
        fun hp hsem hflag hgroup => tile_recovered hc hs fails hk hj hp hsem hflag hgroup,
        fun hp y hy hu => tile_poisoned hc hs fails hk hj hp hy hu,
        fun hp hsem hserving => tile_timed_out hc hs fails hk hj hp hsem hserving⟩,
      fun hk hrun => test_completed hc hs fails hk hrun⟩
  · obtain ⟨hwaits, hworks, hswaps⟩ := sets_swapped s c e p g hs hg
    refine ⟨hwaits, hworks, hswaps, ?_⟩
    rintro x m a k f n v w sat xs hswap hq hwrites hx hmode hshape hbin hint hmx hpair hn hv ha hk rfl
    exact integer_issue hs hg hswap hq hwrites ⟨hx, hmode, hshape, hbin, hint, hmx, hpair, hn, ha, hk⟩ hv w sat

end Sys2Proof.Machine

/-! PROOFS. A batch whose tiles have all completed updates its adapted tensors, and its command goes on with the next batch
(09 R279 to R283). -/
namespace Sys2Proof.Machine

/-! ### The adaptation states of a batch (09 R280, R281) -/

/-- The states of one slot and one tenant stand apart by their tensors. -/
theorem adaptKey_inj (slot tenant : Nat) {i j : Nat} : adaptKey slot i tenant = adaptKey slot j tenant ↔ i = j := by
  unfold adaptKey
  omega

/-- The adaptation state of a tensor after a batch, from the counts of its own conversions (09 R281). -/
def adapted (b : Batch) (s : State) (tensor : Nat) : Adapt :=
  adaptUpdate (clipHi s b.slot) (countsOf b tensor).n (countsOf b tensor).clipped (countsOf b tensor).use
    (SMap.find {} s.core.adapt (adaptKey b.slot tensor b.tenant))

/-- The adaptation states and the cumulative watch records change at most. -/
def Adapts (s t : State) : Prop :=
  t = { s with core := { s.core with adapt := t.core.adapt }, tele := { s.tele with watchCum := t.tele.watchCum } }

theorem Adapts.trans {s t u : State} (h : Adapts s t) (g : Adapts t u) : Adapts s u := by
  unfold Adapts at *
  rw [g, h]

theorem Adapts.foldl {α : Type} {f : State → α → State} (hf : ∀ s a, Adapts s (f s a)) (l : List α) (s : State) : Adapts s (l.foldl f s) :=
  List.foldlRecOn l f (motive := Adapts s) (by exact rfl) fun t ht a _ => ht.trans (hf t a)

theorem Adapts.clipHi {s t : State} (h : Adapts s t) (slot : Nat) : clipHi t slot = clipHi s slot := by
  rw [show t = _ from h]
  rfl

theorem Adapts.slotOf {s t : State} (h : Adapts s t) (n : Nat) : slotOf t n = slotOf s n := by
  rw [show t = _ from h]
  rfl

theorem Adapts.trs {s t : State} (h : Adapts s t) : t.trs = s.trs := by rw [show t = _ from h]

theorem Adapts.core {s t : State} (h : Adapts s t) : t.core = { s.core with adapt := t.core.adapt } := congrArg State.core h

/-- As `watches_modCum`, with the records of running commands unchanged. -/
theorem adapts_modCum (slot output tenant : Nat) (f : Watch → Watch) (s : State) : Adapts s (modCum slot output tenant f s) := by
  unfold modCum
  dsimp only
  split <;> exact rfl

theorem adapts_updateTensor (b : Batch) (s : State) (m : Nat × BitVec 32) : Adapts s (updateTensor b s m) :=
  Adapts.trans (t := { s with core := { s.core with adapt := SMap.put {} s.core.adapt (adaptKey b.slot m.1 b.tenant) (adapted b s m.1) } }) rfl
    (Adapts.foldl (fun _ _ => adapts_modCum ..) _ _)

/-- One update writes one adaptation state; the records that follow it leave the states alone. -/
theorem updateTensor_adapt (b : Batch) (s : State) (m : Nat × BitVec 32) :
    (updateTensor b s m).core.adapt = SMap.put {} s.core.adapt (adaptKey b.slot m.1 b.tenant) (adapted b s m.1) :=
  congrArg Cores.adapt (Watches.foldl (fun _ _ => watches_modCum ..) _ _).core

theorem adapted_updateTensor_of_ne {b : Batch} (s : State) {m : Nat × BitVec 32} {i : Nat} (h : i ≠ m.1) :
    adapted b (updateTensor b s m) i = adapted b s i := by
  unfold adapted
  rw [(adapts_updateTensor b s m).clipHi, updateTensor_adapt, SMap.find_put_other _ _ _ _ (mt (adaptKey_inj ..).1 h)]

theorem adapt_updateTensors_of_ne {b : Batch} {k : Nat} (l : List (Nat × BitVec 32)) (s : State)
    (h : ∀ m ∈ l, k ≠ adaptKey b.slot m.1 b.tenant) :
    SMap.find {} (l.foldl (updateTensor b) s).core.adapt k = SMap.find {} s.core.adapt k := by
  induction l generalizing s with
  | nil => rfl
  | cons m l ih =>
    rw [List.foldl_cons, ih _ fun n hn => h n (List.mem_cons_of_mem _ hn), updateTensor_adapt,
      SMap.find_put_other _ _ _ _ (h m List.mem_cons_self)]

/-- Where no tensor comes twice, each is updated from the state that it had before the batch: the updates in turn do not meet. -/
theorem adapt_updateTensors {b : Batch} (l : List (Nat × BitVec 32)) (s : State) (hl : (l.map (·.1)).Nodup) {m : Nat × BitVec 32} (hm : m ∈ l) :
    SMap.find {} (l.foldl (updateTensor b) s).core.adapt (adaptKey b.slot m.1 b.tenant) = adapted b s m.1 := by
  induction l generalizing s with
  | nil => exact absurd hm List.not_mem_nil
  | cons n l ih =>
    rw [List.map_cons, List.nodup_cons] at hl
    obtain ⟨hn, hl⟩ := hl
    have hne : ∀ x ∈ l, x.1 ≠ n.1 := fun x hx he => hn (he ▸ List.mem_map_of_mem hx)
    rw [List.foldl_cons]
    rcases List.mem_cons.1 hm with rfl | hm
    · rw [adapt_updateTensors_of_ne l _ fun x hx => mt (adaptKey_inj ..).1 (hne x hx).symm, updateTensor_adapt, SMap.find_put_self]
    · rw [ih _ hl hm, adapted_updateTensor_of_ne s (hne m hm)]

/-! ### The next batch of a command (09 R280, R283) -/

/-- The cores and the number of the next job change at most. -/
def PlacesJobs (s t : State) : Prop := t = { s with core := { s.core with cores := t.core.cores, nextJob := t.core.nextJob } }

theorem PlacesJobs.trans {s t u : State} (h : PlacesJobs s t) (g : PlacesJobs t u) : PlacesJobs s u := by
  unfold PlacesJobs at *
  rw [g, h]

/-- A batch enters the list with the multipliers in force, and its jobs go to the cores. -/
theorem placesJobs_placeBatch (cores : List Nat) (cls t id tenant items : Nat) (x : FnSlot) (s : State) :
    PlacesJobs { s with core := { s.core with
        batches := s.core.batches ++ [{ no := s.core.nextBatch, slot := x.slot, trs := t, id := id, tenant := tenant, cls := cls, cores := cores,
                                        left := items - batchItems, mults := multsNow s x tenant }]
        nextBatch := s.core.nextBatch + 1 } }
      (placeBatch cores cls t id tenant items x s) := by
  unfold placeBatch
  refine List.foldlRecOn _ _ (motive := PlacesJobs _) (by exact rfl) fun u hu c _ => hu.trans ?_
  split <;> exact rfl

/-- Dispatching the next batch changes the cores, their jobs and the batches, and no adaptation state. -/
theorem nextBatch_core (b : Batch) (s : State) :
    nextBatch b s = { s with core := (nextBatch b s).core } ∧ (nextBatch b s).core.adapt = s.core.adapt := by
  unfold nextBatch
  split
  · split
    · have hplace := placesJobs_placeBatch b.cores b.cls b.trs b.id b.tenant b.left ‹_› s
      rw [hplace]
      exact ⟨rfl, rfl⟩
    · exact ⟨rfl, rfl⟩
  · exact ⟨rfl, rfl⟩

/-- A command without items left has no next batch. -/
theorem nextBatch_of_none_left {b : Batch} (s : State) (h : b.left = 0) : nextBatch b s = s := by
  unfold nextBatch
  rw [h]
  split <;> rfl

theorem nextBatch_of_left {b : Batch} {s : State} {x : FnSlot} {h : Held} (hl : 0 < b.left) (hx : slotOf s b.slot = some x)
    (hh : heldOf s b.trs b.id = some h) (hu : h.undecided = true) :
    nextBatch b s = placeBatch b.cores b.cls b.trs b.id b.tenant b.left x s := by
  unfold nextBatch
  rw [hx, hh, Option.map_some, hu]
  exact if_pos hl

theorem multsNow_of_adapt_eq {s t : State} (h : t.core.adapt = s.core.adapt) (x : FnSlot) (tenant : Nat) :
    multsNow t x tenant = multsNow s x tenant := by
  unfold multsNow
  rw [h]

/-- The batch that enters is the one that goes on with the command's work, under the multipliers that the row leaves in force. -/
theorem nextBatch_batches {b : Batch} {s : State} {x : FnSlot} {h : Held} (hl : 0 < b.left) (hx : slotOf s b.slot = some x)
    (hh : heldOf s b.trs b.id = some h) (hu : h.undecided = true) :
    (nextBatch b s).core.batches = s.core.batches ++ [batchAfter s b x (multsNow (nextBatch b s) x b.tenant)] := by
  rw [multsNow_of_adapt_eq (nextBatch_core b s).2, nextBatch_of_left hl hx hh hu]
  exact congrArg (fun u : State => u.core.batches) (placesJobs_placeBatch b.cores b.cls b.trs b.id b.tenant b.left x s)

/-! ### The row -/

/-- The state without a batch. -/
def withoutBatch (no : Nat) (s : State) : State :=
  { s with core := { s.core with batches := s.core.batches.filter (fun y => y.no != no) } }

/-- The updates that an ended batch makes: none where it did not end with OK or was run again (09 R281, R283). -/
def batchUpdates (b : Batch) (ok : Bool) (s : State) : State := if ok && !b.rerun then b.mults.foldl (updateTensor b) s else s

theorem adapts_batchUpdates (b : Batch) (ok : Bool) (s : State) : Adapts s (batchUpdates b ok s) := by
  unfold batchUpdates
  split
  · exact Adapts.foldl (adapts_updateTensor b) _ _
  · exact rfl

theorem adapt_batchUpdates {b : Batch} (ok : Bool) (s : State) (hb : (b.mults.map (·.1)).Nodup) {m : Nat × BitVec 32} (hm : m ∈ b.mults) :
    SMap.find {} (batchUpdates b ok s).core.adapt (adaptKey b.slot m.1 b.tenant)
      = if ok = true ∧ b.rerun = false then adapted b s m.1 else SMap.find {} s.core.adapt (adaptKey b.slot m.1 b.tenant) := by
  have hif : (ok && !b.rerun) = true ↔ ok = true ∧ b.rerun = false := by simp
  unfold batchUpdates
  by_cases hok : ok = true ∧ b.rerun = false
  · rw [if_pos hok, if_pos (hif.2 hok), adapt_updateTensors b.mults s hb hm]
  · rw [if_neg hok, if_neg (mt hif.1 hok)]

theorem adapt_batchUpdates_of_ne {b : Batch} (ok : Bool) (s : State) {k : Nat} (h : ∀ m ∈ b.mults, k ≠ adaptKey b.slot m.1 b.tenant) :
    SMap.find {} (batchUpdates b ok s).core.adapt k = SMap.find {} s.core.adapt k := by
  unfold batchUpdates
  split
  · exact adapt_updateTensors_of_ne b.mults s h
  · rfl

/-- A batch that is not known, or has a job on some core, waits. -/
theorem batchComplete_waits {s : State} {no : Nat} (h : s.core.batches.find? (fun b => b.no == no) = none ∨ batchRuns s no = true) (ok : Bool) :
    batchComplete no ok s = s := by
  unfold batchComplete
  split
  · rfl
  · next hb => exact if_pos (h.resolve_left (by rw [hb]; exact Option.some_ne_none _))

theorem batchComplete_ends {s : State} {no : Nat} {b : Batch} (hb : s.core.batches.find? (fun b => b.no == no) = some b)
    (hr : batchRuns s no = false) (ok : Bool) : batchComplete no ok s = nextBatch b (batchUpdates b ok (withoutBatch no s)) := by
  unfold batchComplete
  rw [hb, hr]
  rfl

/-- Settles O43: a batch that still runs waits (`batchComplete_waits`); one that has ended leaves the list, updates its tensors one after the
other, whose states do not meet (`adapt_batchUpdates`), and hands its command on under the multipliers then in force (`nextBatch_batches`). -/
theorem batchesAdaptTheirTensors : Obligations.BatchesAdaptTheirTensors := by
  intro s no ok hs
  refine ⟨fun hw => whenServing_of_eq (batchComplete_waits hw ok), fun b hb hr hnd => ?_⟩
  have hends := batchComplete_ends hb hr ok
  set u := batchUpdates b ok (withoutBatch no s)
  have hup : Adapts (withoutBatch no s) u := adapts_batchUpdates b ok _
  obtain ⟨hnext, hadapt⟩ := nextBatch_core b u
  have hframe : nextBatch b u
      = { s with core := (nextBatch b u).core, tele := { s.tele with watchCum := (nextBatch b u).tele.watchCum } } := by
    rw [hnext, show u = _ from hup]
    rfl
  refine ⟨nextBatch b u, whenServing_fabric hs hends (by rw [hframe]), fun m hm => ?_, fun k hk => ?_, hframe, fun hl => ?_,
    fun x h hl hx hh hd => ?_⟩
  · rw [hadapt]
    exact adapt_batchUpdates ok _ hnd hm
  · rw [hadapt]
    exact adapt_batchUpdates_of_ne ok _ hk
  · rw [nextBatch_of_none_left u hl, hup.core]
    exact ⟨rfl, rfl⟩
  · have hheld : heldOf u b.trs b.id = some h := (heldOf_of_trs_eq hup.trs _ _).trans hh
    rw [nextBatch_batches hl ((hup.slotOf _).trans hx) hheld hd]
    unfold batchAfter
    rw [hup.core]
    rfl

end Sys2Proof.Machine

/-! PROOFS. Tier pages are promoted, and return to flash (10 R288 to R291, R303 to R308). -/
namespace Sys2Proof.Machine

/-! ### One page changes -/

/-- Slot `k` holds page `p`, every other slot what it held. -/
def PageBecomes (s t : State) (k : Nat) (p : Page) : Prop := pageAt t k = some p ∧ ∀ j, j ≠ k → pageAt t j = pageAt s j

theorem pageAt_modPage (k j : Nat) (f : Page → Page) (s : State) :
    pageAt (modPage k f s) j = (pageAt s j).map (fun p => if j = k then f p else p) := by
  have hkey : ((fun e : Nat × Page => e.1 == j) ∘ fun e => if e.1 = k then (e.1, f e.2) else e) = fun e => e.1 == j := by
    funext e
    by_cases h : e.1 = k <;> simp [h]
  simp only [pageAt, modPage, List.find?_map, hkey, Option.map_map]
  refine Option.map_congr fun e he => ?_
  have hj : e.1 = j := by simpa using List.find?_some he
  by_cases h : j = k <;> simp [hj, h]

theorem pageBecomes_modPage {s : State} {k : Nat} {p : Page} (h : pageAt s k = some p) (f : Page → Page) :
    PageBecomes s (modPage k f s) k (f p) := by
  refine ⟨by simp [pageAt_modPage, h], fun j hj => ?_⟩
  simp [pageAt_modPage, hj]

theorem PageBecomes.trans {s t u : State} {k : Nat} {p q : Page} (h : PageBecomes s t k p) (g : PageBecomes t u k q) : PageBecomes s u k q :=
  ⟨g.1, fun j hj => (g.2 j hj).trans (h.2 j hj)⟩

theorem PageBecomes.of_pages_eq {s t u : State} {k : Nat} {p : Page} (h : PageBecomes s t k p) (hu : u.tier.pages = t.tier.pages) :
    PageBecomes s u k p := by
  have hpage : ∀ j, pageAt u j = pageAt t j := fun j => by rw [pageAt, hu, ← pageAt]
  exact ⟨(hpage k).trans h.1, fun j hj => (hpage j).trans (h.2 j hj)⟩

theorem PageBecomes.dropWarm {s t : State} {k : Nat} {p : Page} (h : PageBecomes s t k p) : PageBecomes s (dropWarm k t) k p :=
  h.of_pages_eq rfl

theorem pageBecomes_touchPage {s : State} {k : Nat} {p : Page} (h : pageAt s k = some p) :
    PageBecomes s (touchPage k s) k { p with lastUse := nowMs s } := pageBecomes_modPage h _

/-! ### Promotions end (10 R288, R291, 12 R364) -/

/-- The page of slot `k` is promoted to a channel of a stack. -/
def promoted (k st ch : Nat) (s : State) : State :=
  dropWarm k (modPage k (fun q => { q with home := .t1 st ch, moving := none, rider := none }) s)

/-- The promotion of the page of slot `k` ends with a failed check and its event. -/
def failedPromotion (k : Nat) (s : State) : State :=
  raise 0x0007 1 (mapOf s (slotUnit s k)).addr.toNat (slotUnit s k) 0 (noteMismatch [slotUnit s k] (abandonMove k s))

theorem failedPromotion_tier (k : Nat) (s : State) : (failedPromotion k s).tier = (abandonMove k s).tier := raise_tier ..

section
variable {s : State} {k st ch : Nat} {p : Page} (hp : pageAt s k = some p)
include hp

/-- A promotion of a readable page ends in one of three ways. -/
theorem promotionCommit_of_readable (hmov : p.moving = some (st, ch)) (hu : unitsStatus s (slotUnit s k) = 0x00) (v : Bool) :
    promotionCommit k v s = checkWindow (if v = false ∨ pageMismatch s k = true then failedPromotion k s
      else if heldElsewhere s p then abandonMove k s else promoted k st ch s) := by
  unfold promotionCommit
  rw [hp]
  dsimp only
  rw [hmov]
  dsimp only
  rw [if_neg (not_not.2 (show unitsStatus s (slotUnit s k) = stOk from hu)), apply_ite checkWindow, apply_ite checkWindow]
  rfl

theorem pageBecomes_abandonMove : PageBecomes s (abandonMove k s) k { p with moving := none, rider := none } := pageBecomes_modPage hp _

theorem pageBecomes_promoted : PageBecomes s (promoted k st ch s) k { p with home := .t1 st ch, moving := none, rider := none } :=
  (pageBecomes_modPage hp _).dropWarm

theorem pageBecomes_failedPromotion : PageBecomes s (failedPromotion k s) k { p with moving := none, rider := none } :=
  (pageBecomes_abandonMove hp).of_pages_eq (congrArg Tiers.pages (failedPromotion_tier k s))
end

/-- Of the frames of a promoted page only those of risers stay. -/
theorem frames_promoted {s : State} {k st ch : Nat} {f : Frame} (h : f ∈ (promoted k st ch s).tier.frames) :
    f ∈ s.tier.frames ∧ (f.page = k → ∃ a b l, f.kind = .riser a b l) := by
  obtain ⟨hmem, hkeep⟩ := List.mem_filter.1 (show f ∈ s.tier.frames.filter _ from h)
  refine ⟨hmem, fun hk => ?_⟩
  cases hkind : f.kind with
  | riser a b l => exact ⟨a, b, l, rfl⟩
  | _ => simp [hk, hkind] at hkeep

theorem failedPromotion_fl (k : Nat) (s : State) :
    (failedPromotion k s).fl = { s.fl with mismatch := dedup (s.fl.mismatch ++ [slotUnit s k]) } := raise_fl ..

theorem failedPromotion_trs (k : Nat) (s : State) : (failedPromotion k s).trs = s.trs := raise_trs ..

theorem failedPromotion_eventSeq (k : Nat) (s : State) : (failedPromotion k s).tele.eventSeq = s.tele.eventSeq + 1 := raise_eventSeq ..

/-- A serving row that changes tier pages and then looks at the heat window passes the fence as it is. -/
theorem whenServing_checkWindow_tier {f : State → State} {s : State} {x : Tiers} (hm : s.boot.mode = .service)
    (h : f s = checkWindow { s with tier := x }) : whenServing f s = .next (checkWindow { s with tier := x }) := by
  rw [whenServing_service f hm, checkWindow_eq, fenced_of_keeps (h.trans (checkWindow_eq _)) rfl rfl rfl rfl rfl]

theorem promotion_commits {s : State} {k st ch : Nat} {p : Page} (hm : s.boot.mode = .service) (hp : pageAt s k = some p)
    (hmov : p.moving = some (st, ch)) (hu : unitsStatus s (slotUnit s k) = 0x00) (hc : pageMismatch s k = false)
    (he : heldElsewhere s p = false) : ∃ t, exec (.promotionCommit k true) s = .next t
      ∧ pageAt t k = some { p with home := .t1 st ch, moving := none, rider := none } ∧ (∀ j, j ≠ k → pageAt t j = pageAt s j)
      ∧ (∀ f ∈ t.tier.frames, f ∈ s.tier.frames ∧ (f.page = k → ∃ a b l, f.kind = .riser a b l))
      ∧ t = { s with tier := { s.tier with pages := t.tier.pages, frames := t.tier.frames },
                     heat := { s.heat with windowOpen := t.heat.windowOpen } } := by
  have hends : promotionCommit k true s = checkWindow (promoted k st ch s) := by
    rw [promotionCommit_of_readable hp hmov hu, if_neg (by simp [hc]), if_neg (by simp [he])]
  have hexec : exec (.promotionCommit k true) s = .next (checkWindow (promoted k st ch s)) := whenServing_checkWindow_tier hm hends
  obtain ⟨hself, hother⟩ := pageBecomes_promoted (st := st) (ch := ch) hp
  rw [checkWindow_eq] at hexec
  exact ⟨_, hexec, hself, hother, fun f hf => frames_promoted hf, rfl⟩

theorem promotion_fails {s : State} {k st ch : Nat} {p : Page} {v : Bool} (hm : s.boot.mode = .service) (hp : pageAt s k = some p)
    (hmov : p.moving = some (st, ch)) (hu : unitsStatus s (slotUnit s k) = 0x00) (hv : v = false ∨ pageMismatch s k = true) :
    ∃ t, exec (.promotionCommit k v) s = .next t ∧ pageAt t k = some { p with moving := none, rider := none }
      ∧ (∀ j, j ≠ k → pageAt t j = pageAt s j) ∧ t.tier.frames = s.tier.frames ∧ t.trs = s.trs
      ∧ t.fl = { s.fl with mismatch := t.fl.mismatch } ∧ (∀ u, u ∈ t.fl.mismatch ↔ u ∈ s.fl.mismatch ∨ u = slotUnit s k)
      ∧ t.tele.eventSeq = s.tele.eventSeq + 1 := by
  have hends : promotionCommit k v s = checkWindow (failedPromotion k s) := by
    rw [promotionCommit_of_readable hp hmov hu, if_pos hv]
  rw [checkWindow_eq] at hends
  obtain ⟨hself, hother⟩ := pageBecomes_failedPromotion hp
  refine ⟨fenced (promotionCommit k v) s, whenServing_service _ hm, ?_⟩
  simp only [pageAt, fenced_tier, fenced_fl, fenced_trs, fenced_tele, hends]
  refine ⟨hself, hother, (congrArg Tiers.frames (failedPromotion_tier k s) :), failedPromotion_trs k s, ?_, fun u => ?_,
    failedPromotion_eventSeq k s⟩
  · rw [failedPromotion_fl]
  · rw [failedPromotion_fl, mem_dedup, List.mem_append, List.mem_singleton]

theorem promotion_given_up {s : State} {k st ch : Nat} {p : Page} (hm : s.boot.mode = .service) (hp : pageAt s k = some p)
    (hmov : p.moving = some (st, ch)) (hu : unitsStatus s (slotUnit s k) = 0x00) (hc : pageMismatch s k = false)
    (he : heldElsewhere s p = true) : ∃ t, exec (.promotionCommit k true) s = .next t
      ∧ pageAt t k = some { p with moving := none, rider := none } ∧ (∀ j, j ≠ k → pageAt t j = pageAt s j)
      ∧ t = { s with tier := { s.tier with pages := t.tier.pages }, heat := { s.heat with windowOpen := t.heat.windowOpen } } := by
  have hends : promotionCommit k true s = checkWindow (abandonMove k s) := by
    rw [promotionCommit_of_readable hp hmov hu, if_neg (by simp [hc]), if_pos he]
  have hexec : exec (.promotionCommit k true) s = .next (checkWindow (abandonMove k s)) := whenServing_checkWindow_tier hm hends
  obtain ⟨hself, hother⟩ := pageBecomes_abandonMove hp
  rw [checkWindow_eq] at hexec
  exact ⟨_, hexec, hself, hother, rfl⟩

/-! ### Collection pages are reloaded (10 R290, R296) -/

/-- Where the best channel of the stack has room, a page that is kept in T1 takes it and no page goes. -/
theorem placePinned_of_room {st tenant c : Nat} {tp : TenantPol} {s : State} (hp : tenantPol s tenant = some tp)
    (hu : t1Use s tenant + onTheWay s tenant < tp.t1max) (hb : bestChan s st tenant = some c) (hf : 1 ≤ chanFree s st c) :
    placePinned st tenant s = (s, some c) := by
  have hroom : makeRoom true st tenant 1 s = s := evictUntil_of_enough (by rw [hb]; exact decide_eq_true hf) ..
  unfold placePinned
  rw [hp]
  dsimp only
  rw [hroom, hb]
  exact if_pos hu

theorem placeKept_of_room {st tenant c : Nat} {s : State} (h : placePinned st tenant s = (s, some c)) (n : Nat) :
    placeKept st tenant (n + 1) s = (s, some (st, c)) := by
  unfold placeKept
  dsimp only
  rw [h]

/-- A read that counts for no page of registers sets the page's last use and counts flash reads. -/
theorem readFor_none_eq (k : Nat) (s : State) :
    ∃ c : SMap (BitVec 64), readFor none k s = { touchPage k s with tele := { s.tele with counters := c } } := by
  unfold readFor
  dsimp only
  split
  · exact ⟨s.tele.counters, rfl⟩
  · split
    · exact ⟨s.tele.counters, rfl⟩
    · refine List.foldlRecOn _ _ (motive := fun u => ∃ c : SMap (BitVec 64), u = { touchPage k s with tele := { s.tele with counters := c } })
        ⟨s.tele.counters, rfl⟩ ?_
      rintro u ⟨c, rfl⟩ i -
      split <;> exact ⟨_, rfl⟩

theorem collectionReload_of_none {s : State} (h : reloads s = []) : collectionReload s = s := by
  unfold collectionReload
  rw [h]
  rfl

theorem collectionReload_of_single {s : State} {k st c : Nat} {p : Page} (h : reloads s = [(k, p)]) (hs : pageStatus s k = stOk)
    (hk : placeKept (stripeStack p.owner) p.tenant 16 s = (s, some (st, c))) :
    collectionReload s = modPage k (fun q => { q with moving := some (st, c) }) (readFor none k s) := by
  unfold collectionReload
  rw [h, List.foldl_cons, List.foldl_nil, if_neg (not_not.2 hs)]
  dsimp only
  rw [hk]

theorem reload_starts {s : State} {k ch : Nat} {p : Page} {tp : TenantPol} (hm : s.boot.mode = .service) (hr : reloads s = [(k, p)])
    (hp : pageAt s k = some p) (hs : pageStatus s k = 0x00) (ht : tenantPol s p.tenant = some tp)
    (hu : t1Use s p.tenant + onTheWay s p.tenant < tp.t1max) (hb : bestChan s (stripeStack p.owner) p.tenant = some ch)
    (hf : 1 ≤ chanFree s (stripeStack p.owner) ch) : ∃ t, exec .collectionReload s = .next t
      ∧ pageAt t k = some { p with moving := some (stripeStack p.owner, ch), lastUse := now s - now s % 1000000 }
      ∧ (∀ j, j ≠ k → pageAt t j = pageAt s j)
      ∧ t = { s with tier := { s.tier with pages := t.tier.pages }, tele := { s.tele with counters := t.tele.counters } } := by
  obtain ⟨c, hread⟩ := readFor_none_eq k s
  have hload := collectionReload_of_single hr hs (placeKept_of_room (placePinned_of_room ht hu hb hf) 15)
  rw [hread] at hload
  have htouch : PageBecomes s { touchPage k s with tele := { s.tele with counters := c } } k { p with lastUse := nowMs s } :=
    (pageBecomes_touchPage hp).of_pages_eq rfl
  obtain ⟨hself, hother⟩ := htouch.trans (pageBecomes_modPage htouch.1 fun q => { q with moving := some (stripeStack p.owner, ch) })
  exact ⟨_, whenServing_fabric hm hload rfl, hself, hother, rfl⟩

/-! ### Demotion (10 Table 84, R291) -/

theorem home_of_inT1 {p : Page} (h : p.inT1 = true) : ∃ st ch, p.home = .t1 st ch := by
  unfold Page.inT1 at h
  cases hh : p.home with
  | t1 st ch => exact ⟨st, ch, rfl⟩
  | _ => simp [hh] at h

theorem Demoted.bump {s t : State} {k : Nat} {p : Page} (h : Demoted s t k p) (c i n : Nat) : Demoted s (bump c i n t) k p := by
  obtain ⟨hself, hother, hfree, hkept, hframe⟩ := h
  refine ⟨hself, hother, hfree, hkept, ?_⟩
  conv_lhs => rw [hframe]
  rfl

section
variable {s : State} {k : Nat} {p : Page} (hp : pageAt s k = some p) (hT1 : p.inT1 = true)
include hp hT1

/-- An eviction is a demotion that is counted for the page's tenant. -/
theorem demotePage_evict : demotePage k true s = bump 0x54 p.tenant 1 (demotePage k false s) := by
  obtain ⟨st, ch, hh⟩ := home_of_inT1 hT1
  unfold demotePage
  rw [hp]
  dsimp only
  rw [hh]
  rfl

/-- A demotion that is no eviction counts nothing. -/
theorem demoted_demotePage : Demoted s (demotePage k false s) k p ∧ (demotePage k false s).tele = s.tele := by
  obtain ⟨st, ch, hh⟩ := home_of_inT1 hT1
  obtain ⟨hself, hother⟩ := pageBecomes_modPage hp fun q => { q with home := flashHome q, state := .good }
  unfold demotePage
  rw [hp]
  dsimp only
  rw [hh]
  dsimp only
  cases hr : hasReader s p.owner with
  | false =>
    exact ⟨⟨hself, hother, fun _ => rfl, fun hc => absurd (hr.symm.trans hc) (by decide), rfl⟩, rfl⟩
  | true =>
    refine ⟨⟨hself, hother, fun hc => absurd (hr.symm.trans hc) (by decide), fun _ a b hab => ?_, rfl⟩, rfl⟩
    obtain ⟨rfl, rfl⟩ := Home.t1.inj (hh.symm.trans hab)
    rfl
end

theorem Demoted.whenServing {f : State → State} {s t : State} {k : Nat} {p : Page} (h : Demoted s t k p) (hm : s.boot.mode = .service)
    (hf : f s = t) : whenServing f s = .next t := by
  obtain ⟨-, -, -, -, hframe⟩ := h
  exact whenServing_fabric hm hf (by rw [hframe])

/-! ### Eviction at low water, and idle pages (10 R303, R305) -/

theorem mem_of_oldest {l : List (Nat × Page)} {e : Nat × Page} (h : oldest l = some e) : e ∈ l := by
  refine List.foldlRecOn l _ (motive := fun best => ∀ e, best = some e → e ∈ l) (fun _ h => absurd h.symm (Option.some_ne_none _))
    (fun best hb x hx e he => ?_) e h
  cases best with
  | none => exact Option.some.inj he ▸ hx
  | some b =>
    dsimp only at he
    split at he
    · exact Option.some.inj he ▸ hx
    · exact hb e he

theorem inT1_of_evictable {s : State} {st : Nat} {chs : List Nat} {p : Page} (h : evictable s st chs p = true) : p.inT1 = true := by
  unfold evictable at h
  unfold Page.inT1
  cases hh : p.home with
  | t1 a c => rfl
  | _ => simp [hh] at h

/-- Where one page is enough, eviction takes the oldest candidate alone. -/
theorem lowWater_of_oldest {s : State} {st : Nat} {e : Nat × Page} (hb : aboveWater st s = false)
    (ho : oldest (s.tier.pages.filter (fun e => evictable s st (List.range 32) e.2 && !unbacked s e.1)) = some e)
    (ha : aboveWater st (demotePage e.1 true s) = true) : lowWater st s = demotePage e.1 true s := by
  have hmem : e ∈ s.tier.pages := (List.mem_filter.1 (mem_of_oldest ho)).1
  obtain ⟨n, hn⟩ := Nat.exists_eq_succ_of_ne_zero (List.length_pos_of_mem hmem).ne'
  unfold lowWater
  rw [hn, evictUntil, if_neg (by simp [hb]), ho]
  exact evictUntil_of_enough ha ..

theorem lowWater_evicts {s : State} {st k : Nat} {p : Page} (hm : s.boot.mode = .service) (hb : aboveWater st s = false)
    (ho : oldest (s.tier.pages.filter (fun e => evictable s st (List.range 32) e.2 && !unbacked s e.1)) = some (k, p))
    (hp : pageAt s k = some p) (ha : aboveWater st (demotePage k true s) = true) :
    ∃ t, exec (.lowWaterEviction st) s = .next t ∧ Demoted s t k p ∧ counted 0x54 p.tenant t = counted 0x54 p.tenant s + 1 := by
  have hcand := (List.mem_filter.1 (mem_of_oldest ho)).2
  have hT1 : p.inT1 = true := inT1_of_evictable (Bool.and_eq_true_iff.1 hcand).1
  obtain ⟨hdem, htele⟩ := demoted_demotePage hp hT1
  have hevict := hdem.bump 0x54 p.tenant 1
  have hrow : lowWater st s = bump 0x54 p.tenant 1 (demotePage k false s) := (lowWater_of_oldest hb ho ha).trans (demotePage_evict hp hT1)
  refine ⟨_, hevict.whenServing hm hrow, hevict, ?_⟩
  rw [counted_bump_self, counted_of_tele_eq htele]
  rfl

/-- The pages that an idle time moves are those that 10 R303 lets go. -/
theorem idleDemote_of_movable {s : State} {k : Nat} {p : Page} (hp : pageAt s k = some p) (hT1 : p.inT1 = true) (hmov : p.moving = none)
    (hk : keptT1 s p.owner = false) (hr : inMemberRange s p.owner = false) (hu : unbacked s k = false) :
    idleDemote k s = if polValue s 0x0B 600 * 1000000000 ≤ (now s - p.lastUse).toNat then demotePage k false s else s := by
  unfold idleDemote
  rw [hp]
  simp [hT1, hmov, hk, hr, hu]

/-! ### Folds of T2 pages (10 R308) -/

theorem relocating_of_foldsNow {s : State} {e : Nat × Page} (h : foldsNow s e = true) :
    ∀ u ∈ (List.range 4).map (slotUnit s e.1 + ·), relocating s u = false := by
  obtain ⟨-, hunits⟩ := Bool.and_eq_true_iff.1 h
  intro u hu
  obtain ⟨i, hi, rfl⟩ := List.mem_map.1 hu
  exact Bool.not_eq_true' _ ▸ (Bool.and_eq_true_iff.1 (List.all_eq_true.1 hunits i hi)).2

/-- A relocation of units that are in none starts with all of them. -/
theorem startReloc_of_none_relocating {s : State} {us : List Nat} (hs : flashStopped s = false) (hne : us ≠ [])
    (hu : ∀ u ∈ us, relocating s u = false) (sb : Nat) (pr : Purpose) (pg : Option Nat) :
    ∃ c, startReloc sb pr pg us s = { s with fl := { s.fl with relocs := s.fl.relocs ++ [relocOf s sb pr pg us] },
                                             tele := { s.tele with counters := c } } := by
  have hall : us.filter (fun u => !relocating s u) = us := List.filter_eq_self.2 fun u h => by simp [hu u h]
  obtain ⟨c, hc⟩ := foldl_bump_eq 0x30 1 (fun u => faChan (mapOf s u).addr) us s
  refine ⟨c, ?_⟩
  unfold startReloc
  dsimp only
  rw [hall, if_neg (by simp [hs, hne]), hc]
  rfl

/-- Above 90% of the T2 size with one page that can be folded, its fold starts. -/
theorem t2FoldStart_of_single {s : State} {e : Nat × Page} (hg : s.gov.bgFlash = false)
    (hover : 9 * t2Pages s + 10 * (s.tier.pages.filter (fun e => e.2.home == .t2 && inFold s e.1)).length
      < 10 * (s.tier.pages.filter (fun e => e.2.home == .t2)).length) (he : s.tier.pages.filter (foldsNow s) = [e]) :
    t2FoldStart s = startReloc (sbKey s (mapOf s (slotUnit s e.1)).addr) .fold (some e.1) ((List.range 4).map (slotUnit s e.1 + ·)) s := by
  have htake : (sortBy (fun (a b : Nat × Page) => lexLt (evictKey a.2) (evictKey b.2)) [e]).take
      ((s.tier.pages.filter (fun e => e.2.home == .t2)).length
        - (s.tier.pages.filter (fun e => e.2.home == .t2 && inFold s e.1)).length - 8 * t2Pages s / 10) = [e] :=
    List.take_of_length_le (show 1 ≤ _ by omega)
  unfold t2FoldStart
  dsimp only
  rw [if_pos ⟨by omega, hg⟩, he, htake]
  rfl

theorem t2Fold_starts {s : State} {k : Nat} {p : Page} (hm : s.boot.mode = .service) (hg : s.gov.bgFlash = false)
    (hover : 9 * t2Pages s + 10 * (s.tier.pages.filter (fun e => e.2.home == .t2 && inFold s e.1)).length
      < 10 * (s.tier.pages.filter (fun e => e.2.home == .t2)).length) (hs : flashStopped s = false)
    (he : s.tier.pages.filter (foldsNow s) = [(k, p)]) : ∃ t, exec .t2Fold s = .next t
      ∧ t.fl = { s.fl with relocs := s.fl.relocs ++ [relocOf s (sbKey s (mapOf s (slotUnit s k)).addr) .fold (some k)
          ((List.range 4).map (slotUnit s k + ·))] }
      ∧ t = { s with fl := t.fl, tele := { s.tele with counters := t.tele.counters } } := by
  have hfolds : foldsNow s (k, p) = true := (List.mem_filter.1 (he ▸ List.mem_singleton_self _)).2
  obtain ⟨c, hc⟩ := startReloc_of_none_relocating (us := (List.range 4).map (slotUnit s k + ·)) hs (by simp)
    (relocating_of_foldsNow hfolds) (sbKey s (mapOf s (slotUnit s k)).addr) .fold (some k)
  have hrow := (t2FoldStart_of_single hg hover he).trans hc
  exact ⟨_, (whenServing_service t2FoldStart hm).trans (congrArg _ (fenced_of_keeps hrow rfl rfl rfl rfl rfl)), rfl, rfl⟩

/-! ### A demoted page's DRAM location (10 Table 84) -/

theorem dramFreed_of_page {s : State} {k : Nat} {p : Page} (hp : pageAt s k = some p) :
    dramFreed k s = if hasReader s p.owner then s
      else { s with tier := { s.tier with dramPending := s.tier.dramPending.filter (fun e => e.1 != k) } } := by
  unfold dramFreed
  rw [hp]
  rfl

/-! ### The rows -/

/-- Settles O37: a promotion of a readable page ends in one of three ways (`promotionCommit_of_readable`), a reload that finds room evicts
nothing, the three returns to flash rest on one demotion (`demoted_demotePage`) and one start of a relocation, and a DRAM location waits for
its readers. -/
theorem pagesPromoteAndReturn : Obligations.PagesPromoteAndReturn := by
  refine ⟨⟨fun s k st ch p hm hp hmov hu => ⟨promotion_commits hm hp hmov hu, fun v => promotion_fails hm hp hmov hu,
    promotion_given_up hm hp hmov hu⟩, fun s hr => whenServing_of_eq (collectionReload_of_none hr),
    fun s k ch p tp => reload_starts⟩, fun s st hm => ?_, fun s k p hm hp hT1 hmov hk hr hu => ?_, fun s hm hg => ?_, fun s k p hm hp => ?_⟩
  · exact ⟨fun ha => whenServing_of_eq (evictUntil_of_enough ha ..), fun k p hb => lowWater_evicts hm hb⟩
  · have hrow := idleDemote_of_movable hp hT1 hmov hk hr hu
    obtain ⟨hdem, htele⟩ := demoted_demotePage hp hT1
    exact ⟨fun hidle => ⟨_, hdem.whenServing hm (hrow.trans (if_pos hidle)), hdem, htele⟩,
      fun hread => whenServing_of_eq (hrow.trans (if_neg (not_le.2 hread)))⟩
  · exact ⟨fun hroom => whenServing_of_eq (if_neg fun hc => absurd hc.1 (not_lt.2 hroom)), fun k p => t2Fold_starts hm hg⟩
  · have hrow := dramFreed_of_page hp
    exact ⟨fun hr => whenServing_fabric hm (hrow.trans (if_neg (by simp [hr]))) rfl, fun hr => whenServing_of_eq (hrow.trans (if_pos hr))⟩

end Sys2Proof.Machine

/-! PROOFS. The last stages of the start: the map, the bank's report, and service (13 R387, 17 R487, R489). -/
namespace Sys2Proof.Machine

/-! ### Fettle mode and the bank -/

/-- Whatever the device did before, Fettle mode stands as 13 R400 gives it. -/
theorem inFettle_enterFettle (reason detail : Nat) (s : State) : InFettle reason (enterFettle reason detail s) :=
  ⟨rfl, rfl, rfl, rfl, rfl, rfl, fun i hi => by
    have hi' : i ∈ quietIslands s.isl.released := hi
    simpa using (List.mem_filter.1 hi').2⟩

theorem bankCheck_of_unreported {s : State} (h : s.boot.bankReported = false) : bankCheck s = s := by simp [bankCheck, h]

theorem bankCheck_of_failed {s : State} (hr : s.boot.bankReported = true) (hf : bankFailed s = true) : bankCheck s = enterFettle 7 0 s := by
  simp [bankCheck, hr, hf]

/-- A bank without a passing cell has failed (17 R489). -/
theorem bankFailed_of_isolated {s : State} (h : ∀ c ∈ s.gov.cells, c.isolated = true) : bankFailed s = true := by
  have hp : passing s = [] := List.filter_eq_nil_iff.2 fun c hc => by simp [h c hc]
  simp [bankFailed, bankState, bankEnergy, weakest, hp, flushEnergy, sumOf]

/-! ### S4 -/

theorem endS4_of_unreadable {s : State} (hs : Starting 4 s) (hr : s.boot.mapRebuilt = false) : endS4 false s = enterFettle 5 0 s := by
  simp [endS4, hs.1, hs.2, hr]

/-- The rebuild of 11 R340, with the keys and the pattern store's objects at its end. -/
def rebuilt (s : State) : State := withdrawSlots (freeObjects (settleKeys (journalFlush (settlePages (adoptPages (rebuildMap s))))))

/-- The map stands after work `f` behind the fence, and the media clock's reference with it. -/
def mapStands (f : State → State) (s : State) : State :=
  { fenced f s with boot := { (fenced f s).boot with mapRebuilt := true, mediaRef := (fenced f s).fl.hostTb } }

theorem endS4_of_readable {s : State} (hs : Starting 4 s) (hr : s.boot.mapRebuilt = false) :
    endS4 true s = bankCheck (mapStands rebuilt s) := by
  unfold endS4 mapStands rebuilt
  rw [if_pos ⟨hs.1, hs.2, hr⟩, if_neg (by simp)]

/-- A bank that has not reported is left to its own row. -/
theorem mapStands_of_unreported (f : State → State) {s : State} (hs : Starting 4 s) (hb : s.boot.bankReported = false) :
    bankCheck (mapStands f s) = mapStands f s ∧ (mapStands f s).boot.mode = .starting ∧ (mapStands f s).boot.stage = 4
      ∧ (mapStands f s).boot.mapRebuilt = true ∧ (mapStands f s).aon = s.aon ∧ (mapStands f s).isl = s.isl :=
  ⟨bankCheck_of_unreported hb, hs.1, hs.2, rfl, rfl, rfl⟩

/-! ### The bank's report -/

/-- The bank's report is in: charged, every cell with its verdict. -/
def bankReport (cells : List (Nat × Nat)) (s : State) : State :=
  { s with gov := { s.gov with charged := true, bankTested := true, cells := (List.range 9).map (fun i => measured (cells.getD i (0, 0))) },
           boot := { s.boot with bankReported := true } }

theorem bankCharged_eq {s : State} (hm : s.boot.mode = .starting) (cells : List (Nat × Nat)) :
    bankCharged cells s = if s.boot.stage = 4 ∧ s.boot.mapRebuilt = true then bankCheck (bankReport cells s) else bankReport cells s :=
  if_pos hm

/-- Cells that all miss a bound, and cells that are not there, leave no bank. -/
theorem bankFailed_bankReport {cells : List (Nat × Nat)} (h : ∀ c ∈ cells, c.1 < 900 ∨ 50 < c.2) (s : State) :
    bankFailed (bankReport cells s) = true := by
  refine bankFailed_of_isolated fun c hc => ?_
  obtain ⟨i, -, rfl⟩ := List.mem_map.1 hc
  refine decide_eq_true ?_
  by_cases hi : i < cells.length
  · rw [List.getD_eq_getElem _ _ hi]
    exact h _ (List.getElem_mem hi)
  · rw [List.getD_eq_default _ _ (not_lt.1 hi)]
    exact Or.inl (by decide)

/-! ### S5 -/

/-- What a privileged page is bound to (03 R70). -/
def ownersBinding (b : TrsBind) : Binding := { valid := true, priv := true, tenant := b.tenant, vector := b.vector, rids := b.rids }

/-- Bindings given in turn change pages of registers alone. -/
theorem foldl_bind_frame (l : List TrsBind) (s : State) :
    ∃ m, l.foldl (fun s' b => modTrs b.trs (fun p => { p with bind := ownersBinding b }) s') s = { s with trs := m } :=
  List.foldlRecOn l _ (motive := fun t => ∃ m, t = { s with trs := m }) ⟨_, rfl⟩ fun _ ⟨_, ht⟩ _ _ => ⟨_, by rw [ht]; rfl⟩

/-- A page keeps the binding that every entry for it gives. -/
theorem bind_foldl_keeps {l : List TrsBind} {b : TrsBind} (h : ∀ b' ∈ l, b'.trs = b.trs → b' = b) {s : State}
    (hs : (getTrs s b.trs).bind = ownersBinding b) :
    (getTrs (l.foldl (fun s' b => modTrs b.trs (fun p => { p with bind := ownersBinding b }) s') s) b.trs).bind = ownersBinding b := by
  refine List.foldlRecOn l _ (motive := fun t => (getTrs t b.trs).bind = ownersBinding b) hs fun t ht b' hb' => ?_
  by_cases hq : b'.trs = b.trs
  · rw [h b' hb' hq, getTrs_modTrs_self]
  · exact (congrArg Trs.bind (otherPages_modTrs b'.trs _ t b.trs (Ne.symm hq))).trans ht

/-- The page of a binding that no other entry contradicts is bound by it. -/
theorem bind_foldl {l : List TrsBind} {b : TrsBind} (hb : b ∈ l) (h : ∀ b' ∈ l, b'.trs = b.trs → b' = b) (s : State) :
    (getTrs (l.foldl (fun s' b => modTrs b.trs (fun p => { p with bind := ownersBinding b }) s') s) b.trs).bind = ownersBinding b := by
  induction l generalizing s with
  | nil => exact absurd hb nofun
  | cons a l ih =>
    have hl : ∀ b' ∈ l, b'.trs = b.trs → b' = b := fun b' hb' => h b' (List.mem_cons_of_mem a hb')
    rw [List.foldl_cons]
    rcases List.mem_cons.1 hb with rfl | hmem
    · exact bind_foldl_keeps hl (congrArg Trs.bind (getTrs_modTrs_self ..))
    · exact ih hmem hl _

/-- The start's outcome goes to the NOR and the start's log entries. -/
theorem programOutcome_frame (bit : Nat) (reason : Option Nat) (s : State) :
    ∃ n b, programOutcome bit reason s = { s with nor := n, boot := b } := by
  unfold programOutcome
  split
  · exact ⟨s.nor, s.boot, rfl⟩
  · simp only [norProgram]
    exact ⟨_, _, rfl⟩

theorem eraseAhead_frame (s : State) : ∃ n, eraseAhead s = { s with nor := n } := by
  unfold eraseAhead
  split
  · split
    · exact ⟨_, rfl⟩
    · exact ⟨_, rfl⟩
  · exact ⟨_, rfl⟩

/-- S5's work: the outcome is logged and the privileged pages are bound. -/
def opened (s : State) : State := bindPrivileged (eraseAhead (programOutcome 33 none s))

theorem logged_frame (s : State) : ∃ n b, eraseAhead (programOutcome 33 none s) = { s with nor := n, boot := b } := by
  obtain ⟨n, b, hp⟩ := programOutcome_frame 33 none s
  obtain ⟨n', he⟩ := eraseAhead_frame (programOutcome 33 none s)
  exact ⟨n', b, by rw [he, hp]⟩

theorem opened_frame (s : State) : ∃ n b m, opened s = { s with nor := n, boot := b, trs := m } := by
  obtain ⟨n, b, hl⟩ := logged_frame s
  obtain ⟨m, hm⟩ := foldl_bind_frame (s.pol.trsBind.filter (fun b => decide (b.trs < 16))) { s with nor := n, boot := b }
  exact ⟨n, b, m, by rw [opened, hl]; exact hm⟩

theorem opened_binds {s : State} {b : TrsBind} (hb : b ∈ s.pol.trsBind) (hq : b.trs < 16)
    (h : ∀ b' ∈ s.pol.trsBind, b'.trs = b.trs → b' = b) : (getTrs (opened s) b.trs).bind = ownersBinding b := by
  obtain ⟨n, v, hl⟩ := logged_frame s
  rw [opened, hl]
  exact bind_foldl (List.mem_filter.2 ⟨hb, decide_eq_true hq⟩) (fun b' hb' => h b' (List.mem_of_mem_filter hb')) _

/-- The state that S5's work starts from. -/
def toStage5 (s : State) : State :=
  { s with boot := { s.boot with stage := 5, tbS5 := now s, rejectGen := BitVec.ofNat 32 (rejectOf s) }, aon := { s.aon with stageStart := now s } }

/-- With the map rebuilt and a bank that has not failed, service begins (13 R387). -/
theorem endS5_opens {s : State} (hs : Starting 4 s) (hr : s.boot.mapRebuilt = true) (hb : s.boot.bankReported = true)
    (hf : bankFailed s = false) : endS5 s = platform 60 5 { fenced opened (toStage5 s) with
      boot := { (fenced opened (toStage5 s)).boot with mode := .service, memActive := true, mediaReady := true, wdRunning := true } } :=
  if_pos ⟨hs.1, hs.2, hr, hb, hf⟩

theorem service_opens {s : State} (hs : Starting 4 s) (hr : s.boot.mapRebuilt = true) (hb : s.boot.bankReported = true)
    (hf : bankFailed s = false) :
    ∃ t, exec .stageS5 s = .next t ∧ t.boot.mode = .service ∧ t.boot.stage = 5 ∧ t.boot.memActive = true ∧ t.boot.mediaReady = true
      ∧ t.boot.wdRunning = true ∧ t.boot.tbS5 = s.aon.timebase ∧ t.pol = s.pol ∧ t.fl = s.fl
      ∧ (∀ b ∈ s.pol.trsBind, b.trs < 16 → (∀ b' ∈ s.pol.trsBind, b'.trs = b.trs → b' = b) →
          (getTrs t b.trs).bind = { valid := true, priv := true, tenant := b.tenant, vector := b.vector, rids := b.rids }) := by
  obtain ⟨n, v, m, ho⟩ := opened_frame (toStage5 s)
  refine ⟨_, congrArg Host.Outcome.next (endS5_opens hs hr hb hf), ?_, ?_, ?_, ?_, ?_, ?_, ?_, ?_, fun b hmem hq h => ?_⟩
  · rw [platform_boot]
  · rw [platform_boot]; rfl
  · rw [platform_boot]
  · rw [platform_boot]
  · rw [platform_boot]
  · rw [platform_boot]; rfl
  · rw [platform_pol, fenced_pol, ho]; rfl
  · rw [platform_fl, fenced_fl, ho]; rfl
  · exact (congrArg Trs.bind (getTrs_of_trs_eq (platform_trs ..) b.trs)).trans (opened_binds (s := toStage5 s) hmem hq h)

/-! ### The statement -/

/-- Settles O11: S4 and the bank's report end in Fettle mode through one entry to it or leave the start's standing behind the fence, and S5's
work (`opened`) writes the NOR, the start's log and the bindings alone. -/
theorem lastStagesOpenService : Obligations.LastStagesOpenService := by
  refine ⟨fun s hs hr => ?_, fun s hs hr hb => ?_, fun s cells hm hn => ?_, fun s cells hs hr hc => ?_,
    fun s hs hr hb hf => service_opens hs hr hb hf⟩
  · exact ⟨_, congrArg Host.Outcome.next (endS4_of_unreadable hs hr), inFettle_enterFettle ..⟩
  · obtain ⟨hbank, hstands⟩ := mapStands_of_unreported rebuilt hs hb
    exact ⟨_, congrArg Host.Outcome.next ((endS4_of_readable hs hr).trans hbank), hstands⟩
  · exact congrArg Host.Outcome.next ((bankCharged_eq hm cells).trans (if_neg hn))
  · refine ⟨_, congrArg Host.Outcome.next ((bankCharged_eq hs.1 cells).trans (if_pos ⟨hs.2, hr⟩)), ?_⟩
    rw [bankCheck_of_failed rfl (bankFailed_bankReport hc s)]
    exact inFettle_enterFettle ..

end Sys2Proof.Machine

/-! PROOFS. The journal, and what the shared operations of the flash leave (11 R322 to R357). -/
namespace Sys2Proof.Machine

/-! ### The journal, field by field -/

/-- A flush of staging changes the journal, the buffer, the relocations and the counters at most. -/
theorem journalFlush_frame (s : State) : ∃ j p g w r c, journalFlush s = { s with
    fl := { s.fl with journal := j, pendBytes := p, journalTag := g, wbuf := w, relocs := r }, tele := { s.tele with counters := c } } := by
  unfold journalFlush
  split
  · exact ⟨_, _, _, _, _, _, rfl⟩
  · exact ⟨_, _, _, _, _, _, rfl⟩

/-- What a flush of staging reads of a state is left by it, where it is none of what it changes. -/
theorem journalFlush_reads {β : Type} {φ : State → β} (hφ : ∀ (t : State) j p g w r c, φ { t with
    fl := { t.fl with journal := j, pendBytes := p, journalTag := g, wbuf := w, relocs := r }, tele := { t.tele with counters := c } } = φ t)
    (s : State) : φ (journalFlush s) = φ s := by
  obtain ⟨j, p, g, w, r, c, h⟩ := journalFlush_frame s
  rw [h, hφ]

@[simp] theorem journalFlush_map (s : State) : (journalFlush s).fl.map = s.fl.map := (journalFlush_fl s).2.2.2
@[simp] theorem journalFlush_pendBytes (s : State) : (journalFlush s).fl.pendBytes = 0 := (journalFlush_fl s).2.1
@[simp] theorem journalFlush_seq (s : State) : (journalFlush s).fl.seq = s.fl.seq :=
  journalFlush_reads (φ := fun t => t.fl.seq) (fun _ _ _ _ _ _ _ => rfl) s
@[simp] theorem journalFlush_blocks (s : State) : (journalFlush s).fl.blocks = s.fl.blocks :=
  journalFlush_reads (φ := fun t => t.fl.blocks) (fun _ _ _ _ _ _ _ => rfl) s
@[simp] theorem journalFlush_dies (s : State) : (journalFlush s).fl.dies = s.fl.dies :=
  journalFlush_reads (φ := fun t => t.fl.dies) (fun _ _ _ _ _ _ _ => rfl) s
@[simp] theorem journalFlush_spareBytes (s : State) : (journalFlush s).fl.spareBytes = s.fl.spareBytes :=
  journalFlush_reads (φ := fun t => t.fl.spareBytes) (fun _ _ _ _ _ _ _ => rfl) s
@[simp] theorem journalFlush_ckpt (s : State) : (journalFlush s).fl.ckpt = s.fl.ckpt :=
  journalFlush_reads (φ := fun t => t.fl.ckpt) (fun _ _ _ _ _ _ _ => rfl) s
@[simp] theorem journalFlush_mediaMinutes (s : State) : (journalFlush s).fl.mediaMinutes = s.fl.mediaMinutes :=
  journalFlush_reads (φ := fun t => t.fl.mediaMinutes) (fun _ _ _ _ _ _ _ => rfl) s

/-- The records of the entries, in their order, are as they were. -/
theorem journalFlush_recs (s : State) : (journalFlush s).fl.journal.map (·.recs) = s.fl.journal.map (·.recs) := by
  unfold journalFlush
  split
  · rfl
  · exact List.map_map

/-- The journal with every entry durable. -/
theorem journalFlush_journal {s : State} (h : s.fl.pendBytes ≠ 0) :
    (journalFlush s).fl.journal = s.fl.journal.map (fun e => { e with durable := true }) := by
  unfold journalFlush
  rw [if_neg h]
  rfl

theorem journalFlush_of_empty {s : State} (h : s.fl.pendBytes = 0) : journalFlush s = s := if_pos h

/-- An entry as it stands in staging before any flush. -/
def stagedEntry (rs : List Rec) (s : State) : State :=
  { s with fl := { s.fl with
      seq := max s.fl.seq (s.fl.seq + 1), journal := s.fl.journal ++ [{ seq := s.fl.seq + 1, recs := rs }],
      pendBytes := s.fl.pendBytes + entrySize rs, map := rs.foldl (applyRec (slcAddr s)) s.fl.map, blocks := rs.foldl applyRetire s.fl.blocks } }

/-- A commit stages its entry, and flushes staging where that is full. -/
theorem commitEntry_eq (rs : List Rec) (s : State) :
    commitEntry rs s = if 1048576 ≤ s.fl.pendBytes + entrySize rs then journalFlush (stagedEntry rs s) else stagedEntry rs s := rfl

/-- What a flush of staging leaves is after a commit what it is with the entry staged. -/
theorem commitEntry_reads {β : Type} {φ : State → β} (hφ : ∀ t, φ (journalFlush t) = φ t) (rs : List Rec) (s : State) :
    φ (commitEntry rs s) = φ (stagedEntry rs s) := by
  rw [commitEntry_eq]
  split
  · exact hφ _
  · rfl

theorem commitEntry_map (rs : List Rec) (s : State) : (commitEntry rs s).fl.map = rs.foldl (applyRec (slcAddr s)) s.fl.map :=
  commitEntry_reads (φ := fun t => t.fl.map) journalFlush_map rs s
theorem commitEntry_blocks (rs : List Rec) (s : State) : (commitEntry rs s).fl.blocks = rs.foldl applyRetire s.fl.blocks :=
  commitEntry_reads (φ := fun t => t.fl.blocks) journalFlush_blocks rs s
@[simp] theorem commitEntry_seq (rs : List Rec) (s : State) : (commitEntry rs s).fl.seq = s.fl.seq + 1 :=
  (commitEntry_reads (φ := fun t => t.fl.seq) journalFlush_seq rs s).trans (max_eq_right (Nat.le_succ _))
@[simp] theorem commitEntry_dies (rs : List Rec) (s : State) : (commitEntry rs s).fl.dies = s.fl.dies :=
  commitEntry_reads (φ := fun t => t.fl.dies) journalFlush_dies rs s
@[simp] theorem commitEntry_spareBytes (rs : List Rec) (s : State) : (commitEntry rs s).fl.spareBytes = s.fl.spareBytes :=
  commitEntry_reads (φ := fun t => t.fl.spareBytes) journalFlush_spareBytes rs s
@[simp] theorem commitEntry_ckpt (rs : List Rec) (s : State) : (commitEntry rs s).fl.ckpt = s.fl.ckpt :=
  commitEntry_reads (φ := fun t => t.fl.ckpt) journalFlush_ckpt rs s
@[simp] theorem commitEntry_mediaMinutes (rs : List Rec) (s : State) : (commitEntry rs s).fl.mediaMinutes = s.fl.mediaMinutes :=
  commitEntry_reads (φ := fun t => t.fl.mediaMinutes) journalFlush_mediaMinutes rs s

/-! ### Records and the map -/

/-- A record that changes no map entry. -/
def Rec.offMap : Rec → Bool
  | .object _ _ | .retire _ _ | .checkpoint _ _ => true
  | _ => false

theorem foldl_applyRec_offMap {slc : FlashAddr → Bool} {rs : List Rec} (h : ∀ r ∈ rs, r.offMap = true) (m : SMap MapEntry) :
    rs.foldl (applyRec slc) m = m := by
  refine List.foldlRecOn rs _ (motive := (· = m)) rfl fun m' hm r hr => ?_
  cases r with
  | object _ _ | retire _ _ | checkpoint _ _ => exact hm
  | map _ _ | relocate _ _ _ | unmap _ _ | state _ _ _ => exact absurd (h _ hr) nofun

/-- The STATE records of single units leave each of these in their state, and every other unit as it was. -/
theorem foldl_applyRec_state {slc : FlashAddr → Bool} {st : BitVec 3} (us : List Nat) (m : SMap MapEntry) (u : Nat) :
    SMap.find {} ((us.map (fun v => Rec.state v 1 st)).foldl (applyRec slc) m) u
      = if u ∈ us then { SMap.find {} m u with st := st } else SMap.find {} m u := by
  induction us generalizing m with
  | nil => rfl
  | cons v us ih =>
    have hone : applyRec slc m (.state v 1 st) = SMap.modify {} m v (fun e => { e with st := st }) := rfl
    rw [List.map_cons, List.foldl_cons, ih, hone]
    by_cases hv : u = v
    · subst hv
      rw [SMap.find_modify_self]
      simp
    · rw [SMap.find_modify_other _ _ _ _ hv]
      simp [hv]

theorem mapOf_commitState (us : List Nat) (st : BitVec 3) (s : State) (u : Nat) :
    mapOf (commitEntry (us.map (fun v => Rec.state v 1 st)) s) u = if u ∈ us then { mapOf s u with st := st } else mapOf s u := by
  simp only [mapOf, commitEntry_map, foldl_applyRec_state]

/-- A mapped unit stands in the map. -/
theorem mem_map_of_mapped {s : State} {u : Nat} (h : (mapOf s u).st = 1) : (u, mapOf s u) ∈ s.fl.map := by
  by_contra hno
  have hnone : ∀ m : SMap MapEntry, (u, SMap.find {} m u) ∉ m → SMap.find {} m u = {} := by
    intro m
    induction m with
    | nil => exact fun _ => rfl
    | cons a m ih =>
      obtain ⟨i, v⟩ := a
      intro hm
      by_cases hi : i = u
      · subst hi
        simp [SMap.find] at hm
      · rw [SMap.find, if_neg hi] at hm ⊢
        exact ih fun hmem => hm (List.mem_cons_of_mem _ hmem)
  rw [mapOf, hnone _ hno] at h
  exact absurd h (by decide)

theorem mem_unitsWhere {s : State} {f : FlashAddr → Bool} {u : Nat} (h : (mapOf s u).st = 1) (hf : f (mapOf s u).addr = true) :
    u ∈ unitsWhere s f :=
  List.mem_map.2 ⟨_, List.mem_filter.2 ⟨mem_map_of_mapped h, by simp [h, hf]⟩, rfl⟩

theorem unitsWhere_of_map_eq {s t : State} (h : t.fl.map = s.fl.map) (f : FlashAddr → Bool) : unitsWhere t f = unitsWhere s f := by
  simp only [unitsWhere, h]

theorem unitsOfBlock_of_map_eq {s t : State} (h : t.fl.map = s.fl.map) (k : Nat) : unitsOfBlock t k = unitsOfBlock s k :=
  unitsWhere_of_map_eq h _

/-! ### Work that settles: contents, the map and the journal's entries stand -/

theorem DataKept.refl (s : State) : DataKept s s := ⟨rfl, rfl, rfl, rfl, rfl, rfl⟩

theorem DataKept.trans {s t u : State} (h : DataKept s t) (g : DataKept t u) : DataKept s u := by
  obtain ⟨d, x, c, m, n, k⟩ := h
  obtain ⟨d', x', c', m', n', k'⟩ := g
  exact ⟨d'.trans d, x'.trans x, c'.trans c, m'.trans m, n'.trans n, k'.trans k⟩

/-- An entry of the journal, by its number and records. -/
def HasEntry (s : State) (q : Nat) (rs : List Rec) : Prop := ∃ e ∈ s.fl.journal, e.seq = q ∧ e.recs = rs

/-- Contents and the map are kept, the journal's entries stand, and no program (16 Table 144, 0x31) or retry (0x33) is counted. -/
structure MapKept (s t : State) : Prop where
  data : DataKept s t
  map : t.fl.map = s.fl.map
  entries : ∀ q rs, HasEntry s q rs → HasEntry t q rs
  counts : ∀ k i, k = 0x31 ∨ k = 0x33 → i < 65536 → counted k i t = counted k i s

/-- The pages of registers are kept too. -/
structure Settles (s t : State) : Prop extends MapKept s t where
  trs : t.trs = s.trs

theorem MapKept.refl (s : State) : MapKept s s := ⟨DataKept.refl s, rfl, fun _ _ h => h, fun _ _ _ _ => rfl⟩

theorem MapKept.trans {s t u : State} (h : MapKept s t) (g : MapKept t u) : MapKept s u :=
  ⟨h.data.trans g.data, g.map.trans h.map, fun q rs he => g.entries q rs (h.entries q rs he),
    fun k i hk hi => (g.counts k i hk hi).trans (h.counts k i hk hi)⟩

theorem MapKept.mapOf {s t : State} (h : MapKept s t) (u : Nat) : mapOf t u = mapOf s u := mapOf_of_map_eq h.map u

theorem Settles.refl (s : State) : Settles s s := ⟨MapKept.refl s, rfl⟩

theorem Settles.trans {s t u : State} (h : Settles s t) (g : Settles t u) : Settles s u :=
  ⟨h.toMapKept.trans g.toMapKept, g.trs.trans h.trs⟩

theorem Settles.foldl {α : Type} {f : State → α → State} (hf : ∀ s a, Settles s (f s a)) (l : List α) (s : State) : Settles s (l.foldl f s) :=
  List.foldlRecOn l f (motive := Settles s) (Settles.refl s) fun t ht a _ => ht.trans (hf t a)

theorem Settles.ite {s t u : State} {c : Prop} [Decidable c] (ht : c → Settles s t) (hu : ¬c → Settles s u) :
    Settles s (if c then t else u) := by
  split
  · exact ht ‹_›
  · exact hu ‹_›

/-- Work on the store that leaves the contents, the map and the journal. -/
theorem Settles.of_store {s : State} {f : Flash} (x : Tiers) (hd : f.data = s.fl.data) (hm : f.map = s.fl.map)
    (hj : f.journal = s.fl.journal) : Settles s { s with fl := f, tier := x } :=
  ⟨⟨⟨hd, rfl, rfl, rfl, rfl, rfl⟩, hm, fun _ _ ⟨e, he, h⟩ => ⟨e, hj ▸ he, h⟩, fun _ _ _ _ => rfl⟩, rfl⟩

theorem settles_bump {k i : Nat} (n : Nat) (hk : k ≠ 0x31 ∧ k ≠ 0x33) (hi : i < 65536) (s : State) : Settles s (bump k i n s) :=
  ⟨⟨DataKept.refl s, rfl, fun _ _ h => h, fun k' i' hk' hi' => counted_bump_other _ _ _ _ _ _ (by omega)⟩, rfl⟩

theorem logRecord_counters (log : Nat) (m : Bool) (d : List Byte) (s : State) : (logRecord log m d s).tele.counters = s.tele.counters := by
  unfold logRecord
  dsimp only
  split
  · split
    · rw [signal_tele]
    · rfl
  · rfl

/-- An event counts at most its own loss. -/
theorem counted_raise {k i : Nat} (hk : k = 0x31 ∨ k = 0x33) (hi : i < 65536) (ev log w d0 d1 : Nat) (s : State) :
    counted k i (raise ev log w d0 d1 s) = counted k i s := by
  unfold raise
  dsimp only
  split
  · split
    · exact congrArg (SMap.find 0 · (k * 65536 + i)) (logRecord_counters ..)
    · rw [counted_bump_other _ _ _ _ _ _ (by omega)]
      exact congrArg (SMap.find 0 · (k * 65536 + i)) (logRecord_counters ..)
  · rfl

theorem settles_raise (ev log w d0 d1 : Nat) (s : State) : Settles s (raise ev log w d0 d1 s) where
  data := ⟨by simp, by simp, by simp, by simp, by simp, by simp⟩
  map := by simp
  entries _ _ h := by simpa [HasEntry] using h
  counts _ _ hk hi := counted_raise hk hi ..
  trs := by simp

theorem settles_platform (n : Nat) (v : Int) (s : State) : Settles s (platform n v s) where
  data := ⟨by simp, by simp, by simp, by simp, by simp, by simp⟩
  map := by simp
  entries _ _ h := by simpa [HasEntry] using h
  counts _ _ _ _ := by simp [counted]
  trs := by simp

theorem settles_journalFlush (s : State) : Settles s (journalFlush s) := by
  have hentries : ∀ q rs, HasEntry s q rs → HasEntry (journalFlush s) q rs := fun q rs ⟨e, he, hq, hr⟩ => by
    obtain ⟨e', he', hq', hr'⟩ := journalFlush_keeps he
    exact ⟨e', he', hq'.trans hq, hr'.trans hr⟩
  have hcounts : ∀ k i, k = 0x31 ∨ k = 0x33 → i < 65536 → counted k i (journalFlush s) = counted k i s := by
    intro k i hk hi
    unfold journalFlush
    split
    · rfl
    · exact counted_bump_other _ _ _ _ _ _ (by omega)
  obtain ⟨j, p, g, w, r, c, h⟩ := journalFlush_frame s
  rw [h] at hentries hcounts ⊢
  exact ⟨⟨DataKept.refl s, rfl, hentries, hcounts⟩, rfl⟩

/-- An entry whose records change no map entry. -/
theorem settles_commitEntry {rs : List Rec} (h : ∀ r ∈ rs, r.offMap = true) (s : State) : Settles s (commitEntry rs s) := by
  have hstaged : Settles s (stagedEntry rs s) :=
    ⟨⟨DataKept.refl s, foldl_applyRec_offMap h _, fun _ _ ⟨e, he, hq⟩ => ⟨e, List.mem_append_left _ he, hq⟩, fun _ _ _ _ => rfl⟩, rfl⟩
  rw [commitEntry_eq]
  exact Settles.ite (fun _ => hstaged.trans (settles_journalFlush _)) fun _ => hstaged

/-- Any entry leaves the contents, what stood in the journal, and the counts of programs and retries. -/
theorem commitEntry_leaves (rs : List Rec) (s : State) : DataKept s (commitEntry rs s)
    ∧ (∀ q rs', HasEntry s q rs' → HasEntry (commitEntry rs s) q rs')
    ∧ (∀ k i, k = 0x31 ∨ k = 0x33 → i < 65536 → counted k i (commitEntry rs s) = counted k i s) := by
  have hflush := settles_journalFlush (stagedEntry rs s)
  have hstaged : ∀ q rs', HasEntry s q rs' → HasEntry (stagedEntry rs s) q rs' :=
    fun _ _ ⟨e, he, hq⟩ => ⟨e, List.mem_append_left _ he, hq⟩
  rw [commitEntry_eq]
  split
  · exact ⟨hflush.data, fun q rs' h => hflush.entries q rs' (hstaged q rs' h), hflush.counts⟩
  · exact ⟨DataKept.refl s, hstaged, fun _ _ _ _ => rfl⟩

theorem commitEntry_entered (rs : List Rec) (s : State) : HasEntry (commitEntry rs s) (s.fl.seq + 1) rs := commitAs_journal _ rs s

/-! ### Behind the fence -/

theorem mapOf_fenced (f : State → State) (s : State) (u : Nat) : mapOf (fenced f s) u = mapOf (f s) u := rfl

theorem counted_fenced (k i : Nat) (f : State → State) (s : State) : counted k i (fenced f s) = counted k i (f s) := rfl

theorem DataKept.fenced {f : State → State} {s : State} (h : DataKept s (f s)) : DataKept s (fenced f s) := h

theorem HasEntry.fenced {f : State → State} {s : State} {q : Nat} {rs : List Rec} (h : HasEntry (f s) q rs) : HasEntry (fenced f s) q rs := h

/-! ### Endurance and retirement (11 R350 to R353) -/

/-- The flash with a spare capacity. -/
def withSpare (n : Nat) (s : State) : State := { s with fl := { s.fl with spareBytes := n } }

theorem withSpare_blocks (n : Nat) (s : State) : (withSpare n s).fl.blocks = s.fl.blocks := rfl
theorem withSpare_dies (n : Nat) (s : State) : (withSpare n s).fl.dies = s.fl.dies := rfl
theorem withSpare_spareBytes (n : Nat) (s : State) : (withSpare n s).fl.spareBytes = n := rfl

theorem settles_withSpare (n : Nat) (s : State) : Settles s (withSpare n s) := Settles.of_store s.tier rfl rfl rfl

theorem settles_toStage (n : Nat) (s : State) : Settles s (toStage n s) :=
  Settles.ite (fun _ => (Settles.of_store (f := { s.fl with stage := n }) s.tier rfl rfl rfl).trans (settles_platform ..)) fun _ => Settles.refl s

theorem toStage_fl (n : Nat) (s : State) : ∃ a, (toStage n s).fl = { s.fl with stage := a } := by
  unfold toStage
  split
  · exact ⟨n, platform_fl ..⟩
  · exact ⟨s.fl.stage, rfl⟩

/-- The notice that the mean wear calls for (11 Table 103). -/
def noticeDue (s : State) : Nat :=
  if 100 ≤ meanWear s * 100 / 1500 then 100 else if 90 ≤ meanWear s * 100 / 1500 then 90 else if 80 ≤ meanWear s * 100 / 1500 then 80 else 0

/-- Stage Notice, where a notice is due that has not been given. -/
def noticed (s : State) : State :=
  if s.fl.wearNotice < noticeDue s then
    raise 0x0001 1 (noticeDue s) (meanWear s) 0 (toStage 1 { s with fl := { s.fl with wearNotice := noticeDue s } })
  else s

/-- Stage Throttle below 2% of spare capacity. -/
def throttled (s : State) : State :=
  if spareShare s < 200 ∧ s.fl.stage < 2 then raise 0x0002 1 0 (spareShare s) 0 (toStage 2 s) else s

/-- Stage Worn at 2.56 TB of spare capacity. -/
def wornOut (s : State) : State :=
  if s.fl.spareBytes ≤ 2560000000000 ∧ s.fl.stage < 3 then raise 0x0003 2 0 (spareShare s) 0 (toStage 3 s) else s

theorem endurance_eq (s : State) : endurance s = wornOut (throttled (noticed s)) := rfl

theorem settles_endurance (s : State) : Settles s (endurance s) := by
  have hnoticed : Settles s (noticed s) := by
    refine Settles.ite (fun _ => Settles.trans ?_ ((settles_toStage 1 _).trans (settles_raise ..))) fun _ => Settles.refl s
    exact Settles.of_store s.tier rfl rfl rfl
  have hthrottled : ∀ t, Settles t (throttled t) := fun t =>
    Settles.ite (fun _ => (settles_toStage 2 t).trans (settles_raise ..)) fun _ => Settles.refl t
  have hworn : ∀ t, Settles t (wornOut t) := fun t =>
    Settles.ite (fun _ => (settles_toStage 3 t).trans (settles_raise ..)) fun _ => Settles.refl t
  exact (hnoticed.trans (hthrottled _)).trans (hworn _)

/-- Of the flash, endurance changes its stage and its notice alone. -/
theorem endurance_fl (s : State) : ∃ a b, (endurance s).fl = { s.fl with stage := a, wearNotice := b } := by
  have hnoticed : ∃ a b, (noticed s).fl = { s.fl with stage := a, wearNotice := b } := by
    unfold noticed
    split
    · obtain ⟨a, ha⟩ := toStage_fl 1 { s with fl := { s.fl with wearNotice := noticeDue s } }
      exact ⟨a, _, (raise_fl ..).trans ha⟩
    · exact ⟨_, _, rfl⟩
  have hthrottled : ∀ t, ∃ a, (throttled t).fl = { t.fl with stage := a } := by
    intro t
    unfold throttled
    split
    · rw [raise_fl]
      exact toStage_fl 2 t
    · exact ⟨_, rfl⟩
  have hworn : ∀ t, ∃ a, (wornOut t).fl = { t.fl with stage := a } := by
    intro t
    unfold wornOut
    split
    · rw [raise_fl]
      exact toStage_fl 3 t
    · exact ⟨_, rfl⟩
  obtain ⟨a, b, h1⟩ := hnoticed
  obtain ⟨a2, h2⟩ := hthrottled (noticed s)
  obtain ⟨a3, h3⟩ := hworn (throttled (noticed s))
  exact ⟨a3, b, by rw [endurance_eq, h3, h2, h1]⟩

@[simp] theorem endurance_blocks (s : State) : (endurance s).fl.blocks = s.fl.blocks := by obtain ⟨_, _, h⟩ := endurance_fl s; rw [h]
@[simp] theorem endurance_sbs (s : State) : (endurance s).fl.sbs = s.fl.sbs := by obtain ⟨_, _, h⟩ := endurance_fl s; rw [h]
@[simp] theorem endurance_dies (s : State) : (endurance s).fl.dies = s.fl.dies := by obtain ⟨_, _, h⟩ := endurance_fl s; rw [h]
@[simp] theorem endurance_spareBytes (s : State) : (endurance s).fl.spareBytes = s.fl.spareBytes := by
  obtain ⟨_, _, h⟩ := endurance_fl s; rw [h]

theorem retireBlock_eq {k : Nat} {s : State} (h : (SMap.find {} s.fl.blocks k).retired = none) (reason : Nat) :
    retireBlock k reason s = endurance (raise 0x0008 0 (blockAddr k).toNat reason 0
      (withSpare ((commitEntry [.retire k reason] s).fl.spareBytes - (if countsSpare s k then blockCapacity else 0))
        (commitEntry [.retire k reason] s))) := by
  unfold retireBlock withSpare
  rw [if_neg (by simp [h])]

theorem settles_retireBlock (k reason : Nat) (s : State) : Settles s (retireBlock k reason s) := by
  cases h : (SMap.find {} s.fl.blocks k).retired with
  | none =>
    rw [retireBlock_eq h]
    exact (settles_commitEntry (by simp [Rec.offMap]) s).trans ((settles_withSpare ..).trans ((settles_raise ..).trans (settles_endurance _)))
  | some r =>
    rw [retireBlock, if_pos (by simp [h])]
    exact Settles.refl s

theorem settles_modBlock (k : Nat) (f : Block → Block) (s : State) : Settles s (modBlock k f s) := Settles.of_store s.tier rfl rfl rfl

theorem settles_doomBlock (k reason : Nat) (s : State) : Settles s (doomBlock k reason s) :=
  Settles.ite (fun _ => settles_retireBlock ..) fun _ => settles_modBlock ..

theorem settles_settleDoomed (s : State) : Settles s (settleDoomed s) := by
  refine Settles.foldl (fun s' e => ?_) _ s
  split
  · exact Settles.ite (fun _ => settles_retireBlock ..) fun _ => Settles.refl s'
  · exact Settles.refl s'

/-! ### Relocations, superblocks and the write buffer -/

theorem faChan_lt (a : FlashAddr) : faChan a < 128 := Nat.mod_lt _ (by decide)

theorem settles_startReloc (sb : Nat) (pr : Purpose) (pg : Option Nat) (us : List Nat) (s : State) : Settles s (startReloc sb pr pg us s) := by
  unfold startReloc
  refine Settles.ite (fun _ => Settles.refl s) fun _ => ?_
  refine (Settles.foldl (fun s' u => ?_) (us.filter (fun u => !relocating s u)) s).trans (Settles.of_store _ rfl rfl rfl)
  exact settles_bump 1 (by decide) (lt_trans (faChan_lt _) (by decide)) s'

theorem settles_refreshBlock (k : Nat) (s : State) : Settles s (refreshBlock k s) := settles_startReloc ..

theorem settles_modSb (k : Nat) (f : Superblock → Superblock) (s : State) : Settles s (modSb k f s) := Settles.of_store s.tier rfl rfl rfl

theorem settles_closeFull (us : List (Nat × FlashAddr)) (s : State) : Settles s (closeFull us s) :=
  Settles.foldl (fun s' e => Settles.ite (fun _ => settles_modSb (sbKey s' e.2) _ s') fun _ => Settles.refl s') us s

theorem settles_setBacking (u : Nat) (slc : Bool) (s : State) : Settles s (setBacking u slc s) := by
  unfold setBacking
  split
  · exact Settles.refl s
  · exact Settles.of_store _ rfl rfl rfl

/-- Backing units that enter the buffer again change it, the noted mismatches and their own list. -/
theorem drainRewrites_frame (s : State) :
    ∃ w m r, drainRewrites s = { s with fl := { s.fl with wbuf := w, mismatch := m, rewrites := r } } :=
  List.foldlRecOn _ _ (motive := fun t => ∃ w m r, t = { s with fl := { s.fl with wbuf := w, mismatch := m, rewrites := r } })
    ⟨_, _, _, rfl⟩ fun _ ⟨_, _, _, ht⟩ _ _ => ⟨_, _, _, by rw [ht]; rfl⟩

theorem settles_drainRewrites (s : State) : Settles s (drainRewrites s) := by
  obtain ⟨w, m, r, h⟩ := drainRewrites_frame s
  rw [h]
  exact Settles.of_store s.tier rfl rfl rfl

/-! ### Lost volume data (11 R354, R357) -/

theorem mapKept_deferError (t : Nat) (code : Byte) (vol lba : Nat) (s : State) : MapKept s (deferError t code vol lba s) := by
  unfold deferError
  split
  · refine MapKept.trans ?_ (settles_raise ..).toMapKept
    exact ⟨⟨rfl, rfl, rfl, rfl, rfl, rfl⟩, rfl, fun _ _ h => h, fun _ _ _ _ => rfl⟩
  · exact MapKept.refl s

theorem mapKept_reportLost (code : Byte) (lost : List Nat) (s : State) : MapKept s (reportLost code lost s) := by
  refine List.foldlRecOn _ _ (motive := MapKept s) (MapKept.refl s) fun t ht o _ => ht.trans ?_
  split
  · exact MapKept.refl t
  · split
    · exact ⟨⟨rfl, rfl, rfl, rfl, rfl, rfl⟩, rfl, fun _ _ h => h, fun _ _ _ _ => rfl⟩
    · exact mapKept_deferError ..

/-- A report changes nothing of the flash. -/
@[simp] theorem reportLost_fl (code : Byte) (lost : List Nat) (s : State) : (reportLost code lost s).fl = s.fl := by
  refine List.foldlRecOn _ _ (motive := fun t : State => t.fl = s.fl) rfl fun t ht o _ => Eq.trans ?_ ht
  split
  · rfl
  · split
    · rfl
    · unfold deferError
      split
      · exact raise_fl ..
      · rfl

end Sys2Proof.Machine

/-! PROOFS. A program maps its unit, or its block retires (11 R328, R329, R336, R353). -/
namespace Sys2Proof.Machine

/-! ### A program that passes -/

/-- Contents, the map, the next entry's number, the write buffer and the pages of registers are as they were. -/
structure BufferKept (s t : State) : Prop where
  data : DataKept s t
  map : t.fl.map = s.fl.map
  seq : t.fl.seq = s.fl.seq
  wbuf : t.fl.wbuf = s.fl.wbuf
  trs : t.trs = s.trs

theorem BufferKept.trans {s t u : State} (h : BufferKept s t) (g : BufferKept t u) : BufferKept s u :=
  ⟨h.data.trans g.data, g.map.trans h.map, g.seq.trans h.seq, g.wbuf.trans h.wbuf, g.trs.trans h.trs⟩

/-- A superblock that opens counts nothing. -/
theorem openSb_keeps (k : Nat) (want : SbState) (s : State) : BufferKept s (openSb k want s) ∧ (openSb k want s).tele = s.tele := by
  unfold openSb
  split
  · exact ⟨⟨DataKept.refl s, rfl, rfl, rfl, rfl⟩, rfl⟩
  · exact ⟨⟨⟨rfl, rfl, rfl, rfl, rfl, rfl⟩, rfl, rfl, rfl, rfl⟩, rfl⟩

theorem bufferKept_bump (k i n : Nat) (s : State) : BufferKept s (bump k i n s) := ⟨DataKept.refl s, rfl, rfl, rfl, rfl⟩

theorem bufferKept_modBlock (k : Nat) (f : Block → Block) (s : State) : BufferKept s (modBlock k f s) := ⟨DataKept.refl s, rfl, rfl, rfl, rfl⟩

theorem bufferKept_dieOk (k : Nat) (s : State) : BufferKept s (dieOk k s) := ⟨DataKept.refl s, rfl, rfl, rfl, rfl⟩

/-- A page that is programmed changes the tags, its block, its die and the counters. -/
theorem pageProgrammed_keeps (pr : Purpose) (a : FlashAddr) (tag : Tag) (s : State) : BufferKept s (pageProgrammed pr a tag s) := by
  have htag : BufferKept s { s with fl := { s.fl with tags := SMap.put none s.fl.tags a.toNat (some tag) } } :=
    ⟨DataKept.refl s, rfl, rfl, rfl, rfl⟩
  unfold pageProgrammed
  refine BufferKept.trans (htag.trans ((bufferKept_bump 0x31 (faChan a) 1 _).trans ?_)) ((bufferKept_modBlock ..).trans (bufferKept_dieOk ..))
  split
  · exact bufferKept_bump ..
  · exact ⟨DataKept.refl _, rfl, rfl, rfl, rfl⟩

/-- It counts on its channel and for its purpose. -/
def pageCounted (pr : Purpose) (a : FlashAddr) (s : State) : State :=
  (purposeInst pr).elim (bump 0x31 (faChan a) 1 s) fun i => bump 0x34 i 16384 (bump 0x31 (faChan a) 1 s)

theorem pageProgrammed_tele (pr : Purpose) (a : FlashAddr) (tag : Tag) (s : State) :
    (pageProgrammed pr a tag s).tele = (pageCounted pr a s).tele := by
  cases pr <;> rfl

theorem counted_pageProgrammed (pr : Purpose) (a : FlashAddr) (tag : Tag) (s : State) :
    counted 0x31 (faChan a) (pageProgrammed pr a tag s) = counted 0x31 (faChan a) s + 1 := by
  have hch := faChan_lt a
  rw [counted_of_tele_eq (pageProgrammed_tele pr a tag s), pageCounted]
  cases hp : purposeInst pr with
  | none => exact counted_bump_self ..
  | some i =>
    have hi : i < 7 := by cases pr <;> simp [purposeInst] at hp <;> omega
    rw [Option.elim_some, counted_bump_other _ _ _ _ _ _ (by omega), counted_bump_self]
    rfl

/-- A buffered unit's program has passed at `a`. -/
def bufferedAt (u : Nat) (a : FlashAddr) (s : State) : State :=
  { s with fl := { s.fl with wbuf := s.fl.wbuf.map (fun (b : BufUnit) => if b.unit = u then { b with progAt := some a } else b) } }

section
variable {s : State} {u : Nat} {a : FlashAddr} (hb : ∀ b ∈ s.fl.wbuf, b.unit = u → b.progAt = none ∧ b.mapSeq = none ∧ b.cmd = none)
  (hin : inBuffer s u = true)
include hb hin

/-- A unit that waits in the buffer is programmed where its page lies at its destination. -/
theorem programUnit_of_buffered (hp : canProgram s a = true) (hs : spreads s u a = true) (hr : relocWaiting s u = none)
    (ht : tailUnit s u = false) (hf : sbFits s (sbKey s a) (destOf s u) = true) : programUnit (u, a) s
      = pageProgrammed (purposeOf s u) a (firstTag s u) (bufferedAt u a (openSb (sbKey s a) (destOf s u) s)) := by
  obtain ⟨b, hmem, hu⟩ := List.any_eq_true.1 hin
  have hwaits : s.fl.wbuf.any (fun b => b.unit == u && b.progAt.isNone) = true :=
    List.any_eq_true.2 ⟨b, hmem, by simp [hu, (hb b hmem (by simpa using hu)).1]⟩
  unfold programUnit
  dsimp only
  rw [if_neg (not_not.2 ⟨hp, hs⟩), hr]
  exact if_pos (by simp [hwaits, hf, ht])

/-- Its MAP record is the one entry that its program makes. -/
theorem mapProgrammed_of_buffered {t : State} (hw : t.fl.wbuf = (bufferedAt u a s).fl.wbuf) : ∃ w b,
    mapProgrammed [(u, a)] t = setBacking u b (commitEntry [.map u a] { t with fl := { t.fl with wbuf := w } }) := by
  obtain ⟨b, hmem, hu⟩ := List.any_eq_true.1 hin
  have hu' : b.unit = u := by simpa using hu
  obtain ⟨-, hseq, hcmd⟩ := hb b hmem hu'
  have hnew : [(u, a)].filter (fun e => t.fl.wbuf.any (fun b => b.unit == e.1 && b.progAt == some e.2 && b.mapSeq.isNone && b.cmd.isNone))
      = [(u, a)] := by
    refine List.filter_eq_self.2 fun e he => List.any_eq_true.2 ⟨{ b with progAt := some a }, ?_, ?_⟩
    · rw [hw]
      exact List.mem_map.2 ⟨b, hmem, if_pos hu'⟩
    · obtain rfl := List.mem_singleton.1 he
      simp [hu', hseq, hcmd]
  unfold mapProgrammed
  dsimp only
  rw [hnew]
  exact ⟨_, _, rfl⟩
end

theorem mapOf_commitMap (u : Nat) (a : FlashAddr) (s : State) (w : Nat) :
    mapOf (commitEntry [.map u a] s) w = if w = u then { addr := a, st := 1, slc := slcAddr s a } else mapOf s w := by
  have hone : mapOf (commitEntry [.map u a] s) w = SMap.find {} (SMap.put {} s.fl.map u { addr := a, st := 1, slc := slcAddr s a }) w := by
    rw [mapOf, commitEntry_map]
    rfl
  rw [hone]
  split
  · subst w
    exact SMap.find_put_self ..
  · exact SMap.find_put_other _ _ _ _ ‹_›

/-- What follows the program of a unit: its entry is made, and nothing after that changes the map. -/
def afterProgram (us : List (Nat × FlashAddr)) (s : State) : State := drainRewrites (settleDoomed (closeFull us (mapProgrammed us s)))

theorem programsPass_single (u : Nat) (a : FlashAddr) (s : State) :
    programsPass [(u, a)] s = afterProgram [(u, a)] (programUnit (u, a) s) := by
  unfold programsPass afterProgram
  rw [List.foldl_cons, List.foldl_nil]

theorem settles_afterProgram {us : List (Nat × FlashAddr)} {t t' : State} {u : Nat} {b : Bool} (h : mapProgrammed us t = setBacking u b t') :
    Settles t' (afterProgram us t) := by
  unfold afterProgram
  rw [h]
  exact ((settles_setBacking ..).trans (settles_closeFull ..)).trans ((settles_settleDoomed _).trans (settles_drainRewrites _))

/-- The whole row, for one unit that waits in the buffer. -/
theorem program_maps {s : State} {u : Nat} {a : FlashAddr} (hm : s.boot.mode = .service) (hp : canProgram s a = true)
    (hs : spreads s u a = true) (hr : relocWaiting s u = none) (ht : tailUnit s u = false)
    (hb : ∀ b ∈ s.fl.wbuf, b.unit = u → b.progAt = none ∧ b.mapSeq = none ∧ b.cmd = none) (hin : inBuffer s u = true)
    (hf : sbFits s (sbKey s a) (destOf s u) = true) :
    ∃ t, exec (.nandProgramComplete [(u, a)]) s = .next t ∧ (mapOf t u).addr = a ∧ (mapOf t u).st = 1
      ∧ (∀ w, w ≠ u → mapOf t w = mapOf s w) ∧ Entered s t [.map u a]
      ∧ counted 0x31 (faChan a) t = counted 0x31 (faChan a) s + 1 ∧ DataKept s t ∧ t.trs = s.trs := by
  have hch : faChan a < 65536 := lt_trans (faChan_lt a) (by decide)
  obtain ⟨hopen, htele⟩ := openSb_keeps (sbKey s a) (destOf s u) s
  have hprog := programUnit_of_buffered hb hin hp hs hr ht hf
  have hkept : BufferKept (bufferedAt u a (openSb (sbKey s a) (destOf s u) s)) (programUnit (u, a) s) := hprog ▸ pageProgrammed_keeps ..
  have hcount : counted 0x31 (faChan a) (programUnit (u, a) s) = counted 0x31 (faChan a) s + 1 := by
    rw [hprog, counted_pageProgrammed]
    exact congrArg (· + 1) (counted_of_tele_eq (s := s) htele ..)
  have hwbuf : (programUnit (u, a) s).fl.wbuf = (bufferedAt u a s).fl.wbuf := hkept.wbuf.trans (congrArg (List.map _) hopen.wbuf)
  obtain ⟨w, x, hmapped⟩ := mapProgrammed_of_buffered hb hin hwbuf
  have htail := settles_afterProgram hmapped
  rw [← programsPass_single] at htail
  obtain ⟨hentry, -, hcounts⟩ := commitEntry_leaves [.map u a]
    { programUnit (u, a) s with fl := { (programUnit (u, a) s).fl with wbuf := w } }
  have hunits : ∀ v, v ≠ u → mapOf (programsPass [(u, a)] s) v = mapOf s v := fun v hv =>
    ((htail.mapOf v).trans ((mapOf_commitMap ..).trans (if_neg hv))).trans
      (mapOf_of_map_eq (t := programUnit (u, a) s) (hkept.map.trans hopen.map) v)
  have hunit := (htail.mapOf u).trans ((mapOf_commitMap ..).trans (if_pos rfl))
  refine ⟨_, whenServing_service (programsPass [(u, a)]) hm, ?_, ?_, fun v hv => ?_, ?_, ?_, ?_, ?_⟩
  · rw [mapOf_fenced, hunit]
  · rw [mapOf_fenced, hunit]
  · rw [mapOf_fenced, hunits v hv]
  · have hseq : (programUnit (u, a) s).fl.seq = s.fl.seq := hkept.seq.trans hopen.seq
    obtain ⟨e, he, hnumber, hrecs⟩ := (htail.entries _ _ (commitEntry_entered ..)).fenced
    exact ⟨e, he, hnumber.trans (congrArg (· + 1) hseq), hrecs⟩
  · rw [counted_fenced, htail.counts 0x31 _ (Or.inl rfl) hch, hcounts 0x31 _ (Or.inl rfl) hch]
    exact hcount
  · exact (((hopen.data.trans hkept.data).trans hentry).trans htail.data).fenced
  · rw [fenced_trs]
    exact htail.trs.trans ((storeOnly_commitEntry ..).trs.trans (hkept.trs.trans hopen.trs))

/-! ### A program that fails (11 R336, R354) -/

/-- Copies in a block go back to their sources, and buffered units programmed there wait again. -/
def reclaimed (a : FlashAddr) (s : State) : State :=
  unprogram (fun b => blockKey b == blockKey a) (mapRelocs (fun x =>
    some (if (x.stage = 1 ∨ x.stage = 2) ∧ blockKey x.copy = blockKey a then { x with stage := 0 } else x)) s)

/-- The units of the block that the failure has lost. -/
def lostUnits (a : FlashAddr) (lost : List Nat) (s : State) : List Nat := (unitsOfBlock s (blockKey a)).filter (fun u => decide (u ∈ lost))

/-- They become UNREADABLE in one entry and are reported. -/
def lostNoted (a : FlashAddr) (lost : List Nat) (s : State) : State :=
  if (lostUnits a lost s).isEmpty then s
  else reportLost stMediaError ((lostUnits a lost s).filter (fun u => !inBuffer s u))
    (commitEntry ((lostUnits a lost s).map (fun u => Rec.state u 1 3)) s)

/-- What the block still holds is relocated, and the block is doomed. -/
def movedAndDoomed (a : FlashAddr) (s : State) : State :=
  doomBlock (blockKey a) 1 (startReloc (sbKey s a) .gc none (unitsOfBlock s (blockKey a)) s)

theorem programFails_eq (a : FlashAddr) (lost : List Nat) (s : State) :
    programFails a lost s = movedAndDoomed a (lostNoted a lost (reclaimed a s)) := by
  unfold programFails movedAndDoomed lostNoted lostUnits reclaimed
  rfl

theorem settles_movedAndDoomed (a : FlashAddr) (s : State) : Settles s (movedAndDoomed a s) :=
  (settles_startReloc ..).trans (settles_doomBlock ..)

theorem settles_reclaimed (a : FlashAddr) (s : State) : Settles s (reclaimed a s) := Settles.of_store s.tier rfl rfl rfl

theorem dataKept_lostNoted (a : FlashAddr) (lost : List Nat) (s : State) : DataKept s (lostNoted a lost s) := by
  unfold lostNoted
  split
  · exact DataKept.refl s
  · exact (commitEntry_leaves ..).1.trans (mapKept_reportLost ..).data

/-- A lost unit is UNREADABLE. -/
theorem unreadable_of_lost {a : FlashAddr} {lost : List Nat} {s : State} {u : Nat} (hu : u ∈ unitsOfBlock s (blockKey a)) (hl : u ∈ lost) :
    (mapOf (lostNoted a lost s) u).st = 3 := by
  have hmem : u ∈ lostUnits a lost s := List.mem_filter.2 ⟨hu, decide_eq_true hl⟩
  unfold lostNoted
  rw [if_neg (by simp [List.ne_nil_of_mem hmem]), (mapKept_reportLost ..).mapOf, mapOf_commitState, if_pos hmem]

theorem lostNoted_of_none (a : FlashAddr) (s : State) : lostNoted a [] s = s := by simp [lostNoted, lostUnits]

theorem startReloc_of_nil (sb : Nat) (pr : Purpose) (pg : Option Nat) (s : State) : startReloc sb pr pg [] s = s := rfl

theorem doomBlock_of_empty {k : Nat} {s : State} (h : unitsOfBlock s k = []) (reason : Nat) : doomBlock k reason s = retireBlock k reason s :=
  if_pos (by simp [h])

theorem doomBlock_of_units {k : Nat} {s : State} (h : unitsOfBlock s k ≠ []) (reason : Nat) :
    doomBlock k reason s = modBlock k (fun b => { b with doomed := some (b.doomed.getD reason) }) s := if_neg (by simpa using h)

/-- A block's RETIRE record is in the journal and in the block table, and its bytes leave the spare capacity (11 R350, R353). -/
theorem retireBlock_of_unretired {k : Nat} {s : State} (h : (SMap.find {} s.fl.blocks k).retired = none) (reason : Nat) :
    (SMap.find {} (retireBlock k reason s).fl.blocks k).retired = some reason ∧ HasEntry (retireBlock k reason s) (s.fl.seq + 1) [.retire k reason]
      ∧ (retireBlock k reason s).fl.spareBytes = s.fl.spareBytes - (if countsSpare s k = true then 25165824 else 0) := by
  rw [retireBlock_eq h]
  refine ⟨?_, ?_, ?_⟩
  · rw [endurance_blocks, raise_fl, withSpare_blocks, commitEntry_blocks, List.foldl_cons, List.foldl_nil, applyRetire, SMap.find_modify_self]
  · exact ((settles_withSpare ..).trans ((settles_raise ..).trans (settles_endurance _))).entries _ _ (commitEntry_entered [.retire k reason] s)
  · rw [endurance_spareBytes, raise_fl, withSpare_spareBytes, commitEntry_spareBytes, blockCapacity]

/-- A failed block that no map entry names retires at once. -/
theorem failed_block_retires {s : State} {a : FlashAddr} (h : unitsOfBlock s (blockKey a) = []) :
    programFails a [] s = retireBlock (blockKey a) 1 (reclaimed a s) := by
  have hnone : unitsOfBlock (reclaimed a s) (blockKey a) = [] := h
  rw [programFails_eq, lostNoted_of_none, movedAndDoomed, hnone, startReloc_of_nil, doomBlock_of_empty hnone]

/-- One that still holds units keeps its reason while they are relocated. -/
theorem failed_block_moves {s : State} {a : FlashAddr} (h : unitsOfBlock s (blockKey a) ≠ []) (hr : s.fl.relocs = [])
    (hf : flashStopped s = false) : ∃ w b c, programFails a [] s = { s with
        fl := { s.fl with wbuf := w, relocs := [relocOf s (sbKey s a) .gc none (unitsOfBlock s (blockKey a))], blocks := b },
        tele := { s.tele with counters := c } }
      ∧ (SMap.find {} b (blockKey a)).doomed = some ((SMap.find {} s.fl.blocks (blockKey a)).doomed.getD 1) := by
  have hrelocs : (reclaimed a s).fl.relocs = [] := by simp [reclaimed, unprogram, mapRelocs, hr]
  obtain ⟨c, hc⟩ := startReloc_of_none_relocating (s := reclaimed a s) hf h (fun u _ => by simp [relocating, hrelocs]) (sbKey s a) .gc none
  have hunits : unitsOfBlock (startReloc (sbKey s a) .gc none (unitsOfBlock s (blockKey a)) (reclaimed a s)) (blockKey a) ≠ [] := by
    rw [unitsOfBlock_of_map_eq (settles_startReloc ..).map]
    exact h
  have hrow : programFails a [] s = modBlock (blockKey a) (fun b => { b with doomed := some (b.doomed.getD 1) })
      (startReloc (sbKey s a) .gc none (unitsOfBlock s (blockKey a)) (reclaimed a s)) := by
    rw [programFails_eq, lostNoted_of_none]
    exact doomBlock_of_units hunits 1
  rw [hc, hrelocs] at hrow
  exact ⟨_, _, c, hrow, congrArg Block.doomed (SMap.find_modify_self ..)⟩

/-! ### The statement -/

/-- Settles O44: a program that passes makes one entry, before and after which nothing of the map changes (`Settles`); one that fails notes
its lost units, then moves or retires (`movedAndDoomed`). -/
theorem programsMapUnitsOrRetireBlocks : Obligations.ProgramsMapUnitsOrRetireBlocks := by
  refine ⟨fun s u a hm hp hs hr ht hb hin hf => program_maps hm hp hs hr ht hb hin hf, fun s a lost u hm hu hl => ?_,
    fun s a hm => ⟨fun hnone hret => ?_, fun hsome hrel hstop => ?_⟩⟩
  · have htail := settles_movedAndDoomed a (lostNoted a lost (reclaimed a s))
    refine ⟨_, whenServing_service (programFails a lost) hm, ?_, ?_⟩
    · rw [mapOf_fenced, programFails_eq, htail.mapOf]
      exact unreadable_of_lost (s := reclaimed a s) hu hl
    · have hdata := ((settles_reclaimed a s).data.trans (dataKept_lostNoted a lost _)).trans htail.data
      rw [← programFails_eq] at hdata
      exact hdata.fenced
  · obtain ⟨hretired, hentry, hspare⟩ := retireBlock_of_unretired (s := reclaimed a s) hret 1
    have hkept : Settles s (retireBlock (blockKey a) 1 (reclaimed a s)) := (settles_reclaimed a s).trans (settles_retireBlock ..)
    have hrow := failed_block_retires hnone
    refine ⟨_, whenServing_service (programFails a []) hm, ?_, ?_, ?_, ?_, ?_⟩
    · rw [fenced_fl, hrow, hretired]
    · exact HasEntry.fenced (hrow ▸ hentry)
    · rw [fenced_fl, hrow, hkept.map]
    · exact DataKept.fenced (hrow ▸ hkept.data)
    · rw [fenced_fl, hrow]
      exact hspare
  · obtain ⟨w, b, c, hrow, hdoomed⟩ := failed_block_moves hsome hrel hstop
    exact ⟨_, (whenServing_service (programFails a []) hm).trans (congrArg _ (fenced_of_keeps hrow rfl rfl rfl rfl rfl)), rfl, hdoomed, rfl,
      DataKept.refl s, rfl⟩

end Sys2Proof.Machine

/-! PROOFS. Flash reads: what a decode counts, what a page that no stage decodes becomes, and suspended dies (11 R344 to R349, 12 R375). -/
namespace Sys2Proof.Machine

/-! ### Dies -/

theorem dieOf_modDie_self (k : Nat) (f : Die → Die) (s : State) : dieOf (modDie k f s) k = f (dieOf s k) := SMap.find_modify_self ..

theorem dieOf_modDie_other {j k : Nat} (h : j ≠ k) (f : Die → Die) (s : State) : dieOf (modDie k f s) j = dieOf s j :=
  SMap.find_modify_other _ _ _ _ h

/-- A change of one die by a serving row. -/
theorem die_changed {f : State → State} {s : State} {k : Nat} {g : Die → Die} (hm : s.boot.mode = .service) (h : f s = modDie k g s) :
    ∃ t, whenServing f s = .next t ∧ dieOf t k = g (dieOf s k) ∧ (∀ j, j ≠ k → dieOf t j = dieOf s j)
      ∧ t = { s with fl := { s.fl with dies := t.fl.dies } } :=
  ⟨_, (whenServing_service f hm).trans (congrArg _ (fenced_of_keeps h rfl rfl rfl rfl rfl)), dieOf_modDie_self .., fun _ hj =>
    dieOf_modDie_other hj .., rfl⟩

/-- A completed operation leaves the place that a die serves. -/
theorem serves_dieOk (k j : Nat) (s : State) : (dieOf (dieOk k s) j).serves = (dieOf s j).serves := by
  by_cases h : j = k
  · rw [h, dieOk, dieOf_modDie_self]
  · rw [dieOk, dieOf_modDie_other h]

/-- Superblocks and their mode are found through what the dies serve. -/
theorem slcAddr_congr {s t : State} (hd : ∀ j, (dieOf t j).serves = (dieOf s j).serves) (hs : t.fl.sbs = s.fl.sbs) (a : FlashAddr) :
    slcAddr t a = slcAddr s a := by
  have hk : sbKey t a = sbKey s a := by
    have h := hd (dieKey a)
    unfold dieOf at h
    simp only [sbKey, h]
  rw [slcAddr, slcAddr, hk, hs]

/-! ### A page that is decoded (11 R344, R346) -/

theorem block_modBlock_self (k : Nat) (f : Block → Block) (s : State) :
    SMap.find {} (modBlock k f s).fl.blocks k = f (SMap.find {} s.fl.blocks k) := SMap.find_modify_self ..

/-- A read that is counted below its block's limit, and gives no other reason, refreshes nothing. -/
theorem afterRead_of_counted {a : FlashAddr} {f : Block → Block} {s t : State} (hd : ∀ j, (dieOf t j).serves = (dieOf s j).serves)
    (hs : t.fl.sbs = s.fl.sbs) (hb : t.fl.blocks = s.fl.blocks) (hf : ∀ b, (f b).reads = b.reads + 1)
    (h : (SMap.find {} s.fl.blocks (blockKey a)).reads + 1 < readLimit (slcAddr s a)) :
    afterRead a false false (modBlock (blockKey a) f t) = modBlock (blockKey a) f t := by
  have hslc : slcAddr (modBlock (blockKey a) f t) a = slcAddr s a := slcAddr_congr hd hs a
  have hreads : (SMap.find {} (modBlock (blockKey a) f t).fl.blocks (blockKey a)).reads < readLimit (slcAddr (modBlock (blockKey a) f t) a) := by
    rw [hslc, block_modBlock_self, hf, hb]
    exact h
  simp [afterRead, not_le.2 hreads]

/-- A decoded read changes its block, its die and the counters. -/
theorem unitRead_of_hard {u k : Nat} {a : FlashAddr} {s : State} (hk : k < 5)
    (h : (SMap.find {} s.fl.blocks (blockKey a)).reads + 1 < readLimit (slcAddr s a)) : unitRead u a (.hard k) s
      = modBlock (blockKey a) (fun b => { b with reads := b.reads + 1, lastStep := k }) (bump 0x33 (faChan a) k (dieOk (dieKey a) s)) := by
  unfold unitRead
  dsimp only [retriesOf]
  rw [decide_eq_false (not_le.2 hk)]
  exact afterRead_of_counted (fun j => serves_dieOk (dieKey a) j s) rfl rfl (fun _ => rfl) h

/-- The page check of a decoded tier page that fails is noted, and nothing else. -/
theorem checked_mismatch (u k : Nat) (ok : Bool) (s : State) : ∃ m,
    (if ok = true ∨ ReadOutcome.hard k = .failed then s else tierMismatch u s) = { s with fl := { s.fl with mismatch := m } }
      ∧ ∀ v, v ∈ m ↔ v ∈ s.fl.mismatch ∨ (v = u ∧ ok = false ∧ ((slotOfUnit s u).bind (pageAt s)).isSome = true) := by
  cases ok with
  | true => exact ⟨s.fl.mismatch, if_pos (Or.inl rfl), by simp⟩
  | false =>
    rw [if_neg (by simp), tierMismatch]
    split
    · rename_i hp
      refine ⟨dedup (s.fl.mismatch ++ [u]), rfl, fun v => ?_⟩
      rw [mem_dedup, List.mem_append, List.mem_singleton]
      simp [hp]
    · rename_i hp
      exact ⟨s.fl.mismatch, rfl, by simp [hp]⟩

theorem nandRead_of_mapped {u : Nat} {a : FlashAddr} {s : State} (hr : relocRead s u a = none) (hst : (mapOf s u).st = 1)
    (ha : (mapOf s u).addr = a) (o : ReadOutcome) (ok : Bool) :
    nandRead u a o ok s = unitRead u a o (if ok = true ∨ o = .failed then s else tierMismatch u s) := by
  unfold nandRead
  rw [hr]
  exact if_pos ⟨hst, ha⟩

theorem nandRead_of_hard {u k : Nat} {a : FlashAddr} {s : State} (hr : relocRead s u a = none) (hst : (mapOf s u).st = 1)
    (ha : (mapOf s u).addr = a) (ok : Bool) (hk : k < 5) (h : (SMap.find {} s.fl.blocks (blockKey a)).reads + 1 < readLimit (slcAddr s a)) :
    ∃ b d m c, nandRead u a (.hard k) ok s
        = { s with fl := { s.fl with blocks := b, dies := d, mismatch := m }, tele := { s.tele with counters := c } }
      ∧ SMap.find {} b (blockKey a) = { SMap.find {} s.fl.blocks (blockKey a) with
          reads := (SMap.find {} s.fl.blocks (blockKey a)).reads + 1, lastStep := k }
      ∧ SMap.find 0 c (0x33 * 65536 + faChan a) = counted 0x33 (faChan a) s + BitVec.ofNat 64 k
      ∧ ∀ v, v ∈ m ↔ v ∈ s.fl.mismatch ∨ (v = u ∧ ok = false ∧ ((slotOfUnit s u).bind (pageAt s)).isSome = true) := by
  obtain ⟨m, hm, hmem⟩ := checked_mismatch u k ok s
  have hrow := nandRead_of_mapped hr hst ha (.hard k) ok
  rw [hm, unitRead_of_hard (s := { s with fl := { s.fl with mismatch := m } }) hk h] at hrow
  exact ⟨_, _, m, _, hrow, SMap.find_modify_self .., counted_bump_self 0x33 (faChan a) k _, hmem⟩

/-! ### A page that no stage decodes (11 R346, R353) -/

/-- After its entry, the loss is reported and the block refreshed and doomed. -/
theorem mapKept_readFails (u : Nat) (a : FlashAddr) (s : State) : MapKept (commitEntry [.state u 1 3] s) (readFails u a s) := by
  unfold readFails
  exact ((settles_raise ..).toMapKept.trans (mapKept_reportLost ..)).trans ((settles_refreshBlock ..).trans (settles_doomBlock ..)).toMapKept

/-- The unit is UNREADABLE by one entry of the journal; contents are kept and no further retry is counted. -/
theorem readFails_unreadable (u : Nat) (a : FlashAddr) (s : State) : (mapOf (readFails u a s) u).st = 3
    ∧ HasEntry (readFails u a s) (s.fl.seq + 1) [.state u 1 3] ∧ DataKept s (readFails u a s)
    ∧ ∀ i, i < 128 → counted 0x33 i (readFails u a s) = counted 0x33 i s := by
  have htail := mapKept_readFails u a s
  obtain ⟨hdata, -, hcounts⟩ := commitEntry_leaves [.state u 1 3] s
  refine ⟨?_, htail.entries _ _ (commitEntry_entered [.state u 1 3] s), hdata.trans htail.data, fun i hi => ?_⟩
  · have hentry := mapOf_commitState [u] 3 s u
    rw [if_pos List.mem_cons_self] at hentry
    rw [htail.mapOf]
    exact congrArg MapEntry.st hentry
  · rw [htail.counts 0x33 i (Or.inr rfl) (by omega), hcounts 0x33 i (Or.inr rfl) (by omega)]

/-- The state in which a failed read counts its retries. -/
def readCounted (a : FlashAddr) (s : State) : State :=
  modBlock (blockKey a) (fun b => { b with reads := b.reads + 1 }) (bump 0x33 (faChan a) 9 (dieOk (dieKey a) s))

theorem nandRead_of_failed {u : Nat} {a : FlashAddr} {s : State} (hr : relocRead s u a = none) (hst : (mapOf s u).st = 1)
    (ha : (mapOf s u).addr = a) (ok : Bool) : nandRead u a .failed ok s = readFails u a (readCounted a s) := by
  rw [nandRead_of_mapped hr hst ha, if_pos (Or.inr rfl)]
  rfl

theorem counted_readCounted (a : FlashAddr) (s : State) : counted 0x33 (faChan a) (readCounted a s) = counted 0x33 (faChan a) s + 9 :=
  counted_bump_self 0x33 (faChan a) 9 (dieOk (dieKey a) s)

/-! ### The background scan (11 R345, 12 R375) -/

theorem scanRead_of_paused {s : State} (h : s.gov.bgFlash = true) (a : FlashAddr) (o : ReadOutcome) (bits : Nat) (ok : Bool) :
    scanRead a o bits ok s = s := if_pos (by simp [h])

/-- A scanned page that decodes within the refresh limit gives its calibration entry a new set and counts. -/
theorem scanRead_of_hard {s : State} {a : FlashAddr} {k bits : Nat} (hg : s.gov.bgFlash = false)
    (hret : (SMap.find {} s.fl.blocks (blockKey a)).retired = none) (he : canErase s (sbKey s a) = false)
    (hfree : (sbOf s (sbKey s a)).st ≠ .free) (hscan : scanRefresh (.hard k) bits = false)
    (h : (SMap.find {} s.fl.blocks (blockKey a)).reads + 1 < readLimit (slcAddr s a)) : scanRead a (.hard k) bits true s
      = modBlock (blockKey a) (fun b => { b with reads := b.reads + 1 }) (bump 0x30 (faChan a) 1 (bump 0x33 (faChan a) k (drawn 1 { s with
          fl := { s.fl with calib := SMap.put 0 s.fl.calib (calibKey s a) (Config.freeNat (draw s) : Int) } }))) := by
  unfold scanRead
  rw [if_neg (by simp [hg, hret, he, hfree])]
  dsimp only [retriesOf]
  rw [if_pos rfl, hscan]
  exact afterRead_of_counted (fun _ => rfl) rfl rfl (fun _ => rfl) h

theorem scan_refreshes {s : State} {a : FlashAddr} {k bits : Nat} (hm : s.boot.mode = .service) (hg : s.gov.bgFlash = false)
    (hret : (SMap.find {} s.fl.blocks (blockKey a)).retired = none) (he : canErase s (sbKey s a) = false)
    (hfree : (sbOf s (sbKey s a)).st ≠ .free) (hscan : scanRefresh (.hard k) bits = false)
    (h : (SMap.find {} s.fl.blocks (blockKey a)).reads + 1 < readLimit (slcAddr s a)) :
    ∃ t, exec (.flashScanRead a (.hard k) bits true) s = .next t ∧ t.freeCount = s.freeCount + 1
      ∧ (∀ c, c ≠ calibKey s a → SMap.find 0 t.fl.calib c = SMap.find 0 s.fl.calib c)
      ∧ (SMap.find {} t.fl.blocks (blockKey a)).reads = (SMap.find {} s.fl.blocks (blockKey a)).reads + 1
      ∧ counted 0x30 (faChan a) t = counted 0x30 (faChan a) s + 1
      ∧ t = { s with freeCount := t.freeCount, fl := { s.fl with blocks := t.fl.blocks, calib := t.fl.calib },
                     tele := { s.tele with counters := t.tele.counters } } := by
  have hch := faChan_lt a
  have hrow := scanRead_of_hard hg hret he hfree hscan h
  refine ⟨_, (whenServing_service (scanRead a (.hard k) bits true) hm).trans (congrArg _ (fenced_of_keeps hrow rfl rfl rfl rfl rfl)), rfl,
    fun c hc => SMap.find_put_other _ _ _ _ hc, congrArg Block.reads (block_modBlock_self (blockKey a) _ _), ?_, rfl⟩
  refine (counted_bump_self 0x30 (faChan a) 1 _).trans (congrArg (· + 1) ?_)
  exact counted_bump_other 0x30 (faChan a) 0x33 (faChan a) k _ (by omega)

/-! ### The statement -/

/-- Settles O45: a decode changes one block and its counts (`nandRead_of_hard`), a page that no stage decodes makes one entry
(`readFails_unreadable`), the scan draws one calibration set, and a suspension changes one die. -/
theorem flashReadsCountAndFail : Obligations.FlashReadsCountAndFail := by
  refine ⟨fun s u k a ok hm hr hst ha => ⟨fun hk hlim => ?_, ?_⟩, fun s a k bits hm hg hret he hfree hscan h =>
    scan_refreshes hm hg hret he hfree hscan h, fun s a o bits ok hg => whenServing_of_eq (scanRead_of_paused hg a o bits ok),
    fun s c p hm => ⟨fun hc hp hf => ?_, fun hf => ?_, ?_⟩⟩
  · obtain ⟨b, d, m, c, hrow, hblock, hcount, hmem⟩ := nandRead_of_hard hr hst ha ok hk hlim
    exact ⟨_, (whenServing_service (nandRead u a (.hard k) ok) hm).trans (congrArg _ (fenced_of_keeps hrow rfl rfl rfl rfl rfl)), hblock, hcount,
      hmem, rfl⟩
  · have hrow := nandRead_of_failed hr hst ha ok
    obtain ⟨hlost, hentry, hdata, hcounts⟩ := readFails_unreadable u a (readCounted a s)
    refine ⟨_, whenServing_service (nandRead u a .failed ok) hm, ?_, ?_, ?_, ?_⟩
    · rw [mapOf_fenced, hrow, hlost]
    · exact HasEntry.fenced (hrow ▸ hentry)
    · exact DataKept.fenced (hrow ▸ hdata)
    · rw [counted_fenced, hrow, hcounts _ (faChan_lt a), counted_readCounted]
  · exact die_changed hm (if_pos ⟨hc, hp, hf⟩)
  · exact whenServing_of_eq (if_neg (by simp [hf]))
  · exact die_changed hm rfl

end Sys2Proof.Machine

/-! PROOFS. Erases, lost dies, the journal's timer and the flush reserve (11 R323, R325, R334, R339, R342, R355). -/
namespace Sys2Proof.Machine

/-! ### Members of a superblock -/

theorem mem_members {i : Nat} {m : Nat × Nat} : m ∈ members i ↔ (16 * i ≤ m.1 ∧ m.1 < 16 * i + 16) ∧ m.2 < 4 := by
  obtain ⟨c, q⟩ := m
  simp only [members, List.mem_flatMap, List.mem_map, List.mem_range, Prod.mk.injEq]
  constructor
  · rintro ⟨x, hx, y, hy, rfl, rfl⟩
    omega
  · rintro ⟨⟨hlo, hhi⟩, hq⟩
    exact ⟨c - 16 * i, by omega, q, hq, by omega, rfl⟩

theorem nodup_members (i : Nat) : (members i).Nodup := by
  refine List.nodup_flatMap.2 ⟨fun x _ => List.nodup_range.map fun a b h => (Prod.mk.injEq .. ▸ h).2, ?_⟩
  refine List.nodup_range.pairwise_of_forall_ne fun x _ y _ hxy => ?_
  rw [Function.onFun, List.disjoint_left]
  intro m hx hy
  obtain ⟨p, -, rfl⟩ := List.mem_map.1 hx
  obtain ⟨q, -, hq⟩ := List.mem_map.1 hy
  exact hxy (by have := congrArg Prod.fst hq; simp only at this; omega)

/-- The position at which a member lies: that of its own die, or of the spare that serves for it. -/
def memberPos (s : State) (pos : Nat) (m : Nat × Nat) : Nat := if (dieOf s (m.1 * 17 + 16)).serves = some pos then 16 else pos

theorem memberKey_eq (s : State) (pos block : Nat) (m : Nat × Nat) :
    memberKey s pos block m = ((m.1 * 17 + memberPos s pos m) * 4 + m.2) * 2520 + block := rfl

theorem memberPos_lt {s : State} {pos : Nat} (hp : pos < 16) (m : Nat × Nat) : memberPos s pos m < 17 := by
  unfold memberPos
  split <;> omega

/-- Different members are different blocks. -/
theorem memberKey_injective {s : State} {pos block i : Nat} (hp : pos < 16) {m m' : Nat × Nat} (hm : m ∈ members i) (hm' : m' ∈ members i)
    (h : memberKey s pos block m = memberKey s pos block m') : m = m' := by
  have h1 := memberPos_lt (s := s) hp m
  have h2 := memberPos_lt (s := s) hp m'
  obtain ⟨-, hq⟩ := mem_members.1 hm
  obtain ⟨-, hq'⟩ := mem_members.1 hm'
  rw [memberKey_eq, memberKey_eq] at h
  exact Prod.ext (by omega) (by omega)

theorem memberKey_congr {s t : State} (hd : ∀ j, (dieOf t j).serves = (dieOf s j).serves) (pos block : Nat) (m : Nat × Nat) :
    memberKey t pos block m = memberKey s pos block m := by
  simp only [memberKey, hd]

/-! ### An erase (11 R334, R342) -/

/-- A block after an erase that passes. -/
def Block.erased (slc : Bool) (b : Block) : Block := { b with wear20 := b.wear20 + (if slc then 1 else 20), reads := 0, lastStep := 0 }

/-- Pages of an erased block hold no tag. -/
def untagged (k : Nat) (s : State) : State :=
  { s with fl := { s.fl with tags := s.fl.tags.filter (fun e => blockKey (BitVec.ofNat 37 e.1) != k) } }

theorem memberErased_of_retired {s : State} {pos block : Nat} {m : Nat × Nat}
    (h : (SMap.find {} s.fl.blocks (memberKey s pos block m)).retired ≠ none) (slc : Bool) (failed : List (Nat × Nat)) :
    memberErased slc pos block failed m s = s := by
  unfold memberErased
  exact if_pos (Option.isSome_iff_ne_none.2 h)

theorem memberErased_of_good {s : State} {pos block : Nat} {m : Nat × Nat}
    (h : (SMap.find {} s.fl.blocks (memberKey s pos block m)).retired = none) (slc : Bool) : memberErased slc pos block [] m s
      = dieOk (memberKey s pos block m / 10080) (bump 0x32 m.1 1
          (modBlock (memberKey s pos block m) (Block.erased slc) (untagged (memberKey s pos block m) s))) := by
  unfold memberErased
  dsimp only
  rw [if_neg (by simp [h]), if_neg List.not_mem_nil]
  rfl

/-- What the erase of one member leaves. -/
structure MemberErased (slc : Bool) (k : Nat) (s t : State) : Prop where
  settles : Settles s t
  sbs : t.fl.sbs = s.fl.sbs
  serves : ∀ j, (dieOf t j).serves = (dieOf s j).serves
  block : (SMap.find {} s.fl.blocks k).retired = none → SMap.find {} t.fl.blocks k = (SMap.find {} s.fl.blocks k).erased slc
  others : ∀ j, j ≠ k → SMap.find {} t.fl.blocks j = SMap.find {} s.fl.blocks j

theorem memberErased_single (slc : Bool) (pos block : Nat) {m : Nat × Nat} (hm : m.1 < 65536) (s : State) :
    MemberErased slc (memberKey s pos block m) s (memberErased slc pos block [] m s) := by
  by_cases h : (SMap.find {} s.fl.blocks (memberKey s pos block m)).retired = none
  · rw [memberErased_of_good h]
    generalize memberKey s pos block m = k
    have htags : Settles s (untagged k s) := Settles.of_store s.tier rfl rfl rfl
    have hdie : ∀ t, Settles t (dieOk (k / 10080) t) := fun t => Settles.of_store t.tier rfl rfl rfl
    exact ⟨(htags.trans (settles_modBlock ..)).trans ((settles_bump 1 (by decide) hm _).trans (hdie _)), rfl,
      fun j => serves_dieOk _ j _, fun _ => SMap.find_modify_self .., fun j hj => SMap.find_modify_other _ _ _ _ hj⟩
  · rw [memberErased_of_retired h]
    exact ⟨Settles.refl s, rfl, fun _ => rfl, fun hn => absurd hn h, fun _ _ => rfl⟩

/-- What the erase of several members in turn leaves. -/
structure MembersErased (slc : Bool) (ks : List Nat) (s t : State) : Prop where
  settles : Settles s t
  sbs : t.fl.sbs = s.fl.sbs
  erased : ∀ k ∈ ks, (SMap.find {} s.fl.blocks k).retired = none → SMap.find {} t.fl.blocks k = (SMap.find {} s.fl.blocks k).erased slc
  others : ∀ j, j ∉ ks → SMap.find {} t.fl.blocks j = SMap.find {} s.fl.blocks j

theorem membersErased_foldl (slc : Bool) (pos block : Nat) (ms : List (Nat × Nat)) (hch : ∀ m ∈ ms, m.1 < 65536) (s : State)
    (hnd : (ms.map (memberKey s pos block)).Nodup) :
    MembersErased slc (ms.map (memberKey s pos block)) s (ms.foldl (fun s' m => memberErased slc pos block [] m s') s) := by
  induction ms generalizing s with
  | nil => exact ⟨Settles.refl s, rfl, nofun, fun _ _ => rfl⟩
  | cons m ms ih =>
    have hone := memberErased_single slc pos block (hch m List.mem_cons_self) s
    rw [List.foldl_cons]
    generalize memberErased slc pos block [] m s = s1 at hone
    have hkeys : ms.map (memberKey s1 pos block) = ms.map (memberKey s pos block) :=
      List.map_congr_left fun m' _ => memberKey_congr hone.serves pos block m'
    obtain ⟨hfirst, hrest⟩ := List.nodup_cons.1 hnd
    have hall := ih (fun m' hm' => hch m' (List.mem_cons_of_mem m hm')) s1 (by rw [hkeys]; exact hrest)
    rw [hkeys] at hall
    refine ⟨hone.settles.trans hall.settles, hall.sbs.trans hone.sbs, fun k hk hret => ?_, fun j hj => ?_⟩
    · rcases List.mem_cons.1 hk with rfl | hk
      · rw [hall.others _ hfirst, hone.block hret]
      · have hne : k ≠ memberKey s pos block m := fun e => hfirst (e ▸ hk)
        have hsame := hone.others k hne
        rw [hall.erased k hk (hsame ▸ hret), hsame]
    · obtain ⟨hne, hnot⟩ := not_or.1 (List.mem_cons.not.1 hj)
      exact (hall.others j hnot).trans (hone.others j hne)

theorem sbOf_modSb_self (k : Nat) (f : Superblock → Superblock) (s : State) : sbOf (modSb k f s) k = f (sbOf s k) := SMap.find_modify_self ..

/-- An erasable superblock is free again, and its good blocks have worn. -/
theorem superblock_erased {s : State} {i p b : Nat} (hi : i < 8) (hp : p < 16) (hb : b < 2520)
    (hc : canErase s ((i * 17 + p) * 2520 + b) = true) :
    sbOf (eraseComplete i p b [] s) ((i * 17 + p) * 2520 + b) = {} ∧ Settles s (eraseComplete i p b [] s)
      ∧ ∀ m ∈ members i, (SMap.find {} s.fl.blocks (memberKey s p b m)).retired = none →
        SMap.find {} (eraseComplete i p b [] s).fl.blocks (memberKey s p b m)
          = (SMap.find {} s.fl.blocks (memberKey s p b m)).erased (sbOf s ((i * 17 + p) * 2520 + b)).slc := by
  have hch : ∀ m ∈ members i, m.1 < 65536 := fun m hm => by
    obtain ⟨⟨-, hhi⟩, -⟩ := mem_members.1 hm
    omega
  have hnd : ((members i).map (memberKey s p b)).Nodup := List.Nodup.map_on (fun m hm m' hm' h => memberKey_injective hp hm hm' h) (nodup_members i)
  have hrow : eraseComplete i p b [] s = endurance (modSb ((i * 17 + p) * 2520 + b) (fun _ => {}) ((members i).foldl
      (fun s' m => memberErased (sbOf s ((i * 17 + p) * 2520 + b)).slc p b [] m s') s)) := if_pos ⟨hi, hp, hb, hc⟩
  have hall := membersErased_foldl (sbOf s ((i * 17 + p) * 2520 + b)).slc p b (members i) hch s hnd
  rw [hrow]
  generalize (members i).foldl _ s = t at hall
  refine ⟨?_, hall.settles.trans ((settles_modSb ..).trans (settles_endurance _)), fun m hm hret => ?_⟩
  · rw [sbOf, endurance_sbs]
    exact sbOf_modSb_self ..
  · rw [endurance_blocks]
    exact hall.erased _ (List.mem_map_of_mem hm) hret

theorem eraseComplete_of_kept {s : State} {i p b : Nat} (hc : canErase s ((i * 17 + p) * 2520 + b) = false) (failed : List (Nat × Nat)) :
    eraseComplete i p b failed s = s := if_neg (by simp [hc])

/-! ### A lost die (11 R355, R356) -/

/-- The die is lost, with every program and copy on it. -/
def dieGone (k : Nat) (s : State) : State :=
  mapRelocs (fun x => if dieKey x.src = k then none else some (if x.stage < 3 ∧ dieKey x.copy = k then { x with stage := 0 } else x))
    (unprogram (fun b => dieKey b == k) (modDie k (fun d => { d with lost := true, suspended := false }) s))

/-- Its units are LOST in one entry. -/
def unitsGone (us : List Nat) (s : State) : State := if us.isEmpty then s else commitEntry (us.map (fun u => Rec.state u 1 2)) s

/-- Its blocks go to the slag list in one entry. -/
def blocksGone (k : Nat) (s : State) : State := commitEntry ((List.range 10080).map (fun b => Rec.retire (k * 10080 + b) 5)) s

/-- Units mapped on the die that no image in the write buffer replaces. -/
def unitsOnDie (k : Nat) (s : State) : List Nat := (unitsWhere s (fun a => dieKey a == k)).filter (fun u => !inBuffer s u)

/-- The map, the journal and the die table after the loss. -/
def dieRemoved (k : Nat) (s : State) : State := blocksGone k (unitsGone (unitsWhere s (fun a => dieKey a == k)) (dieGone k s))

theorem dieLoss_eq (c p : Nat) (s : State) : dieLoss c p s
    = raise 0x0004 2 (c * 32 + p) (volumeMask s (unitsOnDie (c * 17 + p) s)) (pagesLost s (unitsOnDie (c * 17 + p) s)).length
      (reportLost stDieLost ((unitsOnDie (c * 17 + p) s).filter (fun u => (volumeOfUnit s u).isSome))
        (rewriteBacking (unitsOnDie (c * 17 + p) s) (dieRemoved (c * 17 + p) s))) := by
  unfold dieLoss dieRemoved unitsOnDie blocksGone unitsGone dieGone
  rfl

theorem dataKept_unitsGone (us : List Nat) (s : State) : DataKept s (unitsGone us s) := by
  unfold unitsGone
  split
  · exact DataKept.refl s
  · exact (commitEntry_leaves ..).1

theorem unitsGone_dies (us : List Nat) (s : State) : (unitsGone us s).fl.dies = s.fl.dies := by
  unfold unitsGone
  split
  · rfl
  · exact commitEntry_dies ..

theorem unitsGone_spareBytes (us : List Nat) (s : State) : (unitsGone us s).fl.spareBytes = s.fl.spareBytes := by
  unfold unitsGone
  split
  · rfl
  · exact commitEntry_spareBytes ..

theorem lost_of_unitsGone {us : List Nat} {u : Nat} (hu : u ∈ us) (s : State) : (mapOf (unitsGone us s) u).st = 2 := by
  unfold unitsGone
  rw [if_neg (by simp [List.ne_nil_of_mem hu]), mapOf_commitState, if_pos hu]

theorem settles_blocksGone (k : Nat) (s : State) : Settles s (blocksGone k s) := by
  refine settles_commitEntry (fun r hr => ?_) s
  obtain ⟨b, -, rfl⟩ := List.mem_map.1 hr
  rfl

theorem blocksGone_dies (k : Nat) (s : State) : (blocksGone k s).fl.dies = s.fl.dies := by rw [blocksGone, commitEntry_dies]

theorem blocksGone_spareBytes (k : Nat) (s : State) : (blocksGone k s).fl.spareBytes = s.fl.spareBytes := by
  rw [blocksGone, commitEntry_spareBytes]

/-- Backing units that are to be written again change the buffer, the noted mismatches and their own list. -/
theorem rewriteBacking_frame (us : List Nat) (s : State) :
    ∃ w m r, rewriteBacking us s = { s with fl := { s.fl with wbuf := w, mismatch := m, rewrites := r } } := by
  obtain ⟨w, m, r, h⟩ := drainRewrites_frame { s with fl := { s.fl with rewrites := dedup (s.fl.rewrites ++ us) } }
  exact ⟨w, m, r, h⟩

/-- What the loss of a die leaves. -/
structure DieLost (k : Nat) (s t : State) : Prop where
  data : DataKept s t
  dies : t.fl.dies = SMap.modify {} s.fl.dies k (fun d => { d with lost := true, suspended := false })
  spare : t.fl.spareBytes = s.fl.spareBytes
  units : ∀ u, (mapOf s u).st = 1 → dieKey (mapOf s u).addr = k → (mapOf t u).st = 2

theorem dieGone_dies (k : Nat) (s : State) :
    (dieGone k s).fl.dies = SMap.modify {} s.fl.dies k (fun d => { d with lost := true, suspended := false }) := by
  rw [dieGone, mapRelocs, unprogram, modDie]

theorem dieGone_spareBytes (k : Nat) (s : State) : (dieGone k s).fl.spareBytes = s.fl.spareBytes := by
  rw [dieGone, mapRelocs, unprogram, modDie]

theorem dataKept_dieGone (k : Nat) (s : State) : DataKept s (dieGone k s) := by
  rw [dieGone, mapRelocs, unprogram, modDie]
  exact DataKept.refl s

theorem dieLost_dieRemoved (k : Nat) (s : State) : DieLost k s (dieRemoved k s) := by
  refine ⟨((dataKept_dieGone ..).trans (dataKept_unitsGone ..)).trans (settles_blocksGone ..).data, ?_, ?_, fun u hst hdie => ?_⟩
  · rw [dieRemoved, blocksGone_dies, unitsGone_dies, dieGone_dies]
  · rw [dieRemoved, blocksGone_spareBytes, unitsGone_spareBytes, dieGone_spareBytes]
  · rw [dieRemoved, (settles_blocksGone ..).mapOf]
    exact lost_of_unitsGone (mem_unitsWhere hst (by simp [hdie])) _

theorem rewriteBacking_settles (us : List Nat) (s : State) : Settles s (rewriteBacking us s) ∧ (rewriteBacking us s).fl.dies = s.fl.dies
    ∧ (rewriteBacking us s).fl.spareBytes = s.fl.spareBytes := by
  obtain ⟨w, m, r, hback⟩ := rewriteBacking_frame us s
  rw [hback]
  exact ⟨Settles.of_store s.tier rfl rfl rfl, rfl, rfl⟩

theorem mapKept_reports (code : Byte) (us lost : List Nat) (ev log w d0 d1 : Nat) (s : State) :
    MapKept s (raise ev log w d0 d1 (reportLost code lost (rewriteBacking us s))) := by
  have hback : MapKept s (rewriteBacking us s) := (rewriteBacking_settles us s).1.toMapKept
  have hreport : MapKept (rewriteBacking us s) (reportLost code lost (rewriteBacking us s)) := mapKept_reportLost ..
  exact (hback.trans hreport).trans (settles_raise ..).toMapKept

/-- The reports and the backing locations that are written again leave it so. -/
theorem dieLost_dieLoss (c p : Nat) (s : State) : DieLost (c * 17 + p) s (dieLoss c p s) := by
  have hlost := dieLost_dieRemoved (c * 17 + p) s
  rw [dieLoss_eq]
  generalize dieRemoved (c * 17 + p) s = t at hlost
  generalize unitsOnDie (c * 17 + p) s = us
  generalize us.filter _ = lost
  generalize volumeMask s us = d0
  generalize (pagesLost s us).length = d1
  obtain ⟨-, hdies, hspare⟩ := rewriteBacking_settles us t
  have htail := mapKept_reports stDieLost us lost 0x0004 2 (c * 32 + p) d0 d1 t
  refine ⟨hlost.data.trans htail.data, ?_, ?_, fun u hst hdie => ?_⟩
  · rw [raise_fl, reportLost_fl, hdies]
    exact hlost.dies
  · rw [raise_fl, reportLost_fl, hspare]
    exact hlost.spare
  · rw [htail.mapOf]
    exact hlost.units u hst hdie

/-- The spare capacity falls by a die. -/
def spareFalls (s : State) : State := endurance (withSpare (s.fl.spareBytes - dieBytes) s)

/-- The channel's spare takes the place of a position. -/
def spareServes (c p : Nat) (s : State) : State := endurance (modDie (c * 17 + 16) (fun d => { d with serves := some p }) s)

theorem loseDie_eq {c p : Nat} {s : State} (h : (dieOf s (c * 17 + p)).lost = false) : loseDie c p s
    = if p = 16 then (if (dieOf s (c * 17 + p)).serves.isSome then spareFalls (dieLoss c p s) else dieLoss c p s)
      else if (dieOf s (c * 17 + 16)).serves.isNone ∧ (dieOf s (c * 17 + 16)).lost = false then spareServes c p (dieLoss c p s)
      else spareFalls (dieLoss c p s) := by
  unfold loseDie spareFalls spareServes withSpare
  rw [if_neg (by simp [h])]

section
variable {c p : Nat} {s : State}

theorem spareFalls_dies (s : State) : (spareFalls s).fl.dies = s.fl.dies := by
  rw [spareFalls, endurance_dies, withSpare_dies]

theorem spareFalls_spareBytes (s : State) : (spareFalls s).fl.spareBytes = s.fl.spareBytes - 250000000000 := by
  rw [spareFalls, endurance_spareBytes, withSpare_spareBytes, dieBytes]

theorem settles_spareFalls (s : State) : Settles s (spareFalls s) := (settles_withSpare ..).trans (settles_endurance _)

theorem settles_spareServes (c p : Nat) (s : State) : Settles s (spareServes c p s) := by
  refine Settles.trans ?_ (settles_endurance _)
  exact Settles.of_store s.tier rfl rfl rfl

theorem spareServes_die (c p j : Nat) (s : State) :
    dieOf (spareServes c p s) j = dieOf (modDie (c * 17 + 16) (fun d => { d with serves := some p }) s) j := by
  rw [dieOf, spareServes, endurance_dies]
  rfl

theorem spareServes_spareBytes (c p : Nat) (s : State) : (spareServes c p s).fl.spareBytes = s.fl.spareBytes :=
  endurance_spareBytes _

/-- After the loss of a die nothing but its spare and the spare capacity changes. -/
theorem settles_loseDie (h : (dieOf s (c * 17 + p)).lost = false) : Settles (dieLoss c p s) (loseDie c p s) := by
  rw [loseDie_eq h]
  exact Settles.ite (fun _ => Settles.ite (fun _ => settles_spareFalls _) fun _ => Settles.refl _) fun _ =>
    Settles.ite (fun _ => settles_spareServes ..) fun _ => settles_spareFalls _

theorem dieOf_dieLoss_self (c p : Nat) (s : State) : (dieOf (dieLoss c p s) (c * 17 + p)).lost = true := by
  rw [dieOf, (dieLost_dieLoss c p s).dies, SMap.find_modify_self]

theorem lost_loseDie (h : (dieOf s (c * 17 + p)).lost = false) : (dieOf (loseDie c p s) (c * 17 + p)).lost = true := by
  have hloss := dieOf_dieLoss_self c p s
  have hfalls : (dieOf (spareFalls (dieLoss c p s)) (c * 17 + p)).lost = true := by rw [dieOf, spareFalls_dies]; exact hloss
  rw [loseDie_eq h]
  split
  · split
    · exact hfalls
    · exact hloss
  · rename_i hp
    split
    · rw [spareServes_die, dieOf_modDie_other (by omega)]
      exact hloss
    · exact hfalls

theorem loseDie_engages (h : (dieOf s (c * 17 + p)).lost = false) (hp : p < 16) (hs : (dieOf s (c * 17 + 16)).serves = none)
    (hl : (dieOf s (c * 17 + 16)).lost = false) :
    (dieOf (loseDie c p s) (c * 17 + 16)).serves = some p ∧ (loseDie c p s).fl.spareBytes = s.fl.spareBytes := by
  rw [loseDie_eq h, if_neg (by omega), if_pos ⟨by simp [hs], hl⟩]
  refine ⟨?_, (spareServes_spareBytes ..).trans (dieLost_dieLoss c p s).spare⟩
  rw [spareServes_die, dieOf_modDie_self]

theorem loseDie_falls (h : (dieOf s (c * 17 + p)).lost = false) (hp : p < 16) (hs : (dieOf s (c * 17 + 16)).serves ≠ none) :
    (loseDie c p s).fl.spareBytes = s.fl.spareBytes - 250000000000 := by
  rw [loseDie_eq h, if_neg (by omega), if_neg (by simp [hs]), spareFalls_spareBytes, (dieLost_dieLoss c p s).spare]
end

/-- One more operation of the die has not completed. -/
def dieFailed (k : Nat) (s : State) : State := modDie k (fun d => { d with fails := d.fails + 1 }) s

section
variable {c p : Nat} {s : State} (hc : c < 128) (hp : p < 17) (h : (dieOf s (c * 17 + p)).lost = false)
include hc hp h

theorem dieTimeout_eq : dieTimeout c p s
    = if 3 ≤ (dieOf s (c * 17 + p)).fails + 1 then loseDie c p (dieFailed (c * 17 + p) s) else dieFailed (c * 17 + p) s := by
  unfold dieTimeout dieFailed
  rw [if_pos ⟨hc, hp, h⟩]
  dsimp only
  rw [dieOf_modDie_self]

/-- The third failure in a row loses the die, with its units; its channel's spare takes its place, or the spare capacity falls. -/
theorem die_times_out (hm : s.boot.mode = .service) (hf : 2 ≤ (dieOf s (c * 17 + p)).fails) :
    ∃ t, exec (.nandOperationTimeout c p) s = .next t ∧ (dieOf t (c * 17 + p)).lost = true
      ∧ (∀ u, (mapOf s u).st = 1 → dieKey (mapOf s u).addr = c * 17 + p → (mapOf t u).st = 2)
      ∧ (p < 16 → (dieOf s (c * 17 + 16)).serves = none → (dieOf s (c * 17 + 16)).lost = false →
          (dieOf t (c * 17 + 16)).serves = some p ∧ t.fl.spareBytes = s.fl.spareBytes)
      ∧ (p < 16 → (dieOf s (c * 17 + 16)).serves ≠ none → t.fl.spareBytes = s.fl.spareBytes - 250000000000)
      ∧ DataKept s t := by
  have hrow : dieTimeout c p s = loseDie c p (dieFailed (c * 17 + p) s) := (dieTimeout_eq hc hp h).trans (if_pos (by omega))
  have hlost : (dieOf (dieFailed (c * 17 + p) s) (c * 17 + p)).lost = false := by rw [dieFailed, dieOf_modDie_self]; exact h
  have hspare : p < 16 → dieOf (dieFailed (c * 17 + p) s) (c * 17 + 16) = dieOf s (c * 17 + 16) := fun hp' => dieOf_modDie_other (by omega) ..
  have hloss := dieLost_dieLoss c p (dieFailed (c * 17 + p) s)
  have htail := settles_loseDie hlost
  refine ⟨_, whenServing_service (dieTimeout c p) hm, ?_, fun u hst hdie => ?_, fun hp' hs hl => ?_, fun hp' hs => ?_, ?_⟩
  · rw [dieOf, fenced_fl, hrow]
    exact lost_loseDie hlost
  · rw [mapOf_fenced, hrow, htail.mapOf]
    exact hloss.units u hst hdie
  · rw [dieOf, fenced_fl, hrow]
    rw [← hspare hp'] at hs hl
    exact loseDie_engages hlost hp' hs hl
  · rw [fenced_fl, hrow]
    rw [← hspare hp'] at hs
    exact loseDie_falls hlost hp' hs
  · have hfailed : DataKept s (dieFailed (c * 17 + p) s) := DataKept.refl s
    exact DataKept.fenced (hrow ▸ (hfailed.trans hloss.data).trans htail.data)
end

/-! ### Checkpoints and the journal's timer (11 R323, R325, R327) -/

/-- The CHECKPOINT entry is staged, and staging flushed. -/
def ckptStaged (s : State) : State := journalFlush (commitEntry ((changedSegments s).map (fun g => Rec.checkpoint g s.fl.seq)) s)

/-- The two newest checkpoints of every segment. -/
def ckptAfter (s : State) : SMap (List Nat) :=
  (changedSegments s).foldl (fun m g => SMap.modify [] m g (fun l => ((ckptStaged s).fl.seq :: l).take 2)) (ckptStaged s).fl.ckpt

theorem checkpoint_fl (s : State) : (checkpoint s).fl = { (ckptStaged s).fl with
    base := (ckptStaged s).fl.map, ckpt := ckptAfter s, ckptTag := some (tagOf noUnit (ckptStaged s).fl.seq 0 false 2),
    journal := liveJournal (ckptAfter s) (ckptStaged s).fl.journal,
    mediaMinutes := (ckptStaged s).fl.mediaMinutes + polValue s 0x0D 600 / 60,
    hostTb := if s.aon.tbFromHost then some (now s) else none } := by
  unfold checkpoint ckptAfter ckptStaged
  rw [bump_fl]

theorem settles_ckptStaged (s : State) : Settles s (ckptStaged s) := by
  refine (settles_commitEntry (fun r hr => ?_) s).trans (settles_journalFlush _)
  obtain ⟨g, -, rfl⟩ := List.mem_map.1 hr
  rfl

/-- A checkpoint keeps the map, the contents and the pages of registers. -/
theorem checkpoint_keeps (s : State) : (checkpoint s).fl.map = s.fl.map ∧ DataKept s (checkpoint s) ∧ (checkpoint s).trs = s.trs := by
  have hstaged := settles_ckptStaged s
  obtain ⟨hdata, hctx, hcoll, htun, hnor, hcore⟩ := hstaged.data
  refine ⟨?_, ⟨?_, ?_, ?_, ?_, ?_, ?_⟩, ?_⟩
  · rw [checkpoint_fl]; exact hstaged.map
  · rw [checkpoint_fl]; exact hdata
  · exact (bump_ctx ..).trans hctx
  · exact (bump_coll ..).trans hcoll
  · exact (bump_tun ..).trans htun
  · exact (bump_nor ..).trans hnor
  · exact (bump_core ..).trans hcore
  · exact (bump_trs ..).trans hstaged.trs

theorem boundJournal_of_small {s : State} (h : journalBytes s < 6442450944) : boundJournal s = s :=
  if_neg (by unfold journalBytes at h; omega)

theorem boundJournal_of_full {s : State} (h : 6442450944 ≤ journalBytes s) : boundJournal s = checkpoint s :=
  if_pos (by unfold journalBytes at h; omega)

theorem journalBytes_journalFlush (s : State) : journalBytes (journalFlush s) = journalBytes s := by
  have hbytes : ∀ t : State, journalBytes t = sumOf ((t.fl.journal.map (·.recs)).map entrySize) := fun t =>
    congrArg sumOf (List.map_map (f := JEntry.recs) (g := entrySize)).symm
  rw [hbytes, hbytes, journalFlush_recs]

theorem drainRewrites_of_none {s : State} (h : s.fl.rewrites = []) : drainRewrites s = s :=
  calc drainRewrites s = { s with fl := { s.fl with rewrites := [] } } := by simp [drainRewrites, h]
    _ = { s with fl := { s.fl with rewrites := s.fl.rewrites } } := by rw [h]
    _ = s := rfl

/-- Images of backing locations that enter the buffer are not mapped yet. -/
theorem drainRewrites_unmapped {s : State} (h : ∀ b ∈ s.fl.wbuf, b.mapSeq = none) : ∀ b ∈ (drainRewrites s).fl.wbuf, b.mapSeq = none := by
  refine List.foldlRecOn _ _ (motive := fun t : State => ∀ b ∈ t.fl.wbuf, b.mapSeq = none) h fun t ht u _ b hb => ?_
  rcases List.mem_append.1 hb with hb | hb
  · exact ht b (List.mem_of_mem_filter hb)
  · rw [List.mem_singleton.1 hb]

/-- The journal's timer makes every staged entry durable (11 R323). -/
theorem timer_flushes {s : State} (hp : s.fl.pendBytes ≠ 0) : ∃ j g w l m r c, drainRewrites (journalFlush s) = { s with
      fl := { s.fl with journal := j, pendBytes := 0, journalTag := g, wbuf := w, relocs := l, mismatch := m, rewrites := r },
      tele := { s.tele with counters := c } }
    ∧ (∀ e ∈ j, e.durable = true) ∧ j.map (·.recs) = s.fl.journal.map (·.recs) ∧ ∀ b ∈ w, b.mapSeq = none := by
  obtain ⟨hdurable, hunmapped⟩ := journalFlush_durable (Nat.pos_of_ne_zero hp)
  have hwbuf := drainRewrites_unmapped hunmapped
  have hrecs := journalFlush_recs s
  have hpend := journalFlush_pendBytes s
  obtain ⟨w, m, r, hdrain⟩ := drainRewrites_frame (journalFlush s)
  obtain ⟨j, p, g, w', l, c, hflush⟩ := journalFlush_frame s
  rw [hdrain] at hwbuf
  rw [hflush] at hdrain hdurable hrecs hpend
  obtain rfl : p = 0 := hpend
  exact ⟨j, g, w, l, m, r, c, hflush ▸ hdrain, hdurable, hrecs, hwbuf⟩

theorem checkpoint_pendBytes (s : State) : (checkpoint s).fl.pendBytes = 0 := by
  rw [checkpoint_fl]
  exact journalFlush_pendBytes _

theorem checkpoint_base (s : State) : (checkpoint s).fl.base = s.fl.map := by
  rw [checkpoint_fl]
  exact (settles_ckptStaged s).map

/-- At 6 GiB of journal the timer writes a checkpoint (11 R325). -/
theorem journal_timer_checkpoints {s : State} (hm : s.boot.mode = .service) (h : 6442450944 ≤ journalBytes s) :
    ∃ t, exec .journalFlushTimer s = .next t ∧ t.fl.base = s.fl.map ∧ t.fl.pendBytes = 0 ∧ DataKept s t := by
  have hfull : boundJournal (journalFlush s) = checkpoint (journalFlush s) :=
    boundJournal_of_full (by rw [journalBytes_journalFlush]; exact h)
  have hpend := checkpoint_pendBytes (journalFlush s)
  have hbase := (checkpoint_base (journalFlush s)).trans (journalFlush_map s)
  obtain ⟨-, hdata, -⟩ := checkpoint_keeps (journalFlush s)
  refine ⟨_, whenServing_service (fun x => drainRewrites (boundJournal (journalFlush x))) hm, ?_⟩
  rw [fenced_fl, hfull]
  generalize hc : checkpoint (journalFlush s) = t at hpend hbase hdata
  obtain ⟨w, m, r, hdrain⟩ := drainRewrites_frame t
  have hkept := ((settles_journalFlush s).data.trans hdata).trans (settles_drainRewrites t).data
  rw [← hc, ← hfull] at hkept
  refine ⟨?_, ?_, hkept.fenced⟩
  · rw [hdrain]
    exact hbase
  · rw [hdrain]
    exact hpend

/-! ### The flush reserve (11 R339) -/

/-- Every superblock leaves the reserve. -/
theorem reserve_restored {s : State} (hm : s.boot.mode = .service) :
    ∃ t, exec .flushReserveRestored s = .next t ∧ t.fl.reserveReady = true
      ∧ (SMap.wf {} s.fl.sbs = true → ∀ k, sbOf t k = { sbOf s k with reserve := false })
      ∧ t = { s with fl := { s.fl with reserveReady := true, sbs := t.fl.sbs } } := by
  refine ⟨_, (whenServing_service _ hm).trans (congrArg _ (fenced_of_keeps rfl rfl rfl rfl rfl rfl)), rfl, fun hw k => ?_, rfl⟩
  exact SMap.find_mapVals_of_rises (f := fun _ (y : Superblock) => { y with reserve := false }) ((SMap.wf_iff _).1 hw).1 (fun _ => rfl) k

/-! ### The statement -/

/-- Settles O46: the members of a superblock are different blocks, each erased once (`membersErased_foldl`); the loss of a die is its removal
(`dieLost_dieRemoved`), after which only its spare and the spare capacity change; the timer is one flush, and at 6 GiB one checkpoint. -/
theorem erasesDieLossAndJournal : Obligations.ErasesDieLossAndJournal := by
  refine ⟨fun s i p b hm hi hp hb => ⟨fun hc => ?_, fun hc => whenServing_of_eq (eraseComplete_of_kept hc [])⟩,
    fun s c p hm hc hp h => ⟨fun hf => ?_, fun hf => die_times_out hc hp h hm hf⟩,
    fun s hm => ⟨fun hp hr hj => ?_, fun hp hj => ?_, fun hj => journal_timer_checkpoints hm hj⟩, fun s hm => reserve_restored hm⟩
  · obtain ⟨hfree, hkept, herased⟩ := superblock_erased hi hp hb hc
    refine ⟨_, whenServing_service (eraseComplete i p b []) hm, ?_, fun m hmem hret => ?_, ?_, hkept.data.fenced, ?_⟩
    · rw [sbOf, fenced_fl]
      exact hfree
    · rw [fenced_fl, herased m hmem hret]
      exact ⟨rfl, rfl⟩
    · rw [fenced_fl, hkept.map]
    · rw [fenced_trs, hkept.trs]
  · exact die_changed hm ((dieTimeout_eq hc hp h).trans (if_neg (by omega)))
  · refine whenServing_of_eq ?_
    rw [journalFlush_of_empty hp, boundJournal_of_small hj, drainRewrites_of_none hr]
  · obtain ⟨j, g, w, l, m, r, c, hrow, hdurable, hrecs, hwbuf⟩ := timer_flushes hp
    have hrow' : drainRewrites (boundJournal (journalFlush s)) = _ :=
      (congrArg drainRewrites (boundJournal_of_small (by rw [journalBytes_journalFlush]; exact hj))).trans hrow
    exact ⟨_, (whenServing_service _ hm).trans (congrArg _ (fenced_of_keeps hrow' rfl rfl rfl rfl rfl)), rfl, hdurable, hrecs, hwbuf, rfl⟩

end Sys2Proof.Machine

/-! PROOFS. Background work of the flash translation layer (11 R327, R331, R333, R343, R357). -/
namespace Sys2Proof.Machine

/-! ### Relocations that start (11 R331, R333, R343) -/

theorem relocating_of_no_relocs {s : State} (h : s.fl.relocs = []) (u : Nat) : relocating s u = false := by
  rw [relocating, h, List.any_nil]

/-- A row that starts a relocation of units that are in none adds it to the relocations and counts the reads of its sources. -/
theorem relocation_starts {f : State → State} {s : State} {us : List Nat} {sb : Nat} {pr : Purpose} (hm : s.boot.mode = .service)
    (hs : flashStopped s = false) (hne : us ≠ []) (hu : ∀ u ∈ us, relocating s u = false) (hf : f s = startReloc sb pr none us s) :
    ∃ t, whenServing f s = .next t ∧ t.fl = { s.fl with relocs := s.fl.relocs ++ [relocOf s sb pr none us] }
      ∧ t = { s with fl := t.fl, tele := { s.tele with counters := t.tele.counters } } := by
  obtain ⟨c, hc⟩ := startReloc_of_none_relocating hs hne hu sb pr none
  have hrow := hf.trans hc
  exact ⟨_, (whenServing_service f hm).trans (congrArg _ (fenced_of_keeps hrow rfl rfl rfl rfl rfl)), rfl, rfl⟩

theorem gcStart_of_victim {s : State} {i : Nat} {v : Nat × Superblock} (hi : i < 8) (hfew : freePool s i * 100 < 3 * islandSbs)
    (hv : victims s i = [v]) : gcStart i s = startReloc v.1 .gc none (sbUnits s v.1) s := by
  unfold gcStart
  rw [if_pos ⟨hi, hfew⟩, hv]
  rfl

/-- A victim holds valid units. -/
theorem sbUnits_ne_nil_of_victim {s : State} {i : Nat} {v : Nat × Superblock} (h : v ∈ victims s i) : sbUnits s v.1 ≠ [] := by
  obtain ⟨-, hv⟩ := List.mem_filter.1 h
  obtain ⟨-, hne⟩ := Bool.and_eq_true_iff.1 hv
  intro hnil
  simp [hnil] at hne

theorem slcFold_of_single {s : State} {k : Nat} {x : Superblock} (hover : slcSize s < 2 * slcUse s) (hg : s.gov.bgFlash = false)
    (hr : s.fl.relocs = []) (hsbs : s.fl.sbs = [(k, x)]) (hslc : x.slc = true) (hst : x.st = .closed)
    (hne : (sbUnits s k).filter (foldable s) ≠ []) : slcFold s = startReloc k .fold none ((sbUnits s k).filter (foldable s)) s := by
  have hany : ((sbUnits s k).filter (foldable s)).any (fun u => !relocating s u) = true := by
    obtain ⟨u, hu⟩ := List.exists_mem_of_ne_nil _ hne
    exact List.any_eq_true.2 ⟨u, hu, by rw [relocating_of_no_relocs hr]; rfl⟩
  have hcands : s.fl.sbs.filter (fun (e : Nat × Superblock) => e.2.slc && decide (e.2.st = .closed)
      && ((sbUnits s e.1).filter (foldable s)).any (fun u => !relocating s u)) = [(k, x)] := by
    rw [hsbs]
    exact List.filter_eq_self.2 fun e he => by rw [List.mem_singleton.1 he]; simp only [hslc, hst, hany, decide_true, Bool.and_self]
  unfold slcFold
  rw [if_pos ⟨hover, hg⟩]
  dsimp only
  rw [hcands]
  rfl

section
variable {s : State} {u : Nat} {e : MapEntry} (hg : s.gov.bgFlash = false) (hmap : s.fl.map = [(u, e)]) (hst : e.st = 1)
include hmap hst

theorem unitsOfBlock_of_single : unitsOfBlock s (blockKey e.addr) = [u] := by
  rw [unitsOfBlock, unitsWhere, hmap, List.filter_eq_self.2 fun x hx => by rw [List.mem_singleton.1 hx]; simp [hst]]
  rfl

include hg

/-- With one mapped unit its block is the only one that wear levelling looks at. -/
theorem wearLevel_of_single : wearLevel s
    = if coldBlock s (blockKey e.addr) then startReloc (sbKey s (blockAddr (blockKey e.addr))) .wear none [u] s else s := by
  have hblocks : dedup (s.fl.map.filterMap (fun (e : Nat × MapEntry) => if e.2.st = 1 then some (blockKey e.2.addr) else none))
      = [blockKey e.addr] := by
    simp only [hmap, List.filterMap_cons, hst, if_true, List.filterMap_nil, dedup, List.filter_nil]
  unfold wearLevel
  rw [if_neg (by simp [hg]), hblocks, List.foldl_cons, List.foldl_nil, unitsOfBlock_of_single hmap hst]
end

/-! ### A checkpoint (11 R325, R327) -/

/-- An image of a map in which every one of some keys is changed once. -/
theorem find_foldl_modify {α : Type} [DecidableEq α] {d : α} (f : α → α) (ks : List Nat) (hnd : ks.Nodup) (m : SMap α) (j : Nat) :
    SMap.find d (ks.foldl (fun m k => SMap.modify d m k f) m) j = if j ∈ ks then f (SMap.find d m j) else SMap.find d m j := by
  induction ks generalizing m with
  | nil => rw [List.foldl_nil, if_neg List.not_mem_nil]
  | cons k ks ih =>
    obtain ⟨hnot, hnd⟩ := List.nodup_cons.1 hnd
    rw [List.foldl_cons, ih hnd]
    by_cases hj : j = k
    · subst hj
      rw [if_neg hnot, if_pos List.mem_cons_self, SMap.find_modify_self]
    · rw [SMap.find_modify_other _ _ _ _ hj]
      simp only [List.mem_cons, hj, false_or]

theorem nodup_dedup {α : Type} [DecidableEq α] (l : List α) : (dedup l).Nodup := by
  induction l with
  | nil => exact List.nodup_nil
  | cons a l ih =>
    refine List.nodup_cons.2 ⟨fun h => ?_, ih.filter _⟩
    simpa using (List.mem_filter.1 h).2

/-- The journal that stays begins with an entry that recovery needs. -/
theorem liveJournal_head {ck : SMap (List Nat)} {j : List JEntry} (hj : ∀ e ∈ j, e.durable = true) :
    ∀ e ∈ (liveJournal ck j).head?, entryNeeded ck e = true := by
  intro e he
  have hdur := hj e ((List.dropWhile_sublist _).mem (List.mem_of_mem_head? he))
  have hnot := List.head?_dropWhile_not (fun e => e.durable && !entryNeeded ck e) j
  rw [liveJournal] at he
  rw [Option.mem_def.1 he] at hnot
  simpa [hdur] using hnot

/-- An entry that recovery needs stays in the journal. -/
theorem mem_liveJournal {ck : SMap (List Nat)} {j : List JEntry} {e : JEntry} (he : e ∈ j) (hn : entryNeeded ck e = true) :
    e ∈ liveJournal ck j := by
  rw [← List.takeWhile_append_dropWhile (p := fun e => e.durable && !entryNeeded ck e) (l := j)] at he
  rcases List.mem_append.1 he with ht | hd
  · simpa [hn] using List.mem_takeWhile_imp ht
  · exact hd

/-- What a commit stages is not empty: an entry takes 16 bytes and more. -/
theorem stagedEntry_pendBytes_pos (rs : List Rec) (s : State) : 0 < (stagedEntry rs s).fl.pendBytes := by
  show 0 < s.fl.pendBytes + (16 + sumOf (rs.map recSize))
  omega

theorem journalFlush_commitEntry (rs : List Rec) (s : State) : journalFlush (commitEntry rs s) = journalFlush (stagedEntry rs s) := by
  rw [commitEntry_eq]
  split
  · exact journalFlush_of_empty (journalFlush_pendBytes _)
  · rfl

/-- After a checkpoint's flush the journal is what it was and the CHECKPOINT entry, durable. -/
theorem ckptStaged_journal (s : State) :
    ∃ e : JEntry, (ckptStaged s).fl.journal = (s.fl.journal ++ [e]).map (fun e => { e with durable := true }) := by
  rw [ckptStaged, journalFlush_commitEntry, journalFlush_journal (stagedEntry_pendBytes_pos ..).ne']
  exact ⟨_, rfl⟩

theorem ckptStaged_seq (s : State) : (ckptStaged s).fl.seq = s.fl.seq + 1 := by rw [ckptStaged, journalFlush_seq, commitEntry_seq]

theorem ckptStaged_ckpt (s : State) : (ckptStaged s).fl.ckpt = s.fl.ckpt := by rw [ckptStaged, journalFlush_ckpt, commitEntry_ckpt]

theorem ckptStaged_mediaMinutes (s : State) : (ckptStaged s).fl.mediaMinutes = s.fl.mediaMinutes := by
  rw [ckptStaged, journalFlush_mediaMinutes, commitEntry_mediaMinutes]

theorem find_ckptAfter {s : State} {g : Nat} (hg : g ∈ changedSegments s) :
    SMap.find [] (ckptAfter s) g = ((s.fl.seq + 1) :: SMap.find [] s.fl.ckpt g).take 2 := by
  have hnd : (changedSegments s).Nodup := nodup_dedup _
  rw [ckptAfter, ckptStaged_seq, ckptStaged_ckpt, find_foldl_modify _ _ hnd, if_pos hg]

theorem checkpoint_journal (s : State) : (checkpoint s).fl.journal = liveJournal (ckptAfter s) (ckptStaged s).fl.journal := by
  rw [checkpoint_fl]

theorem checkpoint_ckpt (s : State) : (checkpoint s).fl.ckpt = ckptAfter s := by rw [checkpoint_fl]

theorem checkpoint_seq (s : State) : (checkpoint s).fl.seq = s.fl.seq + 1 := by
  rw [checkpoint_fl]
  exact ckptStaged_seq s

theorem checkpoint_mediaMinutes (s : State) : (checkpoint s).fl.mediaMinutes = s.fl.mediaMinutes + polValue s 0x0D 600 / 60 := by
  have hstaged := ckptStaged_mediaMinutes s
  rw [checkpoint_fl]
  exact congrArg (· + polValue s 0x0D 600 / 60) hstaged

theorem checkpoint_hostTb (s : State) : (checkpoint s).fl.hostTb = if s.aon.tbFromHost = true then some (now s) else none := by
  rw [checkpoint_fl]

/-- After a checkpoint the journal is durable, begins with an entry still needed, and holds every entry still needed. -/
theorem checkpoint_journal_live (s : State) : (∀ e ∈ (checkpoint s).fl.journal, e.durable = true)
    ∧ (∀ e ∈ (checkpoint s).fl.journal.head?, entryNeeded (checkpoint s).fl.ckpt e = true)
    ∧ ∀ e ∈ s.fl.journal, entryNeeded (checkpoint s).fl.ckpt e = true → { e with durable := true } ∈ (checkpoint s).fl.journal := by
  obtain ⟨new, hj⟩ := ckptStaged_journal s
  have hdur : ∀ e ∈ (ckptStaged s).fl.journal, e.durable = true := by
    intro e he
    rw [hj] at he
    obtain ⟨e', -, rfl⟩ := List.mem_map.1 he
    rfl
  rw [checkpoint_journal, checkpoint_ckpt]
  refine ⟨fun e he => hdur e ((List.dropWhile_sublist _).mem he), liveJournal_head hdur, fun e he hn => mem_liveJournal ?_ hn⟩
  rw [hj]
  exact List.mem_map_of_mem (f := fun e : JEntry => { e with durable := true }) (List.mem_append_left _ he)

/-! ### The statement -/

/-- Settles O47: collection, fold and wear levelling each start one relocation (`relocation_starts`); a checkpoint flushes its entry with the
journal, of which it then drops the front that no segment's older checkpoint needs (`checkpoint_journal_live`). -/
theorem backgroundWorkMovesAndCheckpoints : Obligations.BackgroundWorkMovesAndCheckpoints := by
  refine ⟨fun s i hm => ⟨fun hpool => ?_, fun v hi hfew hv hs hall => ?_⟩,
    fun s hm => ⟨fun hno => ?_, fun k x hover hg hs hr hsbs hslc hst hne => ?_⟩,
    fun s hm => ⟨fun hg => whenServing_of_eq (if_pos hg), fun u e hg hs hr hmap hst => ⟨fun hcold => ?_, fun hwarm => ?_⟩⟩,
    fun s hm => ?_, fun s q acc hm => ⟨fun hno => ?_, fun hyes => whenServing_of_eq (if_pos hyes)⟩⟩
  · exact whenServing_of_eq (if_neg (by omega))
  · exact relocation_starts hm hs (sbUnits_ne_nil_of_victim (hv ▸ List.mem_singleton_self v))
      (fun u hu => by simpa using List.all_eq_true.1 hall u hu) (gcStart_of_victim hi hfew hv)
  · refine whenServing_of_eq (if_neg fun h => ?_)
    rcases hno with hsmall | hg
    · omega
    · simp [hg] at h
  · have hstart := relocation_starts hm hs hne (fun u _ => relocating_of_no_relocs hr u) (slcFold_of_single hover hg hr hsbs hslc hst hne)
    rwa [hr] at hstart
  · have hstart := relocation_starts hm hs (List.cons_ne_nil u []) (fun v _ => relocating_of_no_relocs hr v)
      ((wearLevel_of_single hg hmap hst).trans (if_pos hcold))
    rwa [hr] at hstart
  · exact whenServing_of_eq ((wearLevel_of_single hg hmap hst).trans (if_neg (by simp [hwarm])))
  · obtain ⟨hmap, hdata, htrs⟩ := checkpoint_keeps s
    obtain ⟨hdurable, hhead, hneeded⟩ := checkpoint_journal_live s
    refine ⟨_, whenServing_service checkpoint hm, ?_⟩
    rw [fenced_fl, fenced_trs]
    refine ⟨hmap, checkpoint_base s, checkpoint_pendBytes s, checkpoint_seq s, fun g hg => ?_, hdurable, hhead, hneeded,
      checkpoint_mediaMinutes s, checkpoint_hostTb s, hdata.fenced, htrs⟩
    rw [checkpoint_ckpt, checkpoint_seq, find_ckptAfter hg]
  · have hrow : originExpires q acc s = _ := if_neg (by simp [hno])
    exact (whenServing_service _ hm).trans (congrArg _ (fenced_of_keeps hrow rfl rfl rfl rfl rfl))

end Sys2Proof.Machine

/-! PROOFS. Work that meets no error: no event is raised, no error counted, no pool page withdrawn (12 R368, R369, R376, 16 Table 144). -/
namespace Sys2Proof.Machine

/-! ### Counts of errors -/

/-- No counter of the kinds up to 0x11 counts, among them CE (0x10) and UE (0x11) (16 Table 144). -/
structure ErrorsKept (s t : State) : Prop where
  counts : ∀ k i, k < 0x12 → i < 65536 → counted k i t = counted k i s

theorem ErrorsKept.of_counters {s t : State} (h : t.tele.counters = s.tele.counters) : ErrorsKept s t :=
  ⟨fun k i _ _ => congrArg (SMap.find 0 · (k * 65536 + i)) h⟩

theorem ErrorsKept.trans {s t u : State} (h : ErrorsKept s t) (g : ErrorsKept t u) : ErrorsKept s u :=
  ⟨fun k i hk hi => (g.counts k i hk hi).trans (h.counts k i hk hi)⟩

theorem errorsKept_bump (k : Nat) (hk : 0x12 ≤ k) (i n : Nat) (s : State) : ErrorsKept s (bump k i n s) :=
  ⟨fun _ _ _ _ => counted_bump_other _ _ _ _ _ _ (by omega)⟩

/-- Counting goes on from a state that has the same counters. -/
theorem ErrorsKept.since {s t u : State} (h : ErrorsKept t u) (ht : t.tele.counters = s.tele.counters) : ErrorsKept s u :=
  (ErrorsKept.of_counters ht).trans h

/-- An event counts at most its own loss. -/
theorem errorsKept_raise (ev log w d0 d1 : Nat) (s : State) : ErrorsKept s (raise ev log w d0 d1 s) := by
  unfold raise
  dsimp only
  split
  · split
    · exact .of_counters (logRecord_counters ..)
    · exact (errorsKept_bump 0x60 (by decide) 5 1 _).since (logRecord_counters ..)
  · exact .of_counters rfl

theorem errorsKept_commitEntry (rs : List Rec) (s : State) : ErrorsKept s (commitEntry rs s) := by
  have hflush : ∀ t, ErrorsKept t (journalFlush t) := fun t => by
    unfold journalFlush
    split
    · exact .of_counters rfl
    · exact (errorsKept_bump 0x34 (by decide) 6 _ _).since rfl
  rw [commitEntry_eq]
  split
  · exact (hflush _).since rfl
  · exact .of_counters rfl

theorem errorsKept_deferError (p : Nat) (code : Byte) (vol lba : Nat) (s : State) : ErrorsKept s (deferError p code vol lba s) := by
  unfold deferError
  split
  · exact (errorsKept_raise ..).since rfl
  · exact .of_counters rfl

theorem errorsKept_reportLost (code : Byte) (lost : List Nat) (s : State) : ErrorsKept s (reportLost code lost s) := by
  refine List.foldlRecOn _ _ (motive := ErrorsKept s) (.of_counters rfl) fun t ht o _ => ht.trans ?_
  split
  · exact .of_counters rfl
  · split
    · exact .of_counters rfl
    · exact errorsKept_deferError ..

/-! ### Uneventful work -/

/-- No error is counted, no event raised and no pool page withdrawn. -/
structure Uneventful (s t : State) : Prop where
  errors : ErrorsKept s t
  seq : t.tele.eventSeq = s.tele.eventSeq
  withdrawn : t.tier.withdrawn = s.tier.withdrawn

theorem Uneventful.of_tele {s t : State} (h : t.tele = s.tele) (hw : t.tier.withdrawn = s.tier.withdrawn) : Uneventful s t :=
  ⟨.of_counters (congrArg Tele.counters h), congrArg Tele.eventSeq h, hw⟩

theorem Uneventful.refl (s : State) : Uneventful s s := .of_tele rfl rfl

theorem Uneventful.trans {s t u : State} (h : Uneventful s t) (g : Uneventful t u) : Uneventful s u :=
  ⟨h.errors.trans g.errors, g.seq.trans h.seq, g.withdrawn.trans h.withdrawn⟩

theorem Uneventful.foldl {α : Type} {f : State → α → State} (hf : ∀ s a, Uneventful s (f s a)) (l : List α) (s : State) :
    Uneventful s (l.foldl f s) :=
  List.foldlRecOn l f (motive := Uneventful s) (Uneventful.refl s) fun t ht a _ => ht.trans (hf t a)

/-- The same work from a state with the same telemetry and withdrawn pages. -/
theorem Uneventful.since {s t u : State} (h : Uneventful t u) (ht : t.tele = s.tele) (hw : t.tier.withdrawn = s.tier.withdrawn) :
    Uneventful s u := (Uneventful.of_tele ht hw).trans h

theorem uneventful_bump (k : Nat) (hk : 0x12 ≤ k) (i n : Nat) (s : State) : Uneventful s (bump k i n s) :=
  ⟨errorsKept_bump k hk i n s, rfl, rfl⟩

theorem uneventful_modPage (k : Nat) (f : Page → Page) (s : State) : Uneventful s (modPage k f s) := .of_tele rfl rfl

theorem uneventful_modStep (p id : Nat) (f : Step → Step) (s : State) : Uneventful s (modStep p id f s) := .of_tele rfl rfl

theorem uneventful_decideEnd (p id : Nat) (st : Byte) (res : Nat) (s : State) : Uneventful s (decideEnd p id st res s) := .of_tele rfl rfl

/-! ### Tier pages and frames (10 R291 to R304) -/

theorem uneventful_demotePage (k : Nat) (evict : Bool) (s : State) : Uneventful s (demotePage k evict s) := by
  unfold demotePage
  split
  · exact .refl s
  · split
    · dsimp only
      split
      · refine Uneventful.trans ?_ (uneventful_bump 0x54 (by decide) _ 1 _)
        split <;> exact .of_tele rfl rfl
      · split <;> exact .of_tele rfl rfl
    · exact .refl s

theorem uneventful_evictUntil (enough : State → Bool) (st : Nat) (chs : List Nat) (n : Nat) (s : State) :
    Uneventful s (evictUntil enough st chs n s) := by
  induction n generalizing s with
  | zero => exact .refl s
  | succ n ih =>
    unfold evictUntil
    split
    · exact .refl s
    · split
      · exact .refl s
      · exact (uneventful_demotePage ..).trans (ih _)

theorem uneventful_makeRoom (g : Bool) (st tenant n : Nat) (s : State) : Uneventful s (makeRoom g st tenant n s) := by
  unfold makeRoom
  split
  · exact uneventful_evictUntil ..
  · exact .refl s

theorem uneventful_placeFrame (st tenant n : Nat) (s : State) : Uneventful s (placeFrame st tenant n s).1 := by
  unfold placeFrame
  split
  · exact .refl s
  · dsimp only
    split
    · exact .refl s
    · exact uneventful_makeRoom ..

theorem uneventful_putFrame (kind : FrameKind) (k st ch tenant : Nat) (s : State) : Uneventful s (putFrame kind k st ch tenant s) :=
  .of_tele rfl rfl

/-- A read of a page counts on the flash channels. -/
theorem uneventful_readFor (k : Nat) (s : State) : Uneventful s (readFor none k s) := by
  have htouch : Uneventful s (touchPage k s) := uneventful_modPage ..
  unfold readFor
  dsimp only
  split
  · exact htouch
  · split
    · exact htouch
    · refine htouch.trans (Uneventful.foldl (fun s' i => ?_) _ _)
      split
      · exact .refl s'
      · exact uneventful_bump 0x30 (by decide) _ 1 s'

theorem uneventful_transientFor (p id k : Nat) (x : Page) (s : State) : Uneventful s (transientFor p id k x s) := by
  unfold transientFor
  dsimp only
  split
  · exact ((uneventful_placeFrame ..).trans (uneventful_readFor ..)).trans (uneventful_putFrame ..)
  · exact (uneventful_placeFrame ..).trans (.of_tele rfl rfl)

theorem uneventful_repairFrames (k : Nat) (s : State) : Uneventful s (repairFrames k s) := by
  unfold repairFrames
  split
  · exact .refl s
  · split
    · exact .refl s
    · refine Uneventful.foldl (fun s' e => ?_) _ s
      split
      · exact uneventful_transientFor ..
      · exact .refl s'

/-! ### Joins and leaves (04 R135 to R138) -/

theorem uneventful_riserPage {t id l idx : Nat} {o : Owner} {k : Nat} {p : Page} {s u : State}
    (h : riserPage t id l idx o k p s = some u) : Uneventful s u := by
  unfold riserPage at h
  dsimp only at h
  split at h
  · exact Option.some.inj h ▸ (uneventful_readFor k s).trans (uneventful_modPage ..)
  · split at h
    · exact absurd h nofun
    · split at h
      · exact absurd h nofun
      · obtain ⟨ch, -, rfl⟩ := Option.map_eq_some_iff.1 h
        exact (uneventful_readFor k s).trans (uneventful_putFrame ..)

theorem uneventful_riserLayer {t id l idx : Nat} {os : List Owner} {s u : State} (h : riserLayer t id l idx os s = some u) :
    Uneventful s u := by
  refine bindFold_keeps Uneventful.refl Uneventful.trans (fun s' o v hv => ?_) os h
  split at hv
  · exact Option.some.inj hv ▸ Uneventful.refl s'
  · exact uneventful_riserPage hv

theorem uneventful_riserLayers (t id idx : Nat) (p : Step) (ls : List Nat) (s : State) : Uneventful s (riserLayers t id idx p ls s) := by
  induction ls generalizing s with
  | nil => exact .refl s
  | cons l ls ih =>
    unfold riserLayers
    split
    · exact .refl s
    · exact (uneventful_riserLayer ‹_›).trans (ih _)

theorem uneventful_riserCommit (t id : Nat) (s : State) : Uneventful s (riserCommit t id s) := by
  unfold riserCommit
  split
  · exact .refl s
  · dsimp only
    split
    · exact uneventful_riserLayers ..
    · exact .refl s

theorem uneventful_joinFrames {t id l : Nat} {os : List Owner} {s u : State} (h : joinFrames t id l os s = some u) : Uneventful s u := by
  refine bindFold_keeps Uneventful.refl Uneventful.trans (fun s' o v hv => ?_) os h
  split at hv
  · exact Option.some.inj hv ▸ Uneventful.refl s'
  · obtain ⟨ch, -, rfl⟩ := Option.map_eq_some_iff.1 hv
    exact ((uneventful_placeFrame ..).trans (uneventful_readFor ..)).trans (uneventful_putFrame ..)

theorem uneventful_tryJoin {t id : Nat} {p : Step} {s u : State} (h : tryJoin t id p s = some u) : Uneventful s u := by
  unfold tryJoin at h
  dsimp only at h
  split at h
  · exact absurd h nofun
  · obtain ⟨v, hv, rfl⟩ := Option.map_eq_some_iff.1 h
    exact (((uneventful_placeFrame ..).trans (uneventful_modStep ..)).trans (uneventful_joinFrames hv)).trans (uneventful_modStep ..)

theorem uneventful_considerJoins (es : List (Nat × Nat × Step)) (s : State) : Uneventful s (considerJoins es s).1 := by
  induction es generalizing s with
  | nil => exact .refl s
  | cons e es ih =>
    unfold considerJoins
    split
    · exact ih s
    · split
      · exact uneventful_modStep ..
      · exact (uneventful_tryJoin ‹_›).trans (ih _)

theorem uneventful_joinAll (s : State) : Uneventful s (joinAll s) :=
  (uneventful_considerJoins ..).trans (Uneventful.foldl (fun s' (e : Nat × Nat) => uneventful_riserCommit e.1 e.2 s') _ _)

theorem uneventful_leaveAll (s : State) : Uneventful s (leaveAll s) :=
  (Uneventful.foldl (f := fun s' (e : Nat × Nat × Nat × Step) => releaseFrames e.2.1 e.2.2.1 s') (fun _ _ => .of_tele rfl rfl) _ s).trans
    (.of_tele rfl rfl)

theorem uneventful_settleLeaves (s : State) : Uneventful s (settleLeaves s) := by
  unfold settleLeaves
  split
  · exact .refl s
  · split
    · exact .refl s
    · rw [checkWindow_eq]
      exact ((uneventful_leaveAll s).trans (uneventful_joinAll _)).trans (.of_tele rfl rfl)

/-! ### Output, and what a stopped WRITE keeps (03 R92, R95) -/

theorem uneventful_dmaWrite (p a : Nat) (bytes : List Byte) (r : Bool) (s : State) : Uneventful s (dmaWrite p a bytes r s) := by
  unfold dmaWrite
  split
  · have hcount := (uneventful_bump 0x40 (by decide) 1 bytes.length (emitAll (hostWrites s a bytes r) s)).trans
      (uneventful_bump 0x57 (by decide) (tenantOf s p) bytes.length _)
    exact Uneventful.since (hcount.trans (.of_tele rfl rfl)) rfl rfl
  · exact .refl s

theorem uneventful_mergeUnit (p u : Nat) (part : Bool) (s : State) : Uneventful s (mergeUnit p u part s) := by
  unfold mergeUnit
  split
  · exact .of_tele rfl rfl
  · split
    · exact (uneventful_bump 0x30 (by decide) _ 1 s).trans (.of_tele rfl rfl)
    · exact .refl s

theorem uneventful_bufferBlocks (p v lba n acc : Nat) (s : State) : Uneventful s (bufferBlocks p v lba n acc s) := by
  unfold bufferBlocks
  split
  · exact .refl s
  · refine Uneventful.foldl (fun s' q => ?_) _ s
    exact (uneventful_mergeUnit p (volBase s v + q) _ s').trans (.of_tele rfl rfl)

theorem uneventful_addCurrent (p : Nat) (f : CtrSet → CtrSet) (s : State) : Uneventful s (addCurrent p f s) := .of_tele rfl rfl

theorem uneventful_putBlock (v k : Nat) (bytes : List Byte) (chk : Option (BitVec 64)) (s : State) :
    Uneventful s (putBlock v k bytes chk s) := .of_tele rfl rfl

theorem uneventful_cacheDrop (key n : Nat) (s : State) : Uneventful s (cacheDrop key n s) := .of_tele rfl rfl

theorem uneventful_applyWrite (p : Nat) (h : Held) (n : Nat) (s : State) : Uneventful s (applyWrite p h n s) := by
  have hbuffered : Uneventful s (bufferBlocks p (objOf h.desc) (fld h.desc 8 8) n h.acceptNo (overwrite (objOf h.desc) (fld h.desc 8 8) n s)) :=
    (uneventful_bufferBlocks ..).since rfl rfl
  unfold applyWrite
  dsimp only
  generalize hfold : (List.range n).foldl _ _ = t
  have hblocks : Uneventful s t := hfold ▸ hbuffered.trans (Uneventful.foldl (fun _ _ => uneventful_putBlock ..) _ _)
  have hcounted := (hblocks.trans (uneventful_cacheDrop (volBase s (objOf h.desc) * 4 + fld h.desc 8 8) n t)).trans
    (uneventful_addCurrent p (fun c => { c with buffer := c.buffer + BitVec.ofNat 64 (n * 4096) }) _)
  split
  · exact hcounted
  · exact hcounted.trans (.of_tele rfl rfl)

theorem uneventful_applyStopped (p : Nat) (h : Held) (s : State) : Uneventful s (applyStopped p h s).1 := by
  unfold applyStopped
  split
  · split
    · exact .refl s
    · split
      · exact uneventful_applyWrite ..
      · exact .refl s
  · split
    · split <;> exact .refl s
    · exact .refl s
  · exact .refl s

/-! ### Endings (03 R76, R83) -/

theorem uneventful_finishWith (pick : Option Nat) (quiet : Bool) (p id : Nat) (st : Byte) (res : BitVec 64) (s : State) :
    Uneventful s (finishWith pick quiet p id st res s) := by
  have hdrop : Uneventful s (dropBatches p id st (endJobs p id s)) := .of_tele (dropBatches_tele ..) (congrArg Tiers.withdrawn (dropBatches_tier ..))
  have hsettle : ∀ ok, Uneventful s (settleWatch p id ok (dropBatches p id st (endJobs p id s))) := fun ok => by
    refine hdrop.trans ?_
    unfold settleWatch
    dsimp only
    split <;> exact ⟨.of_counters rfl, rfl, rfl⟩
  have hdone : ∀ v e, ∀ t : State, Uneventful s t → Uneventful s (addCompletion v e t) := fun v e t ht =>
    ht.trans (.of_tele (addCompletion_tele ..) (congrArg Tiers.withdrawn (addCompletion_tier ..)))
  unfold finishWith
  split
  · exact .refl s
  · dsimp only
    split
    · exact hdone _ _ _ ((hsettle _).trans (.of_tele rfl (by simp [setTrs])))
    · exact (hsettle _).trans (.of_tele rfl (by simp [setTrs]))

theorem uneventful_finish {p id : Nat} {s t : State} (st : Byte) (res : BitVec 64) (h : Uneventful s t) :
    Uneventful s (finish p id st res t) := h.trans (uneventful_finishWith ..)

theorem uneventful_stepLeft (p id : Nat) (code : Byte) (q : Step) (s : State) : Uneventful s (stepLeft p id code q s) := by
  unfold stepLeft
  dsimp only
  split
  · exact .of_tele rfl rfl
  · exact (uneventful_dmaWrite ..).trans (.of_tele rfl rfl)

theorem uneventful_attendEndWith (quiet : Bool) (p id : Nat) (code : Byte) (s : State) : Uneventful s (attendEndWith quiet p id code s) := by
  cases hq : (heldOf s p id).bind (·.step) with
  | none =>
    unfold attendEndWith
    rw [hq]
    exact uneventful_finishWith ..
  | some q =>
    rw [attendEndWith_of_step quiet code hq]
    exact ((uneventful_stepLeft ..).trans (uneventful_finishWith ..)).trans (uneventful_settleLeaves _)

theorem uneventful_searchStop (p id : Nat) (st : Byte) (h : Held) (s : State) : Uneventful s (searchStop p id st h s) := by
  have hblocks : ∀ r, Uneventful s (searchBlocks p (searchDesc h) r s) := fun r => Uneventful.foldl (fun _ _ => uneventful_dmaWrite ..) _ s
  unfold searchStop
  split
  · exact uneventful_finish st 0 (.refl s)
  · refine uneventful_finish _ _ ?_
    split
    · exact hblocks _
    · exact .refl s

theorem uneventful_embedOutput (p : Nat) (d : Desc) (x : FnSlot) (m : Made) (n : Nat) (s : State) :
    Uneventful s (embedOutput p d x m n s) := by
  unfold embedOutput
  dsimp only
  refine Uneventful.trans ?_ (uneventful_dmaWrite ..)
  split
  · exact .refl s
  · exact uneventful_dmaWrite ..

/-- FILTER, EMBED and CHAIN over a region meet its unreadable blocks one by one; any other ends at its own status (06 R190, Table 65). -/
theorem uneventful_recordsStop {st : Byte} (hst : st ≠ stOk) (p id : Nat) {h : Held} (hop : h.op = 0x31 ∨ h.op = 0x32)
    (hr : readsRegion h = false) (s : State) : Uneventful s (recordsStop p id st h s) := by
  have hr' : ¬ (h.op = 0x30 ∨ (h.op = 0x31 ∧ bitOf (fld h.desc 1 1) 2 = false) ∨ (h.op = 0x32 ∧ fld h.desc 8 1 = 0)) := of_decide_eq_false hr
  rcases hop with hop | hop
  · have hitems : bitOf (fld h.desc 1 1) 2 = true := by simpa [hop] using hr'
    unfold recordsStop recordsRun
    simp only [hop]
    split
    · unfold embedRun
      dsimp only
      rw [if_pos hitems]
      split
      · exact uneventful_finish _ _ (.refl s)
      · unfold embedCommit
        dsimp only
        rw [if_neg (by simp [hst])]
        exact uneventful_finish _ _ ((uneventful_embedOutput ..).since rfl rfl)
    · exact uneventful_finish _ _ (uneventful_embedOutput ..)
  · have hform : fld h.desc 8 1 ≠ 0 := by simpa [hop] using hr'
    unfold recordsStop recordsRun
    simp only [hop]
    split
    · unfold chainRun
      rw [if_neg hst, if_neg hst, if_neg hform]
      split
      · exact uneventful_searchStop ..
      · split
        · exact uneventful_finish _ _ (.refl s)
        · exact uneventful_searchStop ..
    · exact uneventful_searchStop ..

theorem uneventful_endCommand (quiet : Bool) (p id : Nat) (st : Byte) (res : BitVec 64) (s : State) :
    Uneventful s (endCommand quiet p id st res s) := by
  unfold endCommand
  split
  · exact .refl s
  · split
    · exact .refl s
    · split
      · exact uneventful_attendEndWith ..
      · exact (uneventful_finishWith ..).trans (.of_tele rfl rfl)

theorem uneventful_reportDecided (quiet : Bool) (p id : Nat) (s : State) : Uneventful s (reportDecided quiet p id s) := by
  unfold reportDecided
  split
  · exact .refl s
  · exact uneventful_endCommand ..

theorem uneventful_stopCommand (p id : Nat) (st : Byte) (s : State) : Uneventful s (stopCommand p id st s) := by
  unfold stopCommand
  split
  · exact .refl s
  · split
    · exact (uneventful_applyStopped ..).trans (uneventful_decideEnd ..)
    · exact .refl s

/-- A command that meets poison outside a record region ends without an event. -/
theorem uneventful_mediaStop {st : Byte} (hst : st ≠ stOk) {p id : Nat} {s : State} {h : Held} (hh : heldOf s p id = some h)
    (hr : readsRegion h = false) : Uneventful s (mediaStop p id st s) := by
  unfold mediaStop
  rw [hh]
  dsimp only
  split
  · exact .refl s
  · split
    · exact uneventful_attendEndWith ..
    · exact uneventful_searchStop ..
    · rename_i hop
      exact absurd hr (by simp [readsRegion, hop])
    · exact uneventful_recordsStop hst p id (Or.inl ‹_›) hr s
    · exact uneventful_recordsStop hst p id (Or.inr ‹_›) hr s
    · exact (uneventful_stopCommand ..).trans (uneventful_reportDecided ..)

end Sys2Proof.Machine

/-! PROOFS. What raising an event leaves, and the fence behind it (16 R477 to R480). -/
namespace Sys2Proof.Machine

/-- `t` is `s` but for what raising events changes. -/
structure EventsOnly (s t : State) : Prop where
  eq : t = withEvents s t

theorem EventsOnly.refl (s : State) : EventsOnly s s := ⟨rfl⟩

theorem EventsOnly.trans {s t u : State} (h : EventsOnly s t) (g : EventsOnly t u) : EventsOnly s u := by
  obtain ⟨h⟩ := h
  obtain ⟨g⟩ := g
  refine ⟨?_⟩
  rw [g, h]
  rfl

theorem EventsOnly.of_raises {s t : State} (h : Raises s t) (hc : t.core = s.core) : EventsOnly s t := by
  have hev := h.withEvents
  rw [hc] at hev
  exact ⟨hev⟩

theorem eventsOnly_raise (ev log w d0 d1 : Nat) (s : State) : EventsOnly s (raise ev log w d0 d1 s) :=
  .of_raises (raises_raise ..) (raise_core ..)

theorem eventsOnly_logRecord (log : Nat) (m : Bool) (d : List Byte) (s : State) : EventsOnly s (logRecord log m d s) :=
  .of_raises (raises_logRecord ..) (logRecord_core ..)

theorem eventsOnly_bump (k i n : Nat) (s : State) : EventsOnly s (bump k i n s) := ⟨rfl⟩

/-- Work that neither reads nor changes what events change may as well come before them. -/
theorem EventsOnly.map {s t : State} (h : EventsOnly s t) {φ : State → State} (hφ : ∀ x y, φ (withEvents x y) = withEvents (φ x) y) :
    EventsOnly (φ s) (φ t) := by
  have ht : φ t = withEvents (φ s) t := (congrArg φ h.eq).trans (hφ s t)
  refine ⟨ht.trans ?_⟩
  rw [ht]
  rfl

section
variable {s t : State} (h : EventsOnly s t)
include h

theorem EventsOnly.trs : t.trs = s.trs := (congrArg State.trs h.eq :)

theorem EventsOnly.tun : t.tun = s.tun := (congrArg State.tun h.eq :)

theorem EventsOnly.tier : t.tier = s.tier := (congrArg State.tier h.eq :)

theorem EventsOnly.fl : t.fl = s.fl := (congrArg State.fl h.eq :)

theorem EventsOnly.core : t.core = s.core := (congrArg State.core h.eq :)

theorem EventsOnly.integ : t.integ = s.integ := (congrArg State.integ h.eq :)

theorem EventsOnly.nor : t.nor = s.nor := (congrArg State.nor h.eq :)

theorem EventsOnly.heat : t.heat = s.heat := (congrArg State.heat h.eq :)
end

/-- A row whose work and events leave the queue, the always-on island and the islands alone passes the fence as it is. -/
theorem fenced_of_eventsOnly {f : State → State} {s u t : State} (h : f s = t) (he : EventsOnly u t)
    (hk : u = { u with pending := s.pending, aon := s.aon, isl := s.isl, boot := s.boot, link := s.link }) : fenced f s = t := by
  replace he := he.eq
  rw [hk] at he
  unfold withEvents at he
  unfold fenced
  dsimp only
  rw [h, he]

theorem logRecord_healthPos (log : Nat) (m : Bool) (d : List Byte) (s : State) : (logRecord log m d s).tele.healthPos = s.tele.healthPos := by
  unfold logRecord
  dsimp only
  split
  · split
    · rw [signal_tele]
    · rfl
  · rfl

theorem raise_healthPos (ev log w d0 d1 : Nat) (s : State) : (raise ev log w d0 d1 s).tele.healthPos = s.tele.healthPos := by
  unfold raise
  dsimp only
  split
  · split
    · exact logRecord_healthPos ..
    · exact logRecord_healthPos ..
  · rfl

/-- A row of the device's own units while it is alive. -/
theorem whenAlive_alive (f : State → State) {s : State} (ha : alive s = true) : whenAlive f s = .next (fenced f s) :=
  congrArg Host.Outcome.next (if_pos ha)

end Sys2Proof.Machine

/-! PROOFS. Correctable errors, repair and retraining (12 R368 to R373). -/
namespace Sys2Proof.Machine

/-! ### One error is counted (12 R372) -/

/-- A correctable error of `region` counted, its bucket at `n`. -/
def ceEntered (region n : Nat) (s : State) : State :=
  { bump 0x10 region 1 s with integ := { s.integ with buckets := SMap.put 0 s.integ.buckets region n } }

theorem countCe_of_below {region : Nat} {s : State} (hr : region < 741) (hb : SMap.find 0 s.integ.buckets region < 64) :
    countCe region s = ceEntered region (SMap.find 0 s.integ.buckets region + 1) s := by
  refine (if_pos hr).trans ?_
  exact if_neg (by show ¬ 64 < SMap.find 0 s.integ.buckets region + 1; omega)

theorem countCe_of_full {region : Nat} {s : State} (hr : region < 741) (hb : SMap.find 0 s.integ.buckets region = 64) :
    countCe region s = raise 0x0011 1 region 0 0 (ceEntered region 0 s) := by
  refine (if_pos hr).trans ?_
  exact if_pos (by show 64 < SMap.find 0 s.integ.buckets region + 1; omega)

theorem ceCounted_ceEntered (region : Nat) (s : State) :
    CeCounted s (ceEntered region (SMap.find 0 s.integ.buckets region + 1) s) region :=
  ⟨counted_bump_self 0x10 region 1 s, by simp [ceEntered], fun _ hr => by simp [ceEntered, hr]⟩

/-- Later work that counts no error and leaves the buckets. -/
theorem CeCounted.after {s t u : State} {region : Nat} (h : CeCounted s t region) (hr : region < 741) (he : ErrorsKept t u)
    (hb : u.integ.buckets = t.integ.buckets) : CeCounted s u region := by
  obtain ⟨hcount, hself, hother⟩ := h
  exact ⟨(he.counts 0x10 region (by decide) (by omega)).trans hcount, by rw [hb, hself], fun r hne => by rw [hb, hother r hne]⟩

/-- Where nothing follows, only the counters and the buckets have changed. -/
theorem fenced_ceEntered {f : State → State} {s : State} {region n : Nat} (h : f s = ceEntered region n s) :
    fenced f s = ceEntered region n s ∧ CountsOnly s (ceEntered region n s) :=
  ⟨fenced_of_keeps h rfl rfl rfl rfl rfl, by exact rfl⟩

/-! ### A repair resource is engaged (12 R368, R370) -/

/-- After a counted error a resource of `integ` is engaged, entered in the health records and reported. -/
def engaged (kind unit target region e n : Nat) (x : Integ) (s : State) : State :=
  raise 0x0010 0 region e 0 (healthAppend kind unit target { ceEntered region n s with integ := x })

theorem engaged_after (kind unit target e : Nat) {f : State → State} {region : Nat} {s : State} {x : Integ} (hr : region < 741)
    (hf : f s = engaged kind unit target region e (SMap.find 0 s.integ.buckets region + 1) x s)
    (hx : x.buckets = SMap.put 0 s.integ.buckets region (SMap.find 0 s.integ.buckets region + 1)) :
    CeCounted s (fenced f s) region ∧ (fenced f s).integ = x ∧ (fenced f s).tele.healthPos = s.tele.healthPos + 1
      ∧ (fenced f s).tele.eventSeq = s.tele.eventSeq + 1
      ∧ fenced f s = { withEvents s (fenced f s) with integ := (fenced f s).integ, nor := { s.nor with ops := (fenced f s).nor.ops } } := by
  unfold engaged at hf
  generalize hu : healthAppend kind unit target _ = u at hf
  have hevents := eventsOnly_raise 0x0010 0 region e 0 u
  rw [fenced_of_eventsOnly hf hevents (by rw [← hu]; rfl)]
  refine ⟨(ceCounted_ceEntered region s).after hr ((errorsKept_raise ..).since (by rw [← hu]; rfl)) ?_, ?_, ?_, ?_, ?_⟩
  · rw [hevents.integ, ← hu]
    exact hx
  · rw [hevents.integ, ← hu]
    rfl
  · rw [raise_healthPos, ← hu]
    rfl
  · rw [raise_eventSeq, ← hu]
    rfl
  · rw [hevents.integ, hevents.nor]
    refine hevents.eq.trans ?_
    rw [← hu]
    rfl

/-! ### A pool page is withdrawn (12 R369) -/

/-- What moving the content of a withdrawn pool page changes: tier pages, pages of registers and counters, none of them of an error. -/
structure Rehouses (s t : State) : Prop where
  quiet : Uneventful s t
  rest : ∃ m x e, t = { s with trs := m, tier := x, tele := e }

theorem TierOnly.rehouses {s t : State} (h : TierOnly s t) (hq : Uneventful s t) : Rehouses s t := by
  obtain ⟨x, e, rfl⟩ := h
  exact ⟨hq, _, x, e, rfl⟩

theorem tierOnly_repairFrames (k : Nat) (s : State) : TierOnly s (repairFrames k s) := by
  unfold repairFrames
  split
  · exact TierOnly.refl s
  · split
    · exact TierOnly.refl s
    · refine TierOnly.foldl (fun s' e => ?_) _ s
      split
      · unfold transientFor
        dsimp only
        split
        · exact ((tierOnly_placeFrame ..).trans (tierOnly_readFor ..)).trans (tierOnly_putFrame ..)
        · exact (tierOnly_placeFrame ..).trans ⟨_, _, rfl⟩
      · exact TierOnly.refl s'

theorem rehouses_moveHome (k : Nat) (s : State) : Rehouses s (moveHome k s) := by
  unfold moveHome
  split
  · exact (TierOnly.refl s).rehouses (.refl s)
  · split
    · split
      · exact (tierOnly_modPage ..).rehouses (uneventful_modPage ..)
      · exact ((tierOnly_demotePage ..).trans (tierOnly_repairFrames ..)).rehouses
          ((uneventful_demotePage ..).trans (uneventful_repairFrames ..))
    · exact (TierOnly.refl s).rehouses (.refl s)

theorem rehouses_moveWork (p id st ch tenant : Nat) (s : State) : Rehouses s (moveWork p id st ch tenant s) := by
  unfold moveWork
  split
  · exact (TierOnly.refl s).rehouses (.refl s)
  · exact ⟨uneventful_modStep .., _, _, _, rfl⟩

/-- The state in which the withdrawal of a pool page has been noted and reported. -/
def pageWithdrawn (chan segment : Nat) (s : State) : State :=
  raise 0x0012 1 chan (poolPageOf segment) 0 { s with tier := { s.tier with withdrawn := SMap.modify 0 s.tier.withdrawn chan (· + 1) } }

theorem rehouses_withdrawPage (chan segment : Nat) (place : DramPlace) (s : State) :
    Rehouses (pageWithdrawn chan segment s) (withdrawPage chan segment place s) := by
  have hstays : Rehouses (pageWithdrawn chan segment s) (pageWithdrawn chan segment s) := (TierOnly.refl _).rehouses (.refl _)
  unfold withdrawPage
  dsimp only
  rw [← pageWithdrawn]
  split
  · exact rehouses_moveHome ..
  · split
    · exact ⟨.of_tele rfl rfl, _, _, _, rfl⟩
    · exact hstays
  · split
    · exact rehouses_moveWork ..
    · exact hstays
  · exact hstays

/-- A withdrawal takes one pool page of its channel and one event, and leaves flash, contexts, collections and the tundish. -/
theorem withdrawPage_after (chan segment : Nat) (place : DramPlace) (s : State) :
    ErrorsKept s (withdrawPage chan segment place s) ∧ (withdrawPage chan segment place s).integ = s.integ
      ∧ (withdrawPage chan segment place s).tele.eventSeq = s.tele.eventSeq + 1
      ∧ SMap.find 0 (withdrawPage chan segment place s).tier.withdrawn chan = SMap.find 0 s.tier.withdrawn chan + 1
      ∧ (withdrawPage chan segment place s).fl = s.fl ∧ (withdrawPage chan segment place s).ctx = s.ctx
      ∧ (withdrawPage chan segment place s).coll = s.coll ∧ (withdrawPage chan segment place s).tun = s.tun := by
  obtain ⟨⟨herrors, hseq, hpages⟩, m, x, e, hrest⟩ := rehouses_withdrawPage chan segment place s
  refine ⟨ErrorsKept.since ((errorsKept_raise ..).trans herrors) rfl, ?_, hseq.trans (raise_eventSeq ..), ?_, ?_, ?_, ?_, ?_⟩
  · rw [hrest]
    exact raise_integ ..
  · rw [hpages, pageWithdrawn, raise_tier]
    exact SMap.find_modify_self (d := 0) s.tier.withdrawn chan (· + 1)
  · rw [hrest]
    exact raise_fl ..
  · rw [hrest]
    exact raise_ctx ..
  · rw [hrest]
    exact raise_coll ..
  · rw [hrest]
    exact raise_tun ..

theorem hardDram_of_free {s : State} {chan e : Nat} (h : freeRemap s chan = some e) (seg : Nat) (place : DramPlace) :
    hardDram chan seg place s = raise 0x0010 0 chan e 0 (healthAppend 1 chan seg (setRemap chan e seg s)) := by
  unfold hardDram
  rw [h]

theorem hardDram_of_full {s : State} {chan : Nat} (h : freeRemap s chan = none) (seg : Nat) (place : DramPlace) :
    hardDram chan seg place s = if place = .reserved then s else withdrawPage chan seg place s := by
  unfold hardDram
  rw [h]
  cases place <;> rfl

/-! ### The rows of a stack channel (12 R368, R369, R373) -/

theorem exec_findsDram {i : Instr} {s : State} {chan seg : Nat} {hard : Bool} {place : DramPlace} (ha : alive s = true)
    (h : FindsDram s chan seg hard place i) : exec i s = .next (fenced (dramCe chan seg hard place) s) := by
  rcases h with rfl | ⟨rfl, hg⟩
  · exact whenAlive_alive (dramCe chan seg hard place) ha
  · have hrow : (if true && !s.gov.bgDram then dramCe chan seg hard place s else s) = dramCe chan seg hard place s := if_pos (by simp [hg])
    exact (whenAlive_alive _ ha).trans (congrArg Host.Outcome.next (fenced_congr hrow))

theorem dramCe_of_lt {chan : Nat} (hc : chan < 512) (seg : Nat) (hard : Bool) (place : DramPlace) (s : State) :
    dramCe chan seg hard place s = if hard = true then hardDram chan seg place (countCe chan s) else countCe chan s := if_pos hc

section
variable {i : Instr} {s : State} {chan seg : Nat} {hard : Bool} {place : DramPlace} (ha : alive s = true) (hc : chan < 512)
  (hi : FindsDram s chan seg hard place i)
include ha hc hi

theorem dram_counted (hh : hard = false) (hb : SMap.find 0 s.integ.buckets chan < 64) :
    ∃ t, exec i s = .next t ∧ CeCounted s t chan ∧ CountsOnly s t := by
  have hrow : dramCe chan seg hard place s = _ :=
    ((dramCe_of_lt hc ..).trans (if_neg (by simp [hh]))).trans (countCe_of_below (by omega) hb)
  obtain ⟨hfence, honly⟩ := fenced_ceEntered hrow
  exact ⟨_, (exec_findsDram ha hi).trans (congrArg _ hfence), ceCounted_ceEntered .., honly⟩

theorem dram_rated (hh : hard = false) (hb : SMap.find 0 s.integ.buckets chan = 64) :
    ∃ t, exec i s = .next t ∧ SMap.find 0 t.integ.buckets chan = 0 ∧ counted 0x10 chan t = counted 0x10 chan s + 1
      ∧ t.tele.eventSeq = s.tele.eventSeq + 1 ∧ t = { withEvents s t with integ := { s.integ with buckets := t.integ.buckets } } := by
  have hrow : dramCe chan seg hard place s = _ :=
    ((dramCe_of_lt hc ..).trans (if_neg (by simp [hh]))).trans (countCe_of_full (by omega) hb)
  have hevents := eventsOnly_raise 0x0011 1 chan 0 0 (ceEntered chan 0 s)
  refine ⟨_, (exec_findsDram ha hi).trans (congrArg _ (fenced_of_eventsOnly hrow hevents rfl)), ?_, ?_, raise_eventSeq .., ?_⟩
  · rw [hevents.integ]
    simp [ceEntered]
  · exact ((errorsKept_raise ..).counts 0x10 chan (by decide) (by omega)).trans (counted_bump_self 0x10 chan 1 s)
  · rw [hevents.integ]
    exact hevents.eq

theorem dram_remapped {e : Nat} (hh : hard = true) (hb : SMap.find 0 s.integ.buckets chan < 64) (he : freeRemap s chan = some e) :
    ∃ t, exec i s = .next t ∧ CeCounted s t chan ∧ SMap.find 0 t.integ.remap (16 * chan + e) = seg + 1
      ∧ (∀ k, k ≠ 16 * chan + e → SMap.find 0 t.integ.remap k = SMap.find 0 s.integ.remap k)
      ∧ t.tele.healthPos = s.tele.healthPos + 1 ∧ t.tele.eventSeq = s.tele.eventSeq + 1
      ∧ t = { withEvents s t with integ := t.integ, nor := { s.nor with ops := t.nor.ops } } := by
  have hrow := (dramCe_of_lt hc seg hard place s).trans (if_pos hh)
  rw [countCe_of_below (by omega) hb, hardDram_of_free (s := ceEntered chan (SMap.find 0 s.integ.buckets chan + 1) s) he] at hrow
  obtain ⟨hcount, hinteg, hhealth, hseq, hframe⟩ := engaged_after 1 chan seg e (by omega) hrow rfl
  refine ⟨_, exec_findsDram ha hi, hcount, ?_, fun k hk => ?_, hhealth, hseq, hframe⟩
  · rw [hinteg]
    exact SMap.find_put_self (d := 0) s.integ.remap (16 * chan + e) (seg + 1)
  · rw [hinteg]
    exact SMap.find_put_other (d := 0) s.integ.remap (16 * chan + e) k (seg + 1) hk

theorem dram_unmapped (hh : hard = true) (hb : SMap.find 0 s.integ.buckets chan < 64) (he : freeRemap s chan = none) :
    (place = .reserved → ∃ t, exec i s = .next t ∧ CeCounted s t chan ∧ CountsOnly s t)
    ∧ (place ≠ .reserved → ∃ t, exec i s = .next t ∧ CeCounted s t chan ∧ t.tele.eventSeq = s.tele.eventSeq + 1
        ∧ SMap.find 0 t.tier.withdrawn chan = SMap.find 0 s.tier.withdrawn chan + 1 ∧ t.fl = s.fl ∧ t.ctx = s.ctx
        ∧ t.coll = s.coll ∧ t.tun = s.tun) := by
  have hrow := (dramCe_of_lt hc seg hard place s).trans (if_pos hh)
  rw [countCe_of_below (by omega) hb, hardDram_of_full (s := ceEntered chan (SMap.find 0 s.integ.buckets chan + 1) s) he] at hrow
  refine ⟨fun hp => ?_, fun hp => ?_⟩
  · obtain ⟨hfence, honly⟩ := fenced_ceEntered (hrow.trans (if_pos hp))
    exact ⟨_, (exec_findsDram ha hi).trans (congrArg _ hfence), ceCounted_ceEntered .., honly⟩
  · have hmoved := hrow.trans (if_neg hp)
    obtain ⟨herrors, hinteg, hseq, hpages, hfl, hctx, hcoll, htun⟩ :=
      withdrawPage_after chan seg place (ceEntered chan (SMap.find 0 s.integ.buckets chan + 1) s)
    rw [← hmoved] at herrors hinteg hseq hpages hfl hctx hcoll htun
    exact ⟨_, exec_findsDram ha hi, (ceCounted_ceEntered chan s).after (by omega) (herrors.trans (.of_counters rfl))
      (congrArg Integ.buckets hinteg), hseq, hpages, hfl, hctx, hcoll, htun⟩
end

/-! ### The rows of an SRAM word (12 R370, R374) -/

theorem exec_findsSram {i : Instr} {s : State} {region ram word : Nat} {hard : Bool} (ha : alive s = true)
    (h : FindsSram region ram word hard i) : exec i s = .next (fenced (sramCe region ram word hard) s) := by
  rcases h with rfl | ⟨rfl, hregion⟩
  · exact whenAlive_alive (sramCe region ram word hard) ha
  · exact (whenAlive_alive _ ha).trans (congrArg Host.Outcome.next (fenced_congr (if_pos hregion)))

section
variable {i : Instr} {s : State} {region ram word : Nat} {hard : Bool} (ha : alive s = true) (hr : region < 741)
  (hi : FindsSram region ram word hard i) (hb : SMap.find 0 s.integ.buckets region < 64)
include ha hr hi hb

theorem sram_counted (h : hard = false ∨ freeWord s ram = none) : ∃ t, exec i s = .next t ∧ CeCounted s t region ∧ CountsOnly s t := by
  have hrow : sramCe region ram word hard s = ceEntered region (SMap.find 0 s.integ.buckets region + 1) s := by
    unfold sramCe
    dsimp only
    rw [countCe_of_below hr hb]
    split
    · rename_i hc
      rcases h with h | h
      · exact absurd hc (by simp [h])
      · rw [show freeWord (ceEntered region _ s) ram = none from h]
    · rfl
  obtain ⟨hfence, honly⟩ := fenced_ceEntered hrow
  exact ⟨_, (exec_findsSram ha hi).trans (congrArg _ hfence), ceCounted_ceEntered .., honly⟩

theorem sram_spared {e : Nat} (hm : ram < 4496) (hh : hard = true) (he : freeWord s ram = some e) :
    ∃ t, exec i s = .next t ∧ CeCounted s t region ∧ SMap.find 0 t.integ.sram (4 * ram + e) = word + 1
      ∧ (∀ k, k ≠ 4 * ram + e → SMap.find 0 t.integ.sram k = SMap.find 0 s.integ.sram k)
      ∧ t.tele.healthPos = s.tele.healthPos + 1 ∧ t.tele.eventSeq = s.tele.eventSeq + 1
      ∧ t = { withEvents s t with integ := t.integ, nor := { s.nor with ops := t.nor.ops } } := by
  have hrow : sramCe region ram word hard s = raise 0x0010 0 region e 0
      (healthAppend 2 ram word (setWord ram e word (ceEntered region (SMap.find 0 s.integ.buckets region + 1) s))) := by
    unfold sramCe
    dsimp only
    rw [countCe_of_below hr hb, if_pos (by simp [hh, hm]), show freeWord (ceEntered region _ s) ram = some e from he]
  obtain ⟨hcount, hinteg, hhealth, hseq, hframe⟩ := engaged_after 2 ram word e hr hrow rfl
  refine ⟨_, exec_findsSram ha hi, hcount, ?_, fun k hk => ?_, hhealth, hseq, hframe⟩
  · rw [hinteg]
    exact SMap.find_put_self (d := 0) s.integ.sram (4 * ram + e) (word + 1)
  · rw [hinteg]
    exact SMap.find_put_other (d := 0) s.integ.sram (4 * ram + e) k (word + 1) hk
end

/-! ### Buckets leak (12 R372) -/

theorem buckets_leak {s : State} (ha : alive s = true) (hw : SMap.wf 0 s.integ.buckets = true) :
    ∃ t, exec .bucketLeak s = .next t ∧ (∀ r, SMap.find 0 t.integ.buckets r = SMap.find 0 s.integ.buckets r - 1)
      ∧ t = { s with integ := { s.integ with buckets := t.integ.buckets } } := by
  have hrises := ((SMap.wf_iff s.integ.buckets).1 hw).1
  refine ⟨leak s, (whenAlive_alive leak ha).trans (congrArg _ (fenced_of_keeps rfl rfl rfl rfl rfl rfl)), fun r => ?_, rfl⟩
  exact SMap.find_mapVals_of_rises (f := fun _ n => n - 1) hrises (fun _ => rfl) r

/-! ### A link retrains (12 R371) -/

/-- A direction of a link with its failed lanes as given. -/
def putLanes (link dir m : Nat) (s : State) : State :=
  { s with integ := { s.integ with lanes := SMap.put 0 s.integ.lanes (2 * link + dir) m } }

theorem laneSet_putLanes_self (link dir m : Nat) (s : State) : laneSet (putLanes link dir m s) link dir = m := SMap.find_put_self ..

theorem laneSet_putLanes_other {link dir k d : Nat} (h : 2 * k + d ≠ 2 * link + dir) (m : Nat) (s : State) :
    laneSet (putLanes link dir m s) k d = laneSet s k d := SMap.find_put_other _ _ _ _ h

/-- Writing back what a direction holds changes no direction. -/
theorem laneSet_putLanes_same (link dir k d : Nat) (s : State) : laneSet (putLanes link dir (laneSet s link dir) s) k d = laneSet s k d := by
  by_cases h : 2 * k + d = 2 * link + dir
  · unfold laneSet putLanes
    rw [h, SMap.find_put_self]
  · exact laneSet_putLanes_other h ..

theorem repairLanes_none (link dir : Nat) (s : State) : repairLanes link dir [] s = putLanes link dir (laneSet s link dir) s := by
  unfold repairLanes
  simp only [dedup, List.filter_nil, List.foldl_nil]
  exact if_neg fun h => absurd h.2 (not_le.2 h.1)

theorem repairLanes_one {link dir l : Nat} {s : State} (hl : bitOf (laneSet s link dir) l = false)
    (hfew : popCount 256 (laneSet s link dir + 2 ^ l) ≤ 4) : repairLanes link dir [l] s
      = healthAppend 3 link (256 * dir + l) (putLanes link dir (laneSet s link dir + 2 ^ l) s) := by
  have hfresh : (dedup [l]).filter (fun x => !bitOf (laneSet s link dir) x) = [l] := by simp [dedup, hl]
  unfold repairLanes
  dsimp only
  rw [hfresh]
  exact if_neg fun h => absurd hfew (not_le.2 h.1)

/-- A retraining counts a free number of retries above 1,000. -/
def retrained (link : Nat) (s : State) : State := bump 0x20 (4 + link) (1001 + Config.freeNat (draw s)) (drawn 1 s)

theorem counted_retrained (link : Nat) (s : State) : counted 0x20 (4 + link) (retrained link s)
    = counted 0x20 (4 + link) s + BitVec.ofNat 64 (1001 + Config.freeNat (draw s)) := counted_bump_self ..

theorem exec_laneRetrain {s : State} {link : Nat} (ha : alive s = true) (hl : link < 16) (out inn : List Nat) {t : State}
    (ht : repairLanes link 1 inn (repairLanes link 0 out (retrained link s)) = t) :
    exec (.laneRetrain link out inn) s = .next (fenced (fun _ => t) s) :=
  (whenAlive_alive (retrain link out inn) ha).trans (congrArg _ (fenced_congr (g := fun _ => t) ((if_pos hl).trans ht)))

theorem lanes_kept {s : State} {link : Nat} (ha : alive s = true) (hl : link < 16) :
    ∃ t n, exec (.laneRetrain link [] []) s = .next t ∧ 1001 ≤ n ∧ t.freeCount = s.freeCount + 1
      ∧ counted 0x20 (4 + link) t = counted 0x20 (4 + link) s + BitVec.ofNat 64 n ∧ (∀ k d, laneSet t k d = laneSet s k d) := by
  have hboth : repairLanes link 1 [] (repairLanes link 0 [] (retrained link s))
      = putLanes link 1 (laneSet (putLanes link 0 (laneSet s link 0) (retrained link s)) link 1)
          (putLanes link 0 (laneSet s link 0) (retrained link s)) := by rw [repairLanes_none, repairLanes_none]; rfl
  refine ⟨_, 1001 + Config.freeNat (draw s), exec_laneRetrain ha hl [] [] hboth, Nat.le_add_right .., rfl, ?_, fun k d => ?_⟩
  · exact counted_retrained link s
  · exact (laneSet_putLanes_same link 1 k d _).trans (laneSet_putLanes_same link 0 k d (retrained link s))

theorem lanes_repaired {s : State} {link l : Nat} (ha : alive s = true) (hl : link < 16) (hbit : bitOf (laneSet s link 0) l = false)
    (hfew : popCount 256 (laneSet s link 0 + 2 ^ l) ≤ 4) :
    ∃ t, exec (.laneRetrain link [l] []) s = .next t ∧ laneSet t link 0 = laneSet s link 0 + 2 ^ l
      ∧ laneSet t link 1 = laneSet s link 1 ∧ t.tele.healthPos = s.tele.healthPos + 1 ∧ t.tele.eventSeq = s.tele.eventSeq := by
  have hone := repairLanes_one (link := link) (dir := 0) (s := retrained link s) hbit hfew
  have hboth := repairLanes_none link 1 (repairLanes link 0 [l] (retrained link s))
  rw [hone] at hboth
  refine ⟨_, exec_laneRetrain ha hl [l] [] ((congrArg _ hone).trans hboth), ?_, ?_, rfl, rfl⟩
  · exact (laneSet_putLanes_other (by omega) _ _).trans (laneSet_putLanes_self link 0 _ (retrained link s))
  · exact (laneSet_putLanes_self link 1 _ _).trans (laneSet_putLanes_other (by omega) _ (retrained link s))

/-! ### The statement -/

/-- Settles O48: an error below 64 changes its count and bucket alone (`countCe_of_below`), a full bucket raises and empties; a free remap entry
or spare word is engaged by one step (`engaged_after`), and where no remap entry is left the withdrawn page's content moves without a further
event (`withdrawPage_after`). -/
theorem correctableErrorsAreCountedAndRepaired : Obligations.CorrectableErrorsAreCountedAndRepaired :=
  ⟨fun _ _ _ _ _ _ ha hc hi => ⟨dram_counted ha hc hi, dram_rated ha hc hi, fun _ => dram_remapped ha hc hi, dram_unmapped ha hc hi⟩,
    fun s chan seg hard place => by
      refine (congrArg Host.Outcome.next ?_ : exec (.dramPatrolRead chan seg false hard place) s = .next s)
      rw [fenced_of_eq (f := fun x => if false && !x.gov.bgDram then dramCe chan seg hard place x else x) rfl, ite_self],
    fun _ _ _ _ _ _ ha hr hm hi hb => ⟨sram_counted ha hr hi hb, fun _ => sram_spared ha hr hi hb hm⟩,
    fun _ ha hw => buckets_leak ha hw, fun _ _ ha hl => ⟨lanes_kept ha hl, fun _ => lanes_repaired ha hl⟩⟩

end Sys2Proof.Machine

/-! PROOFS. Processors that fault hand their duties over (12 R378 to R380, 13 R405). -/
namespace Sys2Proof.Machine

/-! ### Processors -/

theorem procOf_setProc_self (p : Nat) (x : Proc) (s : State) : procOf (setProc p x s) p = x := SMap.find_put_self ..

theorem procOf_setProc_other {p q : Nat} (h : q ≠ p) (x : Proc) (s : State) : procOf (setProc p x s) q = procOf s q :=
  SMap.find_put_other _ _ _ _ h

theorem procOf_of_integ_eq {s t : State} (h : t.integ = s.integ) (p : Nat) : procOf t p = procOf s p := by simp only [procOf, h]

/-- The faulted processor is none of those looked for, before and after its fault. -/
theorem lowestProc_faulted {s : State} {p : Nat} {st : ProcSt} (hp : (procOf s p).st ≠ st) (hst : st ≠ .faulted) :
    lowestProc (setProc p { st := .faulted } s) st = lowestProc s st := by
  unfold lowestProc
  congr 1
  funext q
  by_cases hq : q = p
  · subst hq
    rw [procOf_setProc_self]
    simp [hp, Ne.symm hst]
  · rw [procOf_setProc_other hq]

theorem st_of_lowestProc {s : State} {st : ProcSt} {q : Nat} (h : lowestProc s st = some q) : (procOf s q).st = st := by
  simpa using List.find?_some h

theorem lowestProc_of_first {s : State} {st : ProcSt} {q : Nat} (hq : q < 36) (hst : (procOf s q).st = st)
    (hfirst : ∀ r, r < q → (procOf s r).st ≠ st) : lowestProc s st = some q := by
  refine List.find?_range_eq_some.2 ⟨by simp [hst], List.mem_range.2 hq, fun r hr => ?_⟩
  simpa using hfirst r hr

/-! ### The watchdog's expiry -/

/-- An entry of the start log changes the NOR and the log's end. -/
theorem appendEntry_frame (type : Nat) (payload : List Byte) (s : State) :
    ∃ n k, appendEntry type payload s = { s with nor := n, boot := { s.boot with logNext := k } } := by
  unfold appendEntry
  split
  · exact ⟨_, _, rfl⟩
  · dsimp only
    split
    · exact ⟨_, _, rfl⟩
    · exact ⟨_, _, rfl⟩

theorem expire_after (duty : Nat) (s : State) : (expire duty s).boot.mode = .expired ∧ (expire duty s).boot.faultPin = true
    ∧ (expire duty s).boot.wdRunning = false ∧ (expire duty s).aon.wdLatch = true
    ∧ (expire duty s).link = aerLog 0x400000 0 s.link ∧ (expire duty s).outbox = s.outbox ++ [.aerFatalInternal]
    ∧ (expire duty s).trs = s.trs ∧ (expire duty s).fl = s.fl ∧ (expire duty s).tun = s.tun ∧ (expire duty s).ctx = s.ctx
    ∧ (expire duty s).coll = s.coll := by
  obtain ⟨n, k, h⟩ := appendEntry_frame 0x03 (bytesOf 8 (now s).toNat ++ bytesOf 1 duty ++ bytesOf 1 (norActivity s) ++ bytesOf 6 0) s
  unfold expire fenced
  rw [h]
  exact ⟨rfl, rfl, rfl, rfl, rfl, rfl, rfl, rfl, rfl, rfl, rfl⟩

/-! ### A fault -/

theorem exec_faultsProc {i : Instr} {s : State} {p : Nat} {readable : Bool} (ha : alive s = true) (h : FaultsProc p readable i) :
    exec i s = .next (procFault p readable s) := by
  rcases h with rfl | rfl <;> exact congrArg Host.Outcome.next (if_pos ha)

/-- The duties of an active processor are taken by `q`, and the change is reported. -/
theorem duties_taken {f : State → State} {s u : State} {x : Proc} {p q ev log w d0 d1 : Nat} (hu : setProc p { st := .faulted } s = u)
    (hq : q ≠ p) (hf : f u = raise ev log w d0 d1 (setProc q x u)) :
    procOf (fenced f u) p = { st := .faulted } ∧ procOf (fenced f u) q = x ∧ (∀ r, r ≠ p → r ≠ q → procOf (fenced f u) r = procOf s r)
      ∧ (fenced f u).tele.eventSeq = s.tele.eventSeq + 1
      ∧ fenced f u = { withEvents s (fenced f u) with integ := { s.integ with procs := (fenced f u).integ.procs } } := by
  have hevents := eventsOnly_raise ev log w d0 d1 (setProc q x u)
  rw [fenced_of_eventsOnly hf hevents rfl]
  have hprocs := procOf_of_integ_eq hevents.integ
  subst hu
  refine ⟨?_, ?_, fun r hp hr => ?_, raise_eventSeq .., ?_⟩
  · rw [hprocs, procOf_setProc_other hq.symm, procOf_setProc_self]
  · rw [hprocs, procOf_setProc_self]
  · rw [hprocs, procOf_setProc_other hr, procOf_setProc_other hp]
  · rw [hevents.integ]
    exact hevents.eq

section
variable {s : State} {p : Nat}

theorem procFault_spare (h : (procOf s p).st = .spare) (readable : Bool) : procFault p readable s = setProc p { st := .faulted } s := if_pos h

theorem procFault_idle (hs : (procOf s p).st ≠ .spare) (ha : (procOf s p).st ≠ .active) (readable : Bool) : procFault p readable s = s :=
  (if_neg hs).trans (if_pos ha)

variable (h : (procOf s p).st = .active)
include h

theorem procFault_to_spare {q : Nat} (hq : lowestProc s .spare = some q) : procFault p true s
    = fenced (fun y => raise 0x0023 1 p 0 q (setProc q { st := .active, duties := (procOf s p).duties } y)) (setProc p { st := .faulted } s) := by
  have hlow := (lowestProc_faulted (p := p) (by simp [h]) (by decide)).trans hq
  unfold procFault
  dsimp only
  rw [if_neg (by simp [h]), if_neg (by simp [h]), if_neg (by simp), hlow]

theorem procFault_to_active {q : Nat} (hs : lowestProc s .spare = none) (hq : lowestProc (setProc p { st := .faulted } s) .active = some q) :
    procFault p true s = fenced (fun y => raise 0x0024 2 p (procsActive y) 0
      (setProc q { procOf y q with duties := (procOf y q).duties ||| (procOf s p).duties } y)) (setProc p { st := .faulted } s) := by
  have hlow := (lowestProc_faulted (p := p) (by simp [h]) (by decide)).trans hs
  unfold procFault
  dsimp only
  rw [if_neg (by simp [h]), if_neg (by simp [h]), if_neg (by simp), hlow]
  dsimp only
  rw [hq]

theorem procFault_unreadable (hw : s.boot.wdRunning = true) :
    procFault p false s = expire (firstDuty (procOf s p).duties) (setProc p { st := .faulted } s) := by
  unfold procFault
  dsimp only
  rw [if_neg (by simp [h]), if_neg (by simp [h]), if_pos (by simp)]
  exact if_pos hw
end

/-! ### The statement -/

/-- Settles O50: a fault of a processor in service changes it and the one that takes its duties, with one event (`duties_taken`); duties that
cannot be read end as the watchdog's expiry (`expire_after`), which leaves what the device stores. -/
theorem processorsHandOverTheirDuties : Obligations.ProcessorsHandOverTheirDuties := by
  intro i s p readable ha hi
  rw [exec_faultsProc ha hi]
  refine ⟨fun hst => ?_, fun q hst hr hq => ?_, fun q hst hr hno hne hlt hq hfirst => ?_, fun hst hr hw => ?_, fun hs hact => ?_⟩
  · rw [procFault_spare hst]
    exact ⟨_, rfl, procOf_setProc_self .., fun q hq => procOf_setProc_other hq .., rfl⟩
  · subst hr
    have hne : q ≠ p := by
      rintro rfl
      exact absurd ((st_of_lowestProc hq).symm.trans hst) (by decide)
    obtain ⟨hp, htaken, hother, hseq, hframe⟩ := duties_taken (f := fun y => raise 0x0023 1 p 0 q
      (setProc q { st := .active, duties := (procOf s p).duties } y)) rfl hne rfl
    rw [procFault_to_spare hst hq]
    exact ⟨_, rfl, hp, htaken, hother, hseq, hframe⟩
  · subst hr
    have hlow : lowestProc (setProc p { st := .faulted } s) .active = some q := by
      refine lowestProc_of_first hlt ((congrArg Proc.st (procOf_setProc_other hne ..)).trans hq) fun r hr => ?_
      by_cases hrp : r = p
      · rw [hrp, procOf_setProc_self]
        decide
      · rw [procOf_setProc_other hrp]
        exact hfirst r hr hrp
    obtain ⟨hp, htaken, -, hseq, -⟩ := duties_taken (f := fun y => raise 0x0024 2 p (procsActive y) 0
      (setProc q { procOf y q with duties := (procOf y q).duties ||| (procOf s p).duties } y)) rfl hne rfl
    rw [procFault_to_active hst hno hlow]
    refine ⟨_, rfl, hp, htaken.trans ?_, hseq, rfl⟩
    rw [procOf_setProc_other hne, ← hq]
  · subst hr
    rw [procFault_unreadable hst hw]
    exact ⟨_, rfl, expire_after _ (setProc p { st := .faulted } s)⟩
  · rw [procFault_idle hs hact]

end Sys2Proof.Machine

/-! PROOFS. Uncorrectable errors are contained where they lie (12 R376, R377, Table 112). -/
namespace Sys2Proof.Machine

/-! ### One error is counted and reported -/

theorem eventsOnly_countUe (r row : Nat) (s : State) : EventsOnly s (countUe r row s) := by
  unfold countUe
  split
  · exact (eventsOnly_bump 0x11 r 1 s).trans (eventsOnly_raise ..)
  · exact EventsOnly.refl s

theorem ueCounted_countUe {r : Nat} (hr : r < 741) (row : Nat) (s : State) : UeCounted s (countUe r row s) r := by
  have hrow : countUe r row s = raise 0x0014 2 r row 0 (bump 0x11 r 1 s) := if_pos hr
  rw [hrow]
  exact ⟨((errorsKept_raise ..).counts 0x11 r (by decide) (by omega)).trans (counted_bump_self 0x11 r 1 s), raise_eventSeq ..⟩

theorem UeCounted.after {s t u : State} {r : Nat} (h : UeCounted s t r) (hr : r < 741) (g : Uneventful t u) : UeCounted s u r :=
  ⟨(g.errors.counts 0x11 r (by decide) (by omega)).trans h.1, g.seq.trans h.2⟩

theorem exec_uncorrectableError {s : State} {place : UePlace} (hm : s.boot.mode = .service) (hp : ∀ p b, place ≠ .processor p b) (r : Nat) :
    exec (.uncorrectableError r place) s = .next (fenced (uncorrectable r place) s) := by
  refine congrArg Host.Outcome.next ((if_pos (alive_of_service hm)).trans ?_)
  cases place with
  | processor p b => exact absurd rfl (hp p b)
  | _ => rfl

/-- An error whose place is marked without a further event: the row is the count, then the mark. -/
theorem ue_marked {s u t : State} {r row : Nat} {place : UePlace} (hm : s.boot.mode = .service) (hr : r < 741)
    (hp : ∀ p b, place ≠ .processor p b) (he : EventsOnly u t) (ht : uncorrectable r place s = t) (hq : Uneventful (countUe r row s) t)
    (hk : u = { u with pending := s.pending, aon := s.aon, isl := s.isl, boot := s.boot, link := s.link }) :
    exec (.uncorrectableError r place) s = .next t ∧ UeCounted s t r :=
  ⟨(exec_uncorrectableError hm hp r).trans (congrArg _ (fenced_of_eventsOnly ht he hk)), (ueCounted_countUe hr row s).after hr hq⟩

/-! ### Homes, frames, staging, map shards, cache lines, scratchpad and tundish -/

section
variable {s : State} {r : Nat} (hm : s.boot.mode = .service) (hr : r < 741)
include hm hr

theorem ue_counted {place : UePlace} (row : Nat) (hp : ∀ p b, place ≠ .processor p b) (ht : uncorrectable r place s = countUe r row s) :
    ∃ t, exec (.uncorrectableError r place) s = .next t ∧ UeCounted s t r ∧ t = withEvents s t := by
  have hevents := eventsOnly_countUe r row s
  obtain ⟨hrow, hcount⟩ := ue_marked hm hr hp hevents ht (.refl _) rfl
  exact ⟨_, hrow, hcount, hevents.eq⟩

theorem ue_home {k l : Nat} {p : Page} {b : Bool} (hpage : pageAt s k = some p) (hb : b = false ∨ unitsStatus s (slotUnit s k) ≠ 0x00) :
    ∃ t, exec (.uncorrectableError r (.home k l b)) s = .next t ∧ UeCounted s t r ∧ pageAt t k = some { p with state := .poisoned }
      ∧ (∀ j, j ≠ k → pageAt t j = pageAt s j) ∧ t.fl = s.fl ∧ t.trs = s.trs := by
  have hevents := (eventsOnly_countUe r 1 s).map (φ := modPage k (fun q => { q with state := .poisoned })) fun _ _ => rfl
  have hcond : ¬ (b && decide (unitsStatus s (slotUnit s k) = stOk)) = true := by
    rcases hb with hb | hb
    · simp [hb]
    · exact fun hand => hb (of_decide_eq_true (Bool.and_eq_true_iff.mp hand).2)
  obtain ⟨hrow, hcount⟩ := ue_marked (place := .home k l b) (row := 1) hm hr nofun hevents (if_neg hcond) (uneventful_modPage ..) rfl
  have hsame : ∀ j, pageAt (modPage k (fun q => { q with state := .poisoned }) (countUe r 1 s)) j
      = pageAt (modPage k (fun q => { q with state := .poisoned }) s) j := fun j => by rw [pageAt, hevents.tier, ← pageAt]
  obtain ⟨hself, hother⟩ := pageBecomes_modPage hpage fun q => { q with state := .poisoned }
  exact ⟨_, hrow, hcount, (hsame k).trans hself, fun j hj => (hsame j).trans (hother j hj), hevents.fl, hevents.trs⟩

theorem ue_frame (n : Nat) : ∃ t, exec (.uncorrectableError r (.frame n none)) s = .next t ∧ UeCounted s t r
    ∧ t = { withEvents s t with tier := { s.tier with
        frames := s.tier.frames.map (fun f => if f.fid = n then { f with filled := false } else f) } } := by
  have hevents := (eventsOnly_countUe r 2 s).map (φ := frameUe n none) fun _ _ => rfl
  obtain ⟨hrow, hcount⟩ := ue_marked (place := .frame n none) (row := 2) hm hr nofun hevents rfl (.of_tele rfl rfl) rfl
  exact ⟨_, hrow, hcount, hevents.eq⟩

theorem ue_mapShard (g : Nat) : ∃ t, exec (.uncorrectableError r (.mapShard g)) s = .next t ∧ UeCounted s t r
    ∧ t = { withEvents s t with fl := { s.fl with mapRebuilds := s.fl.mapRebuilds + 1 } } := by
  have hevents := (eventsOnly_countUe r 5 s).map (φ := fun x => { x with fl := { x.fl with mapRebuilds := x.fl.mapRebuilds + 1 } })
    fun _ _ => rfl
  obtain ⟨hrow, hcount⟩ := ue_marked (place := .mapShard g) (row := 5) hm hr nofun hevents rfl (.of_tele rfl rfl) rfl
  exact ⟨_, hrow, hcount, hevents.eq⟩

theorem ue_scratchpadLine (c e l : Nat) : ∃ t, exec (.uncorrectableError r (.scratchpadLine c e l)) s = .next t ∧ UeCounted s t r
    ∧ SMap.find false (getEngine t c e).bad l = true ∧ OtherEngines s t c e
    ∧ t = { withEvents s t with core := { s.core with cores := t.core.cores } } := by
  have hevents := (eventsOnly_countUe r 7 s).map
    (φ := modCore c (modEngine e (fun (g : Engine) => { g with bad := SMap.put false g.bad l true }))) fun _ _ => rfl
  obtain ⟨hrow, hcount⟩ := ue_marked (place := .scratchpadLine c e l) (row := 7) hm hr nofun hevents rfl (.of_tele rfl rfl) rfl
  refine ⟨_, hrow, hcount, ?_, (otherEngines_modEngine c e _ s).of_core_eq (congrArg Cores.cores hevents.core), ?_⟩
  · rw [getEngine_modCore_self, engine_modEngine_self]
    exact SMap.find_put_self (d := false) (getEngine (countUe r 7 s) c e).bad l true
  · rw [hevents.core]
    exact hevents.eq

theorem ue_tundish (l : Nat) : ∃ t, exec (.uncorrectableError r (.tundish l)) s = .next t ∧ UeCounted s t r
    ∧ SMap.find false t.tun.poison l = true ∧ (∀ m, m ≠ l → SMap.find false t.tun.poison m = SMap.find false s.tun.poison m)
    ∧ t = { withEvents s t with tun := { s.tun with poison := t.tun.poison } } := by
  have hmarked := (eventsOnly_countUe r 8 s).map (φ := setPoison l true) fun _ _ => rfl
  have hevents := hmarked.trans (eventsOnly_logRecord 2 true (mediaEvent l) _)
  have hquiet : Uneventful (countUe r 8 s) (logRecord 2 true (mediaEvent l) (setPoison l true (countUe r 8 s))) :=
    ⟨.of_counters (logRecord_counters ..), logRecord_eventSeq .., congrArg Tiers.withdrawn (logRecord_tier ..)⟩
  obtain ⟨hrow, hcount⟩ := ue_marked (place := .tundish l) hm hr nofun hevents rfl hquiet rfl
  refine ⟨_, hrow, hcount, ?_, fun m hne => ?_, ?_⟩
  · rw [hevents.tun]
    exact poison_setPoison_self ..
  · rw [hevents.tun]
    exact poison_setPoison_other hne ..
  · rw [hevents.tun]
    exact hevents.eq

theorem ue_hubCache (k : Nat) : ∃ t, exec (.uncorrectableError r (.hubCache k)) s = .next t ∧ UeCounted s t r
    ∧ t = { withEvents s t with tier := { s.tier with cache := s.tier.cache.filter (fun c => decide (c.key < k ∨ k + 1 ≤ c.key)) } } := by
  have hevents := (eventsOnly_countUe r 9 s).map (φ := cacheDrop k 1) fun _ _ => rfl
  obtain ⟨hrow, hcount⟩ := ue_marked (place := .hubCache k) (row := 9) hm hr nofun hevents rfl (uneventful_cacheDrop ..) rfl
  exact ⟨_, hrow, hcount, hevents.eq⟩
end

/-! ### Units of the write buffer and of the flash (11 R346, Table 94) -/

theorem inBuffer_of_wbuf_sublist {s t : State} {u : Nat} (h : inBuffer s u = false) (ht : t.fl.wbuf.Sublist s.fl.wbuf) : inBuffer t u = false := by
  unfold inBuffer at *
  rw [List.any_eq_false] at *
  exact fun b hb => h b (ht.subset hb)

theorem commitEntry_wbuf (rs : List Rec) (s : State) : (commitEntry rs s).fl.wbuf.Sublist s.fl.wbuf := by
  have hflush : ∀ t, (journalFlush t).fl.wbuf.Sublist t.fl.wbuf := fun t => by
    unfold journalFlush
    split
    · exact List.Sublist.refl _
    · exact List.filter_sublist
  rw [commitEntry_eq]
  split
  · exact hflush (stagedEntry rs s)
  · exact List.Sublist.refl _

/-- The unit leaves the buffer, and one entry of the journal gives it its state. -/
theorem unitUnreadable_after (u : Nat) (s : State) : inBuffer (unitUnreadable u s) u = false ∧ (mapOf (unitUnreadable u s) u).st = 3
    ∧ Entered s (unitUnreadable u s) [.state u 1 3] ∧ ErrorsKept s (unitUnreadable u s) ∧ (unitUnreadable u s).fl.data = s.fl.data := by
  unfold unitUnreadable
  generalize hs1 : ({ s with fl := { s.fl with wbuf := s.fl.wbuf.filter (fun b => b.unit != u) } } : State) = s1
  have hout : inBuffer s1 u = false := by
    rw [← hs1]
    simp [inBuffer]
  have hseq : s1.fl.seq = s.fl.seq := by rw [← hs1]
  have hstate := mapOf_commitState [u] 3 s1 u
  rw [if_pos List.mem_cons_self] at hstate
  have hentry := (mapKept_reportLost stMediaError [u] (commitEntry [.state u 1 3] s1)).entries _ _ (commitEntry_entered [.state u 1 3] s1)
  rw [hseq] at hentry
  refine ⟨?_, ?_, hentry, ?_, ?_⟩
  · refine inBuffer_of_wbuf_sublist hout ?_
    rw [reportLost_fl]
    exact commitEntry_wbuf ..
  · rw [mapOf_of_map_eq (congrArg Flash.map (reportLost_fl ..))]
    exact congrArg MapEntry.st hstate
  · exact ((errorsKept_commitEntry ..).trans (errorsKept_reportLost ..)).since (by rw [← hs1])
  · rw [reportLost_fl, commitEntry_data, ← hs1]

theorem ue_writeBuffer {s : State} {r u : Nat} (hm : s.boot.mode = .service) (hr : r < 741) (hu : inBuffer s u = true) :
    ∃ t, exec (.uncorrectableError r (.writeBuffer u)) s = .next t ∧ inBuffer t u = false ∧ (mapOf t u).st = 3
      ∧ Entered s t [.state u 1 3] ∧ counted 0x11 r t = counted 0x11 r s + 1 ∧ t.fl.data = s.fl.data := by
  have hfl := (eventsOnly_countUe r 3 s).fl
  have hin : inBuffer (countUe r 3 s) u = true := by rw [inBuffer, hfl, ← inBuffer, hu]
  have hrow : uncorrectable r (.writeBuffer u) s = unitUnreadable u (countUe r 3 s) := if_pos hin
  obtain ⟨hout, hstate, hentry, herrors, hdata⟩ := unitUnreadable_after u (countUe r 3 s)
  unfold Entered at hentry
  rw [hfl] at hentry hdata
  rw [← hrow] at hout hstate hentry herrors hdata
  exact ⟨_, exec_uncorrectableError (place := .writeBuffer u) hm nofun r, hout, hstate, hentry,
    (herrors.counts 0x11 r (by decide) (by omega)).trans (ueCounted_countUe hr 3 s).1, hdata⟩

theorem ue_flash {s : State} {u : Nat} (hm : s.boot.mode = .service) (r : Nat) (hu : (mapOf s u).st = 1) :
    ∃ t, exec (.uncorrectableError r (.flash u)) s = .next t ∧ (mapOf t u).st = 3 ∧ Entered s t [.state u 1 3]
      ∧ (∀ v, v ≠ u → mapOf t v = mapOf s v) ∧ t.fl.data = s.fl.data := by
  have hrow : uncorrectable r (.flash u) s = settleDoomed (readFails u (mapOf s u).addr s) := if_pos hu
  obtain ⟨hstate, hentry, hdata, -⟩ := readFails_unreadable u (mapOf s u).addr s
  have hsettled := (settles_settleDoomed (readFails u (mapOf s u).addr s)).toMapKept
  have hlater := (mapKept_readFails u (mapOf s u).addr s).trans hsettled
  rw [← hrow] at hsettled hlater
  refine ⟨_, exec_uncorrectableError (place := .flash u) hm nofun r, ?_, hsettled.entries _ _ hentry, fun v hv => ?_,
    (hdata.trans hsettled.data).1⟩
  · rw [mapOf_fenced, hsettled.mapOf, hstate]
  · rw [mapOf_fenced, hlater.mapOf]
    exact (mapOf_commitState [u] 3 s v).trans (if_neg (by simpa using hv))

/-! ### Working memory of a command (03 R76, 05 Table 54, 06 R190) -/

section
variable {s : State} {p id : Nat} {h : Held} (st : Byte) (hh : heldOf s p id = some h) (hu : h.undecided = true)
include hh hu

/-- A command without results of its own ends with the status and RESULT 0. -/
theorem mediaStop_plain (hop : h.op ∉ [0x02, 0x13, 0x15, 0x20, 0x30, 0x31, 0x32]) : Reported (mediaStop p id st s) p id st 0
    ∧ OtherPages s (mediaStop p id st s) p ∧ (mediaStop p id st s).fl = withoutEarly id s.fl := by
  simp only [List.mem_cons, List.not_mem_nil, or_false, not_or] at hop
  obtain ⟨hwrite, hattend, hwarm, hsearch, hfilter, hembed, hchain⟩ := hop
  have hdec := heldOf_decideEnd_self st 0 hh hu
  have hstop : stopCommand p id st s = decideEnd p id st 0 s := by
    unfold stopCommand applyStopped
    rw [hh]
    simp only [hu, if_true]
  have hend : mediaStop p id st s = freeRegions p id .stage (finishWith none false p id st 0 (decideEnd p id st 0 s)) := by
    unfold mediaStop
    rw [hh]
    simp only [hu, hstop]
    unfold reportDecided
    rw [hdec]
    exact endCommand_plain false st 0 hdec (h.ended_of_undecided hu) (Or.inl hattend)
  rw [hend]
  exact ⟨reported_of_ended (heldOf_finishWith none false st 0 hdec),
    (otherPages_decideEnd p id st 0 s).trans (otherPages_finishWith none false p id st 0 _), finishWith_fl none false st 0 hdec⟩

/-- A SEARCH that stands ready keeps its blocks and RESULT. -/
theorem mediaStop_loaded {x : SearchRec} (hop : h.op = 0x20) (hx : h.search = some x) (hl : x.loaded = true) :
    Reported (mediaStop p id st s) p id (worse x.lost st) (BitVec.ofNat 64 (searchResult h.desc x)) ∧ OtherPages s (mediaStop p id st s) p := by
  have hdesc : searchDesc h = h.desc := by
    unfold searchDesc
    rw [hop]
    rfl
  have hend : mediaStop p id st s
      = finish p id (worse x.lost st) (BitVec.ofNat 64 (searchResult h.desc x)) (searchBlocks p h.desc x s) := by
    unfold mediaStop searchStop
    rw [hh]
    simp only [hu, hop, hx, hl, hdesc]
    rfl
  have hblocks : OtherPages s (searchBlocks p h.desc x s) p :=
    List.foldlRecOn _ _ (motive := fun t => OtherPages s t p) (OtherPages.refl s p) fun t ht n _ => ht.trans (delivers_dmaWrite ..).others
  rw [hend]
  exact ⟨finish_reported _ _ ((heldOf_of_held_eq (held_searchBlocks ..) id).trans hh), hblocks.trans (otherPages_finish p id _ _ _)⟩

/-- A step that ends while a heat forms reports the layers it has done. -/
theorem mediaStop_step {q : Step} (hop : h.op = 0x13) (hq : h.step = some q) (hw : s.heat.windowOpen = true) :
    Reported (mediaStop p id st s) p id st (BitVec.ofNat 64 q.doneLayers) ∧ OtherPages s (mediaStop p id st s) p := by
  have hend : mediaStop p id st s = attendEnd p id st s := by
    unfold mediaStop
    rw [hh]
    simp only [hu, hop]
    rfl
  rw [hend]
  exact ⟨attendEnd_reported st hh hq, (endsStep_attendEnd st hh hq hw).1⟩
end

theorem poisonWork_ends {s : State} {p id : Nat} {h : Held} (hh : heldOf s p id = some h) (hr : readsRegion h = false) (b : Option Nat) :
    poisonWork p id b s = mediaStop p id stPoisoned s := by
  unfold poisonWork poisonCommand
  rw [hh]
  cases b with
  | none => rfl
  | some b => exact if_neg (of_decide_eq_false hr)

theorem poisonWork_reads {s : State} {p id : Nat} {h : Held} (hh : heldOf s p id = some h) (hr : readsRegion h = true) (b : Nat) :
    poisonWork p id (some b) s = modHeld p id (fun (y : Held) => { y with badBlocks := dedup (y.badBlocks ++ [b]) }) s := by
  unfold poisonWork
  rw [hh]
  exact if_pos (of_decide_eq_true hr)

section
variable {s : State} {r q id : Nat} {h : Held} (hm : s.boot.mode = .service) (hr : r < 741) (hh : heldOf s q id = some h)
include hm hr hh

theorem ue_working_ends (hu : h.undecided = true) (hreads : readsRegion h = false) (b : Option Nat) :
    ∃ t, exec (.uncorrectableError r (.working q id b)) s = .next t ∧ counted 0x11 r t = counted 0x11 r s + 1
      ∧ (h.op ∉ [0x02, 0x13, 0x15, 0x20, 0x30, 0x31, 0x32] →
          Reported t q id 0x0B 0 ∧ OtherPages s t q ∧ t.fl = withoutEarly id s.fl ∧ t.tele.eventSeq = s.tele.eventSeq + 1)
      ∧ (∀ x, h.op = 0x20 → h.search = some x → x.loaded = true →
          Reported t q id (worse x.lost 0x0B) (BitVec.ofNat 64 (searchResult h.desc x)) ∧ OtherPages s t q)
      ∧ (∀ p, h.op = 0x13 → h.step = some p → s.heat.windowOpen = true →
          Reported t q id 0x0B (BitVec.ofNat 64 p.doneLayers) ∧ OtherPages s t q) := by
  have hevents := eventsOnly_countUe r 7 s
  have hheld : heldOf (countUe r 7 s) q id = some h := (heldOf_of_trs_eq hevents.trs q id).trans hh
  have hpages : OtherPages s (countUe r 7 s) q := fun p _ => getTrs_of_trs_eq hevents.trs p
  have hrow : uncorrectable r (.working q id b) s = mediaStop q id stPoisoned (countUe r 7 s) := poisonWork_ends hheld hreads b
  have hquiet : Uneventful _ _ := uneventful_mediaStop (st := stPoisoned) (by decide) hheld hreads
  obtain ⟨hcount, hseq⟩ := (ueCounted_countUe hr 7 s).after hr hquiet
  rw [← hrow] at hcount hseq
  have hothers : OtherPages (countUe r 7 s) (mediaStop q id stPoisoned (countUe r 7 s)) q →
      OtherPages s (fenced (uncorrectable r (.working q id b)) s) q := fun ho =>
    otherPages_of_trs_eq ((fenced_trs _ s).trans (congrArg State.trs hrow)) (hpages.trans ho)
  refine ⟨_, exec_uncorrectableError (place := .working q id b) hm nofun r, hcount, fun hop => ?_, fun x hop hx hl => ?_, fun p hop hp hw => ?_⟩
  · obtain ⟨hrep, hoth, hfl⟩ := mediaStop_plain stPoisoned hheld hu hop
    exact ⟨reported_fenced hrow hrep, hothers hoth, ((fenced_fl _ s).trans (congrArg State.fl hrow)).trans (hfl.trans (by rw [hevents.fl])), hseq⟩
  · obtain ⟨hrep, hoth⟩ := mediaStop_loaded stPoisoned hheld hu hop hx hl
    exact ⟨reported_fenced hrow hrep, hothers hoth⟩
  · obtain ⟨hrep, hoth⟩ := mediaStop_step stPoisoned hheld hu hop hp ((congrArg Heats.windowOpen hevents.heat).trans hw)
    exact ⟨reported_fenced hrow hrep, hothers hoth⟩

/-- Poison in a record region costs its block, and the command goes on (06 R190). -/
theorem ue_working_reads (hreads : readsRegion h = true) (b : Nat) :
    ∃ t, exec (.uncorrectableError r (.working q id (some b))) s = .next t ∧ UeCounted s t r
      ∧ heldOf t q id = some { h with badBlocks := dedup (h.badBlocks ++ [b]) } ∧ OtherPages s t q
      ∧ t = { withEvents s t with trs := t.trs } := by
  have hheld : heldOf (countUe r 7 s) q id = some h := (heldOf_of_trs_eq (eventsOnly_countUe r 7 s).trs q id).trans hh
  have hevents := (eventsOnly_countUe r 7 s).map
    (φ := modHeld q id (fun (y : Held) => { y with badBlocks := dedup (y.badBlocks ++ [b]) })) fun _ _ => rfl
  obtain ⟨hrow, hcount⟩ := ue_marked (place := .working q id (some b)) (row := 7) hm hr nofun hevents
    (poisonWork_reads hheld hreads b) (.of_tele rfl rfl) rfl
  refine ⟨_, hrow, hcount, ?_, otherPages_of_trs_eq hevents.trs (otherPages_modHeld q id _ s), ?_⟩
  · exact (heldOf_modHeld_self q id (fun (y : Held) => { y with badBlocks := dedup (y.badBlocks ++ [b]) }) _ fun _ hid => hid).trans
      (by rw [hheld]; rfl)
  · rw [hevents.trs]
    exact hevents.eq
end

/-! ### The statement -/

/-- Settles O49: each place is the count and its own mark (`ue_marked`); a unit takes its state by one entry of the journal
(`unitUnreadable_after`, `readFails_unreadable`), and a command ends as poison ends it, without a further event (`uneventful_mediaStop`). -/
theorem uncorrectableErrorsAreContained : Obligations.UncorrectableErrorsAreContained := fun _ r hm hr =>
  ⟨fun k l hst => ue_counted (place := .home k l true) hm hr 1 nofun (if_pos (decide_eq_true hst)),
    fun _ _ _ _ hp hb => ue_home hm hr hp hb, ue_frame hm hr, fun _ hu => ue_writeBuffer hm hr hu,
    ue_counted (place := .journalStaging) hm hr 4 nofun rfl, ue_mapShard hm hr,
    fun _ _ _ b hh hu hreads => ue_working_ends hm hr hh hu hreads b, fun _ _ _ b hh hreads => ue_working_reads hm hr hh hreads b,
    ue_scratchpadLine hm hr, ue_tundish hm hr, ue_hubCache hm hr, fun _ hu => ue_flash hm r hu⟩

end Sys2Proof.Machine
